-- ==== Sys2Proof/Word.lean ====
section
/-!
DEFINITION. The word types of the device: registers, Shuttle words, bytes and the warp-time count (R2, R3).
-/

namespace Sys2Proof

/-- A register of the register fabric: 32 bits. -/
abbrev Word := BitVec 32

/-- One byte of a memory. -/
abbrev Byte := BitVec 8

/-- A data word of a Shuttle core, and a sample word: 16 bits. -/
abbrev Half := BitVec 16

/-- A 64-bit word: a beat count, an address, a pair of registers. -/
abbrev DWord := BitVec 64

end Sys2Proof
end

