-- ==== Sys2Proof/Syntax.lean ====
section
/-!
DEFINITION. The commands of the device: the rows of the table of operations and events, each with its operands.
A command that an access, a pin, a link or another part of the device brings about carries what that event brings:
the data written, the bits received, the value measured.
-/

namespace Sys2Proof

/-- Who makes a register or window access: its domain and its hart, 0 to 7 (SRC of R376, R385). -/
structure Src where
  secure : Bool
  hart : Nat
  deriving DecidableEq, Repr

/-- Who makes a request to HBM (R175, R180): the Hitch bridge, the record builder, a Shuttle record window, a Spindle
channel, a BAR2 readback, the patrol scrub, a capture write, the write-back of corrected data. -/
inductive Requester where
  | hitch
  | builder
  | window
  | spindle
  | bar2
  | scrub
  | capture
  | writeBack
  | tack
  deriving DecidableEq, Repr

/-- What a partner's MSI-X control says: off, on, or on with the function masked (R315). -/
inductive MsixMode where
  | off
  | on
  | masked
  deriving DecidableEq, Repr

/-- What the ECC finds in the words that a Shuttle instruction reads (R267, R289): nothing; a corrected error; an
uncorrectable error in its own word; an uncorrectable error in a data word it reads; a mailbox word whose parity does
not check. -/
inductive Ecc where
  | clean
  | corrected
  | program
  | data
  | parity
  deriving DecidableEq, Repr

/-- What a read of the Hitch asks for and meets: its size in bytes, and what the ECC of a Shuttle memory finds (R267, R365). -/
structure HitchLoad where
  size : Nat
  ecc : Ecc
  deriving DecidableEq, Repr

/-- How an access of HBM went: 0 without error, 1 corrected, 2 uncorrectable, 3 command parity and 4 write-data parity failed three times; and
the burst of the request that this was in (R179, R180). -/
structure AccessEnd where
  burst : Fin 8
  outcome : Fin 5
  deriving DecidableEq, Repr

/-- A bring-up phase at its limit: the port, and in WAIT_CONV for how many beats the forwarded clock has run, none before it starts (R62). -/
structure PhaseEnd where
  port : Fin 24
  clockFor : Option Nat
  deriving DecidableEq, Repr

/-- The commands of the device: one constructor for each row of the table of operations and events. -/
inductive Instr where
  /-- CONFIGURE (R18): The CONFIGURE run command checks that the whole configuration is consistent and moves the device to CONFIGURED or to IDLE with CFG_ERR. -/
  | configure
  /-- ARM (R19): The ARM run command sets ENABLE on every configured data-path block and starts Linkai bring-up; BUSY is 1 until ARM completes. -/
  | arm
  /-- ARM_COMPLETE (R19): Once every enabled block reports ready, ARM completes, BUSY clears and the device enters ARMED. -/
  | armComplete
  /-- ARM_TIMEOUT (R19): An ARM not complete within 50 ms disables all blocks, returns to CONFIGURED and logs one ERROR per block that was not ready. -/
  | armTimeout
  /-- START (R21): The START run command begins RUNNING on the next beat, or arms a timed start at GLB_START_AT. -/
  | start
  /-- TIMED_START (R21): RUNNING begins at the first beat whose warp time reaches GLB_START_AT. -/
  | timedStart
  /-- STOP (R17): The STOP run command ends ARMED or CONFIGURED to IDLE, or moves RUNNING to STOPPING. -/
  | stop
  /-- ABORT (R17): The ABORT run command stops with discarding, flushes held records and counts the discards. -/
  | abort
  /-- STOPPING_END (R23): Once every stream has emitted its run-end marker, every record is delivered or discarded and the manifest is signed, the device enters IDLE. -/
  | stoppingEnd
  /-- LINKAI_BLOCK (R35): A 66-bit block is received on a Linkai lane, its sync header is checked and its payload is descrambled. Operands: the two header bits and the scrambled payload received, payload bit 0 first -/
  | linkaiBlock (port : Fin 24) (lane : Fin 8) (h0 h1 : Bool) (payload : BitVec 64)
  /-- LINKAI_FRAME (R48): A Linkai frame is taken on a lane; its marker and index are checked and its samples are delivered under the predicted index. Operands: the frame's bits, descrambled, and the lane's elastic-buffer offset from its centre in beats; the beat is the one in which the frame's first header bit reaches the pin, and the frame is whole 132 strides later -/
  | linkaiFrame (port : Fin 24) (lane : Fin 8) (frame : BitVec 2048) (offset : Int)
  /-- CRC_RESULT (R42): A frame's CRC result becomes known; a failed frame taints its samples and counts toward CRC excess. Operands: the oldest frame of the lane whose result is outstanding -/
  | crcResult (port : Fin 24) (lane : Fin 8)
  /-- CRC_WINDOW_END (R64): A window of 2^WINDOW frame periods ends and the failed-frame count of the lane restarts. -/
  | crcWindowEnd (port : Fin 24) (lane : Fin 8)
  /-- CONV_RESPONSE (R55): A converter response (ACK, CAP word or USER data) is received in CONTROL and acted on. Operands: CONTROL [87:82] and [81:66] of a frame on lane 0 -/
  | convResponse (port : Fin 24) (rtype : BitVec 6) (data : BitVec 16)
  /-- MSG_TRANSMIT (R57): The port sends the next waiting message on the return lane, with its own tag, waking the return lane first if needed. -/
  | msgTransmit (port : Fin 24)
  /-- MSG_ACK_TIMEOUT (R56): No ACK within 128 frames causes a resend with the same tag. -/
  | msgAckTimeout (port : Fin 24)
  /-- LOSS_OF_SIGNAL (R68): Lane amplitude below 60 mVppd for 128 beats is detected. -/
  | lossOfSignal (port : Fin 24) (lane : Fin 8)
  /-- SIGNAL_RESTORED (R68): Amplitude above 100 mVppd for 1,200 beats clears loss of signal. -/
  | signalRestored (port : Fin 24) (lane : Fin 8)
  /-- FWD_CLOCK_LOST (R68): A forwarded clock that is absent or off frequency over 256 beats is detected as lost. -/
  | fwdClockLost (port : Fin 24)
  /-- FWD_CLOCK_RESTORED (R68): A forwarded clock within 0.1 % for 12,000 beats clears the loss. -/
  | fwdClockRestored (port : Fin 24)
  /-- DOWN_HOLD_END (R489): The 10 µs hold of the return lane in OFF ends and bring-up proceeds to RET_START. -/
  | downHoldEnd (port : Fin 24)
  /-- RET_START_DONE (R62): The 64 idle return blocks have been sent and the port waits for the converter. -/
  | retStartDone (port : Fin 24)
  /-- FWD_CLOCK_DETECT (R62): The converter's forwarded clock is detected within 0.1 % and ADAPT begins. -/
  | fwdClockDetect (port : Fin 24)
  /-- ADAPT_DONE (R60): Equaliser adaptation at the current speed completes and LOCK begins. -/
  | adaptDone (port : Fin 24)
  /-- LOCK_DONE (R60): Block and frame lock are held on every enabled lane and the next phase begins. -/
  | lockDone (port : Fin 24)
  /-- VERIFY_PASS (R60): The required count of clean frames passes VERIFY and the port climbs, settles or aligns. -/
  | verifyPass (port : Fin 24)
  /-- STEP_SWITCH_DONE (R62): The converter's speed or layout switch after SET_SPEED is observed and ADAPT begins at the new speed. -/
  | stepSwitchDone (port : Fin 24)
  /-- ALIGN_DONE (R47): The port measures t_a, computes and stores P and sets ALIGNED. Operands: t_a in 1/256 beat, the reference frame's INDEX, and e(p) of R77 in 1/256 beat -/
  | alignDone (port : Fin 24) (ta : Nat) (index : BitVec 48) (spread : Nat)
  /-- PHASE_TIMEOUT (R61): A bring-up phase that exceeds its limit fails the attempt. Operands: the port, and in WAIT_CONV for how many beats the forwarded clock has run, none before it starts -/
  | phaseTimeout (phase : PhaseEnd)
  /-- BRINGUP_RETRY (R61): The 100 µs wait after a failed attempt ends and a new attempt starts from DOWN. -/
  | bringupRetry (port : Fin 24)
  /-- BRINGUP (R63): LNK_CTRL.BRINGUP runs a diagnostic bring-up while ENABLE is 0. -/
  | bringup (port : Fin 24)
  /-- DROP (R63): LNK_CTRL.DROP puts the forward link in OFF or DOZE, the return lane in OFF and the port in DOWN. -/
  | drop (port : Fin 24)
  /-- FWD_DOZE (R69): LNK_CTRL.FWD_DOZE sends SLEEP level 0 to the converter. -/
  | fwdDoze (port : Fin 24)
  /-- FWD_OFF (R69): LNK_CTRL.FWD_OFF sends SLEEP level 1 to the converter. -/
  | fwdOff (port : Fin 24)
  /-- FWD_WAKE (R69): LNK_CTRL.FWD_WAKE sends WAKE; the port locks again from DOZE, or runs a full bring-up from OFF. -/
  | fwdWake (port : Fin 24)
  /-- RET_DOZE (R69): LNK_CTRL.RET_DOZE puts the return lane into DOZE. -/
  | retDoze (port : Fin 24)
  /-- RET_OFF (R69): LNK_CTRL.RET_OFF puts the return lane into OFF. -/
  | retOff (port : Fin 24)
  /-- RET_WAKE (R69): LNK_CTRL.RET_WAKE wakes the return lane after its idle preamble. -/
  | retWake (port : Fin 24)
  /-- SEND_MSG (R57): LNK_CTRL.SEND_MSG queues the message in LNK_MSG_TX behind any device messages. -/
  | sendMsg (port : Fin 24)
  /-- MSG_RX_READ (R75): A read of LNK_MSG_RX returns the last response and clears it. Operands: the Hitch tag of the read -/
  | msgRxRead (port : Fin 24) (tag : Nat)
  /-- PRBS_LOCK (R73): A checker locks after 64 consecutive error-free bits and sets PRBS_LOCK. -/
  | prbsLock (port : Fin 24) (lane : Fin 8)
  /-- PRBS_LOCK_LOSS (R73): More than 32 wrong bits in 64 make the checker lose lock and lock again. -/
  | prbsLockLoss (port : Fin 24) (lane : Fin 8)
  /-- PRBS_ERR_READ (R75): A read of LNK_PRBS_ERR returns the bit-error count and clears it. Operands: the Hitch tag of the read -/
  | prbsErrRead (port : Fin 24) (lane : Fin 8) (tag : Nat)
  /-- INJECT_GO (R74): LNK_INJ.GO injects the selected fault into the receive path and logs an INJECT entry. -/
  | injectGo (port : Fin 24) (lane : Fin 8)
  /-- TAP_A_RELEASE (R78): A sample is released at tap A at ⌊t⌋ + Λ and passes through correction, rank filter, down-converter and the trigger primitives. -/
  | tapARelease (channel : Fin 192)
  /-- CAPTURE_RELEASE (R82): A capture word is released 660 beats after its source tap with its final taint bit and is accepted into its ring. -/
  | captureRelease (channel : Fin 192)
  /-- COEF_SCRUB (R97): Scrubbing reads a coefficient word and corrects it, or detects an uncorrectable error. Operands: the word, and whether its error is uncorrectable -/
  | coefScrub (slice : Fin 24) (set : Fin 4) (word : Fin 256) (ue : Bool)
  /-- COEF_WRITE (R97): A write to the coefficient window stores a word under the EG rule; writing word T − 1 last clears SET_BAD. -/
  | coefWrite (src : Src) (slice : Fin 24) (set : Fin 4) (word : Fin 256) (value : BitVec 32)
  /-- SPECTRUM_DELIVERY (R123): A Reed finishes a window's transform and delivers the spectrum to the condition units, the planes and the record builder. Operands: the stream's channel, and the outcome of the Reed memory's ECC: 0 no error, 1 corrected, 2 uncorrectable -/
  | spectrumDelivery (channel : Fin 192) (mem : Fin 3)
  /-- TABLE_SCRUB (R112): Scrubbing of a user window table corrects an error or marks the table bad. Operands: the entry, and whether its error is uncorrectable -/
  | tableScrub (slice : Fin 24) (table : Fin 2) (entry : Fin 16384) (ue : Bool)
  /-- WIN_DATA_WRITE (R112): A write to SPC_WIN_DATA stores a table entry and advances ENTRY; writing entry 16,383 last clears TABLE_BAD. -/
  | winDataWrite (src : Src) (slice : Fin 24) (value : BitVec 32)
  /-- RETIRE_WRITE (R110): A write of SPC_RETIRE retires Reeds or returns them to service, unless PDK_FAIL is 1. -/
  | retireWrite (src : Src) (slice : Fin 24) (value : BitVec 32)
  /-- TRIGGER_BUS_INPUT (R136): A new trigger bus value reaches the matrix, and literals, terms and sum lines are evaluated. -/
  | triggerBusInput
  /-- MASK_STOP (R135): When those sheds have finished their post-trigger capture, the Treadle issues STOP with reason MASK. -/
  | maskStop
  /-- LITERAL_DELAY_EXPIRE (R136): A delayed literal input reaches the end of its DELAY beats and changes the literal's value. -/
  | literalDelayExpire (term : Fin 64) (literal : Fin 8)
  /-- EDGE_WINDOW_END (R136): The WIN beats of an EDGE literal run out and the literal returns to 0. -/
  | edgeWindowEnd (term : Fin 64) (literal : Fin 8)
  /-- OUT_PULSE_END (R140): The PW beats of a pulse-mode TRIG_OUT end. -/
  | outPulseEnd (output : Fin 16)
  /-- TRIG_IN_EDGE (R139): An edge on an enabled TRIG_IN pin drives its bus bit with a stamp of 1/8 beat. Operands: the pin, its level after the edge, and the eighth of the beat in which the edge lies -/
  | trigInEdge (input : Fin 8) (high : Bool) (phase : Fin 8)
  /-- SOFT_TRIGGER (R139): A write of TRD_SOFT raises the software trigger bus bits for one beat. -/
  | softTrigger (value : BitVec 8)
  /-- TMR_DISAGREE (R146): A Treadle copy disagrees with the vote, is overwritten, counted and logged. -/
  | tmrDisagree (copy : Fin 3)
  /-- COPY_STUCK (R146): A copy that disagrees for 4,096 consecutive beats is marked stuck; two stuck copies log FATAL. -/
  | copyStuck (copy : Fin 3)
  /-- COPY_RECOVERED (R146): A stuck copy that agrees for 4,096 consecutive beats clears COPY_STUCK. -/
  | copyRecovered (copy : Fin 3)
  /-- TAINT_RETENTION_END (R147): The 1,024-beat retention of an event's taint status ends. -/
  | taintRetentionEnd
  /-- SHED_ARM (R150): TRD_SHED_CTRL.ARM checks the rings and arms a shed into PENDING, PREFILL or READY. -/
  | shedArm (shed : Fin 64)
  /-- SHED_DISARM (R158): TRD_SHED_CTRL.DISARM returns a shed to DISARMED, closing an open record with DISARMED. -/
  | shedDisarm (shed : Fin 64)
  /-- SHED_FORCE (R157): TRD_SHED_CTRL.FORCE fires a READY shed with the warp time of the write. -/
  | shedForce (shed : Fin 64)
  /-- SHED_PREFILL_DONE (R152): PRE positions stamped after the arm have been released on every channel and the shed becomes READY. -/
  | shedPrefillDone (shed : Fin 64)
  /-- SHED_POST_END (R154): The last channel releases q_c + POST − 1; the segment is counted and the shed enters DONE, HOLDOFF or READY. -/
  | shedPostEnd (shed : Fin 64)
  /-- SHED_HOLDOFF_END (R154): HOLD beats after the firing have passed and the shed becomes READY. -/
  | shedHoldoffEnd (shed : Fin 64)
  /-- MASK_DATA_WRITE (R161): A write to STR_MASK_DATA stores a mask entry and advances STR_MASK_ADDR. -/
  | maskDataWrite (src : Src) (slice : Fin 24) (value : BitVec 32)
  /-- PARTIAL_UNIT_FLUSH (R169): A unit that has held words for 65,536 beats without filling is written partly by read-merge-write. -/
  | partialUnitFlush (channel : Fin 192)
  /-- UNIT_COMMIT (R169): A write-buffer unit has been written to HBM and WPOS advances over its positions. -/
  | unitCommit (channel : Fin 192)
  /-- LOOKUP_GO (R173): BOB_LOOKUP_CTRL.GO latches channel and warp time and starts a position lookup. -/
  | lookupGo
  /-- LOOKUP_DONE (R173): The lookup ends and BOB_LOOKUP_POS and RESULT are loaded. -/
  | lookupDone
  /-- HBM_REQUEST (R176): A request from any requester enters its bank queue in its class. Operands: the HBM offset and length of a request within one 256-byte unit, the Hitch tag or the ring's channel, and a write's bytes, none where not enabled -/
  | hbmRequest (who : Requester) (write : Bool) (offset : BitVec 36) (len : Nat) (id : Nat) (data : List (Option (BitVec 8)))
  /-- HBM_ACCESS_DONE (R179): An HBM burst completes and is checked by the controller code and the on-die ECC. Operands: the bank queues that the timing set lets go, the burst of the request that had the outcome with how the access went, and whether it opened a row -/
  | hbmAccessDone (pc : Fin 64) (ready : BitVec 48) (how : AccessEnd) (activate : Bool)
  /-- REFRESH_DUE (R178): A bank's refresh interval expires and a REFpb falls due. -/
  | refreshDue (pc : Fin 64) (bank : Fin 48)
  /-- RFM_THRESHOLD (R178): A bank's activation count reaches the stack threshold and RFMpb is issued. -/
  | rfmThreshold (pc : Fin 64) (bank : Fin 48)
  /-- TEMP_POLL (R178): Every 1 ms each stack's temperature is polled and the refresh rate adjusted; a catastrophic flag logs FATAL. Operands: the reading in °C, signed, and the catastrophic-temperature flag -/
  | tempPoll (stack : Fin 2) (temp : BitVec 8) (catastrophic : Bool)
  /-- PATROL_SCRUB (R182): The patrol scrub reads and corrects the next unit. -/
  | patrolScrub
  /-- PC_PENDING_SET (R184): A write of 1 to BOB_PC_PENDING marks a pseudo-channel pending for retirement. Operands: BOB_PC_PENDING_HI or _LO, and the value written -/
  | pcPendingSet (high : Bool) (value : BitVec 32)
  /-- SR_ENTER (R186): BOB_SR_CTRL.SR_ENTER requests self-refresh entry of a stack. -/
  | srEnter (stack : Fin 2)
  /-- SR_EXIT (R186): BOB_SR_CTRL.SR_EXIT makes the stack exit once the minimum residency is kept. -/
  | srExit (stack : Fin 2)
  /-- FREQ_GO (R188): BOB_SR_CTRL.FREQ_GO requests a change of the stack's interface clock through self-refresh. -/
  | freqGo (stack : Fin 2)
  /-- SR_IDLE_EXPIRE (R186): A stack with AUTO has received no request for IDLE_BEATS beats and requests entry. -/
  | srIdleExpire (stack : Fin 2)
  /-- SR_ENTERING (R186): In a beat with empty queues and no shed armed, the stack leaves ENTRY_PENDING and closes its rows. -/
  | srEntering (stack : Fin 2)
  /-- SRE_ISSUE (R187): The rows are closed and SRE is issued. -/
  | sreIssue (stack : Fin 2)
  /-- SR_RESIDENCY_END (R187): The minimum residency ends and a waiting exit issues SRX. -/
  | srResidencyEnd (stack : Fin 2)
  /-- FREQ_SWITCH_DONE (R188): The clock change, PHY calibration and timing-set load complete and the stack exits. -/
  | freqSwitchDone (stack : Fin 2)
  /-- SR_EXIT_DONE (R187): The exit time after SRX ends and the stack returns to ACTIVE. -/
  | srExitDone (stack : Fin 2)
  /-- FRAME_PERIOD (R199): A PERIOD boundary of a plane with FSRC 0 opens the next frame. -/
  | framePeriod (plane : Fin 16)
  /-- TAP_FRAME (R199): TAP_CTRL.FRAME gives a boundary to a plane with FSRC 3. Operands: bit p for plane p -/
  | tapFrame (value : BitVec 16)
  /-- TAP_CLEAR (R204): TAP_CTRL.CLEAR makes the plane clear at its next close. Operands: bit p for plane p -/
  | tapClear (value : BitVec 16)
  /-- FRAME_CLOSE (R200): The ended frame's increments are absorbed, the banks swap, counts load and the sweep starts. -/
  | frameClose (plane : Fin 16)
  /-- SWEEP_DONE (R200): The sweep of the closed bank ends; the image is complete and the density record is queued. -/
  | sweepDone (plane : Fin 16)
  /-- PLANE_ZERO_DONE (R205): Zeroing of a plane's banks at ARM completes and the plane reports ready. -/
  | planeZeroDone (plane : Fin 16)
  /-- PNL_ENABLE (R215): PNL_CTRL.ENABLE starts the outputs, or is refused with CFG_BAD. -/
  | pnlEnable
  /-- PNL_DISABLE (R215): PNL_CTRL.DISABLE stops the outputs at the next blank. -/
  | pnlDisable
  /-- COMMIT (R225): PNL_CTRL.COMMIT snapshots the pending registers for output 0 or the panel. -/
  | commit
  /-- COMMIT1 (R225): PNL_CTRL.COMMIT1 snapshots the pending registers for output 1 in INDEPENDENT mode. -/
  | commit1
  /-- PAL (R220): PNL_CTRL.PAL, written with a commit, copies the palette at that commit's flip. -/
  | pal
  /-- TRAIN0 (R212): PNL_CTRL.TRAIN0 starts link training of DP0. -/
  | train0
  /-- TRAIN1 (R212): PNL_CTRL.TRAIN1 starts link training of DP1. -/
  | train1
  /-- TRAIN_DONE (R212): Link training ends trained, or with TRAIN_FAIL when no combination remains. Operands: how many of the combinations failed before the one that trained -/
  | trainDone (output : Fin 2) (fails : Nat)
  /-- VBLANK (R226): A vertical blank of an output starts: it flips, latches a commit and begins the next composition. -/
  | vblank (output : Fin 2)
  /-- PALETTE_COPY_DONE (R220): The copy of the pending palette ends and waiting palette writes complete. -/
  | paletteCopyDone
  /-- COMPOSE_DONE (R224): Composition of a frame into the back store completes. -/
  | composeDone (output : Fin 2)
  /-- HPD_PLUG (R212): A long HPD pulse reports a plug and may start training. -/
  | hpdPlug (output : Fin 2)
  /-- HPD_UNPLUG (R214): An unplug of a trained output sets LINK_LOST and stops the main link. -/
  | hpdUnplug (output : Fin 2)
  /-- IRQ_HPD (R214): A short HPD pulse raises HPD_IRQ. -/
  | irqHpd (output : Fin 2)
  /-- AUX_GO (R213): PNL_AUX_CTRL.GO starts an AUX transaction. -/
  | auxGo (output : Fin 2)
  /-- AUX_DONE (R213): An AUX transaction ends with its RESULT. Operands: the reply, and the bytes read -/
  | auxDone (output : Fin 2) (reply : Fin 4) (bytes : List (BitVec 8))
  /-- NOP (R247): The NOP instruction does nothing. Operands: the core whose program counter holds the instruction, and what the ECC found in the words it reads -/
  | nop (core : Fin 24) (ecc : Ecc)
  /-- HALT (R247): The HALT instruction halts the core after itself. Operands: the core whose program counter holds the instruction, and what the ECC found in the words it reads -/
  | halt (core : Fin 24) (ecc : Ecc)
  /-- WAIT (R247): The WAIT instruction stops issue until a port word or an enabled interrupt is pending. Operands: the core whose program counter holds the instruction, and what the ECC found in the words it reads -/
  | wait (core : Fin 24) (ecc : Ecc)
  /-- WAIT_WAKE (R247): A word becomes readable on port 0 or 1, or an interrupt becomes pending, and a waiting core resumes. -/
  | waitWake (core : Fin 24)
  /-- TRAP (R247): The TRAP instruction raises a BREAK fault with its code. Operands: the core whose program counter holds the instruction, and what the ECC found in the words it reads -/
  | trap (core : Fin 24) (ecc : Ecc)
  /-- MOV (R247): MOV copies a D register. Operands: the core whose program counter holds the instruction, and what the ECC found in the words it reads -/
  | mov (core : Fin 24) (ecc : Ecc)
  /-- MOVI (R247): MOVI loads an immediate. Operands: the core whose program counter holds the instruction, and what the ECC found in the words it reads -/
  | movi (core : Fin 24) (ecc : Ecc)
  /-- MOVC (R247): MOVC copies a register when its condition holds. Operands: the core whose program counter holds the instruction, and what the ECC found in the words it reads -/
  | movc (core : Fin 24) (ecc : Ecc)
  /-- ADD (R247): ADD adds two registers, wrapping, and sets the flags. Operands: the core whose program counter holds the instruction, and what the ECC found in the words it reads -/
  | add (core : Fin 24) (ecc : Ecc)
  /-- SUB (R247): SUB subtracts, wrapping, and sets the flags. Operands: the core whose program counter holds the instruction, and what the ECC found in the words it reads -/
  | sub (core : Fin 24) (ecc : Ecc)
  /-- ADDS (R247): ADDS adds with saturation. Operands: the core whose program counter holds the instruction, and what the ECC found in the words it reads -/
  | adds (core : Fin 24) (ecc : Ecc)
  /-- SUBS (R247): SUBS subtracts with saturation. Operands: the core whose program counter holds the instruction, and what the ECC found in the words it reads -/
  | subs (core : Fin 24) (ecc : Ecc)
  /-- ADDI (R247): ADDI adds an immediate. Operands: the core whose program counter holds the instruction, and what the ECC found in the words it reads -/
  | addi (core : Fin 24) (ecc : Ecc)
  /-- AND (R247): AND forms the bitwise and. Operands: the core whose program counter holds the instruction, and what the ECC found in the words it reads -/
  | shuAnd (core : Fin 24) (ecc : Ecc)
  /-- OR (R247): OR forms the bitwise or. Operands: the core whose program counter holds the instruction, and what the ECC found in the words it reads -/
  | shuOr (core : Fin 24) (ecc : Ecc)
  /-- XOR (R247): XOR forms the bitwise exclusive or. Operands: the core whose program counter holds the instruction, and what the ECC found in the words it reads -/
  | shuXor (core : Fin 24) (ecc : Ecc)
  /-- ANDI (R247): ANDI ands with an immediate. Operands: the core whose program counter holds the instruction, and what the ECC found in the words it reads -/
  | andi (core : Fin 24) (ecc : Ecc)
  /-- ASH (R247): ASH shifts arithmetically. Operands: the core whose program counter holds the instruction, and what the ECC found in the words it reads -/
  | ash (core : Fin 24) (ecc : Ecc)
  /-- LSH (R247): LSH shifts logically. Operands: the core whose program counter holds the instruction, and what the ECC found in the words it reads -/
  | lsh (core : Fin 24) (ecc : Ecc)
  /-- CMP (R247): CMP compares two registers and sets the flags. Operands: the core whose program counter holds the instruction, and what the ECC found in the words it reads -/
  | cmp (core : Fin 24) (ecc : Ecc)
  /-- CMPI (R247): CMPI compares with an immediate. Operands: the core whose program counter holds the instruction, and what the ECC found in the words it reads -/
  | cmpi (core : Fin 24) (ecc : Ecc)
  /-- ABS (R247): ABS forms the saturated absolute value. Operands: the core whose program counter holds the instruction, and what the ECC found in the words it reads -/
  | abs (core : Fin 24) (ecc : Ecc)
  /-- MIN (R247): MIN forms the signed minimum. Operands: the core whose program counter holds the instruction, and what the ECC found in the words it reads -/
  | min (core : Fin 24) (ecc : Ecc)
  /-- MAX (R247): MAX forms the signed maximum. Operands: the core whose program counter holds the instruction, and what the ECC found in the words it reads -/
  | max (core : Fin 24) (ecc : Ecc)
  /-- LD (R237): LD loads a word through an addressing mode. Operands: the core whose program counter holds the instruction, and what the ECC found in the words it reads -/
  | ld (core : Fin 24) (ecc : Ecc)
  /-- ST (R237): ST stores a word through an addressing mode. Operands: the core whose program counter holds the instruction, and what the ECC found in the words it reads -/
  | st (core : Fin 24) (ecc : Ecc)
  /-- MOVX (R235): MOVX writes an extended register from a D register. Operands: the core whose program counter holds the instruction, and what the ECC found in the words it reads -/
  | movx (core : Fin 24) (ecc : Ecc)
  /-- MOVXI (R235): MOVXI writes an extended register from an immediate. Operands: the core whose program counter holds the instruction, and what the ECC found in the words it reads -/
  | movxi (core : Fin 24) (ecc : Ecc)
  /-- MOVFX (R235): MOVFX reads an extended register. Operands: the core whose program counter holds the instruction, and what the ECC found in the words it reads -/
  | movfx (core : Fin 24) (ecc : Ecc)
  /-- MPY (R240): MPY loads an accumulator with a product. Operands: the core whose program counter holds the instruction, and what the ECC found in the words it reads -/
  | mpy (core : Fin 24) (ecc : Ecc)
  /-- MAC (R240): MAC adds a product to an accumulator. Operands: the core whose program counter holds the instruction, and what the ECC found in the words it reads -/
  | mac (core : Fin 24) (ecc : Ecc)
  /-- MSU (R240): MSU subtracts a product from an accumulator. Operands: the core whose program counter holds the instruction, and what the ECC found in the words it reads -/
  | msu (core : Fin 24) (ecc : Ecc)
  /-- MACM (R240): MACM adds the product of two memory operands. Operands: the core whose program counter holds the instruction, and what the ECC found in the words it reads -/
  | macm (core : Fin 24) (ecc : Ecc)
  /-- MACSQ (R240): MACSQ adds the square of a memory operand. Operands: the core whose program counter holds the instruction, and what the ECC found in the words it reads -/
  | macsq (core : Fin 24) (ecc : Ecc)
  /-- ACLR (R247): ACLR clears an accumulator. Operands: the core whose program counter holds the instruction, and what the ECC found in the words it reads -/
  | aclr (core : Fin 24) (ecc : Ecc)
  /-- ACADD (R241): ACADD adds a shifted register to an accumulator. Operands: the core whose program counter holds the instruction, and what the ECC found in the words it reads -/
  | acadd (core : Fin 24) (ecc : Ecc)
  /-- ACSH (R242): ACSH shifts an accumulator. Operands: the core whose program counter holds the instruction, and what the ECC found in the words it reads -/
  | acsh (core : Fin 24) (ecc : Ecc)
  /-- RND (R242): RND rounds an accumulator to its high part. Operands: the core whose program counter holds the instruction, and what the ECC found in the words it reads -/
  | rnd (core : Fin 24) (ecc : Ecc)
  /-- MOVH (R242): MOVH stores the rounded, saturated high part. Operands: the core whose program counter holds the instruction, and what the ECC found in the words it reads -/
  | movh (core : Fin 24) (ecc : Ecc)
  /-- MOVL (R242): MOVL stores the accumulator's low part. Operands: the core whose program counter holds the instruction, and what the ECC found in the words it reads -/
  | movl (core : Fin 24) (ecc : Ecc)
  /-- MOVG (R242): MOVG stores the accumulator's guard bits, sign-extended. Operands: the core whose program counter holds the instruction, and what the ECC found in the words it reads -/
  | movg (core : Fin 24) (ecc : Ecc)
  /-- B (R250): B jumps after its delay slot when its condition holds. Operands: the core whose program counter holds the instruction, and what the ECC found in the words it reads -/
  | shuB (core : Fin 24) (ecc : Ecc)
  /-- CALL (R250): CALL pushes the return address and jumps. Operands: the core whose program counter holds the instruction, and what the ECC found in the words it reads -/
  | call (core : Fin 24) (ecc : Ecc)
  /-- RET (R250): RET pops the call stack and jumps. Operands: the core whose program counter holds the instruction, and what the ECC found in the words it reads -/
  | ret (core : Fin 24) (ecc : Ecc)
  /-- RETI (R262): RETI restores the main bank and returns to IPC. Operands: the core whose program counter holds the instruction, and what the ECC found in the words it reads -/
  | reti (core : Fin 24) (ecc : Ecc)
  /-- LOOP (R249): LOOP repeats a body COUNT times. Operands: the core whose program counter holds the instruction, and what the ECC found in the words it reads -/
  | loop (core : Fin 24) (ecc : Ecc)
  /-- LOOPD (R249): LOOPD repeats a body the count held in a register. Operands: the core whose program counter holds the instruction, and what the ECC found in the words it reads -/
  | loopd (core : Fin 24) (ecc : Ecc)
  /-- IN (R251): IN reads a descriptor word, a mailbox word or warp time from a port. Operands: the core whose program counter holds the instruction, and what the ECC found in the words it reads -/
  | shuIn (core : Fin 24) (ecc : Ecc)
  /-- OUT (R251): OUT pushes a word into SHU_MBOX_OUT. Operands: the core whose program counter holds the instruction, and what the ECC found in the words it reads -/
  | out (core : Fin 24) (ecc : Ecc)
  /-- PASS (R254): PASS ends the current part with a feature block. Operands: the core whose program counter holds the instruction, and what the ECC found in the words it reads -/
  | pass (core : Fin 24) (ecc : Ecc)
  /-- VETO (R254): VETO ends the current part and asks that the record be discarded. Operands: the core whose program counter holds the instruction, and what the ECC found in the words it reads -/
  | veto (core : Fin 24) (ecc : Ecc)
  /-- INTERRUPT_ENTRY (R261): The core takes the highest pending enabled interrupt, swaps to the shadow bank and fetches from the vector. -/
  | interruptEntry (core : Fin 24)
  /-- TICK_EXPIRE (R263): The timer reaches 0, makes TICK pending and reloads. -/
  | tickExpire (core : Fin 24)
  /-- PART_WRITE (R252): The record builder writes a part into a free slot and offers its descriptor on port 0. -/
  | partWrite (core : Fin 24)
  /-- PART_TIMEOUT (R256): A part without a verdict after TIMEOUT × 64 cycles is withdrawn and carries NO_FEATURE. -/
  | partTimeout (core : Fin 24)
  /-- SHU_RUN (R265): SHU_CTRL.RUN restarts a halted core at SHU_PC. -/
  | shuRun (core : Fin 24)
  /-- SHU_HALT (R265): SHU_CTRL.HALT requests a halt at the next instruction boundary. -/
  | shuHalt (core : Fin 24)
  /-- CORE_HALTED (R265): The core reaches the boundary and halts; held and later parts bypass. -/
  | coreHalted (core : Fin 24)
  /-- SHU_STEP (R265): SHU_CTRL.STEP executes one instruction and halts again. -/
  | shuStep (core : Fin 24)
  /-- SHU_RESET (R265): SHU_CTRL.RESET halts the core, resets its registers and empties the mailboxes. -/
  | shuReset (core : Fin 24)
  /-- SHU_IRQ (R260): SHU_CTRL.IRQ makes the HOST interrupt pending. -/
  | shuIrq (core : Fin 24)
  /-- MBOX_PUSH (R251): A write of SHU_MBOX_IN pushes a word, or is refused at full with MBOX_OVF. -/
  | mboxPush (core : Fin 24) (value : BitVec 16)
  /-- MBOX_OUT_READ (R251): A read of SHU_MBOX_OUT pops a word, unless the queue is empty or the core halted. Operands: whether the word's parity fails, and the tag of the access -/
  | mboxOutRead (src : Src) (core : Fin 24) (parity : Bool) (tag : Nat)
  /-- WAVEFORM_OPEN (R278): 1,024 beats after the firing, the builder pushes fragment 0's length slot and the record takes its sequence number. -/
  | waveformOpen (shed : Fin 64)
  /-- SPECTRUM_RECORD_TIMEOUT (R281): A SPECTRUM record whose oldest spectrum has waited 1,048,576 beats closes. -/
  | spectrumRecordTimeout (channel : Fin 192)
  /-- SIDE_ENTRY (R283): A side-source entry arrives and is gathered into a record of its source. Operands: the side source, for source 3 the Hoofbeat input, and whether the popped word's parity fails -/
  | sideEntry (source : Fin 5) (unit : Fin 32) (parity : Bool)
  /-- SIDE_RECORD_HOLD (R283): A side record's oldest entry has waited HOLD × 1,024 beats and the record closes. Operands: the side source, and for source 3 the Hoofbeat input -/
  | sideRecordHold (source : Fin 5) (unit : Fin 32)
  /-- RUN_END_EMIT (R284): After every other record of the stream is pushed or discarded, the stream emits its RUN_END record. -/
  | runEndEmit (stream : Fin 256)
  /-- USER_GO (R285): REC_USER_CTRL.GO starts copying a USER record from HBM. -/
  | userGo
  /-- USER_COPY_DONE (R285): The USER copy ends and RESULT shows done, refused or bus error. Operands: the numbers of those 32-byte bursts of the payload that were uncorrectable -/
  | userCopyDone (bad : List Nat)
  /-- SKEIN_PACKET (R290): A Skein engine takes a packet whole, compresses the fragment and verifies its output. Operands: what an upset made of the output, and of its stored re-emission, none where nothing upset it; whether a popped word's parity fails -/
  | skeinPacket (engine : Fin 32) (upset again : Option (List (BitVec 8))) (parity : Bool)
  /-- DEC_GO (R293): SKN_DEC_CTRL.GO starts a decompressor. -/
  | decGo (dec : Fin 4)
  /-- DEC_STOP (R293): SKN_DEC_CTRL.STOP ends the decompressor at once with STOPPED. -/
  | decStop (dec : Fin 4)
  /-- DEC_DONE (R293): Decompression ends and ERR, OUT_LEN and IN_USED are loaded. Operands: the source offset of the first uncorrectable read, if any -/
  | decDone (dec : Fin 4) (ue : Option Nat)
  /-- Q_MAX_READ (R294): A read of REC_Q_MAX returns the largest depth and clears it. Operands: the Hitch tag of the read -/
  | qMaxRead (quill : Fin 32) (tag : Nat)
  /-- FRAGMENT_TAG (R419): The Bridle completes and tags a fragment under the port's run key, or holds it while no session exists. -/
  | fragmentTag (engine : Fin 32)
  /-- RING_ENTRY_WRITE (R303): A Harness port writes a fragment as one entry into its partner ring. -/
  | ringEntryWrite (engine : Fin 32)
  /-- NOTIFY_HOLD_EXPIRE (R304): The oldest unnotified entry has waited HOLD × 1,024 beats and a notification falls due. -/
  | notifyHoldExpire (port : Fin 4) (ring : Fin 16)
  /-- NOTIFY_SEND (R304): A due notification is sent once none is outstanding, carrying the current WR. -/
  | notifySend (port : Fin 4) (ring : Fin 16)
  /-- NOTIFY_TRANSMITTED (R307): A notification write has been transmitted in full and its records count as written. -/
  | notifyTransmitted (port : Fin 4) (ring : Fin 16)
  /-- PERST_ASSERT (R298): PERST_N low holds the port in reset and clears its partner page. -/
  | perstAssert (port : Fin 4)
  /-- PERST_DEASSERT (R298): PERST_N release brings the port out of reset and applies HNS_PORT_CFG. -/
  | perstDeassert (port : Fin 4)
  /-- HOT_RESET (R298): A hot reset returns the partner page to reset values and applies HNS_PORT_CFG. -/
  | hotReset (port : Fin 4)
  /-- FLR (R298): A Function Level Reset returns the partner page to reset values. -/
  | flr (port : Fin 4)
  /-- LINK_UP (R299): A port's PCIe link comes up in L0. Operands: the rate, the width code and whether it is x1, as the partner offers them -/
  | linkUp (port : Fin 4) (gen : Fin 8) (width : Fin 4) (x1 : Bool)
  /-- LINK_DOWN (R308): A port's link goes down and unnotified entries are lost. -/
  | linkDown (port : Fin 4)
  /-- BME_CLEAR (R308): The partner clears Bus Master Enable; unnotified entries are lost and the rings stall. -/
  | bmeClear (port : Fin 4)
  /-- RING_CFG_WRITE (R302): A partner write of RING_CFG enables a ring with checks, changes HOLD, or disables it at the next entry boundary. -/
  | ringCfgWrite (port : Fin 4) (ring : Fin 16) (value : BitVec 32)
  /-- RING_NOTIFY_NOW (R304): A partner write of RING_NOTIFY_NOW makes a notification fall due. -/
  | ringNotifyNow (port : Fin 4) (ring : Fin 16) (value : BitVec 32)
  /-- RING_RD_WRITE (R306): A partner write of RING_RD_HI advances RD, or is refused with RD_BAD. Operands: RD [63:32] -/
  | ringRdWrite (port : Fin 4) (ring : Fin 16) (value : BitVec 32)
  /-- PARTNER_DOORBELL (R314): A partner write of PP_DOORBELL pushes a word to software, or is refused at full. -/
  | partnerDoorbell (port : Fin 4) (value : BitVec 32)
  /-- PARTNER_PAGE_WRITE (R300): A partner write to any other partner-page field is stored. Operands: the access's offset in BAR0, its bytes and its data -/
  | partnerPageWrite (port : Fin 4) (offset : BitVec 16) (size : Nat) (value : BitVec 64)
  /-- PARTNER_LATCH_READ (R300): A partner read of PP_WT_LO or RING_WR_LO latches the high word. Operands: the access's offset in BAR0 and its bytes -/
  | partnerLatchRead (port : Fin 4) (offset : BitVec 16) (size : Nat)
  /-- BAR2_READ (R311): A BAR2 read inside a grant is served from HBM, otherwise refused. Operands: the offset in BAR2 and the bytes read, and how many bytes into the read an uncorrectable burst lies, none where there is none -/
  | bar2Read (port : Fin 4) (offset : BitVec 64) (len : Nat) (ue : Option Nat)
  /-- BAR2_WRITE (R311): A BAR2 write is discarded and counted. -/
  | bar2Write (port : Fin 4)
  /-- MSIX_SEND (R315): A write of HNS_MSIX_SEND sends MSI-X vectors to the partner. -/
  | msixSend (port : Fin 4) (value : BitVec 32)
  /-- PARTNER_DB_READ (R314): A read of HNS_PARTNER_DB pops a doorbell word. Operands: the Hitch tag of the read -/
  | partnerDbRead (port : Fin 4) (tag : Nat)
  /-- SPN_START (R318): SPN_CH_CTRL.START starts a channel or continues its kept instruction. -/
  | spnStart (channel : Fin 64)
  /-- SPN_HALT (R318): SPN_CH_CTRL.HALT stops a channel at the next element boundary. -/
  | spnHalt (channel : Fin 64)
  /-- SPN_STOP (R318): SPN_CH_CTRL.STOP halts a channel and returns it to IDLE. -/
  | spnStop (channel : Fin 64)
  /-- SPN_POKE (R325): SPN_CH_CTRL.POKE refetches the END word, or is held as a pending poke. -/
  | spnPoke (channel : Fin 64)
  /-- SPN_EVENT_SET (R323): A write of SPN_CH_EVENT sets event bits of a channel. -/
  | spnEventSet (channel : Fin 64) (value : BitVec 8)
  /-- SPN_END (R325): END parks the channel in END_WAIT on the END word. Operands: whether the fetch meets an uncorrectable error -/
  | spnEnd (channel : Fin 64) (ue : Bool)
  /-- SPN_MOVE (R320): MOVE starts copying LEN bytes in elements. Operands: whether the fetch meets an uncorrectable error -/
  | spnMove (channel : Fin 64) (ue : Bool)
  /-- SPN_ELEMENT_DONE (R320): An element is read and written, and XCNT and the circular pointers advance. Operands: how many bytes into the read an uncorrectable burst lies, none where there is none, and the bytes a partner answers with, none where its read fails -/
  | spnElementDone (channel : Fin 64) (ue : Option Nat) (given : Option (List (BitVec 8)))
  /-- SPN_LOOP (R322): LOOP activates, decrements or leaves a loop level. Operands: whether the fetch meets an uncorrectable error -/
  | spnLoop (channel : Fin 64) (ue : Bool)
  /-- SPN_WAIT (R323): WAIT puts the channel into WAITING on a time, event or count condition. Operands: whether the fetch meets an uncorrectable error -/
  | spnWait (channel : Fin 64) (ue : Bool)
  /-- SPN_WAIT_POLL (R323): A COUNT_GE poll reads its word every POLL × 16 beats. Operands: as of SPN_ELEMENT_DONE -/
  | spnWaitPoll (channel : Fin 64) (ue : Bool) (given : Option (List (BitVec 8)))
  /-- SPN_WAIT_END (R323): The WAIT condition holds and the channel continues. -/
  | spnWaitEnd (channel : Fin 64)
  /-- SPN_WAIT_TIMEOUT (R323): A WAIT not ended after TIMEOUT × 1,024 beats faults. -/
  | spnWaitTimeout (channel : Fin 64)
  /-- SPN_SIGNAL (R324): SIGNAL waits for every earlier write of the channel to reach its target. Operands: whether the fetch meets an uncorrectable error -/
  | spnSignal (channel : Fin 64) (ue : Bool)
  /-- SPN_SIGNAL_FLUSHED (R324): Once flushed, SIGNAL writes its record, sets event bits, loads SIG_WT and may raise IRQ. Operands: whether a flush read failed -/
  | spnSignalFlushed (channel : Fin 64) (failed : Bool)
  /-- SPN_LINK (R325): LINK continues at the instruction address in W1. Operands: whether the fetch meets an uncorrectable error -/
  | spnLink (channel : Fin 64) (ue : Bool)
  /-- SPN_QUIESCE_TIMEOUT (R328): A channel not paused within 12,000 beats faults with DOMAIN_OFF. -/
  | spnQuiesceTimeout (channel : Fin 64)
  /-- RELOCK (R334): STP_CTRL.RELOCK starts a relock of the root PLL. -/
  | relock
  /-- CYCLE_SLIP (R334): A cycle slip forces a relock and, during a run, logs ROOT_UNLOCK FATAL with ABORT. -/
  | cycleSlip
  /-- REFIN_QUALIFY_TIMEOUT (R334): REFIN does not qualify within 10 ms and the root locks to the crystal with REF_FAIL. -/
  | refinQualifyTimeout
  /-- RELOCK_LOCK_DETECT (R335): The retuned PLL is detected locked and the 4,096-cycle hold begins. -/
  | relockLockDetect
  /-- RELOCK_RESTART (R335): The gated clocks restart together and a RELOCK discontinuity is written. -/
  | relockRestart
  /-- REFIN_LOST (R332): REFIN loses an edge or leaves its tolerance. Operands: the offset of a 1 ms window that fell outside the tolerance, in parts per 10^9; none for a missing edge -/
  | refinLost (ppb : Option Int)
  /-- HOLDOVER_LIMIT (R338): Holdover exceeds STP_HOLD_LIMIT and logs ERROR, or FATAL. -/
  | holdoverLimit
  /-- REFIN_QUALIFIED (R339): A returning reference passes its 1 ms qualification and recovery begins. Operands: the measured offset in parts per 10^9, and the phase error of the first qualified reference edge in 1/256 beat -/
  | refinQualified (ppb : Int) (error : Int)
  /-- SNAP_RESTART (R341): The clocks restart aligned to the reference and a SNAP discontinuity is written. -/
  | snapRestart
  /-- SLEW_DONE (R340): The slewed phase error falls below 20 ps and holdover ends. -/
  | slewDone
  /-- SYNC_EVENT (R346): SYNC_IN is sampled high after two lows and a sync event is registered. -/
  | syncEvent
  /-- SYNC_ACTION (R347): At beat W the CLKOUT dividers and warp time are checked or applied. -/
  | syncAction
  /-- SYNC_ARM (R347): STP_CTRL.SYNC_ARM arms the next sync event in ONESHOT mode. -/
  | syncArm
  /-- WARP_LOAD (R350): WRP_CTRL.LOAD takes WRP_PRELOAD for the beat two beats later. -/
  | warpLoad
  /-- WARP_LOAD_APPLY (R350): The target beat takes the preload value. -/
  | warpLoadApply
  /-- HFB_EDGE (R353): An edge on a Hoofbeat input is stamped and pushed into its stamp Quill. Operands: the edge's direction (of the prescaler output where PS_EN is 1) and its tap code -/
  | hfbEdge (input : Fin 32) (falling : Bool) (tap : Fin 256)
  /-- HFB_DLL_LOCK (R353): An input's DLL locks after enabling. -/
  | hfbDllLock (input : Fin 32)
  /-- HFB_CAL (R354): HFB_CTRL.CAL starts interpolator calibration, or defers it to run stop. -/
  | hfbCal
  /-- HFB_CAL_DONE (R354): The code-density calibration completes and the tables become valid. Operands: the 256-entry tables of the inputs calibrated, in the order of their numbers -/
  | hfbCalDone (tables : List (List (BitVec 16)))
  /-- REGISTER_WRITE (R372): A write to a register with no row of its own is stored under each field's class and the EG gate. Operands: the requester, the request's tag, the address, the size in bytes, the data -/
  | registerWrite (src : Src) (tag : Nat) (addr : BitVec 48) (size : Nat) (data : BitVec 64)
  /-- ALIAS_WRITE (R371): A write to a bit-alias word applies one bit under its class. Operands: the requester, the request's tag, the offset in the alias area, the size in bytes, the data -/
  | aliasWrite (src : Src) (tag : Nat) (offset : BitVec 29) (size : Nat) (data : BitVec 64)
  /-- SH_LOW_READ (R369): A read of an SH low word latches the high word into the requester's shadow. Operands: the requester, the request's tag, the address, and whether the read is of 64 bits -/
  | shLowRead (src : Src) (tag : Nat) (addr : BitVec 48) (wide : Bool)
  /-- VEC_MASK_WRITE (R382): A write of GLB_VEC_MASK masks vectors; unmasking a pending vector sends an MSGI. Operands: which of the eight mask words, and the value written -/
  | vecMaskWrite (word : Fin 8) (value : BitVec 32)
  /-- HITCH_HBM_ACCESS (R368): A Hitch request to HBM is checked and passed to the Bobbin in class 3. Operands: the requester, the request's tag, the address, the length in bytes, the byte enables, and the bytes of a write (none: a read) -/
  | hitchHbmAccess (src : Src) (tag : Nat) (addr : BitVec 48) (len : Nat) (be : BitVec 8) (data : Option (List (BitVec 8)))
  /-- HITCH_RETRY_REISSUE (R377): The bridge reissues a RETRY-answered request after 64 beats, up to 16 times. Operands: the tag of the request reissued -/
  | hitchRetryReissue (tag : Nat)
  /-- HITCH_RESERVED_TYPE (R376): A Hitch packet of reserved TYPE is discarded and logged. Operands: the packet's TYPE -/
  | hitchReservedType (code : BitVec 8)
  /-- UCIE_MODULE_FAIL (R374): One UCIe module fails to train and the link runs on the other. Operands: which module -/
  | ucieModuleFail (unit : Fin 2)
  /-- UCIE_LINK_LOST (R375): No module in operation for 10 ms; the bridge answers Hitch requests with BUS_ERR and ALERT_N goes low. -/
  | ucieLinkLost
  /-- UCIE_LINK_RETURN (R375): The link returns, ALERT_N is released and pending vectors resend. Operands: whether both modules are in operation -/
  | ucieLinkReturn (both : Bool)
  /-- BOOT_STAGE_DONE (R386): A boot stage ends and the next stage begins. Operands: whether the stage failed, and the header of the image that the stage verified, if it verified one -/
  | bootStageDone (failed : Bool) (header : List (BitVec 8))
  /-- HOST_GIB_WRITE (R387): The first secure write of GLB_BOOT.HOST_GIB fixes the host-partition size. Operands: the value written -/
  | hostGibWrite (value : BitVec 32)
  /-- HOST_GIB_DEFAULT (R387): No HOST_GIB write within 10 ms of stage HBM gives the 4 GiB default. -/
  | hostGibDefault
  /-- NMT_START_REMOTE_NODE (R392): Start Remote Node moves the port to Operational. Operands: the CAN port -/
  | nmtStartRemoteNode (port : Fin 2)
  /-- NMT_STOP_REMOTE_NODE (R392): Stop Remote Node moves the port to Stopped and may stop the run. Operands: the CAN port -/
  | nmtStopRemoteNode (port : Fin 2)
  /-- NMT_ENTER_PRE_OPERATIONAL (R392): Enter Pre-operational moves the port to Pre-operational. Operands: the CAN port -/
  | nmtEnterPreOperational (port : Fin 2)
  /-- NMT_RESET_COMMUNICATION (R392): Reset Communication resets the communication objects and sends boot-up. Operands: the CAN port -/
  | nmtResetCommunication (port : Fin 2)
  /-- NMT_RESET_NODE (R392): Reset Node resets dictionary objects, or acts as Reset Communication during a run. Operands: the CAN port -/
  | nmtResetNode (port : Fin 2)
  /-- USDO_DOWNLOAD (R396): A USDO write of a dictionary entry is served. Operands: the CAN port, the client's node-ID, the entry, the total length of a segmented transfer (none: the whole of the data is here), the data -/
  | usdoDownload (port : Fin 2) (client : BitVec 7) (index : BitVec 16) (sub : BitVec 8) (total : Option Nat) (data : List (BitVec 8))
  /-- USDO_UPLOAD (R396): A USDO read of a dictionary entry is served. Operands: the CAN port, the client's node-ID, the entry -/
  | usdoUpload (port : Fin 2) (client : BitVec 7) (index : BitVec 16) (sub : BitVec 8)
  /-- USDO_SEGMENT (R396): A segment of an open segmented transfer is received. Operands: the CAN port, the segment's data, and whether it is the last -/
  | usdoSegment (port : Fin 2) (data : List (BitVec 8)) (last : Bool)
  /-- USDO_TIMEOUT (R396): A transfer with no segment for USDO_TIMEOUT ms is aborted. Operands: the CAN port -/
  | usdoTimeout (port : Fin 2)
  /-- DICT_RUN_CMD (R401): A write of object 0x2001 sub-index 1 issues a run command and answers by its acceptance. Operands: the CAN port, the client's node-ID, the data written -/
  | dictRunCmd (port : Fin 2) (client : BitVec 7) (data : List (BitVec 8))
  /-- DICT_REG_ACCESS (R402): An access to object 0x2F00 performs a register access at ADDRESS. Operands: the CAN port, the client's node-ID, whether the access is of 64 bits, whether it is a write, the data written -/
  | dictRegAccess (port : Fin 2) (client : BitVec 7) (wide : Bool) (write : Bool) (data : List (BitVec 8))
  /-- OSERI_APPLY (R410): A verified Oseri image is written entry by entry and journalled between OSERI_BEGIN and OSERI_END. Operands: the whole image: header, payload, public key -/
  | oseriApply (image : List (BitVec 8))
  /-- HEARTBEAT (R394): The heartbeat timer expires and the port sends its heartbeat. Operands: the CAN port -/
  | heartbeat (port : Fin 2)
  /-- EMCY_INHIBIT_END (R395): The EMCY inhibit time ends and a held EMCY is sent. Operands: the CAN port -/
  | emcyInhibitEnd (port : Fin 2)
  /-- TPDO_EVENT_TIMER (R403): A TPDO's event timer expires and the TPDO is sent. Operands: the CAN port, the TPDO -/
  | tpdoEventTimer (port : Fin 2) (k : Fin 4)
  /-- TPDO_INHIBIT_END (R403): A TPDO's inhibit time ends and a change-triggered TPDO is sent. Operands: the CAN port, the TPDO -/
  | tpdoInhibitEnd (port : Fin 2) (k : Fin 4)
  /-- CAN_BUS_OFF_RECOVERY (R389): A port recovers from bus-off and sends EMCY 0x8140. Operands: the CAN port -/
  | canBusOffRecovery (port : Fin 2)
  /-- CAN_RX_OVERRUN (R395): A CAN receive overrun sends EMCY 0x8110. Operands: the CAN port, and whether the condition clears -/
  | canRxOverrun (port : Fin 2) (clear : Bool)
  /-- CAN_ERROR_PASSIVE (R395): A port becoming error-passive sends EMCY 0x8120. Operands: the CAN port -/
  | canErrorPassive (port : Fin 2)
  /-- CAN_ERROR_ACTIVE (R395): A port becoming error-active again sends EMCY 0x0000. Operands: the CAN port -/
  | canErrorActive (port : Fin 2)
  /-- SESSION_OPEN (R416): SESSION_OPEN checks the partner credential and derives a session key for a port. -/
  | sessionOpen
  /-- SESSION_CLOSE (R417): SESSION_CLOSE destroys the port's session key. -/
  | sessionClose
  /-- ATTEST (R424): ATTEST returns a signed attestation report. -/
  | attest
  /-- VERIFY_IMAGE (R408): VERIFY_IMAGE checks a signed image. -/
  | verifyImage
  /-- OWNER_INSTALL (R412): OWNER_INSTALL fills the lowest empty owner slot. -/
  | ownerInstall
  /-- OWNER_REVOKE (R412): OWNER_REVOKE revokes an owner slot. -/
  | ownerRevoke
  /-- DEBUG_UNLOCK (R425): DEBUG_UNLOCK raises the debug state with a signed token. -/
  | debugUnlock
  /-- ZEROISE (R425): ZEROISE destroys every session and run key. -/
  | zeroise
  /-- DECOMMISSION (R425): DECOMMISSION burns the fuse that disables the device secret. -/
  | decommission
  /-- GET_CERT (R406): GET_CERT returns the device certificate. -/
  | getCert
  /-- KEY_RETIRE (R417): An old session key is destroyed once no fragment under it is in flight. -/
  | keyRetire (port : Fin 4)
  /-- JOURNAL_ENTRY (R420): A journal entry is chained into H, and the write it concerns takes effect. -/
  | journalEntry
  /-- JOURNAL_EXPORT (R422): Journal entries are pushed to side Quill 1 as it has room. -/
  | journalExport
  /-- MANIFEST_BEGIN (R423): After every enabled stream has pushed RUN_END, the Bridle builds and signs the manifest. -/
  | manifestBegin
  /-- MANIFEST_PUSH (R423): The signed manifest is pushed as one packet into side Quill 4 once it has room. -/
  | manifestPush
  /-- FAR_PROG (R433): FAR_CTRL.PROG checks the staged record and programs the lowest free slot. -/
  | farProg
  /-- FAR_PROG_DONE (R433): Programming and read-back end and the result is shown. Operands: what the slot read back where that differs from the record -/
  | farProgDone (readback : Option (List (BitVec 8)))
  /-- STATS_GO (R437): FAR_CTRL.STATS_GO requests a signal-statistics calibration at the next run start. -/
  | statsGo
  /-- STATS_CANCEL (R437): FAR_CTRL.STATS_CANCEL ends the measurement without results. -/
  | statsCancel
  /-- STATS_COUNT_DONE (R437): A channel has counted 2^WINDOW clean samples. -/
  | statsCountDone (channel : Fin 192)
  /-- STATS_APPLY (R437): With APPLY, OK results are written into CND_OFFSET and CND_GAIN once drained. -/
  | statsApply (channel : Fin 192)
  /-- THERMAL_CONVERSION (R440): A thermal monitor converts and the thermal levels are evaluated. Operands: the monitor and its reading before its trim, in 1/16 degC -/
  | thermalConversion (monitor : Fin 32) (raw : Int)
  /-- VOLTAGE_CONVERSION (R441): A voltage monitor converts and its window is checked. Operands: mV -/
  | voltageConversion (monitor : Fin 16) (reading : BitVec 16)
  /-- PROCESS_CONVERSION (R442): A process monitor completes its count and drift is updated. Operands: the ring-oscillator periods counted -/
  | processConversion (monitor : Fin 16) (count : BitVec 32)
  /-- TCK_START (R444): TCK_CTRL.START starts the Tack sequencer, or is refused. -/
  | tckStart
  /-- TCK_STOP (R444): TCK_CTRL.STOP stops the sequencer after the group in progress. -/
  | tckStop
  /-- REG_GO (R446): TCK_CTRL.REG_GO runs the regular sequence once. -/
  | regGo
  /-- INJ_GO (R447): TCK_CTRL.INJ_GO runs the injected sequence after the current group. -/
  | injGo
  /-- PERIODIC_START (R446): A beat whose warp time is a multiple of TCK_PERIOD starts the regular sequence, or is skipped. -/
  | periodicStart
  /-- TACK_GROUP_DONE (R448): A conversion group ends and its entries are corrected, stored and sent. Operands: the converters' codes, one for each entry of the group, before any correction -/
  | tackGroupDone (codes : List (BitVec 16))
  /-- TCK_CAL_GO (R449): TCK_CTRL.CAL_GO measures zero or full scale with 256 conversions. -/
  | tckCalGo
  /-- TACK_CAL_DONE (R449): The 256 calibration conversions end and TCK_CAL_Z or TCK_CAL_F is loaded. Operands: the 256 codes before any correction -/
  | tackCalDone (codes : List (BitVec 16))
  /-- CAL_COMMIT (R449): TCK_CTRL.CAL_COMMIT computes G and loads the input correction, or raises CAL_BAD. -/
  | calCommit
  /-- PWR_DOM_TARGET_WRITE (R455): A write of PWR_DOM_TARGET sets the wanted domain states, refusing disallowed power-downs. -/
  | pwrDomTargetWrite (value : BitVec 32)
  /-- DOMAIN_POWER_DOWN (R456): The power manager begins powering down a domain. -/
  | domainPowerDown
  /-- DOMAIN_OFF (R456): The rail switch opens and DOMAIN_OFF is raised. -/
  | domainOff
  /-- DOMAIN_POWER_UP (R456): The power manager closes a domain's rail switch. -/
  | domainPowerUp
  /-- DOMAIN_ON (R456): Reset and repair of a powered-up domain end and DOMAIN_ON is raised. -/
  | domainOn
  /-- VSTBY_BROWNOUT_BEGIN (R459): VSTBY below 1.62 V for 240 beats begins a brownout. -/
  | vstbyBrownoutBegin
  /-- VSTBY_BROWNOUT_END (R459): VSTBY above 1.66 V for 12,000 beats ends the brownout. Operands: the lowest reading, in mV -/
  | vstbyBrownoutEnd (lowest : BitVec 16)
  /-- VIO_BROWNOUT_BEGIN (R460): A VIO bank below its warning threshold begins a bank brownout. -/
  | vioBrownoutBegin (bank : Fin 7)
  /-- VIO_BROWNOUT_END (R460): A VIO bank returns and its brownout ends. Operands: the bank and its lowest reading, in mV -/
  | vioBrownoutEnd (bank : Fin 7) (lowest : BitVec 16)
  /-- VIO_LOST (R460): A VIO bank below its reset threshold is lost. -/
  | vioLost (bank : Fin 7)
  /-- POWER_ON_RESET (R461): VSTBY rising, or falling below 1.52 V, resets everything. -/
  | powerOnReset
  /-- NRESET_ASSERT (R461): NRESET low for at least 1 µs gives an EXTERNAL reset. -/
  | nresetAssert
  /-- PWR_OK_LOW (R461): PWR_OK low for at least 1 µs gives an EXTERNAL reset. -/
  | pwrOkLow
  /-- NRESET_RELEASE (R484): NRESET release, after the 1 ms PWR_OK hold, samples CANID and starts boot. Operands: CANID0 to CANID6, and the measured voltages of VSTBY and of VIO banks 0 to 6 in mV -/
  | nresetRelease (canid : BitVec 7) (vstby : BitVec 16) (vio : List (BitVec 16))
  /-- DEVICE_RESET (R461): PWR_CTRL.DEVICE_RESET gives a SOFTWARE reset. -/
  | deviceReset
  /-- THERMAL_HOLD_END (R461): After a thermal reset the AON diode reads below 100 °C for 1 s and the dies are released. -/
  | thermalHoldEnd
  /-- PWR_BLK_RESET (R461): A write of PWR_BLK_RESET resets a slice, a Harness port or the display engine. -/
  | pwrBlkReset (value : BitVec 32)
  /-- PDK_GO (R464): PDK_CTRL.GO starts self-test of the requested units, or is refused with BUSY. -/
  | pdkGo
  /-- PDK_ABORT (R464): PDK_CTRL.ABORT ends the test with ABORTED. -/
  | pdkAbort
  /-- PDK_TEST_DONE (R465): A unit's test ends with a block reset and pass or fail. Operands: the unit, its logic signature, and what its memory test found: PDK_MEM_INFO and PDK_REPAIR -/
  | pdkTestDone (unit : Fin 130) (signature : BitVec 32) (memInfo : BitVec 25) (repair : BitVec 16)
  /-- ERL_COALESCE_COMMIT (R468): A coalescing entry is committed after 1,024 beats without extension or at COUNT 65,535. -/
  | erlCoalesceCommit
  /-- AGE_TICK (R470): Each second the power manager adds to PWR_AGE_EQ and PWR_POWERED. -/
  | ageTick
  /-- DRIFT_CHECK (R470): Daily, each process monitor's drift is compared with DRIFT_WARN. -/
  | driftCheck
  /-- PRBS_ERR (R73): A locked PRBS checker receives a wrong bit, counts it in LNK_PRBS_ERR and raises PRBS_ERR. -/
  | prbsErr (port : Fin 24) (lane : Fin 8)
  /-- SCAN_STORE_ECC (R218): Scan-out reads a scan-store word with an ECC error; a corrected error is counted, and an uncorrectable one shows palette entry 0 and is logged. Operands: the pixel read, and whether the code could correct it -/
  | scanStoreEcc (output : Fin 2) (x : Fin 1920) (y : Fin 1200) (uncorrectable : Bool)
  /-- HITCH_READ (R365): A Hitch read of register or window space is answered, and a read refused with BUS_ERR or DECODE_ERR is latched in GLB_BUSERR, counted and raises BUS_ERR. Operands: the requester, the request's tag, the address, the size in bytes, and what the ECC of a Shuttle memory finds -/
  | hitchRead (src : Src) (tag : Nat) (addr : BitVec 48) (load : HitchLoad)
  /-- SPECTRUM_RECORD_CLOSE (R281): A full SPECTRUM record closes once 512 beats have passed since the last bin of its newest spectrum left the Reed. -/
  | spectrumRecordClose (channel : Fin 192)
  /-- BME_SET (R299): The partner sets Bus Master Enable; the port writes records again and its stalled rings resume. Operands: the payload size, read request size and MSI-X enable that the partner has programmed by then -/
  | bmeSet (port : Fin 4) (mps : Fin 8) (mrrs : Fin 8) (msix : MsixMode)
  /-- COMPLETION_TIMEOUT (R299): A read to partner memory has no completion within HNS_PORT_CFG.CTO and fails, so its Spindle channel faults with PARTNER. -/
  | completionTimeout (channel : Fin 64)
  /-- REF_FREQ_BAD (R339): A reference that returns during holdover ends its 1 ms qualification window outside the frequency window; REF_FREQ_BAD is set and a WARNING is logged. Operands: the measured offset in parts per 10^9 -/
  | refFreqBad (ppb : Int)
  /-- DLL_UNLOCK (R353): A Hoofbeat input's DLL loses lock; DLL_UNLOCK is raised and stamps taken from then on carry COARSE. -/
  | dllUnlock (input : Fin 32)
  /-- RESERVED_OPCODE (R264): A Shuttle core reaches an instruction with reserved opcode 0x32 to 0x3F and faults with ILLEGAL. Operands: the core whose program counter holds the instruction, and what the ECC found in the words it reads -/
  | reservedOpcode (core : Fin 24) (ecc : Ecc)
  /-- SPN_RESERVED_OPCODE (R319): A Spindle channel fetches an instruction with reserved opcode 0x6 to 0xF and faults with BAD_INSTR. Operands: whether the fetch meets an uncorrectable error -/
  | spnReservedOpcode (channel : Fin 64) (ue : Bool)
  deriving DecidableEq, Repr

end Sys2Proof
end

