-- ==== Sys2Proof/Decode.lean ====
section
/-!
DEFINITION. What a word spells: nothing. No row of the table of operations and events gives the bits of a command: a command
reaches the device as a register access, a packet, a pin or an event, and joins the queue of commands (log entry 1).
-/

namespace Sys2Proof

/-- The command that a word of nbits bits spells by the table's bits: none, since no row of the table has bits. -/
def decodeTableWord (_nbits _w : Nat) : Option Instr := none

end Sys2Proof
end

