-- ==== Sys2Proof/Config.lean ====
section
/-!
DEFINITION. What the spec leaves to a standard it only names, to the part's analog nature or to nobody: constants
without a body. No proof can learn a value of one, so every claim holds whatever it is (log entries 5 to 9).
-/

namespace Sys2Proof.Config

/-- A value the spec does not give, the n-th one taken (log entry 6). -/
opaque freeValue : Nat → Nat

/-- A byte that a read of HBM gives while a breach makes the Bobbin's results undefined: the beat of the read and the byte's offset (R1). -/
opaque openByte : Nat → Nat → BitVec 8

/-- The raw DEFLATE form of a fragment body under a class: mode, level, window, body (R290; RFC 1951 and the match
search leave its bytes open). -/
opaque deflate : Nat → Nat → Nat → List Byte → List Byte

/-- AES-256-GCM under a key: key, nonce, additional data, plaintext; the ciphertext (R419). -/
opaque gcmCipher : Nat → List Byte → List Byte → List Byte → List Byte

/-- AES-256-GCM under a key: key, nonce, additional data, plaintext; the 16-byte tag (R419). -/
opaque gcmTag : Nat → List Byte → List Byte → List Byte → List Byte

/-- The session key of R416: device ephemeral key number, partner key bytes, salt, info. -/
opaque sessionKey : Nat → List Byte → List Byte → List Byte → Nat

/-- The run key of R418: session key and run number. -/
opaque runKey : Nat → Nat → Nat

/-- The ECDSA P-384 signature of the device identity key over a digest, 96 bytes (R416, R423, R424). -/
opaque dikSign : List Byte → List Byte

/-- The device's ephemeral public key and nonce of the n-th session (R416): 97 bytes and 32 bytes. -/
opaque ephemeral : Nat → List Byte

/-- ECDSA P-384 verification: the SHA-384 digest of the public key that is held, or the key itself; the digest that was
signed; the signature (R408, R415, R416). -/
opaque verify : List Byte → List Byte → List Byte → Bool

/-- The digests of firmware keys F0 and F1 in the boot ROM (R405). -/
opaque firmwareKey : Nat → List Byte

/-- Requests whose layout the spec does not give (R412, R425): the request names an owner slot, or carries a new key
whose digest is this, and is signed as its rule asks, given the serial number, the boot nonce and the digests of the
ACTIVE owner keys. -/
opaque requestSlot : List Byte → Nat
opaque requestKey : List Byte → List Byte
opaque requestState : List Byte → Nat
opaque requestSigned : List Byte → List Byte → Nat → List (List Byte) → Bool

/-- Whether the NCO's cosine and sine for the upper 20 bits of a phase are the nearest value, or the one above or below: their
rounding is open (R89). -/
opaque ncoPick : Nat → Nat

/-- Which of the values that its error bound allows a part of a bin takes: complex form, reduced precision, the windowed inputs, the part's
number (R114, R115 bound the error and leave the rounding of the stages open). -/
opaque fftPick : Bool → Bool → List (Int × Int) → Nat → Nat

/-- The words of the Treadle's state that an upset strikes in a copy, by group and place, each with the bits it turns over (R145). -/
opaque upset : Nat → List (Nat × Nat × Nat × Nat)

/-- Which of the codes within its bound a power code takes: the sum of squared mantissas, their exponent, complex form, the sum of the
window's coefficients (R117 and R133 fix a code within 1 and 2 LSB). -/
opaque codePick : Nat → Int → Bool → Nat → Nat

/-- A window coefficient whose exact value is below 0 and whose 18-bit form is unsigned (R111): window, n, N. -/
opaque negativeCoef : Nat → Nat → Nat → Nat

/-- Spare rows of a bank of a pseudo-channel, as its stack came: pseudo-channel, bank (R183). -/
opaque spareRows : Nat → Nat → Nat

/-- 2^((T − 85) / 10) seconds in 2^-16 s where that is no whole number of them, for T in 1/16 °C; its rounding is open
(R470). -/
opaque ageSeconds : Int → Nat

/-- The signature of a good unit, from the boot ROM: unit (R465). -/
opaque padSignature : Nat → BitVec 32

/-- The version of the sealed firmware as a VISIBLE_STRING (object 0x100A). -/
opaque firmwareVersion : List Byte

/-- Spare columns of an SRAM: memory group, SRAM of the group (R432). -/
opaque memorySpares : Nat → Nat → Nat

/-- The frequency of a SYNTH output whose setting lies outside 10 MHz to 800 MHz, in Hz, and the depths of SPREAD 3, below and above, in
0.05 %: no rule gives them (R344, R360). -/
opaque outFreq : Nat → Nat
opaque outSpread : Nat → Nat × Nat

end Sys2Proof.Config
end

