-- ==== Sys2Proof/Machine/Tab.lean ====
section
/-!
DEFINITION. Tables: sparse data by number (registers, memories, per-unit records) in ONE canonical form: numbers
strictly rising, and no entry equal to what an unlisted number holds. What an unlisted number holds is given where
the table is used (a reset value).
-/

namespace Sys2Proof.Machine

/-- A sparse table: a list of numbers with what each holds. -/
abbrev Tab (α : Type) := List (Nat × α)

/-- What number k holds; an unlisted number holds d k. -/
def Tab.get {α : Type} (d : Nat → α) : Tab α → Nat → α
  | [], k => d k
  | (a, v) :: t, k => if k = a then v else Tab.get d t k

/-- The table without an entry for number k. -/
def Tab.erase {α : Type} : Tab α → Nat → Tab α
  | [], _ => []
  | (a, v) :: t, k => if k = a then Tab.erase t k else (a, v) :: Tab.erase t k

/-- An entry put before the first entry with a larger number. -/
def Tab.place {α : Type} (k : Nat) (v : α) : Tab α → Tab α
  | [] => [(k, v)]
  | (a, w) :: t => if k < a then (k, v) :: (a, w) :: t else (a, w) :: Tab.place k v t

/-- The table in which number k holds v, in canonical form. -/
def Tab.put {α : Type} [DecidableEq α] (d : Nat → α) (t : Tab α) (k : Nat) (v : α) : Tab α :=
  if v = d k then Tab.erase t k else Tab.place k v (Tab.erase t k)

/-- The canonical form: numbers strictly rising, and no entry equal to what an unlisted number holds. -/
def Tab.wf {α : Type} [DecidableEq α] (d : Nat → α) : Tab α → Bool
  | [] => true
  | (a, v) :: t => decide (v ≠ d a) && t.all (fun p => decide (a < p.1)) && Tab.wf d t

end Sys2Proof.Machine
end

