-- ==== Sys2Proof/Machine/RegMap.lean ====
section
/-!
DEFINITION. The register map: for every register of the block chapters its address (R.<NAME>), its bit fields
(F.<NAME>_<FIELD>), and one row of regRows with its address formula, its reset value and the access class of every
bit (R6, R7, R364 and the address-formula rules R75, R102, R125, R161, R162, R191, R210, R229, R268, R294, R295, R296,
R330, R331, R360, R361, R362, R388, R427, R451, R452, R453, R471, R472, R473). A register repeated over slices takes
its slice number as the first index.
-/

namespace Sys2Proof.Machine

/-- A bit field of a register: its lowest bit and its width (R2). -/
structure Fld where
  lo : Nat
  width : Nat
  deriving DecidableEq, Repr

/-- One register of a block's register map: the address of its first instance, the count and stride of its two
indices, its reset value, and for each access class of R7 the bits of that class. A register whose class is SH has
sh set; its low word, read, latches its high word (R369). -/
structure RegRow where
  name : String
  base : Nat
  count1 : Nat
  stride1 : Nat
  count2 : Nat
  stride2 : Nat
  reset : Nat
  rw : Nat
  eg : Nat
  w1c : Nat
  w1s : Nat
  rc : Nat
  ro : Nat
  sh : Bool
  deriving DecidableEq, Repr

/-- The row has an instance at this address. -/
def RegRow.hit (r : RegRow) (a : Nat) : Bool :=
  let o := a - r.base
  let rest := o % r.stride1
  decide (r.base ≤ a) && decide (o / r.stride1 < r.count1)
    && decide (rest / r.stride2 < r.count2) && decide (rest % r.stride2 = 0)

/-- A reset value that is not zero: a register's address formula and the value. -/
structure ResetRow where
  base : Nat
  count1 : Nat
  stride1 : Nat
  count2 : Nat
  stride2 : Nat
  value : Nat
  deriving DecidableEq, Repr

/-- The row covers this address. -/
def ResetRow.hit (r : ResetRow) (a : Nat) : Bool :=
  let o := a - r.base
  let rest := o % r.stride1
  decide (r.base ≤ a) && decide (o / r.stride1 < r.count1)
    && decide (rest / r.stride2 < r.count2) && decide (rest % r.stride2 = 0)

namespace R

/-- LNK_CFG (R75): EG. -/
def LNK_CFG (i : Nat) : Nat := 0x00100000 + 0x10000 * i
/-- LNK_CTRL (R75): W1S. -/
def LNK_CTRL (i : Nat) : Nat := 0x00100004 + 0x10000 * i
/-- LNK_STATUS (R75): RO, W1C. -/
def LNK_STATUS (i : Nat) : Nat := 0x00100008 + 0x10000 * i
/-- LNK_INT_STATUS (R75): W1C. -/
def LNK_INT_STATUS (i : Nat) : Nat := 0x0010000C + 0x10000 * i
/-- LNK_INT_ENABLE (R75): RW. -/
def LNK_INT_ENABLE (i : Nat) : Nat := 0x00100010 + 0x10000 * i
/-- LNK_CAP (R75): RO. -/
def LNK_CAP (i j : Nat) : Nat := 0x00100014 + 0x10000 * i + 0x4 * j
/-- LNK_STEP_CFG (R75): EG. -/
def LNK_STEP_CFG (i : Nat) : Nat := 0x00100024 + 0x10000 * i
/-- LNK_SKEW (R75): EG. -/
def LNK_SKEW (i : Nat) : Nat := 0x00100028 + 0x10000 * i
/-- LNK_INDEX_LOAD_LO (R75): EG. -/
def LNK_INDEX_LOAD_LO (i : Nat) : Nat := 0x00100030 + 0x10000 * i
/-- LNK_INDEX_LOAD_HI (R75): EG. -/
def LNK_INDEX_LOAD_HI (i : Nat) : Nat := 0x00100034 + 0x10000 * i
/-- LNK_PLACE_LO (R75): SH. -/
def LNK_PLACE_LO (i : Nat) : Nat := 0x00100038 + 0x10000 * i
/-- LNK_PLACE_HI (R75): SH. -/
def LNK_PLACE_HI (i : Nat) : Nat := 0x0010003C + 0x10000 * i
/-- LNK_PLACE_AUX (R75): RO. -/
def LNK_PLACE_AUX (i : Nat) : Nat := 0x00100040 + 0x10000 * i
/-- LNK_GAP_CNT (R75): RW. -/
def LNK_GAP_CNT (i : Nat) : Nat := 0x00100044 + 0x10000 * i
/-- LNK_MSG_TX (R75): RW. -/
def LNK_MSG_TX (i j : Nat) : Nat := 0x00100048 + 0x10000 * i + 0x4 * j
/-- LNK_MSG_RX (R75): RC. -/
def LNK_MSG_RX (i : Nat) : Nat := 0x00100058 + 0x10000 * i
/-- LNK_RET_PRBS (R75): RW. -/
def LNK_RET_PRBS (i : Nat) : Nat := 0x0010005C + 0x10000 * i
/-- LNK_LANE_STATUS (R75): RO. -/
def LNK_LANE_STATUS (i j : Nat) : Nat := 0x00100100 + 0x10000 * i + 0x20 * j
/-- LNK_LANE_FRAMES (R75): RW. -/
def LNK_LANE_FRAMES (i j : Nat) : Nat := 0x00100104 + 0x10000 * i + 0x20 * j
/-- LNK_LANE_CRC_ERR (R75): RW. -/
def LNK_LANE_CRC_ERR (i j : Nat) : Nat := 0x00100108 + 0x10000 * i + 0x20 * j
/-- LNK_LANE_HDR_ERR (R75): RW. -/
def LNK_LANE_HDR_ERR (i j : Nat) : Nat := 0x0010010C + 0x10000 * i + 0x20 * j
/-- LNK_PRBS_CTRL (R75): RW. -/
def LNK_PRBS_CTRL (i j : Nat) : Nat := 0x00100110 + 0x10000 * i + 0x20 * j
/-- LNK_PRBS_ERR (R75): RC. -/
def LNK_PRBS_ERR (i j : Nat) : Nat := 0x00100114 + 0x10000 * i + 0x20 * j
/-- LNK_INJ (R75): RW, W1S. -/
def LNK_INJ (i j : Nat) : Nat := 0x00100118 + 0x10000 * i + 0x20 * j
/-- CND_STATUS (R102): RO, W1C. -/
def CND_STATUS (i : Nat) : Nat := 0x00102000 + 0x10000 * i
/-- CND_INT_STATUS (R102): W1C. -/
def CND_INT_STATUS (i : Nat) : Nat := 0x00102004 + 0x10000 * i
/-- CND_INT_ENABLE (R102): RW. -/
def CND_INT_ENABLE (i : Nat) : Nat := 0x00102008 + 0x10000 * i
/-- CND_LAMBDA (R102): RO. -/
def CND_LAMBDA (i : Nat) : Nat := 0x0010200C + 0x10000 * i
/-- CND_ARRIVAL (R102): RO. -/
def CND_ARRIVAL (i : Nat) : Nat := 0x00102010 + 0x10000 * i
/-- CND_COEF_CE_CNT (R102): RW. -/
def CND_COEF_CE_CNT (i : Nat) : Nat := 0x00102014 + 0x10000 * i
/-- CND_CH_CFG (R102): EG. -/
def CND_CH_CFG (i j : Nat) : Nat := 0x00102100 + 0x10000 * i + 0x80 * j
/-- CND_OFFSET (R102): EG. -/
def CND_OFFSET (i j : Nat) : Nat := 0x00102104 + 0x10000 * i + 0x80 * j
/-- CND_GAIN (R102): EG. -/
def CND_GAIN (i j : Nat) : Nat := 0x00102108 + 0x10000 * i + 0x80 * j
/-- CND_RANK_THR (R102): EG. -/
def CND_RANK_THR (i j : Nat) : Nat := 0x0010210C + 0x10000 * i + 0x80 * j
/-- CND_DDC_CFG (R102): EG. -/
def CND_DDC_CFG (i j : Nat) : Nat := 0x00102110 + 0x10000 * i + 0x80 * j
/-- CND_NCO_FREQ_LO (R102): EG. -/
def CND_NCO_FREQ_LO (i j : Nat) : Nat := 0x00102114 + 0x10000 * i + 0x80 * j
/-- CND_NCO_FREQ_HI (R102): EG. -/
def CND_NCO_FREQ_HI (i j : Nat) : Nat := 0x00102118 + 0x10000 * i + 0x80 * j
/-- CND_NCO_PHASE (R102): EG. -/
def CND_NCO_PHASE (i j : Nat) : Nat := 0x0010211C + 0x10000 * i + 0x80 * j
/-- CND_CH_STATUS (R102): RO. -/
def CND_CH_STATUS (i j : Nat) : Nat := 0x00102120 + 0x10000 * i + 0x80 * j
/-- CND_SAT_CNT (R102): RW. -/
def CND_SAT_CNT (i j : Nat) : Nat := 0x00102124 + 0x10000 * i + 0x80 * j
/-- CND_OVR_CNT (R102): RW. -/
def CND_OVR_CNT (i j : Nat) : Nat := 0x00102128 + 0x10000 * i + 0x80 * j
/-- CND_TAINT_CNT (R102): RW. -/
def CND_TAINT_CNT (i j : Nat) : Nat := 0x0010212C + 0x10000 * i + 0x80 * j
/-- CND_SUPPRESS_CNT (R102): RW. -/
def CND_SUPPRESS_CNT (i j : Nat) : Nat := 0x00102130 + 0x10000 * i + 0x80 * j
/-- CND_SPIKE_CNT (R102): RW. -/
def CND_SPIKE_CNT (i j : Nat) : Nat := 0x00102134 + 0x10000 * i + 0x80 * j
/-- SPC_STATUS (R125): RO, W1C. -/
def SPC_STATUS (i : Nat) : Nat := 0x00104000 + 0x10000 * i
/-- SPC_INT_STATUS (R125): W1C. -/
def SPC_INT_STATUS (i : Nat) : Nat := 0x00104004 + 0x10000 * i
/-- SPC_INT_ENABLE (R125): RW. -/
def SPC_INT_ENABLE (i : Nat) : Nat := 0x00104008 + 0x10000 * i
/-- SPC_RETIRE (R125): EG, RO. -/
def SPC_RETIRE (i : Nat) : Nat := 0x0010400C + 0x10000 * i
/-- SPC_ALLOC (R125): RO. -/
def SPC_ALLOC (i j : Nat) : Nat := 0x00104010 + 0x10000 * i + 0x4 * j
/-- SPC_WIN_ADDR (R125): EG. -/
def SPC_WIN_ADDR (i : Nat) : Nat := 0x00104020 + 0x10000 * i
/-- SPC_WIN_DATA (R125): EG. -/
def SPC_WIN_DATA (i : Nat) : Nat := 0x00104024 + 0x10000 * i
/-- SPC_LATE_TAINT_CNT (R125): RW. -/
def SPC_LATE_TAINT_CNT (i : Nat) : Nat := 0x00104028 + 0x10000 * i
/-- SPC_MEM_CE_CNT (R125): RW. -/
def SPC_MEM_CE_CNT (i : Nat) : Nat := 0x0010402C + 0x10000 * i
/-- SPC_CH_CFG (R125): EG. -/
def SPC_CH_CFG (i j : Nat) : Nat := 0x00104100 + 0x10000 * i + 0x40 * j
/-- SPC_CH_BINS (R125): EG. -/
def SPC_CH_BINS (i j : Nat) : Nat := 0x00104104 + 0x10000 * i + 0x40 * j
/-- SPC_CH_POFS (R125): EG. -/
def SPC_CH_POFS (i j : Nat) : Nat := 0x00104108 + 0x10000 * i + 0x40 * j
/-- SPC_CH_STATUS (R125): RO. -/
def SPC_CH_STATUS (i j : Nat) : Nat := 0x0010410C + 0x10000 * i + 0x40 * j
/-- SPC_CH_LAT (R125): RO. -/
def SPC_CH_LAT (i j : Nat) : Nat := 0x00104110 + 0x10000 * i + 0x40 * j
/-- SPC_CH_SPEC_CNT (R125): RW. -/
def SPC_CH_SPEC_CNT (i j : Nat) : Nat := 0x00104114 + 0x10000 * i + 0x40 * j
/-- SPC_CH_SKIP_CNT (R125): RW. -/
def SPC_CH_SKIP_CNT (i j : Nat) : Nat := 0x00104118 + 0x10000 * i + 0x40 * j
/-- STR_STATUS (R161): RO, W1C. -/
def STR_STATUS (i : Nat) : Nat := 0x00106000 + 0x10000 * i
/-- STR_INT_STATUS (R161): W1C. -/
def STR_INT_STATUS (i : Nat) : Nat := 0x00106004 + 0x10000 * i
/-- STR_INT_ENABLE (R161): RW. -/
def STR_INT_ENABLE (i : Nat) : Nat := 0x00106008 + 0x10000 * i
/-- STR_TAINT_EVT_CNT (R161): RW. -/
def STR_TAINT_EVT_CNT (i : Nat) : Nat := 0x0010600C + 0x10000 * i
/-- STR_MASK_ADDR (R161): EG. -/
def STR_MASK_ADDR (i : Nat) : Nat := 0x00106010 + 0x10000 * i
/-- STR_MASK_DATA (R161): EG. -/
def STR_MASK_DATA (i : Nat) : Nat := 0x00106014 + 0x10000 * i
/-- STR_PRIM_CFG (R161): EG. -/
def STR_PRIM_CFG (i j : Nat) : Nat := 0x00106100 + 0x10000 * i + 0x20 * j
/-- STR_PRIM_THR (R161): EG. -/
def STR_PRIM_THR (i j : Nat) : Nat := 0x00106104 + 0x10000 * i + 0x20 * j
/-- STR_PRIM_HYST (R161): EG. -/
def STR_PRIM_HYST (i j : Nat) : Nat := 0x00106108 + 0x10000 * i + 0x20 * j
/-- STR_PRIM_WIDTH (R161): EG. -/
def STR_PRIM_WIDTH (i j : Nat) : Nat := 0x0010610C + 0x10000 * i + 0x20 * j
/-- STR_PRIM_CNT (R161): RW. -/
def STR_PRIM_CNT (i j : Nat) : Nat := 0x00106110 + 0x10000 * i + 0x20 * j
/-- STR_SC_CFG (R161): EG. -/
def STR_SC_CFG (i j : Nat) : Nat := 0x00106200 + 0x10000 * i + 0x20 * j
/-- STR_SC_BAND (R161): EG. -/
def STR_SC_BAND (i j : Nat) : Nat := 0x00106204 + 0x10000 * i + 0x20 * j
/-- STR_SC_THR (R161): EG. -/
def STR_SC_THR (i j : Nat) : Nat := 0x00106208 + 0x10000 * i + 0x20 * j
/-- STR_SC_MASK (R161): EG. -/
def STR_SC_MASK (i j : Nat) : Nat := 0x0010620C + 0x10000 * i + 0x20 * j
/-- STR_SC_STATUS (R161): RO. -/
def STR_SC_STATUS (i j : Nat) : Nat := 0x00106210 + 0x10000 * i + 0x20 * j
/-- STR_SC_VIOL_LO (R161): SH. -/
def STR_SC_VIOL_LO (i j : Nat) : Nat := 0x00106214 + 0x10000 * i + 0x20 * j
/-- STR_SC_VIOL_HI (R161): SH. -/
def STR_SC_VIOL_HI (i j : Nat) : Nat := 0x00106218 + 0x10000 * i + 0x20 * j
/-- STR_SC_CNT (R161): RW. -/
def STR_SC_CNT (i j : Nat) : Nat := 0x0010621C + 0x10000 * i + 0x20 * j
/-- TRD_STATUS (R162): RO, W1C. -/
def TRD_STATUS : Nat := 0x00300000
/-- TRD_INT_STATUS (R162): W1C. -/
def TRD_INT_STATUS : Nat := 0x00300004
/-- TRD_INT_ENABLE (R162): RW. -/
def TRD_INT_ENABLE : Nat := 0x00300008
/-- TRD_SOFT (R162): W1S. -/
def TRD_SOFT : Nat := 0x0030000C
/-- TRD_SLICE_ABSENT (R162): RO. -/
def TRD_SLICE_ABSENT : Nat := 0x00300010
/-- TRD_TAINT_TRIG_CNT (R162): RW. -/
def TRD_TAINT_TRIG_CNT : Nat := 0x00300014
/-- TRD_TMR_CNT (R162): RW. -/
def TRD_TMR_CNT (i : Nat) : Nat := 0x00300018 + 0x4 * i
/-- TRD_IN_CFG (R162): EG. -/
def TRD_IN_CFG : Nat := 0x00300024
/-- TRD_OUT_CFG (R162): EG. -/
def TRD_OUT_CFG (i : Nat) : Nat := 0x00300040 + 0x4 * i
/-- TRD_SUM_MASK_LO (R162): EG. -/
def TRD_SUM_MASK_LO (i : Nat) : Nat := 0x00300100 + 0x8 * i
/-- TRD_SUM_MASK_HI (R162): EG. -/
def TRD_SUM_MASK_HI (i : Nat) : Nat := 0x00300104 + 0x8 * i
/-- TRD_TERM_CFG (R162): EG. -/
def TRD_TERM_CFG (i : Nat) : Nat := 0x00300400 + 0x4 * i
/-- TRD_LIT_A (R162): EG. -/
def TRD_LIT_A (i j : Nat) : Nat := 0x00301000 + 0x40 * i + 0x8 * j
/-- TRD_LIT_B (R162): EG. -/
def TRD_LIT_B (i j : Nat) : Nat := 0x00301004 + 0x40 * i + 0x8 * j
/-- TRD_SHED_CTRL (R162): W1S. -/
def TRD_SHED_CTRL (i : Nat) : Nat := 0x00302000 + 0x80 * i
/-- TRD_SHED_STATUS (R162): RO, W1C. -/
def TRD_SHED_STATUS (i : Nat) : Nat := 0x00302004 + 0x80 * i
/-- TRD_SHED_CFG (R162): EG. -/
def TRD_SHED_CFG (i : Nat) : Nat := 0x00302008 + 0x80 * i
/-- TRD_SHED_PRE (R162): EG. -/
def TRD_SHED_PRE (i : Nat) : Nat := 0x0030200C + 0x80 * i
/-- TRD_SHED_POST_LO (R162): EG. -/
def TRD_SHED_POST_LO (i : Nat) : Nat := 0x00302010 + 0x80 * i
/-- TRD_SHED_POST_HI (R162): EG. -/
def TRD_SHED_POST_HI (i : Nat) : Nat := 0x00302014 + 0x80 * i
/-- TRD_SHED_HOLD (R162): EG. -/
def TRD_SHED_HOLD (i : Nat) : Nat := 0x00302018 + 0x80 * i
/-- TRD_SHED_SEG (R162): EG. -/
def TRD_SHED_SEG (i : Nat) : Nat := 0x0030201C + 0x80 * i
/-- TRD_SHED_CHMASK (R162): EG. -/
def TRD_SHED_CHMASK (i j : Nat) : Nat := 0x00302020 + 0x80 * i + 0x4 * j
/-- TRD_SHED_TRIG_LO (R162): SH. -/
def TRD_SHED_TRIG_LO (i : Nat) : Nat := 0x00302038 + 0x80 * i
/-- TRD_SHED_TRIG_HI (R162): SH. -/
def TRD_SHED_TRIG_HI (i : Nat) : Nat := 0x0030203C + 0x80 * i
/-- TRD_SHED_TRIG_FRAC (R162): RO. -/
def TRD_SHED_TRIG_FRAC (i : Nat) : Nat := 0x00302040 + 0x80 * i
/-- TRD_SHED_COUNT (R162): RW. -/
def TRD_SHED_COUNT (i : Nat) : Nat := 0x00302044 + 0x80 * i
/-- TRD_SHED_MISSED (R162): RW. -/
def TRD_SHED_MISSED (i : Nat) : Nat := 0x00302048 + 0x80 * i
/-- TRD_SHED_DISCARD (R162): RW. -/
def TRD_SHED_DISCARD (i : Nat) : Nat := 0x0030204C + 0x80 * i
/-- BOB_STATUS (R191): RO, W1C. -/
def BOB_STATUS : Nat := 0x00400000
/-- BOB_INT_STATUS (R191): W1C. -/
def BOB_INT_STATUS : Nat := 0x00400004
/-- BOB_INT_ENABLE (R191): RW. -/
def BOB_INT_ENABLE : Nat := 0x00400008
/-- BOB_CFG (R191): RW. -/
def BOB_CFG : Nat := 0x0040000C
/-- BOB_HOST (R191): RO. -/
def BOB_HOST : Nat := 0x00400010
/-- BOB_LAYOUT0 (R191): RO. -/
def BOB_LAYOUT0 : Nat := 0x00400014
/-- BOB_LAYOUT1 (R191): RO. -/
def BOB_LAYOUT1 : Nat := 0x00400018
/-- BOB_HOST_LAT (R191): RO. -/
def BOB_HOST_LAT : Nat := 0x0040001C
/-- BOB_PC_RETIRED_LO (R191): RO. -/
def BOB_PC_RETIRED_LO : Nat := 0x00400020
/-- BOB_PC_RETIRED_HI (R191): RO. -/
def BOB_PC_RETIRED_HI : Nat := 0x00400024
/-- BOB_PC_PENDING_LO (R191): W1S. -/
def BOB_PC_PENDING_LO : Nat := 0x00400028
/-- BOB_PC_PENDING_HI (R191): W1S. -/
def BOB_PC_PENDING_HI : Nat := 0x0040002C
/-- BOB_CE_CNT (R191): RW. -/
def BOB_CE_CNT (i : Nat) : Nat := 0x00400030 + 0x4 * i
/-- BOB_UE_CNT (R191): RW. -/
def BOB_UE_CNT (i : Nat) : Nat := 0x00400038 + 0x4 * i
/-- BOB_ERR_ADDR_LO (R191): SH. -/
def BOB_ERR_ADDR_LO : Nat := 0x00400040
/-- BOB_ERR_ADDR_HI (R191): SH. -/
def BOB_ERR_ADDR_HI : Nat := 0x00400044
/-- BOB_ERR_INFO (R191): RO. -/
def BOB_ERR_INFO : Nat := 0x00400048
/-- BOB_SCRUB_CFG (R191): RW. -/
def BOB_SCRUB_CFG : Nat := 0x00400050
/-- BOB_RETIRE_CFG (R191): RW. -/
def BOB_RETIRE_CFG : Nat := 0x00400054
/-- BOB_LOOKUP_CTRL (R191): RW, W1S. -/
def BOB_LOOKUP_CTRL : Nat := 0x00400060
/-- BOB_LOOKUP_WT_LO (R191): RW. -/
def BOB_LOOKUP_WT_LO : Nat := 0x00400064
/-- BOB_LOOKUP_WT_HI (R191): RW. -/
def BOB_LOOKUP_WT_HI : Nat := 0x00400068
/-- BOB_LOOKUP_STATUS (R191): RO. -/
def BOB_LOOKUP_STATUS : Nat := 0x0040006C
/-- BOB_LOOKUP_POS_LO (R191): SH. -/
def BOB_LOOKUP_POS_LO : Nat := 0x00400070
/-- BOB_LOOKUP_POS_HI (R191): SH. -/
def BOB_LOOKUP_POS_HI : Nat := 0x00400074
/-- BOB_SR_CFG (R191): RW. -/
def BOB_SR_CFG (i : Nat) : Nat := 0x00400100 + 0x20 * i
/-- BOB_SR_CTRL (R191): W1S. -/
def BOB_SR_CTRL (i : Nat) : Nat := 0x00400104 + 0x20 * i
/-- BOB_SR_STATUS (R191): RO. -/
def BOB_SR_STATUS (i : Nat) : Nat := 0x00400108 + 0x20 * i
/-- BOB_SR_CANCEL_CNT (R191): RW. -/
def BOB_SR_CANCEL_CNT (i : Nat) : Nat := 0x0040010C + 0x20 * i
/-- BOB_TSET (R191): RW. -/
def BOB_TSET (i j : Nat) : Nat := 0x00400800 + 0x80 * i + 0x4 * j
/-- BOB_RING_CFG (R191): EG. -/
def BOB_RING_CFG (i : Nat) : Nat := 0x00401000 + 0x20 * i
/-- BOB_RING_BASE (R191): EG. -/
def BOB_RING_BASE (i : Nat) : Nat := 0x00401004 + 0x20 * i
/-- BOB_RING_SIZE (R191): EG. -/
def BOB_RING_SIZE (i : Nat) : Nat := 0x00401008 + 0x20 * i
/-- BOB_RING_STATUS (R191): RO, W1C. -/
def BOB_RING_STATUS (i : Nat) : Nat := 0x0040100C + 0x20 * i
/-- BOB_RING_WPOS_LO (R191): SH. -/
def BOB_RING_WPOS_LO (i : Nat) : Nat := 0x00401010 + 0x20 * i
/-- BOB_RING_WPOS_HI (R191): SH. -/
def BOB_RING_WPOS_HI (i : Nat) : Nat := 0x00401014 + 0x20 * i
/-- BOB_RING_LOST (R191): RW. -/
def BOB_RING_LOST (i : Nat) : Nat := 0x00401018 + 0x20 * i
/-- BOB_RING_DIR_DROP (R191): RW. -/
def BOB_RING_DIR_DROP (i : Nat) : Nat := 0x0040101C + 0x20 * i
/-- BOB_PC_STATUS (R191): RO. -/
def BOB_PC_STATUS (i : Nat) : Nat := 0x00404000 + 0x4 * i
/-- BOB_REPAIR (R191): RO. -/
def BOB_REPAIR (i : Nat) : Nat := 0x00405000 + 0x4 * i
/-- TAP_STATUS (R210): RO, W1C. -/
def TAP_STATUS : Nat := 0x00500000
/-- TAP_INT_STATUS (R210): W1C. -/
def TAP_INT_STATUS : Nat := 0x00500004
/-- TAP_INT_ENABLE (R210): RW. -/
def TAP_INT_ENABLE : Nat := 0x00500008
/-- TAP_CTRL (R210): W1S. -/
def TAP_CTRL : Nat := 0x0050000C
/-- TAP_WIN (R210): RW. -/
def TAP_WIN : Nat := 0x00500010
/-- TAP_PL_CFG (R210): EG. -/
def TAP_PL_CFG (i : Nat) : Nat := 0x00500100 + 0x80 * i
/-- TAP_PL_GEOM (R210): EG. -/
def TAP_PL_GEOM (i : Nat) : Nat := 0x00500104 + 0x80 * i
/-- TAP_PL_FIRST (R210): EG. -/
def TAP_PL_FIRST (i : Nat) : Nat := 0x00500108 + 0x80 * i
/-- TAP_PL_ROWMAP (R210): EG. -/
def TAP_PL_ROWMAP (i : Nat) : Nat := 0x0050010C + 0x80 * i
/-- TAP_PL_PERIOD (R210): EG. -/
def TAP_PL_PERIOD (i : Nat) : Nat := 0x00500110 + 0x80 * i
/-- TAP_PL_PERSIST (R210): RW. -/
def TAP_PL_PERSIST (i : Nat) : Nat := 0x00500114 + 0x80 * i
/-- TAP_PL_MAP (R210): RW. -/
def TAP_PL_MAP (i : Nat) : Nat := 0x00500118 + 0x80 * i
/-- TAP_PL_MAP_GAIN (R210): RW. -/
def TAP_PL_MAP_GAIN (i : Nat) : Nat := 0x0050011C + 0x80 * i
/-- TAP_PL_SRC (R210): EG. -/
def TAP_PL_SRC (i j : Nat) : Nat := 0x00500120 + 0x80 * i + 0x4 * j
/-- TAP_PL_STATUS (R210): RO. -/
def TAP_PL_STATUS (i : Nat) : Nat := 0x00500140 + 0x80 * i
/-- TAP_PL_FRAME_NO (R210): RO. -/
def TAP_PL_FRAME_NO (i : Nat) : Nat := 0x00500144 + 0x80 * i
/-- TAP_PL_SPECTRA (R210): RO. -/
def TAP_PL_SPECTRA (i : Nat) : Nat := 0x00500148 + 0x80 * i
/-- TAP_PL_DROP (R210): RO. -/
def TAP_PL_DROP (i : Nat) : Nat := 0x0050014C + 0x80 * i
/-- TAP_PL_SAT (R210): RO. -/
def TAP_PL_SAT (i : Nat) : Nat := 0x00500150 + 0x80 * i
/-- TAP_PL_OOR (R210): RO. -/
def TAP_PL_OOR (i : Nat) : Nat := 0x00500154 + 0x80 * i
/-- TAP_PL_TAINT (R210): RO. -/
def TAP_PL_TAINT (i : Nat) : Nat := 0x00500158 + 0x80 * i
/-- TAP_PL_MAX (R210): RO. -/
def TAP_PL_MAX (i : Nat) : Nat := 0x0050015C + 0x80 * i
/-- TAP_PL_SKIP_CNT (R210): RW. -/
def TAP_PL_SKIP_CNT (i : Nat) : Nat := 0x00500160 + 0x80 * i
/-- TAP_PL_CLOSE_LO (R210): SH. -/
def TAP_PL_CLOSE_LO (i : Nat) : Nat := 0x00500164 + 0x80 * i
/-- TAP_PL_CLOSE_HI (R210): SH. -/
def TAP_PL_CLOSE_HI (i : Nat) : Nat := 0x00500168 + 0x80 * i
/-- PNL_STATUS (R229): RO, W1C. -/
def PNL_STATUS : Nat := 0x00600000
/-- PNL_INT_STATUS (R229): W1C. -/
def PNL_INT_STATUS : Nat := 0x00600004
/-- PNL_INT_ENABLE (R229): RW. -/
def PNL_INT_ENABLE : Nat := 0x00600008
/-- PNL_CTRL (R229): W1S. -/
def PNL_CTRL : Nat := 0x0060000C
/-- PNL_CFG (R229): EG. -/
def PNL_CFG : Nat := 0x00600010
/-- PNL_BG (R229): RW, pending. -/
def PNL_BG : Nat := 0x00600014
/-- PNL_COMMIT_REPL_CNT (R229): RW. -/
def PNL_COMMIT_REPL_CNT : Nat := 0x00600018
/-- PNL_ECC_CE_CNT (R229): RW. -/
def PNL_ECC_CE_CNT : Nat := 0x0060001C
/-- PNL_PCLK (R229): EG. -/
def PNL_PCLK (i : Nat) : Nat := 0x00600100 + 0x80 * i
/-- PNL_HACT (R229): EG. -/
def PNL_HACT (i : Nat) : Nat := 0x00600104 + 0x80 * i
/-- PNL_HSYNC (R229): EG. -/
def PNL_HSYNC (i : Nat) : Nat := 0x00600108 + 0x80 * i
/-- PNL_VACT (R229): EG. -/
def PNL_VACT (i : Nat) : Nat := 0x0060010C + 0x80 * i
/-- PNL_VSYNC (R229): EG. -/
def PNL_VSYNC (i : Nat) : Nat := 0x00600110 + 0x80 * i
/-- PNL_LINK (R229): EG. -/
def PNL_LINK (i : Nat) : Nat := 0x00600114 + 0x80 * i
/-- PNL_OSTATUS (R229): RO. -/
def PNL_OSTATUS (i : Nat) : Nat := 0x00600118 + 0x80 * i
/-- PNL_FRAME (R229): RO. -/
def PNL_FRAME (i : Nat) : Nat := 0x0060011C + 0x80 * i
/-- PNL_FLIP_WT_LO (R229): SH. -/
def PNL_FLIP_WT_LO (i : Nat) : Nat := 0x00600120 + 0x80 * i
/-- PNL_FLIP_WT_HI (R229): SH. -/
def PNL_FLIP_WT_HI (i : Nat) : Nat := 0x00600124 + 0x80 * i
/-- PNL_VBLANK_CNT (R229): RO. -/
def PNL_VBLANK_CNT (i : Nat) : Nat := 0x00600128 + 0x80 * i
/-- PNL_LATE_CNT (R229): RW. -/
def PNL_LATE_CNT (i : Nat) : Nat := 0x0060012C + 0x80 * i
/-- PNL_AUX_ADDR (R229): RW. -/
def PNL_AUX_ADDR (i : Nat) : Nat := 0x00600130 + 0x80 * i
/-- PNL_AUX_CTRL (R229): RW, W1S. -/
def PNL_AUX_CTRL (i : Nat) : Nat := 0x00600134 + 0x80 * i
/-- PNL_AUX_DATA (R229): RW. -/
def PNL_AUX_DATA (i j : Nat) : Nat := 0x00600140 + 0x80 * i + 0x4 * j
/-- PNL_LAYER_CFG (R229): RW, pending. -/
def PNL_LAYER_CFG (i : Nat) : Nat := 0x00600400 + 0x40 * i
/-- PNL_LAYER_POS (R229): RW, pending. -/
def PNL_LAYER_POS (i : Nat) : Nat := 0x00600404 + 0x40 * i
/-- PNL_LAYER_SIZE (R229): RW, pending. -/
def PNL_LAYER_SIZE (i : Nat) : Nat := 0x00600408 + 0x40 * i
/-- PNL_LAYER_BASE_LO (R229): RW, pending. -/
def PNL_LAYER_BASE_LO (i : Nat) : Nat := 0x0060040C + 0x40 * i
/-- PNL_LAYER_BASE_HI (R229): RW, pending. -/
def PNL_LAYER_BASE_HI (i : Nat) : Nat := 0x00600410 + 0x40 * i
/-- PNL_LAYER_STRIDE (R229): RW, pending. -/
def PNL_LAYER_STRIDE (i : Nat) : Nat := 0x00600414 + 0x40 * i
/-- PNL_LAYER_RETIRE (R229): RO. -/
def PNL_LAYER_RETIRE (i : Nat) : Nat := 0x00600418 + 0x40 * i
/-- PNL_CRC_RECT0 (R229): RW, pending. -/
def PNL_CRC_RECT0 (i : Nat) : Nat := 0x00600800 + 0x10 * i
/-- PNL_CRC_RECT1 (R229): RW, pending. -/
def PNL_CRC_RECT1 (i : Nat) : Nat := 0x00600804 + 0x10 * i
/-- PNL_CRC_EXPECT (R229): RW, pending. -/
def PNL_CRC_EXPECT (i : Nat) : Nat := 0x00600808 + 0x10 * i
/-- PNL_CRC_VALUE (R229): RO. -/
def PNL_CRC_VALUE (i : Nat) : Nat := 0x0060080C + 0x10 * i
/-- SHU_STATUS (R268): RO, W1C. -/
def SHU_STATUS (i : Nat) : Nat := 0x00108000 + 0x10000 * i
/-- SHU_INT_STATUS (R268): W1C. -/
def SHU_INT_STATUS (i : Nat) : Nat := 0x00108004 + 0x10000 * i
/-- SHU_INT_ENABLE (R268): RW. -/
def SHU_INT_ENABLE (i : Nat) : Nat := 0x00108008 + 0x10000 * i
/-- SHU_CTRL (R268): W1S. -/
def SHU_CTRL (i : Nat) : Nat := 0x0010800C + 0x10000 * i
/-- SHU_CFG (R268): EG. -/
def SHU_CFG (i : Nat) : Nat := 0x00108010 + 0x10000 * i
/-- SHU_START (R268): RW. -/
def SHU_START (i : Nat) : Nat := 0x00108014 + 0x10000 * i
/-- SHU_PC (R268): RO. -/
def SHU_PC (i : Nat) : Nat := 0x00108018 + 0x10000 * i
/-- SHU_FAULT (R268): RO. -/
def SHU_FAULT (i : Nat) : Nat := 0x0010801C + 0x10000 * i
/-- SHU_MBOX_IN (R268): RW. -/
def SHU_MBOX_IN (i : Nat) : Nat := 0x00108020 + 0x10000 * i
/-- SHU_MBOX_OUT (R268): RC. -/
def SHU_MBOX_OUT (i : Nat) : Nat := 0x00108024 + 0x10000 * i
/-- SHU_BREAK (R268): RW. -/
def SHU_BREAK (i : Nat) : Nat := 0x00108028 + 0x10000 * i
/-- SHU_PART_CNT (R268): RW. -/
def SHU_PART_CNT (i : Nat) : Nat := 0x0010802C + 0x10000 * i
/-- SHU_VETO_CNT (R268): RW. -/
def SHU_VETO_CNT (i : Nat) : Nat := 0x00108030 + 0x10000 * i
/-- SHU_BYPASS_CNT (R268): RW. -/
def SHU_BYPASS_CNT (i : Nat) : Nat := 0x00108034 + 0x10000 * i
/-- SHU_TIMEOUT_CNT (R268): RW. -/
def SHU_TIMEOUT_CNT (i : Nat) : Nat := 0x00108038 + 0x10000 * i
/-- SHU_STALE_CNT (R268): RW. -/
def SHU_STALE_CNT (i : Nat) : Nat := 0x0010803C + 0x10000 * i
/-- SHU_CYCLE_CNT (R268): RW. -/
def SHU_CYCLE_CNT (i : Nat) : Nat := 0x00108040 + 0x10000 * i
/-- SHU_MEM_CE_CNT (R268): RW. -/
def SHU_MEM_CE_CNT (i : Nat) : Nat := 0x00108044 + 0x10000 * i
/-- REC_STATUS (R294): RO, W1C. -/
def REC_STATUS : Nat := 0x00700000
/-- REC_INT_STATUS (R294): W1C. -/
def REC_INT_STATUS : Nat := 0x00700004
/-- REC_INT_ENABLE (R294): RW. -/
def REC_INT_ENABLE : Nat := 0x00700008
/-- REC_USER_ADDR_LO (R294): RW. -/
def REC_USER_ADDR_LO : Nat := 0x00700010
/-- REC_USER_ADDR_HI (R294): RW. -/
def REC_USER_ADDR_HI : Nat := 0x00700014
/-- REC_USER_LEN (R294): RW. -/
def REC_USER_LEN : Nat := 0x00700018
/-- REC_USER_TAG (R294): RW. -/
def REC_USER_TAG : Nat := 0x0070001C
/-- REC_USER_CTRL (R294): RW, W1S, RO. -/
def REC_USER_CTRL : Nat := 0x00700020
/-- REC_SIDE_CFG (R294): RW. -/
def REC_SIDE_CFG (i : Nat) : Nat := 0x00700040 + 0x4 * i
/-- REC_SIDE_DROP (R294): RW. -/
def REC_SIDE_DROP (i : Nat) : Nat := 0x00700060 + 0x4 * i
/-- REC_SIDE_STATUS (R294): W1C. -/
def REC_SIDE_STATUS : Nat := 0x00700080
/-- REC_Q_STATUS (R294): RO, W1C. -/
def REC_Q_STATUS (i : Nat) : Nat := 0x00700400 + 0x10 * i
/-- REC_Q_MAX (R294): RC. -/
def REC_Q_MAX (i : Nat) : Nat := 0x00700404 + 0x10 * i
/-- REC_Q_PAR_CNT (R294): RW. -/
def REC_Q_PAR_CNT (i : Nat) : Nat := 0x00700408 + 0x10 * i
/-- REC_STREAM_CFG (R294): EG. -/
def REC_STREAM_CFG (i : Nat) : Nat := 0x00701000 + 0x10 * i
/-- REC_STREAM_REC_CNT (R294): RW. -/
def REC_STREAM_REC_CNT (i : Nat) : Nat := 0x00701004 + 0x10 * i
/-- REC_STREAM_DISC (R294): RW. -/
def REC_STREAM_DISC (i : Nat) : Nat := 0x00701008 + 0x10 * i
/-- QUL_STATUS (R295): RO, W1C. -/
def QUL_STATUS (i : Nat) : Nat := 0x0010A000 + 0x10000 * i
/-- QUL_INT_STATUS (R295): W1C. -/
def QUL_INT_STATUS (i : Nat) : Nat := 0x0010A004 + 0x10000 * i
/-- QUL_INT_ENABLE (R295): RW. -/
def QUL_INT_ENABLE (i : Nat) : Nat := 0x0010A008 + 0x10000 * i
/-- QUL_CH_CFG (R295): EG. -/
def QUL_CH_CFG (i j : Nat) : Nat := 0x0010A100 + 0x10000 * i + 0x10 * j
/-- QUL_RAW_REC_CNT (R295): RW. -/
def QUL_RAW_REC_CNT (i j : Nat) : Nat := 0x0010A104 + 0x10000 * i + 0x10 * j
/-- QUL_RAW_OVR_CNT (R295): RW. -/
def QUL_RAW_OVR_CNT (i j : Nat) : Nat := 0x0010A108 + 0x10000 * i + 0x10 * j
/-- QUL_SPEC_REC_CNT (R295): RW. -/
def QUL_SPEC_REC_CNT (i j : Nat) : Nat := 0x0010A10C + 0x10000 * i + 0x10 * j
/-- SKN_STATUS (R296): RO, W1C. -/
def SKN_STATUS : Nat := 0x00800000
/-- SKN_INT_STATUS (R296): W1C. -/
def SKN_INT_STATUS : Nat := 0x00800004
/-- SKN_INT_ENABLE (R296): RW. -/
def SKN_INT_ENABLE : Nat := 0x00800008
/-- SKN_CLASS (R296): EG. -/
def SKN_CLASS (i : Nat) : Nat := 0x00800010 + 0x4 * i
/-- SKN_ENG_STATUS (R296): RO. -/
def SKN_ENG_STATUS (i : Nat) : Nat := 0x00800100 + 0x10 * i
/-- SKN_RAW_CNT (R296): RW. -/
def SKN_RAW_CNT (i : Nat) : Nat := 0x00800104 + 0x10 * i
/-- SKN_WIRE_CNT (R296): RW. -/
def SKN_WIRE_CNT (i : Nat) : Nat := 0x00800108 + 0x10 * i
/-- SKN_FALLBACK_CNT (R296): RW. -/
def SKN_FALLBACK_CNT (i : Nat) : Nat := 0x0080010C + 0x10 * i
/-- SKN_DEC_SRC_LO (R296): RW. -/
def SKN_DEC_SRC_LO (i : Nat) : Nat := 0x00800400 + 0x40 * i
/-- SKN_DEC_SRC_HI (R296): RW. -/
def SKN_DEC_SRC_HI (i : Nat) : Nat := 0x00800404 + 0x40 * i
/-- SKN_DEC_SRC_LEN (R296): RW. -/
def SKN_DEC_SRC_LEN (i : Nat) : Nat := 0x00800408 + 0x40 * i
/-- SKN_DEC_DST_LO (R296): RW. -/
def SKN_DEC_DST_LO (i : Nat) : Nat := 0x0080040C + 0x40 * i
/-- SKN_DEC_DST_HI (R296): RW. -/
def SKN_DEC_DST_HI (i : Nat) : Nat := 0x00800410 + 0x40 * i
/-- SKN_DEC_DST_LEN (R296): RW. -/
def SKN_DEC_DST_LEN (i : Nat) : Nat := 0x00800414 + 0x40 * i
/-- SKN_DEC_EXPECT (R296): RW. -/
def SKN_DEC_EXPECT (i : Nat) : Nat := 0x00800418 + 0x40 * i
/-- SKN_DEC_CTRL (R296): W1S, RW. -/
def SKN_DEC_CTRL (i : Nat) : Nat := 0x0080041C + 0x40 * i
/-- SKN_DEC_STATUS (R296): RO, W1C. -/
def SKN_DEC_STATUS (i : Nat) : Nat := 0x00800420 + 0x40 * i
/-- SKN_DEC_OUT_LEN (R296): RO. -/
def SKN_DEC_OUT_LEN (i : Nat) : Nat := 0x00800424 + 0x40 * i
/-- SKN_DEC_IN_USED (R296): RO. -/
def SKN_DEC_IN_USED (i : Nat) : Nat := 0x00800428 + 0x40 * i
/-- HNS_STATUS (R330): RO, W1C. -/
def HNS_STATUS : Nat := 0x00900000
/-- HNS_INT_STATUS (R330): W1C. -/
def HNS_INT_STATUS : Nat := 0x00900004
/-- HNS_INT_ENABLE (R330): RW. -/
def HNS_INT_ENABLE : Nat := 0x00900008
/-- HNS_PORT_CFG (R330): EG. -/
def HNS_PORT_CFG (i : Nat) : Nat := 0x00901000 + 0x1000 * i
/-- HNS_PORT_STATUS (R330): RO. -/
def HNS_PORT_STATUS (i : Nat) : Nat := 0x00901004 + 0x1000 * i
/-- HNS_PORT_ERR_CNT (R330): RW. -/
def HNS_PORT_ERR_CNT (i : Nat) : Nat := 0x00901008 + 0x1000 * i
/-- HNS_PORT_LOST_CNT (R330): RW. -/
def HNS_PORT_LOST_CNT (i : Nat) : Nat := 0x0090100C + 0x1000 * i
/-- HNS_PARTNER_DB (R330): RC. -/
def HNS_PARTNER_DB (i : Nat) : Nat := 0x00901010 + 0x1000 * i
/-- HNS_MSIX_SEND (R330): W1S. -/
def HNS_MSIX_SEND (i : Nat) : Nat := 0x00901014 + 0x1000 * i
/-- HNS_RING_STATUS (R330): RO. -/
def HNS_RING_STATUS (i j : Nat) : Nat := 0x00901100 + 0x1000 * i + 0x20 * j
/-- HNS_RING_BASE_LO (R330): RO. -/
def HNS_RING_BASE_LO (i j : Nat) : Nat := 0x00901104 + 0x1000 * i + 0x20 * j
/-- HNS_RING_BASE_HI (R330): RO. -/
def HNS_RING_BASE_HI (i j : Nat) : Nat := 0x00901108 + 0x1000 * i + 0x20 * j
/-- HNS_RING_WR_LO (R330): SH. -/
def HNS_RING_WR_LO (i j : Nat) : Nat := 0x0090110C + 0x1000 * i + 0x20 * j
/-- HNS_RING_WR_HI (R330): SH. -/
def HNS_RING_WR_HI (i j : Nat) : Nat := 0x00901110 + 0x1000 * i + 0x20 * j
/-- HNS_RING_RD_LO (R330): SH. -/
def HNS_RING_RD_LO (i j : Nat) : Nat := 0x00901114 + 0x1000 * i + 0x20 * j
/-- HNS_RING_RD_HI (R330): SH. -/
def HNS_RING_RD_HI (i j : Nat) : Nat := 0x00901118 + 0x1000 * i + 0x20 * j
/-- HNS_RING_STALL_CNT (R330): RW. -/
def HNS_RING_STALL_CNT (i j : Nat) : Nat := 0x0090111C + 0x1000 * i + 0x20 * j
/-- HNS_GRANT_BASE_LO (R330): RW. -/
def HNS_GRANT_BASE_LO (i j : Nat) : Nat := 0x00901400 + 0x1000 * i + 0x10 * j
/-- HNS_GRANT_BASE_HI (R330): RW. -/
def HNS_GRANT_BASE_HI (i j : Nat) : Nat := 0x00901404 + 0x1000 * i + 0x10 * j
/-- HNS_GRANT_SIZE (R330): RW. -/
def HNS_GRANT_SIZE (i j : Nat) : Nat := 0x00901408 + 0x1000 * i + 0x10 * j
/-- SPN_STATUS (R331): RO, W1C. -/
def SPN_STATUS : Nat := 0x00A00000
/-- SPN_INT_STATUS (R331): W1C. -/
def SPN_INT_STATUS : Nat := 0x00A00004
/-- SPN_INT_ENABLE (R331): RW. -/
def SPN_INT_ENABLE : Nat := 0x00A00008
/-- SPN_SIG_STATUS_LO (R331): W1C. -/
def SPN_SIG_STATUS_LO : Nat := 0x00A00010
/-- SPN_SIG_STATUS_HI (R331): W1C. -/
def SPN_SIG_STATUS_HI : Nat := 0x00A00014
/-- SPN_SIG_EN_LO (R331): RW. -/
def SPN_SIG_EN_LO : Nat := 0x00A00018
/-- SPN_SIG_EN_HI (R331): RW. -/
def SPN_SIG_EN_HI : Nat := 0x00A0001C
/-- SPN_ERR_STATUS_LO (R331): W1C. -/
def SPN_ERR_STATUS_LO : Nat := 0x00A00020
/-- SPN_ERR_STATUS_HI (R331): W1C. -/
def SPN_ERR_STATUS_HI : Nat := 0x00A00024
/-- SPN_CH_CTRL (R331): W1S. -/
def SPN_CH_CTRL (i : Nat) : Nat := 0x00A01000 + 0x80 * i
/-- SPN_CH_CFG (R331): EG. -/
def SPN_CH_CFG (i : Nat) : Nat := 0x00A01004 + 0x80 * i
/-- SPN_CH_STATUS (R331): RO. -/
def SPN_CH_STATUS (i : Nat) : Nat := 0x00A01008 + 0x80 * i
/-- SPN_CH_EVENT (R331): W1S, RO. -/
def SPN_CH_EVENT (i : Nat) : Nat := 0x00A0100C + 0x80 * i
/-- SPN_CH_PC_LO (R331): EG. -/
def SPN_CH_PC_LO (i : Nat) : Nat := 0x00A01010 + 0x80 * i
/-- SPN_CH_PC_HI (R331): EG. -/
def SPN_CH_PC_HI (i : Nat) : Nat := 0x00A01014 + 0x80 * i
/-- SPN_CH_SBASE_LO (R331): EG. -/
def SPN_CH_SBASE_LO (i : Nat) : Nat := 0x00A01018 + 0x80 * i
/-- SPN_CH_SBASE_HI (R331): EG. -/
def SPN_CH_SBASE_HI (i : Nat) : Nat := 0x00A0101C + 0x80 * i
/-- SPN_CH_DBASE_LO (R331): EG. -/
def SPN_CH_DBASE_LO (i : Nat) : Nat := 0x00A01020 + 0x80 * i
/-- SPN_CH_DBASE_HI (R331): EG. -/
def SPN_CH_DBASE_HI (i : Nat) : Nat := 0x00A01024 + 0x80 * i
/-- SPN_CH_LEN (R331): EG. -/
def SPN_CH_LEN (i : Nat) : Nat := 0x00A01028 + 0x80 * i
/-- SPN_CH_SPTR_LO (R331): EG. -/
def SPN_CH_SPTR_LO (i : Nat) : Nat := 0x00A01030 + 0x80 * i
/-- SPN_CH_SPTR_HI (R331): EG. -/
def SPN_CH_SPTR_HI (i : Nat) : Nat := 0x00A01034 + 0x80 * i
/-- SPN_CH_DPTR_LO (R331): EG. -/
def SPN_CH_DPTR_LO (i : Nat) : Nat := 0x00A01038 + 0x80 * i
/-- SPN_CH_DPTR_HI (R331): EG. -/
def SPN_CH_DPTR_HI (i : Nat) : Nat := 0x00A0103C + 0x80 * i
/-- SPN_CH_XCNT_LO (R331): EG. -/
def SPN_CH_XCNT_LO (i : Nat) : Nat := 0x00A01040 + 0x80 * i
/-- SPN_CH_XCNT_HI (R331): EG. -/
def SPN_CH_XCNT_HI (i : Nat) : Nat := 0x00A01044 + 0x80 * i
/-- SPN_CH_ERR_ADDR_LO (R331): SH. -/
def SPN_CH_ERR_ADDR_LO (i : Nat) : Nat := 0x00A01048 + 0x80 * i
/-- SPN_CH_ERR_ADDR_HI (R331): SH. -/
def SPN_CH_ERR_ADDR_HI (i : Nat) : Nat := 0x00A0104C + 0x80 * i
/-- SPN_CH_ERR_INFO (R331): RO. -/
def SPN_CH_ERR_INFO (i : Nat) : Nat := 0x00A01050 + 0x80 * i
/-- SPN_CH_SIG_WT_LO (R331): SH. -/
def SPN_CH_SIG_WT_LO (i : Nat) : Nat := 0x00A01054 + 0x80 * i
/-- SPN_CH_SIG_WT_HI (R331): SH. -/
def SPN_CH_SIG_WT_HI (i : Nat) : Nat := 0x00A01058 + 0x80 * i
/-- STP_STATUS (R360): RO, W1C. -/
def STP_STATUS : Nat := 0x00070000
/-- STP_INT_STATUS (R360): W1C. -/
def STP_INT_STATUS : Nat := 0x00070004
/-- STP_INT_ENABLE (R360): RW. -/
def STP_INT_ENABLE : Nat := 0x00070008
/-- STP_CTRL (R360): W1S. -/
def STP_CTRL : Nat := 0x0007000C
/-- STP_CFG (R360): RW. -/
def STP_CFG : Nat := 0x00070010
/-- STP_REF_NOM (R360): RW. -/
def STP_REF_NOM : Nat := 0x00070014
/-- STP_REF_PPB (R360): RO. -/
def STP_REF_PPB : Nat := 0x00070018
/-- STP_PHASE (R360): RO. -/
def STP_PHASE : Nat := 0x0007001C
/-- STP_HOLD_LIMIT (R360): RW. -/
def STP_HOLD_LIMIT : Nat := 0x00070020
/-- STP_OUT_CFG (R360): EG. -/
def STP_OUT_CFG (i : Nat) : Nat := 0x00070040 + 0x8 * i
/-- STP_OUT_FREQ (R360): EG. -/
def STP_OUT_FREQ (i : Nat) : Nat := 0x00070044 + 0x8 * i
/-- STP_SYNC_CFG (R360): RW. -/
def STP_SYNC_CFG : Nat := 0x00070080
/-- STP_OUT_STATUS (R360): RO. -/
def STP_OUT_STATUS : Nat := 0x00070084
/-- STP_OUT_PHASE (R360): EG. -/
def STP_OUT_PHASE (i : Nat) : Nat := 0x000700C0 + 0x4 * i
/-- WRP_STATUS (R361): RO, W1C. -/
def WRP_STATUS : Nat := 0x00020000
/-- WRP_INT_STATUS (R361): W1C. -/
def WRP_INT_STATUS : Nat := 0x00020004
/-- WRP_INT_ENABLE (R361): RW. -/
def WRP_INT_ENABLE : Nat := 0x00020008
/-- WRP_CTRL (R361): W1S. -/
def WRP_CTRL : Nat := 0x0002000C
/-- WRP_CFG (R361): RW. -/
def WRP_CFG : Nat := 0x00020010
/-- WRP_NOW_LO (R361): SH. -/
def WRP_NOW_LO : Nat := 0x00020014
/-- WRP_NOW_HI (R361): SH. -/
def WRP_NOW_HI : Nat := 0x00020018
/-- WRP_PRELOAD_LO (R361): RW. -/
def WRP_PRELOAD_LO : Nat := 0x0002001C
/-- WRP_PRELOAD_HI (R361): RW. -/
def WRP_PRELOAD_HI : Nat := 0x00020020
/-- WRP_SYNC_WT_LO (R361): SH. -/
def WRP_SYNC_WT_LO : Nat := 0x00020024
/-- WRP_SYNC_WT_HI (R361): SH. -/
def WRP_SYNC_WT_HI : Nat := 0x00020028
/-- WRP_SYNC_DIFF_LO (R361): SH. -/
def WRP_SYNC_DIFF_LO : Nat := 0x0002002C
/-- WRP_SYNC_DIFF_HI (R361): SH. -/
def WRP_SYNC_DIFF_HI : Nat := 0x00020030
/-- WRP_STEP_BEFORE_LO (R361): SH. -/
def WRP_STEP_BEFORE_LO : Nat := 0x00020034
/-- WRP_STEP_BEFORE_HI (R361): SH. -/
def WRP_STEP_BEFORE_HI : Nat := 0x00020038
/-- WRP_STEP_AFTER_LO (R361): SH. -/
def WRP_STEP_AFTER_LO : Nat := 0x0002003C
/-- WRP_STEP_AFTER_HI (R361): SH. -/
def WRP_STEP_AFTER_HI : Nat := 0x00020040
/-- WRP_STEP_INFO (R361): RO. -/
def WRP_STEP_INFO : Nat := 0x00020044
/-- WRP_STEP_CNT (R361): RW. -/
def WRP_STEP_CNT : Nat := 0x00020048
/-- HFB_STATUS (R362): RO, W1C. -/
def HFB_STATUS : Nat := 0x00080000
/-- HFB_INT_STATUS (R362): W1C. -/
def HFB_INT_STATUS : Nat := 0x00080004
/-- HFB_INT_ENABLE (R362): RW. -/
def HFB_INT_ENABLE : Nat := 0x00080008
/-- HFB_CTRL (R362): W1S. -/
def HFB_CTRL : Nat := 0x0008000C
/-- HFB_CAL_ADDR (R362): RW. -/
def HFB_CAL_ADDR : Nat := 0x00080010
/-- HFB_CAL_DATA (R362): RO. -/
def HFB_CAL_DATA : Nat := 0x00080014
/-- HFB_DLL_LOCK (R362): RO. -/
def HFB_DLL_LOCK : Nat := 0x00080018
/-- HFB_CAL_VALID (R362): RO. -/
def HFB_CAL_VALID : Nat := 0x0008001C
/-- HFB_IN_CFG (R362): EG. -/
def HFB_IN_CFG (i : Nat) : Nat := 0x00080100 + 0x20 * i
/-- HFB_DLY (R362): EG. -/
def HFB_DLY (i : Nat) : Nat := 0x00080104 + 0x20 * i
/-- HFB_STAMP_CNT (R362): RW. -/
def HFB_STAMP_CNT (i : Nat) : Nat := 0x00080108 + 0x20 * i
/-- HFB_DEAD_CNT (R362): RW. -/
def HFB_DEAD_CNT (i : Nat) : Nat := 0x0008010C + 0x20 * i
/-- HFB_DROP_CNT (R362): RW. -/
def HFB_DROP_CNT (i : Nat) : Nat := 0x00080110 + 0x20 * i
/-- HFB_EDGE_CNT (R362): RO. -/
def HFB_EDGE_CNT (i : Nat) : Nat := 0x00080114 + 0x20 * i
/-- GLB_ID (R388): RO. -/
def GLB_ID : Nat := 0x00000000
/-- GLB_FEATURE (R388): RO. -/
def GLB_FEATURE : Nat := 0x00000004
/-- GLB_STATUS (R388): RO, W1C. -/
def GLB_STATUS : Nat := 0x00000008
/-- GLB_INT_STATUS (R388): W1C. -/
def GLB_INT_STATUS : Nat := 0x0000000C
/-- GLB_INT_ENABLE (R388): RW. -/
def GLB_INT_ENABLE : Nat := 0x00000010
/-- GLB_RUN (R388): RO, W1S, RW. -/
def GLB_RUN : Nat := 0x00000014
/-- GLB_START_AT_LO (R388): SH. -/
def GLB_START_AT_LO : Nat := 0x00000018
/-- GLB_START_AT_HI (R388): SH. -/
def GLB_START_AT_HI : Nat := 0x0000001C
/-- GLB_RUN_NUMBER (R388): RO. -/
def GLB_RUN_NUMBER : Nat := 0x00000020
/-- GLB_DEGRADE (R388): RO. -/
def GLB_DEGRADE : Nat := 0x00000024
/-- GLB_BOOT (R388): RW, RO. -/
def GLB_BOOT : Nat := 0x00000028
/-- GLB_BUSERR_INFO (R388): RO. -/
def GLB_BUSERR_INFO : Nat := 0x0000002C
/-- GLB_BUSERR_ADDR_LO (R388): SH. -/
def GLB_BUSERR_ADDR_LO : Nat := 0x00000030
/-- GLB_BUSERR_ADDR_HI (R388): SH. -/
def GLB_BUSERR_ADDR_HI : Nat := 0x00000034
/-- GLB_BUSERR_CNT (R388): RW. -/
def GLB_BUSERR_CNT : Nat := 0x00000038
/-- GLB_DEGRADE_WT_LO (R388): SH. -/
def GLB_DEGRADE_WT_LO (i : Nat) : Nat := 0x00000040 + 0x8 * i
/-- GLB_DEGRADE_WT_HI (R388): SH. -/
def GLB_DEGRADE_WT_HI (i : Nat) : Nat := 0x00000044 + 0x8 * i
/-- GLB_VEC_MASK (R388): RW. -/
def GLB_VEC_MASK (i : Nat) : Nat := 0x00000100 + 0x4 * i
/-- GLB_VEC_PEND (R388): RO. -/
def GLB_VEC_PEND (i : Nat) : Nat := 0x00000120 + 0x4 * i
/-- BRD_STATUS (R427): RO, W1C. -/
def BRD_STATUS : Nat := 0x00060000
/-- BRD_INT_STATUS (R427): W1C. -/
def BRD_INT_STATUS : Nat := 0x00060004
/-- BRD_INT_ENABLE (R427): RW. -/
def BRD_INT_ENABLE : Nat := 0x00060008
/-- BRD_CMD (R427): RW, W1S, RO. -/
def BRD_CMD : Nat := 0x0006000C
/-- BRD_CMD_LEN (R427): RW. -/
def BRD_CMD_LEN : Nat := 0x00060010
/-- BRD_OUT_LEN (R427): RO. -/
def BRD_OUT_LEN : Nat := 0x00060014
/-- BRD_DEBUG (R427): RO. -/
def BRD_DEBUG : Nat := 0x00060018
/-- BRD_OWNER (R427): RO. -/
def BRD_OWNER : Nat := 0x0006001C
/-- BRD_SVN (R427): RO. -/
def BRD_SVN : Nat := 0x00060020
/-- BRD_JSEQ (R427): RO. -/
def BRD_JSEQ : Nat := 0x00060024
/-- BRD_JRN_DROP_CNT (R427): RW. -/
def BRD_JRN_DROP_CNT : Nat := 0x00060028
/-- BRD_JRN_BACKLOG (R427): RO. -/
def BRD_JRN_BACKLOG : Nat := 0x0006002C
/-- BRD_KEY_ID (R427): RO. -/
def BRD_KEY_ID (i : Nat) : Nat := 0x00060030 + 0x4 * i
/-- BRD_FRAG_CNT (R427): RW. -/
def BRD_FRAG_CNT (i : Nat) : Nat := 0x00060040 + 0x4 * i
/-- BRD_BOOT_NONCE_LO (R427): SH. -/
def BRD_BOOT_NONCE_LO : Nat := 0x00060050
/-- BRD_BOOT_NONCE_HI (R427): SH. -/
def BRD_BOOT_NONCE_HI : Nat := 0x00060054
/-- BRD_JHEAD (R427): RO. -/
def BRD_JHEAD (i : Nat) : Nat := 0x00060080 + 0x4 * i
/-- FAR_STATUS (R451): RO, W1C. -/
def FAR_STATUS : Nat := 0x00050000
/-- FAR_INT_STATUS (R451): W1C. -/
def FAR_INT_STATUS : Nat := 0x00050004
/-- FAR_INT_ENABLE (R451): RW. -/
def FAR_INT_ENABLE : Nat := 0x00050008
/-- FAR_CTRL (R451): W1S. -/
def FAR_CTRL : Nat := 0x0005000C
/-- FAR_PROG_STATUS (R451): RO. -/
def FAR_PROG_STATUS : Nat := 0x00050010
/-- FAR_FREE (R451): RO. -/
def FAR_FREE : Nat := 0x00050014
/-- FAR_XTAL_PPB (R451): RO. -/
def FAR_XTAL_PPB : Nat := 0x00050018
/-- FAR_XTAL_UNC (R451): RO. -/
def FAR_XTAL_UNC : Nat := 0x0005001C
/-- FAR_VALID (R451): RO. -/
def FAR_VALID (i : Nat) : Nat := 0x00050020 + 0x4 * i
/-- FAR_INFORCE (R451): RO. -/
def FAR_INFORCE (i : Nat) : Nat := 0x00050030 + 0x4 * i
/-- FAR_STATS_CFG (R451): RW. -/
def FAR_STATS_CFG : Nat := 0x00050040
/-- FAR_STATS_MASK (R451): RW. -/
def FAR_STATS_MASK (i : Nat) : Nat := 0x00050044 + 0x4 * i
/-- FAR_STATS_RES0 (R451): RO. -/
def FAR_STATS_RES0 (i : Nat) : Nat := 0x00051000 + 0x8 * i
/-- FAR_STATS_RES1 (R451): RO. -/
def FAR_STATS_RES1 (i : Nat) : Nat := 0x00051004 + 0x8 * i
/-- MON_STATUS (R452): RO, W1C. -/
def MON_STATUS : Nat := 0x00040000
/-- MON_INT_STATUS (R452): W1C. -/
def MON_INT_STATUS : Nat := 0x00040004
/-- MON_INT_ENABLE (R452): RW. -/
def MON_INT_ENABLE : Nat := 0x00040008
/-- MON_THERM_CFG (R452): RW. -/
def MON_THERM_CFG : Nat := 0x0004000C
/-- MON_T_EN (R452): RW. -/
def MON_T_EN : Nat := 0x00040010
/-- MON_T_MAX (R452): RO. -/
def MON_T_MAX : Nat := 0x00040014
/-- MON_V_OUT (R452): RO. -/
def MON_V_OUT : Nat := 0x00040018
/-- MON_T_FAULT (R452): RO. -/
def MON_T_FAULT : Nat := 0x0004001C
/-- MON_T (R452): RO. -/
def MON_T (i : Nat) : Nat := 0x00040100 + 0x4 * i
/-- MON_T_TRIM (R452): RW. -/
def MON_T_TRIM (i : Nat) : Nat := 0x00040180 + 0x4 * i
/-- MON_V (R452): RO. -/
def MON_V (i : Nat) : Nat := 0x00040200 + 0x8 * i
/-- MON_V_WIN (R452): RW. -/
def MON_V_WIN (i : Nat) : Nat := 0x00040204 + 0x8 * i
/-- MON_P (R452): RO. -/
def MON_P (i : Nat) : Nat := 0x00040300 + 0x8 * i
/-- MON_P_DRIFT (R452): RO. -/
def MON_P_DRIFT (i : Nat) : Nat := 0x00040304 + 0x8 * i
/-- TCK_STATUS (R453): RO, W1C. -/
def TCK_STATUS : Nat := 0x00090000
/-- TCK_INT_STATUS (R453): W1C. -/
def TCK_INT_STATUS : Nat := 0x00090004
/-- TCK_INT_ENABLE (R453): RW. -/
def TCK_INT_ENABLE : Nat := 0x00090008
/-- TCK_CTRL (R453): W1S. -/
def TCK_CTRL : Nat := 0x0009000C
/-- TCK_CFG (R453): EG. -/
def TCK_CFG : Nat := 0x00090010
/-- TCK_PERIOD (R453): EG. -/
def TCK_PERIOD : Nat := 0x00090014
/-- TCK_SKIP_CNT (R453): RW. -/
def TCK_SKIP_CNT : Nat := 0x00090018
/-- TCK_CAL_CTRL (R453): RW. -/
def TCK_CAL_CTRL : Nat := 0x0009001C
/-- TCK_CAL_TARGET (R453): RW. -/
def TCK_CAL_TARGET : Nat := 0x00090020
/-- TCK_CAL_Z (R453): RO. -/
def TCK_CAL_Z : Nat := 0x00090024
/-- TCK_CAL_F (R453): RO. -/
def TCK_CAL_F : Nat := 0x00090028
/-- TCK_RES_WT_LO (R453): SH. -/
def TCK_RES_WT_LO : Nat := 0x0009002C
/-- TCK_RES_WT_HI (R453): SH. -/
def TCK_RES_WT_HI : Nat := 0x00090030
/-- TCK_WR_CFG (R453): RW, EG. -/
def TCK_WR_CFG : Nat := 0x00090034
/-- TCK_WR_BASE_LO (R453): EG. -/
def TCK_WR_BASE_LO : Nat := 0x00090038
/-- TCK_WR_BASE_HI (R453): EG. -/
def TCK_WR_BASE_HI : Nat := 0x0009003C
/-- TCK_WR_PTR (R453): EG. -/
def TCK_WR_PTR : Nat := 0x00090040
/-- TCK_WR_CNT_LO (R453): SH. -/
def TCK_WR_CNT_LO : Nat := 0x00090044
/-- TCK_WR_CNT_HI (R453): SH. -/
def TCK_WR_CNT_HI : Nat := 0x00090048
/-- TCK_SEQ (R453): EG. -/
def TCK_SEQ (i : Nat) : Nat := 0x00090100 + 0x4 * i
/-- TCK_INJ (R453): EG. -/
def TCK_INJ (i : Nat) : Nat := 0x00090140 + 0x4 * i
/-- TCK_RES (R453): RO. -/
def TCK_RES (i : Nat) : Nat := 0x00090180 + 0x4 * i
/-- TCK_INJ_RES (R453): RO. -/
def TCK_INJ_RES (i : Nat) : Nat := 0x000901C0 + 0x4 * i
/-- TCK_IN_CORR_Z (R453): RW. -/
def TCK_IN_CORR_Z (i : Nat) : Nat := 0x00090200 + 0x8 * i
/-- TCK_IN_CORR_G (R453): RW. -/
def TCK_IN_CORR_G (i : Nat) : Nat := 0x00090204 + 0x8 * i
/-- PWR_STATUS (R471): RO, W1C. -/
def PWR_STATUS : Nat := 0x000A0000
/-- PWR_INT_STATUS (R471): W1C. -/
def PWR_INT_STATUS : Nat := 0x000A0004
/-- PWR_INT_ENABLE (R471): RW. -/
def PWR_INT_ENABLE : Nat := 0x000A0008
/-- PWR_CTRL (R471): W1S. -/
def PWR_CTRL : Nat := 0x000A000C
/-- PWR_DOM_TARGET (R471): RW. -/
def PWR_DOM_TARGET : Nat := 0x000A0010
/-- PWR_DOM_STATE (R471): RO. -/
def PWR_DOM_STATE : Nat := 0x000A0014
/-- PWR_BLK_RESET (R471): W1S. -/
def PWR_BLK_RESET : Nat := 0x000A0018
/-- PWR_RESET_CAUSE (R471): RO. -/
def PWR_RESET_CAUSE : Nat := 0x000A001C
/-- PWR_LAST_FATAL (R471): RO. -/
def PWR_LAST_FATAL : Nat := 0x000A0020
/-- PWR_LAST_FATAL_WT_LO (R471): SH. -/
def PWR_LAST_FATAL_WT_LO : Nat := 0x000A0024
/-- PWR_LAST_FATAL_WT_HI (R471): SH. -/
def PWR_LAST_FATAL_WT_HI : Nat := 0x000A0028
/-- PWR_VIO_STATUS (R471): RO. -/
def PWR_VIO_STATUS : Nat := 0x000A002C
/-- PWR_BROWNOUT_CNT (R471): RW. -/
def PWR_BROWNOUT_CNT : Nat := 0x000A0030
/-- PWR_ALERT (R471): RO. -/
def PWR_ALERT : Nat := 0x000A0034
/-- PWR_AGE_CFG (R471): RW. -/
def PWR_AGE_CFG : Nat := 0x000A0038
/-- PWR_AGE_LIMIT (R471): RW. -/
def PWR_AGE_LIMIT : Nat := 0x000A003C
/-- PWR_AGE_EQ (R471): RW. -/
def PWR_AGE_EQ : Nat := 0x000A0040
/-- PWR_POWERED (R471): RW. -/
def PWR_POWERED : Nat := 0x000A0044
/-- PDK_STATUS (R472): RO, W1C. -/
def PDK_STATUS : Nat := 0x00030000
/-- PDK_INT_STATUS (R472): W1C. -/
def PDK_INT_STATUS : Nat := 0x00030004
/-- PDK_INT_ENABLE (R472): RW. -/
def PDK_INT_ENABLE : Nat := 0x00030008
/-- PDK_CTRL (R472): W1S. -/
def PDK_CTRL : Nat := 0x0003000C
/-- PDK_CFG (R472): RW. -/
def PDK_CFG : Nat := 0x00030010
/-- PDK_REQ (R472): RW. -/
def PDK_REQ (i : Nat) : Nat := 0x00030020 + 0x4 * i
/-- PDK_BUSY (R472): RO. -/
def PDK_BUSY (i : Nat) : Nat := 0x00030040 + 0x4 * i
/-- PDK_FAIL (R472): RO. -/
def PDK_FAIL (i : Nat) : Nat := 0x00030060 + 0x4 * i
/-- PDK_SEL (R472): RW. -/
def PDK_SEL : Nat := 0x00030080
/-- PDK_SIG (R472): RO. -/
def PDK_SIG : Nat := 0x00030084
/-- PDK_SIG_EXP (R472): RO. -/
def PDK_SIG_EXP : Nat := 0x00030088
/-- PDK_MEM_INFO (R472): RO. -/
def PDK_MEM_INFO : Nat := 0x0003008C
/-- PDK_REPAIR (R472): RO. -/
def PDK_REPAIR : Nat := 0x00030090
/-- ERL_STATUS (R473): RO, W1C. -/
def ERL_STATUS : Nat := 0x00010000
/-- ERL_INT_STATUS (R473): W1C. -/
def ERL_INT_STATUS : Nat := 0x00010004
/-- ERL_INT_ENABLE (R473): RW. -/
def ERL_INT_ENABLE : Nat := 0x00010008
/-- ERL_CFG (R473): RW. -/
def ERL_CFG : Nat := 0x0001000C
/-- ERL_NEXT (R473): RO. -/
def ERL_NEXT : Nat := 0x00010010
/-- ERL_OLDEST (R473): RO. -/
def ERL_OLDEST : Nat := 0x00010014
/-- ERL_CNT (R473): RW. -/
def ERL_CNT (i : Nat) : Nat := 0x00010018 + 0x4 * i

end R

namespace F

def LNK_CFG_LANE_EN : Fld := ⟨0, 8⟩
def LNK_CFG_GANG_LO : Fld := ⟨8, 2⟩
def LNK_CFG_GANG_HI : Fld := ⟨10, 2⟩
def LNK_CFG_MAX_SPEED : Fld := ⟨12, 2⟩
def LNK_CFG_MIN_SPEED : Fld := ⟨14, 2⟩
def LNK_CFG_STEP_EN : Fld := ⟨16, 1⟩
def LNK_CFG_AUTO_RECOVER : Fld := ⟨17, 1⟩
def LNK_CFG_FAIL_STOPS : Fld := ⟨18, 1⟩
def LNK_CFG_INDEX_MODE : Fld := ⟨19, 1⟩
def LNK_CFG_INJ_ALLOW : Fld := ⟨20, 1⟩
def LNK_CFG_V1_ALLOW : Fld := ⟨21, 1⟩
def LNK_CTRL_BRINGUP : Fld := ⟨0, 1⟩
def LNK_CTRL_DROP : Fld := ⟨1, 1⟩
def LNK_CTRL_FWD_DOZE : Fld := ⟨2, 1⟩
def LNK_CTRL_FWD_OFF : Fld := ⟨3, 1⟩
def LNK_CTRL_FWD_WAKE : Fld := ⟨4, 1⟩
def LNK_CTRL_RET_DOZE : Fld := ⟨5, 1⟩
def LNK_CTRL_RET_OFF : Fld := ⟨6, 1⟩
def LNK_CTRL_RET_WAKE : Fld := ⟨7, 1⟩
def LNK_CTRL_SEND_MSG : Fld := ⟨8, 1⟩
def LNK_STATUS_STATE : Fld := ⟨0, 4⟩
def LNK_STATUS_SPEED : Fld := ⟨4, 2⟩
def LNK_STATUS_VERSION : Fld := ⟨6, 4⟩
def LNK_STATUS_ENABLE : Fld := ⟨10, 1⟩
def LNK_STATUS_ALIGNED : Fld := ⟨11, 1⟩
def LNK_STATUS_FWD_PWR : Fld := ⟨12, 2⟩
def LNK_STATUS_RET_PWR : Fld := ⟨14, 2⟩
def LNK_STATUS_MSG_BUSY : Fld := ⟨16, 1⟩
def LNK_STATUS_CFG_REJECT : Fld := ⟨17, 1⟩
def LNK_STATUS_PORT_FAIL : Fld := ⟨18, 1⟩
def LNK_INT_STATUS_NEG_DONE : Fld := ⟨0, 1⟩
def LNK_INT_STATUS_NEG_FAIL : Fld := ⟨1, 1⟩
def LNK_INT_STATUS_LOS : Fld := ⟨2, 1⟩
def LNK_INT_STATUS_CLK_LOST : Fld := ⟨3, 1⟩
def LNK_INT_STATUS_BLOCK_LOST : Fld := ⟨4, 1⟩
def LNK_INT_STATUS_FRAME_LOST : Fld := ⟨5, 1⟩
def LNK_INT_STATUS_CRC_ERR : Fld := ⟨6, 1⟩
def LNK_INT_STATUS_STEP : Fld := ⟨7, 1⟩
def LNK_INT_STATUS_ALIGN_LOST : Fld := ⟨8, 1⟩
def LNK_INT_STATUS_INDEX_ERR : Fld := ⟨9, 1⟩
def LNK_INT_STATUS_MSG_RX : Fld := ⟨10, 1⟩
def LNK_INT_STATUS_MSG_TIMEOUT : Fld := ⟨11, 1⟩
def LNK_INT_STATUS_MSG_OVERRUN : Fld := ⟨12, 1⟩
def LNK_INT_STATUS_CMD_REFUSED : Fld := ⟨13, 1⟩
def LNK_INT_STATUS_PLACE_CHECK : Fld := ⟨14, 1⟩
def LNK_INT_STATUS_PRBS_ERR : Fld := ⟨15, 1⟩
def LNK_INT_STATUS_CONV_FAULT : Fld := ⟨16, 1⟩
def LNK_INT_ENABLE_NEG_DONE : Fld := ⟨0, 1⟩
def LNK_INT_ENABLE_NEG_FAIL : Fld := ⟨1, 1⟩
def LNK_INT_ENABLE_LOS : Fld := ⟨2, 1⟩
def LNK_INT_ENABLE_CLK_LOST : Fld := ⟨3, 1⟩
def LNK_INT_ENABLE_BLOCK_LOST : Fld := ⟨4, 1⟩
def LNK_INT_ENABLE_FRAME_LOST : Fld := ⟨5, 1⟩
def LNK_INT_ENABLE_CRC_ERR : Fld := ⟨6, 1⟩
def LNK_INT_ENABLE_STEP : Fld := ⟨7, 1⟩
def LNK_INT_ENABLE_ALIGN_LOST : Fld := ⟨8, 1⟩
def LNK_INT_ENABLE_INDEX_ERR : Fld := ⟨9, 1⟩
def LNK_INT_ENABLE_MSG_RX : Fld := ⟨10, 1⟩
def LNK_INT_ENABLE_MSG_TIMEOUT : Fld := ⟨11, 1⟩
def LNK_INT_ENABLE_MSG_OVERRUN : Fld := ⟨12, 1⟩
def LNK_INT_ENABLE_CMD_REFUSED : Fld := ⟨13, 1⟩
def LNK_INT_ENABLE_PLACE_CHECK : Fld := ⟨14, 1⟩
def LNK_INT_ENABLE_PRBS_ERR : Fld := ⟨15, 1⟩
def LNK_INT_ENABLE_CONV_FAULT : Fld := ⟨16, 1⟩
def LNK_STEP_CFG_CRC_LIMIT : Fld := ⟨0, 8⟩
def LNK_STEP_CFG_WINDOW : Fld := ⟨8, 5⟩
def LNK_SKEW_SKEW : Fld := ⟨0, 16⟩
def LNK_INDEX_LOAD_HI_HI : Fld := ⟨0, 16⟩
def LNK_PLACE_AUX_FRAC : Fld := ⟨0, 8⟩
def LNK_PLACE_AUX_DIFF : Fld := ⟨8, 16⟩
def LNK_MSG_RX_DATA : Fld := ⟨0, 16⟩
def LNK_MSG_RX_TYPE : Fld := ⟨16, 6⟩
def LNK_MSG_RX_VALID : Fld := ⟨31, 1⟩
def LNK_RET_PRBS_GEN_EN : Fld := ⟨0, 1⟩
def LNK_RET_PRBS_PATTERN : Fld := ⟨1, 3⟩
def LNK_RET_PRBS_INVERT : Fld := ⟨4, 1⟩
def LNK_LANE_STATUS_SIGNAL : Fld := ⟨0, 1⟩
def LNK_LANE_STATUS_BLOCK_LOCK : Fld := ⟨1, 1⟩
def LNK_LANE_STATUS_FRAME_LOCK : Fld := ⟨2, 1⟩
def LNK_LANE_STATUS_PRBS_LOCK : Fld := ⟨3, 1⟩
def LNK_LANE_STATUS_EB_OFFSET : Fld := ⟨8, 8⟩
def LNK_PRBS_CTRL_CHK_EN : Fld := ⟨0, 1⟩
def LNK_PRBS_CTRL_PATTERN : Fld := ⟨1, 3⟩
def LNK_PRBS_CTRL_INVERT : Fld := ⟨4, 1⟩
def LNK_PRBS_CTRL_LOOP : Fld := ⟨5, 1⟩
def LNK_INJ_MODE : Fld := ⟨0, 3⟩
def LNK_INJ_POS : Fld := ⟨3, 8⟩
def LNK_INJ_RATE : Fld := ⟨11, 5⟩
def LNK_INJ_GO : Fld := ⟨16, 1⟩
def CND_STATUS_ENABLE : Fld := ⟨0, 1⟩
def CND_STATUS_READY : Fld := ⟨1, 1⟩
def CND_STATUS_CFG_REJECT : Fld := ⟨2, 1⟩
def CND_STATUS_SET_BAD : Fld := ⟨4, 4⟩
def CND_INT_STATUS_READY : Fld := ⟨0, 1⟩
def CND_INT_STATUS_LATE : Fld := ⟨1, 1⟩
def CND_INT_STATUS_EARLY : Fld := ⟨2, 1⟩
def CND_INT_STATUS_SAT : Fld := ⟨3, 1⟩
def CND_INT_STATUS_SUPPRESS : Fld := ⟨4, 1⟩
def CND_INT_STATUS_TAINT : Fld := ⟨5, 1⟩
def CND_INT_STATUS_COEF_CE : Fld := ⟨6, 1⟩
def CND_INT_STATUS_COEF_UE : Fld := ⟨7, 1⟩
def CND_INT_STATUS_CAL_NONE : Fld := ⟨8, 1⟩
def CND_INT_ENABLE_READY : Fld := ⟨0, 1⟩
def CND_INT_ENABLE_LATE : Fld := ⟨1, 1⟩
def CND_INT_ENABLE_EARLY : Fld := ⟨2, 1⟩
def CND_INT_ENABLE_SAT : Fld := ⟨3, 1⟩
def CND_INT_ENABLE_SUPPRESS : Fld := ⟨4, 1⟩
def CND_INT_ENABLE_TAINT : Fld := ⟨5, 1⟩
def CND_INT_ENABLE_COEF_CE : Fld := ⟨6, 1⟩
def CND_INT_ENABLE_COEF_UE : Fld := ⟨7, 1⟩
def CND_INT_ENABLE_CAL_NONE : Fld := ⟨8, 1⟩
def CND_LAMBDA_LAMBDA : Fld := ⟨0, 16⟩
def CND_ARRIVAL_A : Fld := ⟨0, 16⟩
def CND_ARRIVAL_WAIT : Fld := ⟨16, 16⟩
def CND_CH_CFG_EN : Fld := ⟨0, 1⟩
def CND_CH_CFG_CAL_SRC : Fld := ⟨1, 1⟩
def CND_CH_CFG_RANK_MODE : Fld := ⟨2, 2⟩
def CND_CH_CFG_RANK_W : Fld := ⟨4, 3⟩
def CND_CH_CFG_RANK_K : Fld := ⟨7, 4⟩
def CND_CH_CFG_CAP_SRC : Fld := ⟨11, 1⟩
def CND_OFFSET_OFFSET : Fld := ⟨0, 16⟩
def CND_GAIN_GAIN : Fld := ⟨0, 18⟩
def CND_RANK_THR_THR : Fld := ⟨0, 16⟩
def CND_DDC_CFG_EN : Fld := ⟨0, 1⟩
def CND_DDC_CFG_RC_EXP : Fld := ⟨1, 4⟩
def CND_DDC_CFG_RF : Fld := ⟨5, 1⟩
def CND_DDC_CFG_TAPS : Fld := ⟨6, 8⟩
def CND_DDC_CFG_COEF_SET : Fld := ⟨14, 2⟩
def CND_DDC_CFG_GAIN : Fld := ⟨16, 2⟩
def CND_NCO_FREQ_HI_FREQ : Fld := ⟨0, 16⟩
def CND_NCO_PHASE_PHASE : Fld := ⟨0, 16⟩
def CND_CH_STATUS_DELIVERING : Fld := ⟨0, 1⟩
def CND_CH_STATUS_SETTLING : Fld := ⟨1, 1⟩
def CND_CH_STATUS_LATE : Fld := ⟨2, 1⟩
def CND_CH_STATUS_EARLY : Fld := ⟨3, 1⟩
def CND_CH_STATUS_CAL_NONE : Fld := ⟨4, 1⟩
def CND_CH_STATUS_STRIDE : Fld := ⟨5, 2⟩
def SPC_STATUS_ENABLE : Fld := ⟨0, 1⟩
def SPC_STATUS_READY : Fld := ⟨1, 1⟩
def SPC_STATUS_CFG_REJECT : Fld := ⟨2, 1⟩
def SPC_STATUS_REDUCED : Fld := ⟨3, 1⟩
def SPC_STATUS_TABLE_BAD : Fld := ⟨4, 2⟩
def SPC_STATUS_PLACED : Fld := ⟨8, 4⟩
def SPC_INT_STATUS_SKIP : Fld := ⟨0, 1⟩
def SPC_INT_STATUS_LATE_TAINT : Fld := ⟨1, 1⟩
def SPC_INT_STATUS_MEM_CE : Fld := ⟨2, 1⟩
def SPC_INT_STATUS_MEM_UE : Fld := ⟨3, 1⟩
def SPC_INT_STATUS_TABLE_UE : Fld := ⟨4, 1⟩
def SPC_INT_STATUS_REDUCED_ON : Fld := ⟨5, 1⟩
def SPC_INT_STATUS_REDUCED_OFF : Fld := ⟨6, 1⟩
def SPC_INT_STATUS_STEP_DOWN : Fld := ⟨7, 1⟩
def SPC_INT_ENABLE_SKIP : Fld := ⟨0, 1⟩
def SPC_INT_ENABLE_LATE_TAINT : Fld := ⟨1, 1⟩
def SPC_INT_ENABLE_MEM_CE : Fld := ⟨2, 1⟩
def SPC_INT_ENABLE_MEM_UE : Fld := ⟨3, 1⟩
def SPC_INT_ENABLE_TABLE_UE : Fld := ⟨4, 1⟩
def SPC_INT_ENABLE_REDUCED_ON : Fld := ⟨5, 1⟩
def SPC_INT_ENABLE_REDUCED_OFF : Fld := ⟨6, 1⟩
def SPC_INT_ENABLE_STEP_DOWN : Fld := ⟨7, 1⟩
def SPC_RETIRE_RETIRE : Fld := ⟨0, 4⟩
def SPC_RETIRE_PDK_FAIL : Fld := ⟨4, 4⟩
def SPC_ALLOC_STREAMS : Fld := ⟨0, 8⟩
def SPC_ALLOC_PAIRED : Fld := ⟨8, 1⟩
def SPC_ALLOC_RETIRED : Fld := ⟨9, 1⟩
def SPC_ALLOC_REDUCED : Fld := ⟨10, 1⟩
def SPC_ALLOC_LOAD : Fld := ⟨16, 9⟩
def SPC_WIN_ADDR_ENTRY : Fld := ⟨0, 14⟩
def SPC_WIN_ADDR_TABLE : Fld := ⟨14, 1⟩
def SPC_WIN_DATA_COEF : Fld := ⟨0, 18⟩
def SPC_CH_CFG_EN : Fld := ⟨0, 1⟩
def SPC_CH_CFG_SRC : Fld := ⟨1, 1⟩
def SPC_CH_CFG_LEN_EXP : Fld := ⟨2, 4⟩
def SPC_CH_CFG_OVL : Fld := ⟨6, 2⟩
def SPC_CH_CFG_WIN : Fld := ⟨8, 4⟩
def SPC_CH_CFG_OUT_FMT : Fld := ⟨12, 2⟩
def SPC_CH_CFG_KEEP_OV : Fld := ⟨14, 1⟩
def SPC_CH_BINS_FIRST : Fld := ⟨0, 15⟩
def SPC_CH_BINS_COUNT : Fld := ⟨16, 15⟩
def SPC_CH_POFS_POFS : Fld := ⟨0, 16⟩
def SPC_CH_STATUS_EFF_OVL : Fld := ⟨0, 2⟩
def SPC_CH_STATUS_REED : Fld := ⟨2, 2⟩
def SPC_CH_STATUS_PAIRED : Fld := ⟨4, 1⟩
def SPC_CH_STATUS_REDUCED : Fld := ⟨5, 1⟩
def SPC_CH_STATUS_STEPPED : Fld := ⟨6, 1⟩
def SPC_CH_STATUS_LOAD : Fld := ⟨16, 10⟩
def SPC_CH_LAT_LAST : Fld := ⟨0, 16⟩
def SPC_CH_LAT_MAX : Fld := ⟨16, 16⟩
def STR_STATUS_ENABLE : Fld := ⟨0, 1⟩
def STR_STATUS_CFG_REJECT : Fld := ⟨1, 1⟩
def STR_INT_STATUS_TAINT_EVT : Fld := ⟨0, 1⟩
def STR_INT_STATUS_SC_STOP : Fld := ⟨1, 1⟩
def STR_INT_ENABLE_TAINT_EVT : Fld := ⟨0, 1⟩
def STR_INT_ENABLE_SC_STOP : Fld := ⟨1, 1⟩
def STR_MASK_ADDR_ENTRY : Fld := ⟨0, 15⟩
def STR_MASK_DATA_UPPER : Fld := ⟨0, 16⟩
def STR_MASK_DATA_LOWER : Fld := ⟨16, 16⟩
def STR_PRIM_CFG_TAP : Fld := ⟨0, 2⟩
def STR_PRIM_CFG_ZSEL : Fld := ⟨2, 1⟩
def STR_PRIM_CFG_KIND : Fld := ⟨3, 3⟩
def STR_PRIM_CFG_QUAL : Fld := ⟨6, 3⟩
def STR_PRIM_CFG_SPAN : Fld := ⟨9, 4⟩
def STR_PRIM_THR_THR_A : Fld := ⟨0, 16⟩
def STR_PRIM_THR_THR_B : Fld := ⟨16, 16⟩
def STR_PRIM_HYST_HYST : Fld := ⟨0, 16⟩
def STR_PRIM_WIDTH_WMIN : Fld := ⟨0, 16⟩
def STR_PRIM_WIDTH_WMAX : Fld := ⟨16, 16⟩
def STR_SC_CFG_EN : Fld := ⟨0, 1⟩
def STR_SC_CFG_CH : Fld := ⟨1, 3⟩
def STR_SC_CFG_KIND : Fld := ⟨4, 3⟩
def STR_SC_CFG_TAINT_SKIP : Fld := ⟨7, 1⟩
def STR_SC_CFG_STOP : Fld := ⟨8, 1⟩
def STR_SC_CFG_CONSEC : Fld := ⟨9, 8⟩
def STR_SC_BAND_FIRST : Fld := ⟨0, 15⟩
def STR_SC_BAND_LAST : Fld := ⟨16, 15⟩
def STR_SC_THR_THR_HI : Fld := ⟨0, 16⟩
def STR_SC_THR_THR_LO : Fld := ⟨16, 16⟩
def STR_SC_MASK_BASE : Fld := ⟨0, 15⟩
def STR_SC_STATUS_BOUND : Fld := ⟨0, 1⟩
def STR_SC_STATUS_REED : Fld := ⟨1, 2⟩
def STR_SC_STATUS_VALUE : Fld := ⟨3, 1⟩
def STR_SC_STATUS_VIOLATED : Fld := ⟨4, 1⟩
def TRD_STATUS_ENABLE : Fld := ⟨0, 1⟩
def TRD_STATUS_CFG_REJECT : Fld := ⟨1, 1⟩
def TRD_STATUS_COPY_STUCK : Fld := ⟨2, 3⟩
def TRD_STATUS_MASK_STOP : Fld := ⟨5, 1⟩
def TRD_INT_STATUS_TMR_DISAGREE : Fld := ⟨0, 1⟩
def TRD_INT_STATUS_COPY_STUCK : Fld := ⟨1, 1⟩
def TRD_INT_STATUS_TAINTED_TRIGGER : Fld := ⟨2, 1⟩
def TRD_INT_STATUS_SHED_FIRED : Fld := ⟨3, 1⟩
def TRD_INT_STATUS_SHED_DONE : Fld := ⟨4, 1⟩
def TRD_INT_STATUS_ARM_REFUSED : Fld := ⟨5, 1⟩
def TRD_INT_STATUS_OVERRUN : Fld := ⟨6, 1⟩
def TRD_INT_STATUS_SLICE_ABSENT : Fld := ⟨7, 1⟩
def TRD_INT_STATUS_MASK_STOP : Fld := ⟨8, 1⟩
def TRD_INT_STATUS_CMD_REFUSED : Fld := ⟨9, 1⟩
def TRD_INT_STATUS_RECORD_DISCARD : Fld := ⟨10, 1⟩
def TRD_INT_ENABLE_TMR_DISAGREE : Fld := ⟨0, 1⟩
def TRD_INT_ENABLE_COPY_STUCK : Fld := ⟨1, 1⟩
def TRD_INT_ENABLE_TAINTED_TRIGGER : Fld := ⟨2, 1⟩
def TRD_INT_ENABLE_SHED_FIRED : Fld := ⟨3, 1⟩
def TRD_INT_ENABLE_SHED_DONE : Fld := ⟨4, 1⟩
def TRD_INT_ENABLE_ARM_REFUSED : Fld := ⟨5, 1⟩
def TRD_INT_ENABLE_OVERRUN : Fld := ⟨6, 1⟩
def TRD_INT_ENABLE_SLICE_ABSENT : Fld := ⟨7, 1⟩
def TRD_INT_ENABLE_MASK_STOP : Fld := ⟨8, 1⟩
def TRD_INT_ENABLE_CMD_REFUSED : Fld := ⟨9, 1⟩
def TRD_INT_ENABLE_RECORD_DISCARD : Fld := ⟨10, 1⟩
def TRD_SOFT_SOFT : Fld := ⟨0, 8⟩
def TRD_SLICE_ABSENT_ABSENT : Fld := ⟨0, 24⟩
def TRD_IN_CFG_EN : Fld := ⟨0, 8⟩
def TRD_IN_CFG_POL : Fld := ⟨8, 8⟩
def TRD_IN_CFG_DLY : Fld := ⟨16, 8⟩
def TRD_OUT_CFG_EN : Fld := ⟨0, 1⟩
def TRD_OUT_CFG_POL : Fld := ⟨1, 1⟩
def TRD_OUT_CFG_MODE : Fld := ⟨2, 1⟩
def TRD_OUT_CFG_PW : Fld := ⟨4, 16⟩
def TRD_TERM_CFG_TREF : Fld := ⟨0, 4⟩
def TRD_LIT_A_INPUT : Fld := ⟨0, 10⟩
def TRD_LIT_A_INV : Fld := ⟨10, 1⟩
def TRD_LIT_A_MODE : Fld := ⟨11, 1⟩
def TRD_LIT_A_EN : Fld := ⟨12, 1⟩
def TRD_LIT_A_WIN : Fld := ⟨16, 16⟩
def TRD_LIT_B_DELAY : Fld := ⟨0, 14⟩
def TRD_SHED_CTRL_ARM : Fld := ⟨0, 1⟩
def TRD_SHED_CTRL_DISARM : Fld := ⟨1, 1⟩
def TRD_SHED_CTRL_FORCE : Fld := ⟨2, 1⟩
def TRD_SHED_STATUS_STATE : Fld := ⟨0, 3⟩
def TRD_SHED_STATUS_CFG_BAD : Fld := ⟨3, 1⟩
def TRD_SHED_STATUS_OVERRUN : Fld := ⟨4, 1⟩
def TRD_SHED_STATUS_ABANDONED : Fld := ⟨5, 1⟩
def TRD_SHED_STATUS_TAINTED_TRIG : Fld := ⟨6, 1⟩
def TRD_SHED_CFG_AUTO_ARM : Fld := ⟨0, 1⟩
def TRD_SHED_CFG_PRE_MODE : Fld := ⟨1, 1⟩
def TRD_SHED_CFG_HOLD_MODE : Fld := ⟨2, 2⟩
def TRD_SHED_CFG_SPILL : Fld := ⟨4, 1⟩
def TRD_SHED_CFG_SHUTTLE : Fld := ⟨5, 1⟩
def TRD_SHED_CFG_STREAM : Fld := ⟨8, 8⟩
def TRD_SHED_POST_HI_POST_HI : Fld := ⟨0, 17⟩
def TRD_SHED_SEG_SEGMENTS : Fld := ⟨0, 17⟩
def TRD_SHED_TRIG_FRAC_FRAC : Fld := ⟨0, 8⟩
def BOB_STATUS_ENABLE : Fld := ⟨0, 1⟩
def BOB_STATUS_READY : Fld := ⟨1, 1⟩
def BOB_STATUS_CFG_REJECT : Fld := ⟨2, 1⟩
def BOB_INT_STATUS_CE : Fld := ⟨0, 1⟩
def BOB_INT_STATUS_UE : Fld := ⟨1, 1⟩
def BOB_INT_STATUS_LOST_FULL : Fld := ⟨2, 1⟩
def BOB_INT_STATUS_SPILL_STOP : Fld := ⟨3, 1⟩
def BOB_INT_STATUS_PC_PENDING : Fld := ⟨4, 1⟩
def BOB_INT_STATUS_PC_RETIRED : Fld := ⟨5, 1⟩
def BOB_INT_STATUS_SR_ENTERED : Fld := ⟨6, 1⟩
def BOB_INT_STATUS_SR_EXITED : Fld := ⟨7, 1⟩
def BOB_INT_STATUS_SR_REFUSED : Fld := ⟨8, 1⟩
def BOB_INT_STATUS_HOT : Fld := ⟨9, 1⟩
def BOB_INT_STATUS_HOLE_ACCESS : Fld := ⟨10, 1⟩
def BOB_INT_ENABLE_CE : Fld := ⟨0, 1⟩
def BOB_INT_ENABLE_UE : Fld := ⟨1, 1⟩
def BOB_INT_ENABLE_LOST_FULL : Fld := ⟨2, 1⟩
def BOB_INT_ENABLE_SPILL_STOP : Fld := ⟨3, 1⟩
def BOB_INT_ENABLE_PC_PENDING : Fld := ⟨4, 1⟩
def BOB_INT_ENABLE_PC_RETIRED : Fld := ⟨5, 1⟩
def BOB_INT_ENABLE_SR_ENTERED : Fld := ⟨6, 1⟩
def BOB_INT_ENABLE_SR_EXITED : Fld := ⟨7, 1⟩
def BOB_INT_ENABLE_SR_REFUSED : Fld := ⟨8, 1⟩
def BOB_INT_ENABLE_HOT : Fld := ⟨9, 1⟩
def BOB_INT_ENABLE_HOLE_ACCESS : Fld := ⟨10, 1⟩
def BOB_CFG_AGE : Fld := ⟨0, 13⟩
def BOB_CFG_HOT_C : Fld := ⟨16, 7⟩
def BOB_HOST_GIB : Fld := ⟨0, 4⟩
def BOB_HOST_M : Fld := ⟨4, 6⟩
def BOB_LAYOUT0_END : Fld := ⟨0, 20⟩
def BOB_LAYOUT1_END : Fld := ⟨0, 20⟩
def BOB_HOST_LAT_LATEST : Fld := ⟨0, 16⟩
def BOB_HOST_LAT_LARGEST : Fld := ⟨16, 16⟩
def BOB_ERR_INFO_PC : Fld := ⟨0, 6⟩
def BOB_ERR_INFO_BANK : Fld := ⟨6, 6⟩
def BOB_ERR_INFO_ROW : Fld := ⟨12, 14⟩
def BOB_ERR_INFO_CLASS : Fld := ⟨26, 3⟩
def BOB_ERR_INFO_KIND : Fld := ⟨29, 2⟩
def BOB_SCRUB_CFG_HOURS : Fld := ⟨0, 8⟩
def BOB_RETIRE_CFG_AUTO : Fld := ⟨0, 1⟩
def BOB_RETIRE_CFG_ROW_LIMIT : Fld := ⟨8, 8⟩
def BOB_RETIRE_CFG_WINDOW : Fld := ⟨16, 8⟩
def BOB_LOOKUP_CTRL_CH : Fld := ⟨0, 8⟩
def BOB_LOOKUP_CTRL_FRAC : Fld := ⟨8, 8⟩
def BOB_LOOKUP_CTRL_GO : Fld := ⟨16, 1⟩
def BOB_LOOKUP_STATUS_RESULT : Fld := ⟨0, 3⟩
def BOB_SR_CFG_AUTO : Fld := ⟨0, 1⟩
def BOB_SR_CFG_FSEL : Fld := ⟨1, 2⟩
def BOB_SR_CFG_IDLE_BEATS : Fld := ⟨8, 24⟩
def BOB_SR_CTRL_SR_ENTER : Fld := ⟨0, 1⟩
def BOB_SR_CTRL_SR_EXIT : Fld := ⟨1, 1⟩
def BOB_SR_CTRL_FREQ_GO : Fld := ⟨2, 1⟩
def BOB_SR_STATUS_STATE : Fld := ⟨0, 3⟩
def BOB_SR_STATUS_FCUR : Fld := ⟨3, 2⟩
def BOB_SR_STATUS_HOT : Fld := ⟨5, 1⟩
def BOB_SR_STATUS_TEMP : Fld := ⟨8, 8⟩
def BOB_RING_CFG_EN : Fld := ⟨0, 1⟩
def BOB_RING_BASE_BASE : Fld := ⟨0, 20⟩
def BOB_RING_SIZE_SIZE : Fld := ⟨0, 20⟩
def BOB_RING_STATUS_ACTIVE : Fld := ⟨0, 1⟩
def BOB_RING_STATUS_STOPPED : Fld := ⟨1, 1⟩
def BOB_RING_STATUS_SPILL_STOP : Fld := ⟨2, 1⟩
def BOB_RING_STATUS_MERGING : Fld := ⟨3, 1⟩
def BOB_PC_STATUS_STATE : Fld := ⟨0, 2⟩
def BOB_PC_STATUS_ROWS : Fld := ⟨8, 8⟩
def BOB_REPAIR_VALID : Fld := ⟨31, 1⟩
def BOB_REPAIR_PC : Fld := ⟨24, 6⟩
def BOB_REPAIR_BANK : Fld := ⟨14, 6⟩
def BOB_REPAIR_ROW : Fld := ⟨0, 14⟩
def TAP_STATUS_ENABLE : Fld := ⟨0, 1⟩
def TAP_STATUS_READY : Fld := ⟨1, 1⟩
def TAP_STATUS_CFG_REJECT : Fld := ⟨2, 1⟩
def TAP_INT_STATUS_FRAME_CLOSED : Fld := ⟨0, 1⟩
def TAP_INT_STATUS_FRAME_SKIP : Fld := ⟨1, 1⟩
def TAP_INT_STATUS_DROP : Fld := ⟨2, 1⟩
def TAP_INT_STATUS_SAT : Fld := ⟨3, 1⟩
def TAP_INT_STATUS_LATE_TAINT : Fld := ⟨4, 1⟩
def TAP_INT_STATUS_HALF_RATE_ON : Fld := ⟨5, 1⟩
def TAP_INT_STATUS_HALF_RATE_OFF : Fld := ⟨6, 1⟩
def TAP_INT_ENABLE_FRAME_CLOSED : Fld := ⟨0, 1⟩
def TAP_INT_ENABLE_FRAME_SKIP : Fld := ⟨1, 1⟩
def TAP_INT_ENABLE_DROP : Fld := ⟨2, 1⟩
def TAP_INT_ENABLE_SAT : Fld := ⟨3, 1⟩
def TAP_INT_ENABLE_LATE_TAINT : Fld := ⟨4, 1⟩
def TAP_INT_ENABLE_HALF_RATE_ON : Fld := ⟨5, 1⟩
def TAP_INT_ENABLE_HALF_RATE_OFF : Fld := ⟨6, 1⟩
def TAP_CTRL_FRAME : Fld := ⟨0, 16⟩
def TAP_CTRL_CLEAR : Fld := ⟨16, 16⟩
def TAP_WIN_PLANE : Fld := ⟨0, 4⟩
def TAP_PL_CFG_EN : Fld := ⟨0, 1⟩
def TAP_PL_CFG_FSRC : Fld := ⟨1, 3⟩
def TAP_PL_CFG_TAINT_SKIP : Fld := ⟨4, 1⟩
def TAP_PL_CFG_KEEP : Fld := ⟨5, 1⟩
def TAP_PL_CFG_UNDER : Fld := ⟨6, 1⟩
def TAP_PL_CFG_OVER : Fld := ⟨7, 1⟩
def TAP_PL_CFG_COMBINE : Fld := ⟨8, 2⟩
def TAP_PL_CFG_REC_FMT : Fld := ⟨10, 2⟩
def TAP_PL_CFG_STREAM : Fld := ⟨16, 8⟩
def TAP_PL_GEOM_COLS16 : Fld := ⟨0, 7⟩
def TAP_PL_GEOM_ROWS16 : Fld := ⟨8, 6⟩
def TAP_PL_GEOM_BIN_EXP : Fld := ⟨16, 3⟩
def TAP_PL_FIRST_FIRST : Fld := ⟨0, 15⟩
def TAP_PL_ROWMAP_ROW_BASE : Fld := ⟨0, 16⟩
def TAP_PL_ROWMAP_ROW_SHIFT : Fld := ⟨16, 4⟩
def TAP_PL_PERSIST_MODE : Fld := ⟨0, 2⟩
def TAP_PL_PERSIST_SHIFT : Fld := ⟨2, 5⟩
def TAP_PL_PERSIST_EVERY : Fld := ⟨8, 8⟩
def TAP_PL_PERSIST_SUB : Fld := ⟨16, 16⟩
def TAP_PL_MAP_LOG : Fld := ⟨0, 1⟩
def TAP_PL_MAP_AUTO : Fld := ⟨1, 1⟩
def TAP_PL_STATUS_OPEN : Fld := ⟨0, 1⟩
def TAP_PL_STATUS_SWEEPING : Fld := ⟨1, 1⟩
def TAP_PL_STATUS_HALF_RATE : Fld := ⟨2, 1⟩
def TAP_PL_STATUS_CLEAR_PENDING : Fld := ⟨3, 1⟩
def TAP_PL_TAINT_TAINTED : Fld := ⟨0, 16⟩
def TAP_PL_TAINT_LATE : Fld := ⟨16, 16⟩
def PNL_STATUS_ENABLE : Fld := ⟨0, 1⟩
def PNL_STATUS_COMMIT_PENDING : Fld := ⟨1, 1⟩
def PNL_STATUS_COMMIT_PENDING1 : Fld := ⟨2, 1⟩
def PNL_STATUS_CFG_REJECT : Fld := ⟨3, 1⟩
def PNL_STATUS_CFG_BAD : Fld := ⟨4, 1⟩
def PNL_INT_STATUS_FLIP : Fld := ⟨0, 2⟩
def PNL_INT_STATUS_FRAME_LATE : Fld := ⟨2, 2⟩
def PNL_INT_STATUS_COMMIT_REPLACED : Fld := ⟨4, 1⟩
def PNL_INT_STATUS_HPD : Fld := ⟨5, 2⟩
def PNL_INT_STATUS_HPD_IRQ : Fld := ⟨7, 2⟩
def PNL_INT_STATUS_TRAIN_FAIL : Fld := ⟨9, 2⟩
def PNL_INT_STATUS_AUX_DONE : Fld := ⟨11, 2⟩
def PNL_INT_STATUS_CRC_MISMATCH : Fld := ⟨13, 1⟩
def PNL_INT_STATUS_ECC_UE : Fld := ⟨14, 1⟩
def PNL_INT_ENABLE_FLIP : Fld := ⟨0, 2⟩
def PNL_INT_ENABLE_FRAME_LATE : Fld := ⟨2, 2⟩
def PNL_INT_ENABLE_COMMIT_REPLACED : Fld := ⟨4, 1⟩
def PNL_INT_ENABLE_HPD : Fld := ⟨5, 2⟩
def PNL_INT_ENABLE_HPD_IRQ : Fld := ⟨7, 2⟩
def PNL_INT_ENABLE_TRAIN_FAIL : Fld := ⟨9, 2⟩
def PNL_INT_ENABLE_AUX_DONE : Fld := ⟨11, 2⟩
def PNL_INT_ENABLE_CRC_MISMATCH : Fld := ⟨13, 1⟩
def PNL_INT_ENABLE_ECC_UE : Fld := ⟨14, 1⟩
def PNL_CTRL_ENABLE : Fld := ⟨0, 1⟩
def PNL_CTRL_DISABLE : Fld := ⟨1, 1⟩
def PNL_CTRL_COMMIT : Fld := ⟨2, 1⟩
def PNL_CTRL_COMMIT1 : Fld := ⟨3, 1⟩
def PNL_CTRL_PAL : Fld := ⟨4, 1⟩
def PNL_CTRL_TRAIN0 : Fld := ⟨5, 1⟩
def PNL_CTRL_TRAIN1 : Fld := ⟨6, 1⟩
def PNL_CFG_MODE : Fld := ⟨0, 1⟩
def PNL_CFG_OUT_EN : Fld := ⟨1, 2⟩
def PNL_CFG_FLIP_REC : Fld := ⟨3, 1⟩
def PNL_CFG_STREAM : Fld := ⟨8, 8⟩
def PNL_BG_PIXEL : Fld := ⟨0, 16⟩
def PNL_PCLK_KHZ : Fld := ⟨0, 18⟩
def PNL_HACT_ACT : Fld := ⟨0, 12⟩
def PNL_HACT_TOTAL : Fld := ⟨16, 12⟩
def PNL_HSYNC_START : Fld := ⟨0, 12⟩
def PNL_HSYNC_WIDTH : Fld := ⟨16, 12⟩
def PNL_HSYNC_POL : Fld := ⟨31, 1⟩
def PNL_VACT_ACT : Fld := ⟨0, 12⟩
def PNL_VACT_TOTAL : Fld := ⟨16, 12⟩
def PNL_VSYNC_START : Fld := ⟨0, 12⟩
def PNL_VSYNC_WIDTH : Fld := ⟨16, 12⟩
def PNL_VSYNC_POL : Fld := ⟨31, 1⟩
def PNL_LINK_RATE : Fld := ⟨0, 2⟩
def PNL_LINK_LANES : Fld := ⟨2, 2⟩
def PNL_LINK_BPC : Fld := ⟨4, 1⟩
def PNL_LINK_AUTO_TRAIN : Fld := ⟨5, 1⟩
def PNL_OSTATUS_HPD : Fld := ⟨0, 1⟩
def PNL_OSTATUS_TRAINED : Fld := ⟨1, 1⟩
def PNL_OSTATUS_RATE : Fld := ⟨2, 2⟩
def PNL_OSTATUS_LANES : Fld := ⟨4, 3⟩
def PNL_OSTATUS_LINK_LOST : Fld := ⟨7, 1⟩
def PNL_OSTATUS_LINE : Fld := ⟨16, 12⟩
def PNL_AUX_ADDR_ADDR : Fld := ⟨0, 20⟩
def PNL_AUX_CTRL_CMD : Fld := ⟨0, 4⟩
def PNL_AUX_CTRL_LEN : Fld := ⟨4, 4⟩
def PNL_AUX_CTRL_GO : Fld := ⟨8, 1⟩
def PNL_AUX_CTRL_RESULT : Fld := ⟨9, 3⟩
def PNL_LAYER_CFG_KIND : Fld := ⟨0, 2⟩
def PNL_LAYER_CFG_KEY : Fld := ⟨2, 1⟩
def PNL_LAYER_CFG_OUT : Fld := ⟨3, 1⟩
def PNL_LAYER_CFG_PLANE : Fld := ⟨4, 4⟩
def PNL_LAYER_CFG_SX : Fld := ⟨8, 3⟩
def PNL_LAYER_CFG_SY : Fld := ⟨11, 3⟩
def PNL_LAYER_CFG_OVL : Fld := ⟨16, 4⟩
def PNL_LAYER_POS_X : Fld := ⟨0, 12⟩
def PNL_LAYER_POS_Y : Fld := ⟨16, 12⟩
def PNL_LAYER_SIZE_W : Fld := ⟨0, 12⟩
def PNL_LAYER_SIZE_H : Fld := ⟨16, 12⟩
def PNL_LAYER_BASE_LO_LO : Fld := ⟨0, 32⟩
def PNL_LAYER_BASE_HI_HI : Fld := ⟨0, 32⟩
def PNL_LAYER_STRIDE_STRIDE : Fld := ⟨0, 32⟩
def PNL_CRC_RECT0_X0 : Fld := ⟨0, 12⟩
def PNL_CRC_RECT0_Y0 : Fld := ⟨16, 12⟩
def PNL_CRC_RECT0_OUT : Fld := ⟨30, 1⟩
def PNL_CRC_RECT0_CHECK : Fld := ⟨31, 1⟩
def PNL_CRC_RECT1_X1 : Fld := ⟨0, 12⟩
def PNL_CRC_RECT1_Y1 : Fld := ⟨16, 12⟩
def SHU_STATUS_ENABLE : Fld := ⟨0, 1⟩
def SHU_STATUS_CFG_REJECT : Fld := ⟨1, 1⟩
def SHU_STATUS_HALTED : Fld := ⟨2, 1⟩
def SHU_STATUS_FAULTED : Fld := ⟨3, 1⟩
def SHU_STATUS_WAITING : Fld := ⟨4, 1⟩
def SHU_STATUS_PART_HELD : Fld := ⟨5, 1⟩
def SHU_STATUS_IN_HANDLER : Fld := ⟨6, 1⟩
def SHU_STATUS_MBOX_OVF : Fld := ⟨7, 1⟩
def SHU_INT_STATUS_HALTED : Fld := ⟨0, 1⟩
def SHU_INT_STATUS_FAULT : Fld := ⟨1, 1⟩
def SHU_INT_STATUS_MBOX_OUT : Fld := ⟨2, 1⟩
def SHU_INT_STATUS_TIMEOUT : Fld := ⟨3, 1⟩
def SHU_INT_STATUS_BYPASS : Fld := ⟨4, 1⟩
def SHU_INT_STATUS_STALE : Fld := ⟨5, 1⟩
def SHU_INT_STATUS_MEM_CE : Fld := ⟨6, 1⟩
def SHU_INT_ENABLE_HALTED : Fld := ⟨0, 1⟩
def SHU_INT_ENABLE_FAULT : Fld := ⟨1, 1⟩
def SHU_INT_ENABLE_MBOX_OUT : Fld := ⟨2, 1⟩
def SHU_INT_ENABLE_TIMEOUT : Fld := ⟨3, 1⟩
def SHU_INT_ENABLE_BYPASS : Fld := ⟨4, 1⟩
def SHU_INT_ENABLE_STALE : Fld := ⟨5, 1⟩
def SHU_INT_ENABLE_MEM_CE : Fld := ⟨6, 1⟩
def SHU_CTRL_RUN : Fld := ⟨0, 1⟩
def SHU_CTRL_HALT : Fld := ⟨1, 1⟩
def SHU_CTRL_STEP : Fld := ⟨2, 1⟩
def SHU_CTRL_RESET : Fld := ⟨3, 1⟩
def SHU_CTRL_IRQ : Fld := ⟨4, 1⟩
def SHU_CFG_TIMEOUT : Fld := ⟨0, 16⟩
def SHU_START_START : Fld := ⟨0, 14⟩
def SHU_PC_PC : Fld := ⟨0, 14⟩
def SHU_FAULT_CAUSE : Fld := ⟨0, 4⟩
def SHU_FAULT_CODE : Fld := ⟨8, 8⟩
def SHU_FAULT_ADDR : Fld := ⟨16, 14⟩
def SHU_MBOX_IN_DEPTH : Fld := ⟨0, 4⟩
def SHU_MBOX_OUT_DATA : Fld := ⟨0, 16⟩
def SHU_MBOX_OUT_VALID : Fld := ⟨31, 1⟩
def SHU_BREAK_ADDR : Fld := ⟨0, 14⟩
def SHU_BREAK_EN : Fld := ⟨31, 1⟩
def REC_STATUS_ENABLE : Fld := ⟨0, 1⟩
def REC_STATUS_CFG_REJECT : Fld := ⟨1, 1⟩
def REC_STATUS_FLUSHING : Fld := ⟨2, 1⟩
def REC_INT_STATUS_Q_PARITY : Fld := ⟨0, 1⟩
def REC_INT_STATUS_SIDE_OVERFLOW : Fld := ⟨1, 1⟩
def REC_INT_STATUS_USER_DONE : Fld := ⟨2, 1⟩
def REC_INT_STATUS_RUN_END_DONE : Fld := ⟨3, 1⟩
def REC_INT_STATUS_OVERRUN_CLOSE : Fld := ⟨4, 1⟩
def REC_INT_STATUS_ABANDONED_CLOSE : Fld := ⟨5, 1⟩
def REC_INT_ENABLE_Q_PARITY : Fld := ⟨0, 1⟩
def REC_INT_ENABLE_SIDE_OVERFLOW : Fld := ⟨1, 1⟩
def REC_INT_ENABLE_USER_DONE : Fld := ⟨2, 1⟩
def REC_INT_ENABLE_RUN_END_DONE : Fld := ⟨3, 1⟩
def REC_INT_ENABLE_OVERRUN_CLOSE : Fld := ⟨4, 1⟩
def REC_INT_ENABLE_ABANDONED_CLOSE : Fld := ⟨5, 1⟩
def REC_USER_CTRL_STREAM : Fld := ⟨0, 8⟩
def REC_USER_CTRL_GO : Fld := ⟨8, 1⟩
def REC_USER_CTRL_RESULT : Fld := ⟨9, 2⟩
def REC_USER_CTRL_SOURCE : Fld := ⟨16, 16⟩
def REC_SIDE_CFG_EN : Fld := ⟨0, 1⟩
def REC_SIDE_CFG_STREAM : Fld := ⟨8, 8⟩
def REC_SIDE_CFG_BATCH_EXP : Fld := ⟨16, 4⟩
def REC_SIDE_CFG_HOLD : Fld := ⟨20, 12⟩
def REC_SIDE_STATUS_OVERFLOW : Fld := ⟨0, 5⟩
def REC_Q_STATUS_EMPTY : Fld := ⟨0, 1⟩
def REC_Q_STATUS_FULL : Fld := ⟨1, 1⟩
def REC_Q_STATUS_PKT_OPEN : Fld := ⟨2, 1⟩
def REC_Q_STATUS_PARITY : Fld := ⟨3, 1⟩
def REC_Q_STATUS_DEPTH : Fld := ⟨16, 14⟩
def REC_Q_MAX_MAX : Fld := ⟨0, 14⟩
def REC_STREAM_CFG_EN : Fld := ⟨0, 1⟩
def REC_STREAM_CFG_QUILL : Fld := ⟨1, 5⟩
def REC_STREAM_CFG_PORT : Fld := ⟨6, 2⟩
def REC_STREAM_CFG_RING : Fld := ⟨8, 4⟩
def REC_STREAM_CFG_CLASS : Fld := ⟨12, 3⟩
def REC_STREAM_CFG_AUTH : Fld := ⟨16, 1⟩
def REC_STREAM_CFG_ENCRYPT : Fld := ⟨17, 1⟩
def REC_STREAM_CFG_FRAG_EXP : Fld := ⟨20, 4⟩
def QUL_STATUS_ENABLE : Fld := ⟨0, 1⟩
def QUL_STATUS_CFG_REJECT : Fld := ⟨1, 1⟩
def QUL_INT_STATUS_RAW_OVERRUN : Fld := ⟨0, 1⟩
def QUL_INT_STATUS_RAW_BREAK : Fld := ⟨1, 1⟩
def QUL_INT_ENABLE_RAW_OVERRUN : Fld := ⟨0, 1⟩
def QUL_INT_ENABLE_RAW_BREAK : Fld := ⟨1, 1⟩
def QUL_CH_CFG_SPEC_STREAM : Fld := ⟨0, 8⟩
def QUL_CH_CFG_SPEC_BATCH : Fld := ⟨8, 8⟩
def QUL_CH_CFG_RAW_STREAM : Fld := ⟨16, 8⟩
def QUL_CH_CFG_RAW_EN : Fld := ⟨24, 1⟩
def QUL_CH_CFG_RAW_PACK : Fld := ⟨25, 1⟩
def QUL_CH_CFG_RAW_EXP : Fld := ⟨26, 4⟩
def SKN_STATUS_ENABLE : Fld := ⟨0, 1⟩
def SKN_STATUS_CFG_REJECT : Fld := ⟨1, 1⟩
def SKN_INT_STATUS_FALLBACK : Fld := ⟨0, 1⟩
def SKN_INT_STATUS_ENGINE_FAIL : Fld := ⟨1, 1⟩
def SKN_INT_STATUS_POISON : Fld := ⟨2, 1⟩
def SKN_INT_STATUS_DEC_DONE : Fld := ⟨4, 4⟩
def SKN_INT_STATUS_DEC_ERR : Fld := ⟨8, 4⟩
def SKN_INT_ENABLE_FALLBACK : Fld := ⟨0, 1⟩
def SKN_INT_ENABLE_ENGINE_FAIL : Fld := ⟨1, 1⟩
def SKN_INT_ENABLE_POISON : Fld := ⟨2, 1⟩
def SKN_INT_ENABLE_DEC_DONE : Fld := ⟨4, 4⟩
def SKN_INT_ENABLE_DEC_ERR : Fld := ⟨8, 4⟩
def SKN_CLASS_MODE : Fld := ⟨0, 2⟩
def SKN_CLASS_LEVEL : Fld := ⟨2, 2⟩
def SKN_CLASS_WINDOW : Fld := ⟨4, 2⟩
def SKN_ENG_STATUS_BUSY : Fld := ⟨0, 1⟩
def SKN_ENG_STATUS_FAILED : Fld := ⟨1, 1⟩
def SKN_DEC_CTRL_GO : Fld := ⟨0, 1⟩
def SKN_DEC_CTRL_STOP : Fld := ⟨1, 1⟩
def SKN_DEC_CTRL_USE_EXPECT : Fld := ⟨2, 1⟩
def SKN_DEC_STATUS_BUSY : Fld := ⟨0, 1⟩
def SKN_DEC_STATUS_ERR : Fld := ⟨4, 4⟩
def SKN_DEC_STATUS_REFUSED : Fld := ⟨8, 1⟩
def HNS_STATUS_ENABLE : Fld := ⟨0, 1⟩
def HNS_STATUS_CFG_REJECT : Fld := ⟨1, 1⟩
def HNS_INT_STATUS_LINK_UP : Fld := ⟨0, 4⟩
def HNS_INT_STATUS_LINK_DOWN : Fld := ⟨4, 4⟩
def HNS_INT_STATUS_PARTNER_DB : Fld := ⟨8, 4⟩
def HNS_INT_STATUS_DB_OVERFLOW : Fld := ⟨12, 1⟩
def HNS_INT_STATUS_RD_BAD : Fld := ⟨13, 1⟩
def HNS_INT_STATUS_RING_STALL : Fld := ⟨14, 1⟩
def HNS_INT_STATUS_LOSS : Fld := ⟨15, 1⟩
def HNS_INT_STATUS_BAR2_REFUSED : Fld := ⟨16, 1⟩
def HNS_INT_ENABLE_LINK_UP : Fld := ⟨0, 4⟩
def HNS_INT_ENABLE_LINK_DOWN : Fld := ⟨4, 4⟩
def HNS_INT_ENABLE_PARTNER_DB : Fld := ⟨8, 4⟩
def HNS_INT_ENABLE_DB_OVERFLOW : Fld := ⟨12, 1⟩
def HNS_INT_ENABLE_RD_BAD : Fld := ⟨13, 1⟩
def HNS_INT_ENABLE_RING_STALL : Fld := ⟨14, 1⟩
def HNS_INT_ENABLE_LOSS : Fld := ⟨15, 1⟩
def HNS_INT_ENABLE_BAR2_REFUSED : Fld := ⟨16, 1⟩
def HNS_PORT_CFG_MAX_GEN : Fld := ⟨0, 3⟩
def HNS_PORT_CFG_MAX_WIDTH : Fld := ⟨3, 2⟩
def HNS_PORT_CFG_SRIS : Fld := ⟨5, 1⟩
def HNS_PORT_CFG_BAR2_EN : Fld := ⟨6, 1⟩
def HNS_PORT_CFG_BAR2_EXP : Fld := ⟨7, 5⟩
def HNS_PORT_CFG_CTO : Fld := ⟨12, 2⟩
def HNS_PORT_CFG_DOWN_STOPS : Fld := ⟨14, 1⟩
def HNS_PORT_STATUS_LINK_UP : Fld := ⟨0, 1⟩
def HNS_PORT_STATUS_L1 : Fld := ⟨1, 1⟩
def HNS_PORT_STATUS_GEN : Fld := ⟨2, 3⟩
def HNS_PORT_STATUS_WIDTH : Fld := ⟨5, 2⟩
def HNS_PORT_STATUS_BME : Fld := ⟨7, 1⟩
def HNS_PORT_STATUS_MSIX_EN : Fld := ⟨8, 1⟩
def HNS_PORT_STATUS_PERST : Fld := ⟨9, 1⟩
def HNS_PORT_STATUS_MPS : Fld := ⟨10, 3⟩
def HNS_PORT_STATUS_MRRS : Fld := ⟨13, 3⟩
def HNS_PORT_STATUS_X1 : Fld := ⟨16, 1⟩
def HNS_PARTNER_DB_DATA : Fld := ⟨0, 16⟩
def HNS_PARTNER_DB_VALID : Fld := ⟨31, 1⟩
def HNS_MSIX_SEND_SEND : Fld := ⟨0, 32⟩
def HNS_RING_STATUS_EN : Fld := ⟨0, 1⟩
def HNS_RING_STATUS_ACTIVE : Fld := ⟨1, 1⟩
def HNS_RING_STATUS_STALLED : Fld := ⟨2, 1⟩
def HNS_RING_STATUS_RD_BAD : Fld := ⟨3, 1⟩
def HNS_RING_STATUS_LOSS : Fld := ⟨4, 1⟩
def HNS_RING_STATUS_SIZE_EXP : Fld := ⟨5, 6⟩
def HNS_RING_STATUS_NB_EXP : Fld := ⟨11, 5⟩
def HNS_RING_STATUS_HOLD : Fld := ⟨16, 16⟩
def HNS_GRANT_BASE_LO_BASE_LO : Fld := ⟨0, 32⟩
def HNS_GRANT_BASE_HI_BASE_HI : Fld := ⟨0, 8⟩
def HNS_GRANT_SIZE_SIZE : Fld := ⟨0, 24⟩
def SPN_STATUS_ACTIVE : Fld := ⟨0, 1⟩
def SPN_STATUS_CFG_REJECT : Fld := ⟨1, 1⟩
def SPN_STATUS_CMD_REFUSED : Fld := ⟨2, 1⟩
def SPN_INT_STATUS_SIGNAL : Fld := ⟨0, 1⟩
def SPN_INT_STATUS_ERROR : Fld := ⟨1, 1⟩
def SPN_INT_STATUS_PAUSED : Fld := ⟨2, 1⟩
def SPN_INT_ENABLE_SIGNAL : Fld := ⟨0, 1⟩
def SPN_INT_ENABLE_ERROR : Fld := ⟨1, 1⟩
def SPN_INT_ENABLE_PAUSED : Fld := ⟨2, 1⟩
def SPN_CH_CTRL_START : Fld := ⟨0, 1⟩
def SPN_CH_CTRL_HALT : Fld := ⟨1, 1⟩
def SPN_CH_CTRL_STOP : Fld := ⟨2, 1⟩
def SPN_CH_CTRL_POKE : Fld := ⟨3, 1⟩
def SPN_CH_CFG_PRIO : Fld := ⟨0, 1⟩
def SPN_CH_STATUS_STATE : Fld := ⟨0, 3⟩
def SPN_CH_STATUS_LOOP0 : Fld := ⟨3, 1⟩
def SPN_CH_STATUS_LOOP1 : Fld := ⟨4, 1⟩
def SPN_CH_STATUS_KEPT : Fld := ⟨5, 1⟩
def SPN_CH_STATUS_REMAIN : Fld := ⟨8, 24⟩
def SPN_CH_EVENT_EVENTS : Fld := ⟨0, 8⟩
def SPN_CH_PC_LO_PC_LO : Fld := ⟨0, 32⟩
def SPN_CH_PC_HI_PC_HI : Fld := ⟨0, 32⟩
def SPN_CH_LEN_SLEN : Fld := ⟨0, 6⟩
def SPN_CH_LEN_DLEN : Fld := ⟨8, 6⟩
def SPN_CH_SPTR_HI_HI : Fld := ⟨0, 8⟩
def SPN_CH_DPTR_HI_HI : Fld := ⟨0, 8⟩
def SPN_CH_ERR_INFO_CODE : Fld := ⟨0, 4⟩
def SPN_CH_ERR_INFO_DIR : Fld := ⟨4, 2⟩
def SPN_CH_ERR_INFO_INSTR : Fld := ⟨8, 24⟩
def STP_STATUS_ENABLE : Fld := ⟨0, 1⟩
def STP_STATUS_CFG_REJECT : Fld := ⟨1, 1⟩
def STP_STATUS_LOCKED : Fld := ⟨2, 1⟩
def STP_STATUS_RELOCKING : Fld := ⟨3, 1⟩
def STP_STATUS_ON_REFIN : Fld := ⟨4, 1⟩
def STP_STATUS_REF_QUAL : Fld := ⟨5, 1⟩
def STP_STATUS_HOLDOVER : Fld := ⟨6, 1⟩
def STP_STATUS_SLEWING : Fld := ⟨7, 1⟩
def STP_STATUS_REF_FAIL : Fld := ⟨8, 1⟩
def STP_STATUS_REF_FREQ_BAD : Fld := ⟨9, 1⟩
def STP_INT_STATUS_LOCK : Fld := ⟨0, 1⟩
def STP_INT_STATUS_UNLOCK : Fld := ⟨1, 1⟩
def STP_INT_STATUS_HOLDOVER_ON : Fld := ⟨2, 1⟩
def STP_INT_STATUS_HOLDOVER_OFF : Fld := ⟨3, 1⟩
def STP_INT_STATUS_REF_FAIL : Fld := ⟨4, 1⟩
def STP_INT_STATUS_SNAP : Fld := ⟨5, 1⟩
def STP_INT_STATUS_SYNC_REFUSED : Fld := ⟨6, 1⟩
def STP_INT_STATUS_CMD_REFUSED : Fld := ⟨7, 1⟩
def STP_INT_ENABLE_LOCK : Fld := ⟨0, 1⟩
def STP_INT_ENABLE_UNLOCK : Fld := ⟨1, 1⟩
def STP_INT_ENABLE_HOLDOVER_ON : Fld := ⟨2, 1⟩
def STP_INT_ENABLE_HOLDOVER_OFF : Fld := ⟨3, 1⟩
def STP_INT_ENABLE_REF_FAIL : Fld := ⟨4, 1⟩
def STP_INT_ENABLE_SNAP : Fld := ⟨5, 1⟩
def STP_INT_ENABLE_SYNC_REFUSED : Fld := ⟨6, 1⟩
def STP_INT_ENABLE_CMD_REFUSED : Fld := ⟨7, 1⟩
def STP_CTRL_RELOCK : Fld := ⟨0, 1⟩
def STP_CTRL_SYNC_ARM : Fld := ⟨1, 1⟩
def STP_CFG_REF_SEL : Fld := ⟨0, 1⟩
def STP_CFG_BW : Fld := ⟨1, 2⟩
def STP_CFG_RECOVER : Fld := ⟨3, 1⟩
def STP_CFG_HOLD_STOPS : Fld := ⟨4, 1⟩
def STP_CFG_REF_TOL : Fld := ⟨16, 10⟩
def STP_REF_NOM_HZ : Fld := ⟨0, 26⟩
def STP_PHASE_PHASE : Fld := ⟨0, 16⟩
def STP_HOLD_LIMIT_SECONDS : Fld := ⟨0, 16⟩
def STP_OUT_CFG_EN : Fld := ⟨0, 1⟩
def STP_OUT_CFG_MODE : Fld := ⟨1, 1⟩
def STP_OUT_CFG_SYNC_EN : Fld := ⟨2, 1⟩
def STP_OUT_CFG_SPREAD : Fld := ⟨3, 2⟩
def STP_OUT_CFG_DEPTH : Fld := ⟨5, 3⟩
def STP_OUT_CFG_DIV : Fld := ⟨8, 12⟩
def STP_SYNC_CFG_DIV_ACT : Fld := ⟨0, 2⟩
def STP_SYNC_CFG_WRP_ACT : Fld := ⟨2, 2⟩
def STP_SYNC_CFG_ONESHOT : Fld := ⟨4, 1⟩
def STP_SYNC_CFG_LAT : Fld := ⟨8, 8⟩
def STP_OUT_STATUS_UNSYNCED : Fld := ⟨0, 8⟩
def STP_OUT_STATUS_MISMATCH : Fld := ⟨8, 8⟩
def STP_OUT_STATUS_CFG_BAD : Fld := ⟨16, 8⟩
def STP_OUT_PHASE_COARSE : Fld := ⟨0, 12⟩
def STP_OUT_PHASE_FINE : Fld := ⟨12, 3⟩
def WRP_STATUS_CFG_REJECT : Fld := ⟨0, 1⟩
def WRP_INT_STATUS_STEP : Fld := ⟨0, 1⟩
def WRP_INT_STATUS_SYNC : Fld := ⟨1, 1⟩
def WRP_INT_STATUS_SYNC_MISMATCH : Fld := ⟨2, 1⟩
def WRP_INT_STATUS_CMD_REFUSED : Fld := ⟨3, 1⟩
def WRP_INT_ENABLE_STEP : Fld := ⟨0, 1⟩
def WRP_INT_ENABLE_SYNC : Fld := ⟨1, 1⟩
def WRP_INT_ENABLE_SYNC_MISMATCH : Fld := ⟨2, 1⟩
def WRP_INT_ENABLE_CMD_REFUSED : Fld := ⟨3, 1⟩
def WRP_CTRL_LOAD : Fld := ⟨0, 1⟩
def WRP_CFG_RUN_STEP : Fld := ⟨0, 1⟩
def WRP_STEP_INFO_FRAC_BEFORE : Fld := ⟨0, 8⟩
def WRP_STEP_INFO_FRAC_AFTER : Fld := ⟨8, 8⟩
def WRP_STEP_INFO_KIND : Fld := ⟨16, 3⟩
def HFB_STATUS_ENABLE : Fld := ⟨0, 1⟩
def HFB_STATUS_CFG_REJECT : Fld := ⟨1, 1⟩
def HFB_STATUS_READY : Fld := ⟨2, 1⟩
def HFB_STATUS_CALIBRATING : Fld := ⟨3, 1⟩
def HFB_STATUS_CAL_PENDING : Fld := ⟨4, 1⟩
def HFB_INT_STATUS_DROP : Fld := ⟨0, 1⟩
def HFB_INT_STATUS_DLL_UNLOCK : Fld := ⟨1, 1⟩
def HFB_INT_STATUS_CAL_DONE : Fld := ⟨2, 1⟩
def HFB_INT_STATUS_SUSPECT : Fld := ⟨3, 1⟩
def HFB_INT_ENABLE_DROP : Fld := ⟨0, 1⟩
def HFB_INT_ENABLE_DLL_UNLOCK : Fld := ⟨1, 1⟩
def HFB_INT_ENABLE_CAL_DONE : Fld := ⟨2, 1⟩
def HFB_INT_ENABLE_SUSPECT : Fld := ⟨3, 1⟩
def HFB_CTRL_CAL : Fld := ⟨0, 1⟩
def HFB_CAL_ADDR_INPUT : Fld := ⟨0, 5⟩
def HFB_CAL_ADDR_CODE : Fld := ⟨8, 8⟩
def HFB_CAL_DATA_FRACTION : Fld := ⟨0, 16⟩
def HFB_IN_CFG_EN : Fld := ⟨0, 1⟩
def HFB_IN_CFG_EDGE : Fld := ⟨1, 2⟩
def HFB_IN_CFG_PS_EN : Fld := ⟨3, 1⟩
def HFB_IN_CFG_PS : Fld := ⟨4, 5⟩
def HFB_IN_CFG_DECIM : Fld := ⟨9, 5⟩
def HFB_IN_CFG_EVT : Fld := ⟨14, 1⟩
def HFB_IN_CFG_REC : Fld := ⟨15, 1⟩
def HFB_DLY_DLY : Fld := ⟨0, 16⟩
def GLB_ID_PART : Fld := ⟨0, 16⟩
def GLB_ID_REV : Fld := ⟨16, 8⟩
def GLB_FEATURE_SLICES : Fld := ⟨0, 5⟩
def GLB_FEATURE_REEDS : Fld := ⟨5, 7⟩
def GLB_FEATURE_SHEDS : Fld := ⟨12, 7⟩
def GLB_FEATURE_PLANES : Fld := ⟨19, 5⟩
def GLB_FEATURE_ENGINES : Fld := ⟨24, 6⟩
def GLB_STATUS_CFG_REJECT : Fld := ⟨0, 1⟩
def GLB_STATUS_CMD_REFUSED : Fld := ⟨1, 1⟩
def GLB_STATUS_CFG_ERR : Fld := ⟨2, 1⟩
def GLB_STATUS_ARM_TIMEOUT : Fld := ⟨3, 1⟩
def GLB_STATUS_LATE_START : Fld := ⟨4, 1⟩
def GLB_STATUS_CFG_DIRTY : Fld := ⟨5, 1⟩
def GLB_INT_STATUS_STATE_CHANGE : Fld := ⟨0, 1⟩
def GLB_INT_STATUS_CMD_REFUSED : Fld := ⟨1, 1⟩
def GLB_INT_STATUS_ARM_DONE : Fld := ⟨2, 1⟩
def GLB_INT_STATUS_ARM_TIMEOUT : Fld := ⟨3, 1⟩
def GLB_INT_STATUS_RUN_START : Fld := ⟨4, 1⟩
def GLB_INT_STATUS_RUN_STOP : Fld := ⟨5, 1⟩
def GLB_INT_STATUS_RUN_END : Fld := ⟨6, 1⟩
def GLB_INT_STATUS_DEGRADE : Fld := ⟨7, 1⟩
def GLB_INT_STATUS_BUS_ERR : Fld := ⟨8, 1⟩
def GLB_INT_ENABLE_STATE_CHANGE : Fld := ⟨0, 1⟩
def GLB_INT_ENABLE_CMD_REFUSED : Fld := ⟨1, 1⟩
def GLB_INT_ENABLE_ARM_DONE : Fld := ⟨2, 1⟩
def GLB_INT_ENABLE_ARM_TIMEOUT : Fld := ⟨3, 1⟩
def GLB_INT_ENABLE_RUN_START : Fld := ⟨4, 1⟩
def GLB_INT_ENABLE_RUN_STOP : Fld := ⟨5, 1⟩
def GLB_INT_ENABLE_RUN_END : Fld := ⟨6, 1⟩
def GLB_INT_ENABLE_DEGRADE : Fld := ⟨7, 1⟩
def GLB_INT_ENABLE_BUS_ERR : Fld := ⟨8, 1⟩
def GLB_RUN_STATE : Fld := ⟨0, 3⟩
def GLB_RUN_BUSY : Fld := ⟨3, 1⟩
def GLB_RUN_CMD : Fld := ⟨4, 3⟩
def GLB_RUN_START_MODE : Fld := ⟨7, 1⟩
def GLB_RUN_STOP_REASON : Fld := ⟨8, 2⟩
def GLB_DEGRADE_LINK_STEP : Fld := ⟨0, 1⟩
def GLB_DEGRADE_REED_RETIRED : Fld := ⟨1, 1⟩
def GLB_DEGRADE_THERMAL : Fld := ⟨2, 1⟩
def GLB_DEGRADE_HBM_PC_RETIRED : Fld := ⟨3, 1⟩
def GLB_DEGRADE_SLICE_ABSENT : Fld := ⟨4, 1⟩
def GLB_BOOT_HOST_GIB : Fld := ⟨0, 4⟩
def GLB_BOOT_HOST_SET : Fld := ⟨4, 1⟩
def GLB_BOOT_STAGE : Fld := ⟨8, 4⟩
def GLB_BOOT_FAIL_STAGE : Fld := ⟨12, 4⟩
def GLB_BOOT_USER_RELEASED : Fld := ⟨16, 1⟩
def GLB_BOOT_ONE_MODULE : Fld := ⟨17, 1⟩
def GLB_BUSERR_INFO_KIND : Fld := ⟨0, 2⟩
def GLB_BUSERR_INFO_WRITE : Fld := ⟨2, 1⟩
def GLB_BUSERR_INFO_DOM : Fld := ⟨3, 1⟩
def GLB_BUSERR_INFO_HART : Fld := ⟨4, 3⟩
def GLB_BUSERR_INFO_ALIAS : Fld := ⟨7, 1⟩
def BRD_STATUS_OPEN : Fld := ⟨0, 1⟩
def BRD_STATUS_ZEROISED : Fld := ⟨1, 1⟩
def BRD_STATUS_DIK_OFF : Fld := ⟨2, 1⟩
def BRD_STATUS_SIGNING : Fld := ⟨3, 1⟩
def BRD_STATUS_CMD_BUSY : Fld := ⟨4, 1⟩
def BRD_INT_STATUS_CMD_DONE : Fld := ⟨0, 1⟩
def BRD_INT_STATUS_MANIFEST : Fld := ⟨1, 1⟩
def BRD_INT_STATUS_JRN_DROP : Fld := ⟨2, 1⟩
def BRD_INT_STATUS_RETRY : Fld := ⟨3, 1⟩
def BRD_INT_STATUS_NO_SESSION : Fld := ⟨4, 1⟩
def BRD_INT_ENABLE_CMD_DONE : Fld := ⟨0, 1⟩
def BRD_INT_ENABLE_MANIFEST : Fld := ⟨1, 1⟩
def BRD_INT_ENABLE_JRN_DROP : Fld := ⟨2, 1⟩
def BRD_INT_ENABLE_RETRY : Fld := ⟨3, 1⟩
def BRD_INT_ENABLE_NO_SESSION : Fld := ⟨4, 1⟩
def BRD_CMD_CODE : Fld := ⟨0, 8⟩
def BRD_CMD_GO : Fld := ⟨8, 1⟩
def BRD_CMD_RESULT : Fld := ⟨12, 3⟩
def BRD_CMD_LEN_LEN : Fld := ⟨0, 15⟩
def BRD_OUT_LEN_LEN : Fld := ⟨0, 15⟩
def BRD_DEBUG_STATE : Fld := ⟨0, 2⟩
def BRD_OWNER_SLOT : Fld := ⟨0, 8⟩
def BRD_OWNER_F0_REVOKED : Fld := ⟨8, 1⟩
def BRD_SVN_SEALED : Fld := ⟨0, 16⟩
def BRD_SVN_OWNER : Fld := ⟨16, 16⟩
def BRD_JRN_BACKLOG_N : Fld := ⟨0, 15⟩
def BRD_KEY_ID_KEY_ID : Fld := ⟨0, 8⟩
def BRD_KEY_ID_VALID : Fld := ⟨8, 1⟩
def FAR_STATUS_BUSY : Fld := ⟨0, 1⟩
def FAR_STATUS_CFG_REJECT : Fld := ⟨1, 1⟩
def FAR_STATUS_STATS_PENDING : Fld := ⟨2, 1⟩
def FAR_STATUS_STATS_ACTIVE : Fld := ⟨3, 1⟩
def FAR_INT_STATUS_PROG_DONE : Fld := ⟨0, 1⟩
def FAR_INT_STATUS_PROG_FAIL : Fld := ⟨1, 1⟩
def FAR_INT_STATUS_STATS_DONE : Fld := ⟨2, 1⟩
def FAR_INT_STATUS_AUTO_REC : Fld := ⟨3, 1⟩
def FAR_INT_STATUS_AUTO_FAIL : Fld := ⟨4, 1⟩
def FAR_INT_STATUS_CMD_REFUSED : Fld := ⟨5, 1⟩
def FAR_INT_ENABLE_PROG_DONE : Fld := ⟨0, 1⟩
def FAR_INT_ENABLE_PROG_FAIL : Fld := ⟨1, 1⟩
def FAR_INT_ENABLE_STATS_DONE : Fld := ⟨2, 1⟩
def FAR_INT_ENABLE_AUTO_REC : Fld := ⟨3, 1⟩
def FAR_INT_ENABLE_AUTO_FAIL : Fld := ⟨4, 1⟩
def FAR_INT_ENABLE_CMD_REFUSED : Fld := ⟨5, 1⟩
def FAR_CTRL_PROG : Fld := ⟨0, 1⟩
def FAR_CTRL_STATS_GO : Fld := ⟨1, 1⟩
def FAR_CTRL_STATS_CANCEL : Fld := ⟨2, 1⟩
def FAR_PROG_STATUS_RESULT : Fld := ⟨0, 4⟩
def FAR_PROG_STATUS_SLOT : Fld := ⟨8, 7⟩
def FAR_FREE_FREE : Fld := ⟨0, 8⟩
def FAR_STATS_CFG_WINDOW : Fld := ⟨0, 5⟩
def FAR_STATS_CFG_APPLY : Fld := ⟨8, 1⟩
def FAR_STATS_CFG_TARGET : Fld := ⟨16, 16⟩
def FAR_STATS_RES0_OFFSET : Fld := ⟨0, 16⟩
def FAR_STATS_RES0_GAIN_LO : Fld := ⟨16, 16⟩
def FAR_STATS_RES1_GAIN_HI : Fld := ⟨0, 2⟩
def FAR_STATS_RES1_RESULT : Fld := ⟨4, 2⟩
def MON_STATUS_CFG_REJECT : Fld := ⟨0, 1⟩
def MON_STATUS_WARN : Fld := ⟨1, 1⟩
def MON_STATUS_CRIT : Fld := ⟨2, 1⟩
def MON_INT_STATUS_WARN_ON : Fld := ⟨0, 1⟩
def MON_INT_STATUS_WARN_OFF : Fld := ⟨1, 1⟩
def MON_INT_STATUS_CRIT : Fld := ⟨2, 1⟩
def MON_INT_STATUS_V_OUT : Fld := ⟨3, 1⟩
def MON_INT_STATUS_V_IN : Fld := ⟨4, 1⟩
def MON_INT_STATUS_SENSOR_FAULT : Fld := ⟨5, 1⟩
def MON_INT_ENABLE_WARN_ON : Fld := ⟨0, 1⟩
def MON_INT_ENABLE_WARN_OFF : Fld := ⟨1, 1⟩
def MON_INT_ENABLE_CRIT : Fld := ⟨2, 1⟩
def MON_INT_ENABLE_V_OUT : Fld := ⟨3, 1⟩
def MON_INT_ENABLE_V_IN : Fld := ⟨4, 1⟩
def MON_INT_ENABLE_SENSOR_FAULT : Fld := ⟨5, 1⟩
def MON_THERM_CFG_WARN : Fld := ⟨0, 8⟩
def MON_THERM_CFG_CRIT : Fld := ⟨8, 8⟩
def MON_THERM_CFG_HYST : Fld := ⟨16, 4⟩
def MON_T_MAX_READING : Fld := ⟨0, 16⟩
def MON_T_MAX_MONITOR : Fld := ⟨16, 5⟩
def MON_V_OUT_OUT : Fld := ⟨0, 16⟩
def MON_T_READING : Fld := ⟨0, 16⟩
def MON_T_TRIM_TRIM : Fld := ⟨0, 8⟩
def MON_V_READING : Fld := ⟨0, 16⟩
def MON_V_NOM : Fld := ⟨16, 16⟩
def MON_V_WIN_LO : Fld := ⟨0, 8⟩
def MON_V_WIN_HI : Fld := ⟨8, 8⟩
def TCK_STATUS_ENABLE : Fld := ⟨0, 1⟩
def TCK_STATUS_CFG_REJECT : Fld := ⟨1, 1⟩
def TCK_STATUS_CFG_BAD : Fld := ⟨2, 1⟩
def TCK_STATUS_REG_BUSY : Fld := ⟨3, 1⟩
def TCK_STATUS_INJ_BUSY : Fld := ⟨4, 1⟩
def TCK_STATUS_CAL_BUSY : Fld := ⟨5, 1⟩
def TCK_INT_STATUS_REG_DONE : Fld := ⟨0, 1⟩
def TCK_INT_STATUS_INJ_DONE : Fld := ⟨1, 1⟩
def TCK_INT_STATUS_CAL_DONE : Fld := ⟨2, 1⟩
def TCK_INT_STATUS_CAL_BAD : Fld := ⟨3, 1⟩
def TCK_INT_STATUS_SKIP : Fld := ⟨4, 1⟩
def TCK_INT_STATUS_WR_ERR : Fld := ⟨5, 1⟩
def TCK_INT_STATUS_CMD_REFUSED : Fld := ⟨6, 1⟩
def TCK_INT_ENABLE_REG_DONE : Fld := ⟨0, 1⟩
def TCK_INT_ENABLE_INJ_DONE : Fld := ⟨1, 1⟩
def TCK_INT_ENABLE_CAL_DONE : Fld := ⟨2, 1⟩
def TCK_INT_ENABLE_CAL_BAD : Fld := ⟨3, 1⟩
def TCK_INT_ENABLE_SKIP : Fld := ⟨4, 1⟩
def TCK_INT_ENABLE_WR_ERR : Fld := ⟨5, 1⟩
def TCK_INT_ENABLE_CMD_REFUSED : Fld := ⟨6, 1⟩
def TCK_CTRL_START : Fld := ⟨0, 1⟩
def TCK_CTRL_STOP : Fld := ⟨1, 1⟩
def TCK_CTRL_REG_GO : Fld := ⟨2, 1⟩
def TCK_CTRL_INJ_GO : Fld := ⟨3, 1⟩
def TCK_CTRL_CAL_GO : Fld := ⟨4, 1⟩
def TCK_CTRL_CAL_COMMIT : Fld := ⟨5, 1⟩
def TCK_CFG_REG_LEN : Fld := ⟨0, 4⟩
def TCK_CFG_INJ_LEN : Fld := ⟨4, 2⟩
def TCK_CFG_MODE : Fld := ⟨6, 1⟩
def TCK_CFG_REC : Fld := ⟨7, 1⟩
def TCK_CAL_CTRL_INPUT : Fld := ⟨0, 5⟩
def TCK_CAL_CTRL_CONV : Fld := ⟨5, 2⟩
def TCK_CAL_CTRL_STEP : Fld := ⟨7, 1⟩
def TCK_CAL_TARGET_TARGET : Fld := ⟨0, 16⟩
def TCK_WR_CFG_EN : Fld := ⟨0, 1⟩
def TCK_WR_CFG_LEN : Fld := ⟨8, 5⟩
def TCK_WR_PTR_PTR : Fld := ⟨0, 30⟩
def TCK_SEQ_INPUT : Fld := ⟨0, 5⟩
def TCK_SEQ_CONV : Fld := ⟨5, 2⟩
def TCK_SEQ_SIM : Fld := ⟨7, 1⟩
def TCK_RES_CODE : Fld := ⟨0, 16⟩
def TCK_INJ_RES_CODE : Fld := ⟨0, 16⟩
def TCK_IN_CORR_G_G : Fld := ⟨0, 24⟩
def PWR_STATUS_CFG_REJECT : Fld := ⟨0, 1⟩
def PWR_STATUS_BROWNOUT : Fld := ⟨1, 1⟩
def PWR_STATUS_TRANSITION : Fld := ⟨2, 1⟩
def PWR_INT_STATUS_VSTBY_WARN : Fld := ⟨0, 1⟩
def PWR_INT_STATUS_VSTBY_RETURN : Fld := ⟨1, 1⟩
def PWR_INT_STATUS_VIO_WARN : Fld := ⟨2, 1⟩
def PWR_INT_STATUS_VIO_RETURN : Fld := ⟨3, 1⟩
def PWR_INT_STATUS_VIO_LOST : Fld := ⟨4, 1⟩
def PWR_INT_STATUS_DOMAIN_OFF : Fld := ⟨5, 1⟩
def PWR_INT_STATUS_DOMAIN_ON : Fld := ⟨6, 1⟩
def PWR_INT_STATUS_QUIESCE_TIMEOUT : Fld := ⟨7, 1⟩
def PWR_INT_STATUS_CMD_REFUSED : Fld := ⟨8, 1⟩
def PWR_INT_STATUS_AGE_WARN : Fld := ⟨9, 1⟩
def PWR_INT_ENABLE_VSTBY_WARN : Fld := ⟨0, 1⟩
def PWR_INT_ENABLE_VSTBY_RETURN : Fld := ⟨1, 1⟩
def PWR_INT_ENABLE_VIO_WARN : Fld := ⟨2, 1⟩
def PWR_INT_ENABLE_VIO_RETURN : Fld := ⟨3, 1⟩
def PWR_INT_ENABLE_VIO_LOST : Fld := ⟨4, 1⟩
def PWR_INT_ENABLE_DOMAIN_OFF : Fld := ⟨5, 1⟩
def PWR_INT_ENABLE_DOMAIN_ON : Fld := ⟨6, 1⟩
def PWR_INT_ENABLE_QUIESCE_TIMEOUT : Fld := ⟨7, 1⟩
def PWR_INT_ENABLE_CMD_REFUSED : Fld := ⟨8, 1⟩
def PWR_INT_ENABLE_AGE_WARN : Fld := ⟨9, 1⟩
def PWR_CTRL_DEVICE_RESET : Fld := ⟨0, 1⟩
def PWR_DOM_TARGET_TARGET : Fld := ⟨0, 29⟩
def PWR_DOM_STATE_STATE : Fld := ⟨0, 29⟩
def PWR_BLK_RESET_RESET : Fld := ⟨0, 29⟩
def PWR_RESET_CAUSE_POWER_ON : Fld := ⟨0, 1⟩
def PWR_RESET_CAUSE_NRESET : Fld := ⟨1, 1⟩
def PWR_RESET_CAUSE_PWR_OK : Fld := ⟨2, 1⟩
def PWR_RESET_CAUSE_SOFTWARE : Fld := ⟨3, 1⟩
def PWR_RESET_CAUSE_THERMAL : Fld := ⟨4, 1⟩
def PWR_LAST_FATAL_CODE : Fld := ⟨0, 16⟩
def PWR_LAST_FATAL_VALID : Fld := ⟨16, 1⟩
def PWR_VIO_STATUS_NOMINAL : Fld := ⟨0, 14⟩
def PWR_VIO_STATUS_BROWNOUT : Fld := ⟨16, 7⟩
def PWR_VIO_STATUS_LOST : Fld := ⟨24, 7⟩
def PWR_ALERT_SOURCES : Fld := ⟨0, 6⟩
def PWR_AGE_CFG_DRIFT_WARN : Fld := ⟨0, 16⟩
def PDK_STATUS_CFG_REJECT : Fld := ⟨0, 1⟩
def PDK_STATUS_RUNNING : Fld := ⟨1, 1⟩
def PDK_STATUS_RESULT : Fld := ⟨2, 3⟩
def PDK_INT_STATUS_DONE : Fld := ⟨0, 1⟩
def PDK_INT_STATUS_FAIL : Fld := ⟨1, 1⟩
def PDK_INT_STATUS_BUSY : Fld := ⟨2, 1⟩
def PDK_INT_ENABLE_DONE : Fld := ⟨0, 1⟩
def PDK_INT_ENABLE_FAIL : Fld := ⟨1, 1⟩
def PDK_INT_ENABLE_BUSY : Fld := ⟨2, 1⟩
def PDK_CTRL_GO : Fld := ⟨0, 1⟩
def PDK_CTRL_ABORT : Fld := ⟨1, 1⟩
def PDK_CFG_MODE : Fld := ⟨0, 2⟩
def PDK_SEL_UNIT : Fld := ⟨0, 8⟩
def PDK_MEM_INFO_WORDS : Fld := ⟨0, 16⟩
def PDK_MEM_INFO_GROUP : Fld := ⟨16, 8⟩
def PDK_MEM_INFO_REPAIRABLE : Fld := ⟨24, 1⟩
def PDK_REPAIR_SPARE : Fld := ⟨0, 16⟩
def ERL_STATUS_CFG_REJECT : Fld := ⟨0, 1⟩
def ERL_STATUS_FATAL_SEEN : Fld := ⟨1, 1⟩
def ERL_STATUS_WRAPPED : Fld := ⟨2, 1⟩
def ERL_STATUS_OPEN : Fld := ⟨3, 1⟩
def ERL_INT_STATUS_INFO : Fld := ⟨0, 1⟩
def ERL_INT_STATUS_WARNING : Fld := ⟨1, 1⟩
def ERL_INT_STATUS_ERROR : Fld := ⟨2, 1⟩
def ERL_INT_STATUS_FATAL : Fld := ⟨3, 1⟩
def ERL_INT_ENABLE_INFO : Fld := ⟨0, 1⟩
def ERL_INT_ENABLE_WARNING : Fld := ⟨1, 1⟩
def ERL_INT_ENABLE_ERROR : Fld := ⟨2, 1⟩
def ERL_INT_ENABLE_FATAL : Fld := ⟨3, 1⟩
def ERL_CFG_EXPORT_MIN : Fld := ⟨0, 2⟩

end F

/-- The registers of block LNK. -/
def regRowsLNK : List RegRow := [
  ⟨"LNK_CFG", 0x100000, 24, 0x10000, 1, 0x4, 0x232000, 0, 0x3FFFFF, 0, 0, 0, 0, false⟩,
  ⟨"LNK_CTRL", 0x100004, 24, 0x10000, 1, 0x4, 0, 0, 0, 0, 0x1FF, 0, 0, false⟩,
  ⟨"LNK_STATUS", 0x100008, 24, 0x10000, 1, 0x4, 0xA000, 0, 0, 0x20000, 0, 0, 0x5FFFF, false⟩,
  ⟨"LNK_INT_STATUS", 0x10000C, 24, 0x10000, 1, 0x4, 0, 0, 0, 0x1FFFF, 0, 0, 0, false⟩,
  ⟨"LNK_INT_ENABLE", 0x100010, 24, 0x10000, 1, 0x4, 0, 0x1FFFF, 0, 0, 0, 0, 0, false⟩,
  ⟨"LNK_CAP", 0x100014, 24, 0x10000, 4, 0x4, 0, 0, 0, 0, 0, 0, 0xFFFFFFFF, false⟩,
  ⟨"LNK_STEP_CFG", 0x100024, 24, 0x10000, 1, 0x4, 0x1410, 0, 0x1FFF, 0, 0, 0, 0, false⟩,
  ⟨"LNK_SKEW", 0x100028, 24, 0x10000, 1, 0x4, 0, 0, 0xFFFF, 0, 0, 0, 0, false⟩,
  ⟨"LNK_INDEX_LOAD_LO", 0x100030, 24, 0x10000, 1, 0x4, 0, 0, 0xFFFFFFFF, 0, 0, 0, 0, false⟩,
  ⟨"LNK_INDEX_LOAD_HI", 0x100034, 24, 0x10000, 1, 0x4, 0, 0, 0xFFFF, 0, 0, 0, 0, false⟩,
  ⟨"LNK_PLACE_LO", 0x100038, 24, 0x10000, 1, 0x4, 0, 0, 0, 0, 0, 0, 0xFFFFFFFF, true⟩,
  ⟨"LNK_PLACE_HI", 0x10003C, 24, 0x10000, 1, 0x4, 0, 0, 0, 0, 0, 0, 0xFFFFFFFF, true⟩,
  ⟨"LNK_PLACE_AUX", 0x100040, 24, 0x10000, 1, 0x4, 0, 0, 0, 0, 0, 0, 0xFFFFFF, false⟩,
  ⟨"LNK_GAP_CNT", 0x100044, 24, 0x10000, 1, 0x4, 0, 0xFFFFFFFF, 0, 0, 0, 0, 0, false⟩,
  ⟨"LNK_MSG_TX", 0x100048, 24, 0x10000, 3, 0x4, 0, 0xFFFFFFFF, 0, 0, 0, 0, 0, false⟩,
  ⟨"LNK_MSG_RX", 0x100058, 24, 0x10000, 1, 0x4, 0, 0, 0, 0, 0, 0x803FFFFF, 0, false⟩,
  ⟨"LNK_RET_PRBS", 0x10005C, 24, 0x10000, 1, 0x4, 0, 0x1F, 0, 0, 0, 0, 0, false⟩,
  ⟨"LNK_LANE_STATUS", 0x100100, 24, 0x10000, 8, 0x20, 0, 0, 0, 0, 0, 0, 0xFF0F, false⟩,
  ⟨"LNK_LANE_FRAMES", 0x100104, 24, 0x10000, 8, 0x20, 0, 0xFFFFFFFF, 0, 0, 0, 0, 0, false⟩,
  ⟨"LNK_LANE_CRC_ERR", 0x100108, 24, 0x10000, 8, 0x20, 0, 0xFFFFFFFF, 0, 0, 0, 0, 0, false⟩,
  ⟨"LNK_LANE_HDR_ERR", 0x10010C, 24, 0x10000, 8, 0x20, 0, 0xFFFFFFFF, 0, 0, 0, 0, 0, false⟩,
  ⟨"LNK_PRBS_CTRL", 0x100110, 24, 0x10000, 8, 0x20, 0, 0x3F, 0, 0, 0, 0, 0, false⟩,
  ⟨"LNK_PRBS_ERR", 0x100114, 24, 0x10000, 8, 0x20, 0, 0, 0, 0, 0, 0xFFFFFFFF, 0, false⟩,
  ⟨"LNK_INJ", 0x100118, 24, 0x10000, 8, 0x20, 0, 0xFFFF, 0, 0, 0x10000, 0, 0, false⟩]

/-- The registers of block CND. -/
def regRowsCND : List RegRow := [
  ⟨"CND_STATUS", 0x102000, 24, 0x10000, 1, 0x4, 0, 0, 0, 0x4, 0, 0, 0xF3, false⟩,
  ⟨"CND_INT_STATUS", 0x102004, 24, 0x10000, 1, 0x4, 0, 0, 0, 0x1FF, 0, 0, 0, false⟩,
  ⟨"CND_INT_ENABLE", 0x102008, 24, 0x10000, 1, 0x4, 0, 0x1FF, 0, 0, 0, 0, 0, false⟩,
  ⟨"CND_LAMBDA", 0x10200C, 24, 0x10000, 1, 0x4, 0, 0, 0, 0, 0, 0, 0xFFFF, false⟩,
  ⟨"CND_ARRIVAL", 0x102010, 24, 0x10000, 1, 0x4, 0, 0, 0, 0, 0, 0, 0xFFFFFFFF, false⟩,
  ⟨"CND_COEF_CE_CNT", 0x102014, 24, 0x10000, 1, 0x4, 0, 0xFFFFFFFF, 0, 0, 0, 0, 0, false⟩,
  ⟨"CND_CH_CFG", 0x102100, 24, 0x10000, 8, 0x80, 0, 0, 0xFFF, 0, 0, 0, 0, false⟩,
  ⟨"CND_OFFSET", 0x102104, 24, 0x10000, 8, 0x80, 0, 0, 0xFFFF, 0, 0, 0, 0, false⟩,
  ⟨"CND_GAIN", 0x102108, 24, 0x10000, 8, 0x80, 0x10000, 0, 0x3FFFF, 0, 0, 0, 0, false⟩,
  ⟨"CND_RANK_THR", 0x10210C, 24, 0x10000, 8, 0x80, 0, 0, 0xFFFF, 0, 0, 0, 0, false⟩,
  ⟨"CND_DDC_CFG", 0x102110, 24, 0x10000, 8, 0x80, 0x40, 0, 0x3FFFF, 0, 0, 0, 0, false⟩,
  ⟨"CND_NCO_FREQ_LO", 0x102114, 24, 0x10000, 8, 0x80, 0, 0, 0xFFFFFFFF, 0, 0, 0, 0, false⟩,
  ⟨"CND_NCO_FREQ_HI", 0x102118, 24, 0x10000, 8, 0x80, 0, 0, 0xFFFF, 0, 0, 0, 0, false⟩,
  ⟨"CND_NCO_PHASE", 0x10211C, 24, 0x10000, 8, 0x80, 0, 0, 0xFFFF, 0, 0, 0, 0, false⟩,
  ⟨"CND_CH_STATUS", 0x102120, 24, 0x10000, 8, 0x80, 0, 0, 0, 0, 0, 0, 0x7F, false⟩,
  ⟨"CND_SAT_CNT", 0x102124, 24, 0x10000, 8, 0x80, 0, 0xFFFFFFFF, 0, 0, 0, 0, 0, false⟩,
  ⟨"CND_OVR_CNT", 0x102128, 24, 0x10000, 8, 0x80, 0, 0xFFFFFFFF, 0, 0, 0, 0, 0, false⟩,
  ⟨"CND_TAINT_CNT", 0x10212C, 24, 0x10000, 8, 0x80, 0, 0xFFFFFFFF, 0, 0, 0, 0, 0, false⟩,
  ⟨"CND_SUPPRESS_CNT", 0x102130, 24, 0x10000, 8, 0x80, 0, 0xFFFFFFFF, 0, 0, 0, 0, 0, false⟩,
  ⟨"CND_SPIKE_CNT", 0x102134, 24, 0x10000, 8, 0x80, 0, 0xFFFFFFFF, 0, 0, 0, 0, 0, false⟩]

/-- The registers of block SPC. -/
def regRowsSPC : List RegRow := [
  ⟨"SPC_STATUS", 0x104000, 24, 0x10000, 1, 0x4, 0, 0, 0, 0x4, 0, 0, 0xF3B, false⟩,
  ⟨"SPC_INT_STATUS", 0x104004, 24, 0x10000, 1, 0x4, 0, 0, 0, 0xFF, 0, 0, 0, false⟩,
  ⟨"SPC_INT_ENABLE", 0x104008, 24, 0x10000, 1, 0x4, 0, 0xFF, 0, 0, 0, 0, 0, false⟩,
  ⟨"SPC_RETIRE", 0x10400C, 24, 0x10000, 1, 0x4, 0, 0, 0xF, 0, 0, 0, 0xF0, false⟩,
  ⟨"SPC_ALLOC", 0x104010, 24, 0x10000, 4, 0x4, 0, 0, 0, 0, 0, 0, 0x1FF07FF, false⟩,
  ⟨"SPC_WIN_ADDR", 0x104020, 24, 0x10000, 1, 0x4, 0, 0, 0x7FFF, 0, 0, 0, 0, false⟩,
  ⟨"SPC_WIN_DATA", 0x104024, 24, 0x10000, 1, 0x4, 0, 0, 0x3FFFF, 0, 0, 0, 0, false⟩,
  ⟨"SPC_LATE_TAINT_CNT", 0x104028, 24, 0x10000, 1, 0x4, 0, 0xFFFFFFFF, 0, 0, 0, 0, 0, false⟩,
  ⟨"SPC_MEM_CE_CNT", 0x10402C, 24, 0x10000, 1, 0x4, 0, 0xFFFFFFFF, 0, 0, 0, 0, 0, false⟩,
  ⟨"SPC_CH_CFG", 0x104100, 24, 0x10000, 8, 0x40, 0x168, 0, 0x7FFF, 0, 0, 0, 0, false⟩,
  ⟨"SPC_CH_BINS", 0x104104, 24, 0x10000, 8, 0x40, 0, 0, 0x7FFF7FFF, 0, 0, 0, 0, false⟩,
  ⟨"SPC_CH_POFS", 0x104108, 24, 0x10000, 8, 0x40, 0, 0, 0xFFFF, 0, 0, 0, 0, false⟩,
  ⟨"SPC_CH_STATUS", 0x10410C, 24, 0x10000, 8, 0x40, 0, 0, 0, 0, 0, 0, 0x3FF007F, false⟩,
  ⟨"SPC_CH_LAT", 0x104110, 24, 0x10000, 8, 0x40, 0, 0, 0, 0, 0, 0, 0xFFFFFFFF, false⟩,
  ⟨"SPC_CH_SPEC_CNT", 0x104114, 24, 0x10000, 8, 0x40, 0, 0xFFFFFFFF, 0, 0, 0, 0, 0, false⟩,
  ⟨"SPC_CH_SKIP_CNT", 0x104118, 24, 0x10000, 8, 0x40, 0, 0xFFFFFFFF, 0, 0, 0, 0, 0, false⟩]

/-- The registers of block STR. -/
def regRowsSTR : List RegRow := [
  ⟨"STR_STATUS", 0x106000, 24, 0x10000, 1, 0x4, 0, 0, 0, 0x2, 0, 0, 0x1, false⟩,
  ⟨"STR_INT_STATUS", 0x106004, 24, 0x10000, 1, 0x4, 0, 0, 0, 0x3, 0, 0, 0, false⟩,
  ⟨"STR_INT_ENABLE", 0x106008, 24, 0x10000, 1, 0x4, 0, 0x3, 0, 0, 0, 0, 0, false⟩,
  ⟨"STR_TAINT_EVT_CNT", 0x10600C, 24, 0x10000, 1, 0x4, 0, 0xFFFFFFFF, 0, 0, 0, 0, 0, false⟩,
  ⟨"STR_MASK_ADDR", 0x106010, 24, 0x10000, 1, 0x4, 0, 0, 0x7FFF, 0, 0, 0, 0, false⟩,
  ⟨"STR_MASK_DATA", 0x106014, 24, 0x10000, 1, 0x4, 0xFFFF, 0, 0xFFFFFFFF, 0, 0, 0, 0, false⟩,
  ⟨"STR_PRIM_CFG", 0x106100, 24, 0x10000, 8, 0x20, 0, 0, 0x1FFF, 0, 0, 0, 0, false⟩,
  ⟨"STR_PRIM_THR", 0x106104, 24, 0x10000, 8, 0x20, 0, 0, 0xFFFFFFFF, 0, 0, 0, 0, false⟩,
  ⟨"STR_PRIM_HYST", 0x106108, 24, 0x10000, 8, 0x20, 0, 0, 0xFFFF, 0, 0, 0, 0, false⟩,
  ⟨"STR_PRIM_WIDTH", 0x10610C, 24, 0x10000, 8, 0x20, 0, 0, 0xFFFFFFFF, 0, 0, 0, 0, false⟩,
  ⟨"STR_PRIM_CNT", 0x106110, 24, 0x10000, 8, 0x20, 0, 0xFFFFFFFF, 0, 0, 0, 0, 0, false⟩,
  ⟨"STR_SC_CFG", 0x106200, 24, 0x10000, 16, 0x20, 0x200, 0, 0x1FFFF, 0, 0, 0, 0, false⟩,
  ⟨"STR_SC_BAND", 0x106204, 24, 0x10000, 16, 0x20, 0, 0, 0x7FFF7FFF, 0, 0, 0, 0, false⟩,
  ⟨"STR_SC_THR", 0x106208, 24, 0x10000, 16, 0x20, 0, 0, 0xFFFFFFFF, 0, 0, 0, 0, false⟩,
  ⟨"STR_SC_MASK", 0x10620C, 24, 0x10000, 16, 0x20, 0, 0, 0x7FFF, 0, 0, 0, 0, false⟩,
  ⟨"STR_SC_STATUS", 0x106210, 24, 0x10000, 16, 0x20, 0, 0, 0, 0, 0, 0, 0x1F, false⟩,
  ⟨"STR_SC_VIOL_LO", 0x106214, 24, 0x10000, 16, 0x20, 0, 0, 0, 0, 0, 0, 0xFFFFFFFF, true⟩,
  ⟨"STR_SC_VIOL_HI", 0x106218, 24, 0x10000, 16, 0x20, 0, 0, 0, 0, 0, 0, 0xFFFFFFFF, true⟩,
  ⟨"STR_SC_CNT", 0x10621C, 24, 0x10000, 16, 0x20, 0, 0xFFFFFFFF, 0, 0, 0, 0, 0, false⟩]

/-- The registers of block TRD. -/
def regRowsTRD : List RegRow := [
  ⟨"TRD_STATUS", 0x300000, 1, 0x4, 1, 0x4, 0, 0, 0, 0x2, 0, 0, 0x3D, false⟩,
  ⟨"TRD_INT_STATUS", 0x300004, 1, 0x4, 1, 0x4, 0, 0, 0, 0x7FF, 0, 0, 0, false⟩,
  ⟨"TRD_INT_ENABLE", 0x300008, 1, 0x4, 1, 0x4, 0, 0x7FF, 0, 0, 0, 0, 0, false⟩,
  ⟨"TRD_SOFT", 0x30000C, 1, 0x4, 1, 0x4, 0, 0, 0, 0, 0xFF, 0, 0, false⟩,
  ⟨"TRD_SLICE_ABSENT", 0x300010, 1, 0x4, 1, 0x4, 0, 0, 0, 0, 0, 0, 0xFFFFFF, false⟩,
  ⟨"TRD_TAINT_TRIG_CNT", 0x300014, 1, 0x4, 1, 0x4, 0, 0xFFFFFFFF, 0, 0, 0, 0, 0, false⟩,
  ⟨"TRD_TMR_CNT", 0x300018, 3, 0x4, 1, 0x4, 0, 0xFFFFFFFF, 0, 0, 0, 0, 0, false⟩,
  ⟨"TRD_IN_CFG", 0x300024, 1, 0x4, 1, 0x4, 0, 0, 0xFFFFFF, 0, 0, 0, 0, false⟩,
  ⟨"TRD_OUT_CFG", 0x300040, 16, 0x4, 1, 0x4, 0x10, 0, 0xFFFF7, 0, 0, 0, 0, false⟩,
  ⟨"TRD_SUM_MASK_LO", 0x300100, 80, 0x8, 1, 0x4, 0, 0, 0xFFFFFFFF, 0, 0, 0, 0, false⟩,
  ⟨"TRD_SUM_MASK_HI", 0x300104, 80, 0x8, 1, 0x4, 0, 0, 0xFFFFFFFF, 0, 0, 0, 0, false⟩,
  ⟨"TRD_TERM_CFG", 0x300400, 64, 0x4, 1, 0x4, 0x8, 0, 0xF, 0, 0, 0, 0, false⟩,
  ⟨"TRD_LIT_A", 0x301000, 64, 0x40, 8, 0x8, 0, 0, 0xFFFF1FFF, 0, 0, 0, 0, false⟩,
  ⟨"TRD_LIT_B", 0x301004, 64, 0x40, 8, 0x8, 0, 0, 0x3FFF, 0, 0, 0, 0, false⟩,
  ⟨"TRD_SHED_CTRL", 0x302000, 64, 0x80, 1, 0x4, 0, 0, 0, 0, 0x7, 0, 0, false⟩,
  ⟨"TRD_SHED_STATUS", 0x302004, 64, 0x80, 1, 0x4, 0, 0, 0, 0x78, 0, 0, 0x7, false⟩,
  ⟨"TRD_SHED_CFG", 0x302008, 64, 0x80, 1, 0x4, 0, 0, 0xFF3F, 0, 0, 0, 0, false⟩,
  ⟨"TRD_SHED_PRE", 0x30200C, 64, 0x80, 1, 0x4, 0, 0, 0xFFFFFFFF, 0, 0, 0, 0, false⟩,
  ⟨"TRD_SHED_POST_LO", 0x302010, 64, 0x80, 1, 0x4, 0, 0, 0xFFFFFFFF, 0, 0, 0, 0, false⟩,
  ⟨"TRD_SHED_POST_HI", 0x302014, 64, 0x80, 1, 0x4, 0, 0, 0x1FFFF, 0, 0, 0, 0, false⟩,
  ⟨"TRD_SHED_HOLD", 0x302018, 64, 0x80, 1, 0x4, 0, 0, 0xFFFFFFFF, 0, 0, 0, 0, false⟩,
  ⟨"TRD_SHED_SEG", 0x30201C, 64, 0x80, 1, 0x4, 0, 0, 0x1FFFF, 0, 0, 0, 0, false⟩,
  ⟨"TRD_SHED_CHMASK", 0x302020, 64, 0x80, 6, 0x4, 0, 0, 0xFFFFFFFF, 0, 0, 0, 0, false⟩,
  ⟨"TRD_SHED_TRIG_LO", 0x302038, 64, 0x80, 1, 0x4, 0, 0, 0, 0, 0, 0, 0xFFFFFFFF, true⟩,
  ⟨"TRD_SHED_TRIG_HI", 0x30203C, 64, 0x80, 1, 0x4, 0, 0, 0, 0, 0, 0, 0xFFFFFFFF, true⟩,
  ⟨"TRD_SHED_TRIG_FRAC", 0x302040, 64, 0x80, 1, 0x4, 0, 0, 0, 0, 0, 0, 0xFF, false⟩,
  ⟨"TRD_SHED_COUNT", 0x302044, 64, 0x80, 1, 0x4, 0, 0xFFFFFFFF, 0, 0, 0, 0, 0, false⟩,
  ⟨"TRD_SHED_MISSED", 0x302048, 64, 0x80, 1, 0x4, 0, 0xFFFFFFFF, 0, 0, 0, 0, 0, false⟩,
  ⟨"TRD_SHED_DISCARD", 0x30204C, 64, 0x80, 1, 0x4, 0, 0xFFFFFFFF, 0, 0, 0, 0, 0, false⟩]

/-- The registers of block BOB. -/
def regRowsBOB : List RegRow := [
  ⟨"BOB_STATUS", 0x400000, 1, 0x4, 1, 0x4, 0, 0, 0, 0x4, 0, 0, 0x3, false⟩,
  ⟨"BOB_INT_STATUS", 0x400004, 1, 0x4, 1, 0x4, 0, 0, 0, 0x7FF, 0, 0, 0, false⟩,
  ⟨"BOB_INT_ENABLE", 0x400008, 1, 0x4, 1, 0x4, 0, 0x7FF, 0, 0, 0, 0, 0, false⟩,
  ⟨"BOB_CFG", 0x40000C, 1, 0x4, 1, 0x4, 0x550200, 0x7F1FFF, 0, 0, 0, 0, 0, false⟩,
  ⟨"BOB_HOST", 0x400010, 1, 0x4, 1, 0x4, 0x204, 0, 0, 0, 0, 0, 0x3FF, false⟩,
  ⟨"BOB_LAYOUT0", 0x400014, 1, 0x4, 1, 0x4, 0, 0, 0, 0, 0, 0, 0xFFFFF, false⟩,
  ⟨"BOB_LAYOUT1", 0x400018, 1, 0x4, 1, 0x4, 0, 0, 0, 0, 0, 0, 0xFFFFF, false⟩,
  ⟨"BOB_HOST_LAT", 0x40001C, 1, 0x4, 1, 0x4, 0, 0, 0, 0, 0, 0, 0xFFFFFFFF, false⟩,
  ⟨"BOB_PC_RETIRED_LO", 0x400020, 1, 0x4, 1, 0x4, 0, 0, 0, 0, 0, 0, 0xFFFFFFFF, false⟩,
  ⟨"BOB_PC_RETIRED_HI", 0x400024, 1, 0x4, 1, 0x4, 0, 0, 0, 0, 0, 0, 0xFFFFFFFF, false⟩,
  ⟨"BOB_PC_PENDING_LO", 0x400028, 1, 0x4, 1, 0x4, 0, 0, 0, 0, 0xFFFFFFFF, 0, 0, false⟩,
  ⟨"BOB_PC_PENDING_HI", 0x40002C, 1, 0x4, 1, 0x4, 0, 0, 0, 0, 0xFFFFFFFF, 0, 0, false⟩,
  ⟨"BOB_CE_CNT", 0x400030, 2, 0x4, 1, 0x4, 0, 0xFFFFFFFF, 0, 0, 0, 0, 0, false⟩,
  ⟨"BOB_UE_CNT", 0x400038, 2, 0x4, 1, 0x4, 0, 0xFFFFFFFF, 0, 0, 0, 0, 0, false⟩,
  ⟨"BOB_ERR_ADDR_LO", 0x400040, 1, 0x4, 1, 0x4, 0, 0, 0, 0, 0, 0, 0xFFFFFFFF, true⟩,
  ⟨"BOB_ERR_ADDR_HI", 0x400044, 1, 0x4, 1, 0x4, 0, 0, 0, 0, 0, 0, 0xFFFFFFFF, true⟩,
  ⟨"BOB_ERR_INFO", 0x400048, 1, 0x4, 1, 0x4, 0, 0, 0, 0, 0, 0, 0x7FFFFFFF, false⟩,
  ⟨"BOB_SCRUB_CFG", 0x400050, 1, 0x4, 1, 0x4, 0x10, 0xFF, 0, 0, 0, 0, 0, false⟩,
  ⟨"BOB_RETIRE_CFG", 0x400054, 1, 0x4, 1, 0x4, 0x180401, 0xFFFF01, 0, 0, 0, 0, 0, false⟩,
  ⟨"BOB_LOOKUP_CTRL", 0x400060, 1, 0x4, 1, 0x4, 0, 0xFFFF, 0, 0, 0x10000, 0, 0, false⟩,
  ⟨"BOB_LOOKUP_WT_LO", 0x400064, 1, 0x4, 1, 0x4, 0, 0xFFFFFFFF, 0, 0, 0, 0, 0, false⟩,
  ⟨"BOB_LOOKUP_WT_HI", 0x400068, 1, 0x4, 1, 0x4, 0, 0xFFFFFFFF, 0, 0, 0, 0, 0, false⟩,
  ⟨"BOB_LOOKUP_STATUS", 0x40006C, 1, 0x4, 1, 0x4, 0x4, 0, 0, 0, 0, 0, 0x7, false⟩,
  ⟨"BOB_LOOKUP_POS_LO", 0x400070, 1, 0x4, 1, 0x4, 0, 0, 0, 0, 0, 0, 0xFFFFFFFF, true⟩,
  ⟨"BOB_LOOKUP_POS_HI", 0x400074, 1, 0x4, 1, 0x4, 0, 0, 0, 0, 0, 0, 0xFFFFFFFF, true⟩,
  ⟨"BOB_SR_CFG", 0x400100, 2, 0x20, 1, 0x4, 0x2EE000, 0xFFFFFF07, 0, 0, 0, 0, 0, false⟩,
  ⟨"BOB_SR_CTRL", 0x400104, 2, 0x20, 1, 0x4, 0, 0, 0, 0, 0x7, 0, 0, false⟩,
  ⟨"BOB_SR_STATUS", 0x400108, 2, 0x20, 1, 0x4, 0, 0, 0, 0, 0, 0, 0xFF3F, false⟩,
  ⟨"BOB_SR_CANCEL_CNT", 0x40010C, 2, 0x20, 1, 0x4, 0, 0xFFFFFFFF, 0, 0, 0, 0, 0, false⟩,
  ⟨"BOB_TSET", 0x400800, 3, 0x80, 32, 0x4, 0, 0xFFFFFFFF, 0, 0, 0, 0, 0, false⟩,
  ⟨"BOB_RING_CFG", 0x401000, 192, 0x20, 1, 0x4, 0, 0, 0x1, 0, 0, 0, 0, false⟩,
  ⟨"BOB_RING_BASE", 0x401004, 192, 0x20, 1, 0x4, 0, 0, 0xFFFFF, 0, 0, 0, 0, false⟩,
  ⟨"BOB_RING_SIZE", 0x401008, 192, 0x20, 1, 0x4, 0, 0, 0xFFFFF, 0, 0, 0, 0, false⟩,
  ⟨"BOB_RING_STATUS", 0x40100C, 192, 0x20, 1, 0x4, 0, 0, 0, 0x4, 0, 0, 0xB, false⟩,
  ⟨"BOB_RING_WPOS_LO", 0x401010, 192, 0x20, 1, 0x4, 0, 0, 0, 0, 0, 0, 0xFFFFFFFF, true⟩,
  ⟨"BOB_RING_WPOS_HI", 0x401014, 192, 0x20, 1, 0x4, 0, 0, 0, 0, 0, 0, 0xFFFFFFFF, true⟩,
  ⟨"BOB_RING_LOST", 0x401018, 192, 0x20, 1, 0x4, 0, 0xFFFFFFFF, 0, 0, 0, 0, 0, false⟩,
  ⟨"BOB_RING_DIR_DROP", 0x40101C, 192, 0x20, 1, 0x4, 0, 0xFFFFFFFF, 0, 0, 0, 0, 0, false⟩,
  ⟨"BOB_PC_STATUS", 0x404000, 64, 0x4, 1, 0x4, 0, 0, 0, 0, 0, 0, 0xFF03, false⟩,
  ⟨"BOB_REPAIR", 0x405000, 256, 0x4, 1, 0x4, 0, 0, 0, 0, 0, 0, 0xBF0FFFFF, false⟩]

/-- The registers of block TAP. -/
def regRowsTAP : List RegRow := [
  ⟨"TAP_STATUS", 0x500000, 1, 0x4, 1, 0x4, 0, 0, 0, 0x4, 0, 0, 0x3, false⟩,
  ⟨"TAP_INT_STATUS", 0x500004, 1, 0x4, 1, 0x4, 0, 0, 0, 0x7F, 0, 0, 0, false⟩,
  ⟨"TAP_INT_ENABLE", 0x500008, 1, 0x4, 1, 0x4, 0, 0x7F, 0, 0, 0, 0, 0, false⟩,
  ⟨"TAP_CTRL", 0x50000C, 1, 0x4, 1, 0x4, 0, 0, 0, 0, 0xFFFFFFFF, 0, 0, false⟩,
  ⟨"TAP_WIN", 0x500010, 1, 0x4, 1, 0x4, 0, 0xF, 0, 0, 0, 0, 0, false⟩,
  ⟨"TAP_PL_CFG", 0x500100, 16, 0x80, 1, 0x4, 0, 0, 0xFF0FFF, 0, 0, 0, 0, false⟩,
  ⟨"TAP_PL_GEOM", 0x500104, 16, 0x80, 1, 0x4, 0x2040, 0, 0x73F7F, 0, 0, 0, 0, false⟩,
  ⟨"TAP_PL_FIRST", 0x500108, 16, 0x80, 1, 0x4, 0, 0, 0x7FFF, 0, 0, 0, 0, false⟩,
  ⟨"TAP_PL_ROWMAP", 0x50010C, 16, 0x80, 1, 0x4, 0x70000, 0, 0xFFFFF, 0, 0, 0, 0, false⟩,
  ⟨"TAP_PL_PERIOD", 0x500110, 16, 0x80, 1, 0x4, 0x124F800, 0, 0xFFFFFFFF, 0, 0, 0, 0, false⟩,
  ⟨"TAP_PL_PERSIST", 0x500114, 16, 0x80, 1, 0x4, 0x10110, 0xFFFFFF7F, 0, 0, 0, 0, 0, false⟩,
  ⟨"TAP_PL_MAP", 0x500118, 16, 0x80, 1, 0x4, 0x3, 0x3, 0, 0, 0, 0, 0, false⟩,
  ⟨"TAP_PL_MAP_GAIN", 0x50011C, 16, 0x80, 1, 0x4, 0x10000, 0xFFFFFFFF, 0, 0, 0, 0, 0, false⟩,
  ⟨"TAP_PL_SRC", 0x500120, 16, 0x80, 6, 0x4, 0, 0, 0xFFFFFFFF, 0, 0, 0, 0, false⟩,
  ⟨"TAP_PL_STATUS", 0x500140, 16, 0x80, 1, 0x4, 0, 0, 0, 0, 0, 0, 0xF, false⟩,
  ⟨"TAP_PL_FRAME_NO", 0x500144, 16, 0x80, 1, 0x4, 0, 0, 0, 0, 0, 0, 0xFFFFFFFF, false⟩,
  ⟨"TAP_PL_SPECTRA", 0x500148, 16, 0x80, 1, 0x4, 0, 0, 0, 0, 0, 0, 0xFFFFFFFF, false⟩,
  ⟨"TAP_PL_DROP", 0x50014C, 16, 0x80, 1, 0x4, 0, 0, 0, 0, 0, 0, 0xFFFFFFFF, false⟩,
  ⟨"TAP_PL_SAT", 0x500150, 16, 0x80, 1, 0x4, 0, 0, 0, 0, 0, 0, 0xFFFFFFFF, false⟩,
  ⟨"TAP_PL_OOR", 0x500154, 16, 0x80, 1, 0x4, 0, 0, 0, 0, 0, 0, 0xFFFFFFFF, false⟩,
  ⟨"TAP_PL_TAINT", 0x500158, 16, 0x80, 1, 0x4, 0, 0, 0, 0, 0, 0, 0xFFFFFFFF, false⟩,
  ⟨"TAP_PL_MAX", 0x50015C, 16, 0x80, 1, 0x4, 0, 0, 0, 0, 0, 0, 0xFFFFFFFF, false⟩,
  ⟨"TAP_PL_SKIP_CNT", 0x500160, 16, 0x80, 1, 0x4, 0, 0xFFFFFFFF, 0, 0, 0, 0, 0, false⟩,
  ⟨"TAP_PL_CLOSE_LO", 0x500164, 16, 0x80, 1, 0x4, 0, 0, 0, 0, 0, 0, 0xFFFFFFFF, true⟩,
  ⟨"TAP_PL_CLOSE_HI", 0x500168, 16, 0x80, 1, 0x4, 0, 0, 0, 0, 0, 0, 0xFFFFFFFF, true⟩]

/-- The registers of block PNL. -/
def regRowsPNL : List RegRow := [
  ⟨"PNL_STATUS", 0x600000, 1, 0x4, 1, 0x4, 0, 0, 0, 0x18, 0, 0, 0x7, false⟩,
  ⟨"PNL_INT_STATUS", 0x600004, 1, 0x4, 1, 0x4, 0, 0, 0, 0x7FFF, 0, 0, 0, false⟩,
  ⟨"PNL_INT_ENABLE", 0x600008, 1, 0x4, 1, 0x4, 0, 0x7FFF, 0, 0, 0, 0, 0, false⟩,
  ⟨"PNL_CTRL", 0x60000C, 1, 0x4, 1, 0x4, 0, 0, 0, 0, 0x7F, 0, 0, false⟩,
  ⟨"PNL_CFG", 0x600010, 1, 0x4, 1, 0x4, 0, 0, 0xFF0F, 0, 0, 0, 0, false⟩,
  ⟨"PNL_BG", 0x600014, 1, 0x4, 1, 0x4, 0, 0xFFFF, 0, 0, 0, 0, 0, false⟩,
  ⟨"PNL_COMMIT_REPL_CNT", 0x600018, 1, 0x4, 1, 0x4, 0, 0xFFFFFFFF, 0, 0, 0, 0, 0, false⟩,
  ⟨"PNL_ECC_CE_CNT", 0x60001C, 1, 0x4, 1, 0x4, 0, 0xFFFFFFFF, 0, 0, 0, 0, 0, false⟩,
  ⟨"PNL_PCLK", 0x600100, 2, 0x80, 1, 0x4, 0, 0, 0x3FFFF, 0, 0, 0, 0, false⟩,
  ⟨"PNL_HACT", 0x600104, 2, 0x80, 1, 0x4, 0, 0, 0xFFF0FFF, 0, 0, 0, 0, false⟩,
  ⟨"PNL_HSYNC", 0x600108, 2, 0x80, 1, 0x4, 0, 0, 0x8FFF0FFF, 0, 0, 0, 0, false⟩,
  ⟨"PNL_VACT", 0x60010C, 2, 0x80, 1, 0x4, 0, 0, 0xFFF0FFF, 0, 0, 0, 0, false⟩,
  ⟨"PNL_VSYNC", 0x600110, 2, 0x80, 1, 0x4, 0, 0, 0x8FFF0FFF, 0, 0, 0, 0, false⟩,
  ⟨"PNL_LINK", 0x600114, 2, 0x80, 1, 0x4, 0x3A, 0, 0x3F, 0, 0, 0, 0, false⟩,
  ⟨"PNL_OSTATUS", 0x600118, 2, 0x80, 1, 0x4, 0, 0, 0, 0, 0, 0, 0xFFF00FF, false⟩,
  ⟨"PNL_FRAME", 0x60011C, 2, 0x80, 1, 0x4, 0, 0, 0, 0, 0, 0, 0xFFFFFFFF, false⟩,
  ⟨"PNL_FLIP_WT_LO", 0x600120, 2, 0x80, 1, 0x4, 0, 0, 0, 0, 0, 0, 0xFFFFFFFF, true⟩,
  ⟨"PNL_FLIP_WT_HI", 0x600124, 2, 0x80, 1, 0x4, 0, 0, 0, 0, 0, 0, 0xFFFFFFFF, true⟩,
  ⟨"PNL_VBLANK_CNT", 0x600128, 2, 0x80, 1, 0x4, 0, 0, 0, 0, 0, 0, 0xFFFFFFFF, false⟩,
  ⟨"PNL_LATE_CNT", 0x60012C, 2, 0x80, 1, 0x4, 0, 0xFFFFFFFF, 0, 0, 0, 0, 0, false⟩,
  ⟨"PNL_AUX_ADDR", 0x600130, 2, 0x80, 1, 0x4, 0, 0xFFFFF, 0, 0, 0, 0, 0, false⟩,
  ⟨"PNL_AUX_CTRL", 0x600134, 2, 0x80, 1, 0x4, 0, 0xFF, 0, 0, 0x100, 0, 0xE00, false⟩,
  ⟨"PNL_AUX_DATA", 0x600140, 2, 0x80, 4, 0x4, 0, 0xFFFFFFFF, 0, 0, 0, 0, 0, false⟩,
  ⟨"PNL_LAYER_CFG", 0x600400, 8, 0x40, 1, 0x4, 0x4, 0xF3FFF, 0, 0, 0, 0, 0, false⟩,
  ⟨"PNL_LAYER_POS", 0x600404, 8, 0x40, 1, 0x4, 0, 0xFFF0FFF, 0, 0, 0, 0, 0, false⟩,
  ⟨"PNL_LAYER_SIZE", 0x600408, 8, 0x40, 1, 0x4, 0, 0xFFF0FFF, 0, 0, 0, 0, 0, false⟩,
  ⟨"PNL_LAYER_BASE_LO", 0x60040C, 8, 0x40, 1, 0x4, 0, 0xFFFFFFFF, 0, 0, 0, 0, 0, false⟩,
  ⟨"PNL_LAYER_BASE_HI", 0x600410, 8, 0x40, 1, 0x4, 0, 0xFFFFFFFF, 0, 0, 0, 0, 0, false⟩,
  ⟨"PNL_LAYER_STRIDE", 0x600414, 8, 0x40, 1, 0x4, 0, 0xFFFFFFFF, 0, 0, 0, 0, 0, false⟩,
  ⟨"PNL_LAYER_RETIRE", 0x600418, 8, 0x40, 1, 0x4, 0, 0, 0, 0, 0, 0, 0xFFFFFFFF, false⟩,
  ⟨"PNL_CRC_RECT0", 0x600800, 4, 0x10, 1, 0x4, 0, 0xCFFF0FFF, 0, 0, 0, 0, 0, false⟩,
  ⟨"PNL_CRC_RECT1", 0x600804, 4, 0x10, 1, 0x4, 0, 0xFFF0FFF, 0, 0, 0, 0, 0, false⟩,
  ⟨"PNL_CRC_EXPECT", 0x600808, 4, 0x10, 1, 0x4, 0, 0xFFFFFFFF, 0, 0, 0, 0, 0, false⟩,
  ⟨"PNL_CRC_VALUE", 0x60080C, 4, 0x10, 1, 0x4, 0, 0, 0, 0, 0, 0, 0xFFFFFFFF, false⟩]

/-- The registers of block SHU. -/
def regRowsSHU : List RegRow := [
  ⟨"SHU_STATUS", 0x108000, 24, 0x10000, 1, 0x4, 0x4, 0, 0, 0x82, 0, 0, 0x7D, false⟩,
  ⟨"SHU_INT_STATUS", 0x108004, 24, 0x10000, 1, 0x4, 0, 0, 0, 0x7F, 0, 0, 0, false⟩,
  ⟨"SHU_INT_ENABLE", 0x108008, 24, 0x10000, 1, 0x4, 0, 0x7F, 0, 0, 0, 0, 0, false⟩,
  ⟨"SHU_CTRL", 0x10800C, 24, 0x10000, 1, 0x4, 0, 0, 0, 0, 0x1F, 0, 0, false⟩,
  ⟨"SHU_CFG", 0x108010, 24, 0x10000, 1, 0x4, 0, 0, 0xFFFF, 0, 0, 0, 0, false⟩,
  ⟨"SHU_START", 0x108014, 24, 0x10000, 1, 0x4, 0, 0x3FFF, 0, 0, 0, 0, 0, false⟩,
  ⟨"SHU_PC", 0x108018, 24, 0x10000, 1, 0x4, 0, 0, 0, 0, 0, 0, 0x3FFF, false⟩,
  ⟨"SHU_FAULT", 0x10801C, 24, 0x10000, 1, 0x4, 0, 0, 0, 0, 0, 0, 0x3FFFFF0F, false⟩,
  ⟨"SHU_MBOX_IN", 0x108020, 24, 0x10000, 1, 0x4, 0, 0, 0, 0, 0, 0, 0xF, false⟩,
  ⟨"SHU_MBOX_OUT", 0x108024, 24, 0x10000, 1, 0x4, 0, 0, 0, 0, 0, 0x8000FFFF, 0, false⟩,
  ⟨"SHU_BREAK", 0x108028, 24, 0x10000, 1, 0x4, 0, 0x80003FFF, 0, 0, 0, 0, 0, false⟩,
  ⟨"SHU_PART_CNT", 0x10802C, 24, 0x10000, 1, 0x4, 0, 0xFFFFFFFF, 0, 0, 0, 0, 0, false⟩,
  ⟨"SHU_VETO_CNT", 0x108030, 24, 0x10000, 1, 0x4, 0, 0xFFFFFFFF, 0, 0, 0, 0, 0, false⟩,
  ⟨"SHU_BYPASS_CNT", 0x108034, 24, 0x10000, 1, 0x4, 0, 0xFFFFFFFF, 0, 0, 0, 0, 0, false⟩,
  ⟨"SHU_TIMEOUT_CNT", 0x108038, 24, 0x10000, 1, 0x4, 0, 0xFFFFFFFF, 0, 0, 0, 0, 0, false⟩,
  ⟨"SHU_STALE_CNT", 0x10803C, 24, 0x10000, 1, 0x4, 0, 0xFFFFFFFF, 0, 0, 0, 0, 0, false⟩,
  ⟨"SHU_CYCLE_CNT", 0x108040, 24, 0x10000, 1, 0x4, 0, 0xFFFFFFFF, 0, 0, 0, 0, 0, false⟩,
  ⟨"SHU_MEM_CE_CNT", 0x108044, 24, 0x10000, 1, 0x4, 0, 0xFFFFFFFF, 0, 0, 0, 0, 0, false⟩]

/-- The registers of block REC. -/
def regRowsREC : List RegRow := [
  ⟨"REC_STATUS", 0x700000, 1, 0x4, 1, 0x4, 0, 0, 0, 0x2, 0, 0, 0x5, false⟩,
  ⟨"REC_INT_STATUS", 0x700004, 1, 0x4, 1, 0x4, 0, 0, 0, 0x3F, 0, 0, 0, false⟩,
  ⟨"REC_INT_ENABLE", 0x700008, 1, 0x4, 1, 0x4, 0, 0x3F, 0, 0, 0, 0, 0, false⟩,
  ⟨"REC_USER_ADDR_LO", 0x700010, 1, 0x4, 1, 0x4, 0, 0xFFFFFFFF, 0, 0, 0, 0, 0, false⟩,
  ⟨"REC_USER_ADDR_HI", 0x700014, 1, 0x4, 1, 0x4, 0, 0xFFFFFFFF, 0, 0, 0, 0, 0, false⟩,
  ⟨"REC_USER_LEN", 0x700018, 1, 0x4, 1, 0x4, 0, 0x1FFFF, 0, 0, 0, 0, 0, false⟩,
  ⟨"REC_USER_TAG", 0x70001C, 1, 0x4, 1, 0x4, 0, 0xFFFFFFFF, 0, 0, 0, 0, 0, false⟩,
  ⟨"REC_USER_CTRL", 0x700020, 1, 0x4, 1, 0x4, 0, 0xFFFF00FF, 0, 0, 0x100, 0, 0x600, false⟩,
  ⟨"REC_SIDE_CFG", 0x700040, 5, 0x4, 1, 0x4, 0x4060000, 0xFFFFFF01, 0, 0, 0, 0, 0, false⟩,
  ⟨"REC_SIDE_DROP", 0x700060, 5, 0x4, 1, 0x4, 0, 0xFFFFFFFF, 0, 0, 0, 0, 0, false⟩,
  ⟨"REC_SIDE_STATUS", 0x700080, 1, 0x4, 1, 0x4, 0, 0, 0, 0x1F, 0, 0, 0, false⟩,
  ⟨"REC_Q_STATUS", 0x700400, 32, 0x10, 1, 0x4, 0x1, 0, 0, 0x8, 0, 0, 0x3FFF0007, false⟩,
  ⟨"REC_Q_MAX", 0x700404, 32, 0x10, 1, 0x4, 0, 0, 0, 0, 0, 0x3FFF, 0, false⟩,
  ⟨"REC_Q_PAR_CNT", 0x700408, 32, 0x10, 1, 0x4, 0, 0xFFFFFFFF, 0, 0, 0, 0, 0, false⟩,
  ⟨"REC_STREAM_CFG", 0x701000, 256, 0x10, 1, 0x4, 0xF10000, 0, 0xF37FFF, 0, 0, 0, 0, false⟩,
  ⟨"REC_STREAM_REC_CNT", 0x701004, 256, 0x10, 1, 0x4, 0, 0xFFFFFFFF, 0, 0, 0, 0, 0, false⟩,
  ⟨"REC_STREAM_DISC", 0x701008, 256, 0x10, 1, 0x4, 0, 0xFFFFFFFF, 0, 0, 0, 0, 0, false⟩]

/-- The registers of block QUL. -/
def regRowsQUL : List RegRow := [
  ⟨"QUL_STATUS", 0x10A000, 24, 0x10000, 1, 0x4, 0, 0, 0, 0x2, 0, 0, 0x1, false⟩,
  ⟨"QUL_INT_STATUS", 0x10A004, 24, 0x10000, 1, 0x4, 0, 0, 0, 0x3, 0, 0, 0, false⟩,
  ⟨"QUL_INT_ENABLE", 0x10A008, 24, 0x10000, 1, 0x4, 0, 0x3, 0, 0, 0, 0, 0, false⟩,
  ⟨"QUL_CH_CFG", 0x10A100, 24, 0x10000, 8, 0x10, 0x32000000, 0, 0x3FFFFFFF, 0, 0, 0, 0, false⟩,
  ⟨"QUL_RAW_REC_CNT", 0x10A104, 24, 0x10000, 8, 0x10, 0, 0xFFFFFFFF, 0, 0, 0, 0, 0, false⟩,
  ⟨"QUL_RAW_OVR_CNT", 0x10A108, 24, 0x10000, 8, 0x10, 0, 0xFFFFFFFF, 0, 0, 0, 0, 0, false⟩,
  ⟨"QUL_SPEC_REC_CNT", 0x10A10C, 24, 0x10000, 8, 0x10, 0, 0xFFFFFFFF, 0, 0, 0, 0, 0, false⟩]

/-- The registers of block SKN. -/
def regRowsSKN : List RegRow := [
  ⟨"SKN_STATUS", 0x800000, 1, 0x4, 1, 0x4, 0, 0, 0, 0x2, 0, 0, 0x1, false⟩,
  ⟨"SKN_INT_STATUS", 0x800004, 1, 0x4, 1, 0x4, 0, 0, 0, 0xFF7, 0, 0, 0, false⟩,
  ⟨"SKN_INT_ENABLE", 0x800008, 1, 0x4, 1, 0x4, 0, 0xFF7, 0, 0, 0, 0, 0, false⟩,
  ⟨"SKN_CLASS", 0x800010, 8, 0x4, 1, 0x4, 0x37, 0, 0x3F, 0, 0, 0, 0, false⟩,
  ⟨"SKN_ENG_STATUS", 0x800100, 32, 0x10, 1, 0x4, 0, 0, 0, 0, 0, 0, 0x3, false⟩,
  ⟨"SKN_RAW_CNT", 0x800104, 32, 0x10, 1, 0x4, 0, 0xFFFFFFFF, 0, 0, 0, 0, 0, false⟩,
  ⟨"SKN_WIRE_CNT", 0x800108, 32, 0x10, 1, 0x4, 0, 0xFFFFFFFF, 0, 0, 0, 0, 0, false⟩,
  ⟨"SKN_FALLBACK_CNT", 0x80010C, 32, 0x10, 1, 0x4, 0, 0xFFFFFFFF, 0, 0, 0, 0, 0, false⟩,
  ⟨"SKN_DEC_SRC_LO", 0x800400, 4, 0x40, 1, 0x4, 0, 0xFFFFFFFF, 0, 0, 0, 0, 0, false⟩,
  ⟨"SKN_DEC_SRC_HI", 0x800404, 4, 0x40, 1, 0x4, 0, 0xFFFFFFFF, 0, 0, 0, 0, 0, false⟩,
  ⟨"SKN_DEC_SRC_LEN", 0x800408, 4, 0x40, 1, 0x4, 0, 0xFFFFFFFF, 0, 0, 0, 0, 0, false⟩,
  ⟨"SKN_DEC_DST_LO", 0x80040C, 4, 0x40, 1, 0x4, 0, 0xFFFFFFFF, 0, 0, 0, 0, 0, false⟩,
  ⟨"SKN_DEC_DST_HI", 0x800410, 4, 0x40, 1, 0x4, 0, 0xFFFFFFFF, 0, 0, 0, 0, 0, false⟩,
  ⟨"SKN_DEC_DST_LEN", 0x800414, 4, 0x40, 1, 0x4, 0, 0xFFFFFFFF, 0, 0, 0, 0, 0, false⟩,
  ⟨"SKN_DEC_EXPECT", 0x800418, 4, 0x40, 1, 0x4, 0, 0xFFFFFFFF, 0, 0, 0, 0, 0, false⟩,
  ⟨"SKN_DEC_CTRL", 0x80041C, 4, 0x40, 1, 0x4, 0, 0x4, 0, 0, 0x3, 0, 0, false⟩,
  ⟨"SKN_DEC_STATUS", 0x800420, 4, 0x40, 1, 0x4, 0, 0, 0, 0x100, 0, 0, 0xF1, false⟩,
  ⟨"SKN_DEC_OUT_LEN", 0x800424, 4, 0x40, 1, 0x4, 0, 0, 0, 0, 0, 0, 0xFFFFFFFF, false⟩,
  ⟨"SKN_DEC_IN_USED", 0x800428, 4, 0x40, 1, 0x4, 0, 0, 0, 0, 0, 0, 0xFFFFFFFF, false⟩]

/-- The registers of block HNS. -/
def regRowsHNS : List RegRow := [
  ⟨"HNS_STATUS", 0x900000, 1, 0x4, 1, 0x4, 0, 0, 0, 0x2, 0, 0, 0x1, false⟩,
  ⟨"HNS_INT_STATUS", 0x900004, 1, 0x4, 1, 0x4, 0, 0, 0, 0x1FFFF, 0, 0, 0, false⟩,
  ⟨"HNS_INT_ENABLE", 0x900008, 1, 0x4, 1, 0x4, 0, 0x1FFFF, 0, 0, 0, 0, 0, false⟩,
  ⟨"HNS_PORT_CFG", 0x901000, 4, 0x1000, 1, 0x4, 0x1296, 0, 0x7FFF, 0, 0, 0, 0, false⟩,
  ⟨"HNS_PORT_STATUS", 0x901004, 4, 0x1000, 1, 0x4, 0x200, 0, 0, 0, 0, 0, 0x1FFFF, false⟩,
  ⟨"HNS_PORT_ERR_CNT", 0x901008, 4, 0x1000, 1, 0x4, 0, 0xFFFFFFFF, 0, 0, 0, 0, 0, false⟩,
  ⟨"HNS_PORT_LOST_CNT", 0x90100C, 4, 0x1000, 1, 0x4, 0, 0xFFFFFFFF, 0, 0, 0, 0, 0, false⟩,
  ⟨"HNS_PARTNER_DB", 0x901010, 4, 0x1000, 1, 0x4, 0, 0, 0, 0, 0, 0x8000FFFF, 0, false⟩,
  ⟨"HNS_MSIX_SEND", 0x901014, 4, 0x1000, 1, 0x4, 0, 0, 0, 0, 0xFFFFFFFF, 0, 0, false⟩,
  ⟨"HNS_RING_STATUS", 0x901100, 4, 0x1000, 16, 0x20, 0, 0, 0, 0, 0, 0, 0xFFFFFFFF, false⟩,
  ⟨"HNS_RING_BASE_LO", 0x901104, 4, 0x1000, 16, 0x20, 0, 0, 0, 0, 0, 0, 0xFFFFFFFF, false⟩,
  ⟨"HNS_RING_BASE_HI", 0x901108, 4, 0x1000, 16, 0x20, 0, 0, 0, 0, 0, 0, 0xFFFFFFFF, false⟩,
  ⟨"HNS_RING_WR_LO", 0x90110C, 4, 0x1000, 16, 0x20, 0, 0, 0, 0, 0, 0, 0xFFFFFFFF, true⟩,
  ⟨"HNS_RING_WR_HI", 0x901110, 4, 0x1000, 16, 0x20, 0, 0, 0, 0, 0, 0, 0xFFFFFFFF, true⟩,
  ⟨"HNS_RING_RD_LO", 0x901114, 4, 0x1000, 16, 0x20, 0, 0, 0, 0, 0, 0, 0xFFFFFFFF, true⟩,
  ⟨"HNS_RING_RD_HI", 0x901118, 4, 0x1000, 16, 0x20, 0, 0, 0, 0, 0, 0, 0xFFFFFFFF, true⟩,
  ⟨"HNS_RING_STALL_CNT", 0x90111C, 4, 0x1000, 16, 0x20, 0, 0xFFFFFFFF, 0, 0, 0, 0, 0, false⟩,
  ⟨"HNS_GRANT_BASE_LO", 0x901400, 4, 0x1000, 8, 0x10, 0, 0xFFFFFFFF, 0, 0, 0, 0, 0, false⟩,
  ⟨"HNS_GRANT_BASE_HI", 0x901404, 4, 0x1000, 8, 0x10, 0, 0xFF, 0, 0, 0, 0, 0, false⟩,
  ⟨"HNS_GRANT_SIZE", 0x901408, 4, 0x1000, 8, 0x10, 0, 0xFFFFFF, 0, 0, 0, 0, 0, false⟩]

/-- The registers of block SPN. -/
def regRowsSPN : List RegRow := [
  ⟨"SPN_STATUS", 0xA00000, 1, 0x4, 1, 0x4, 0, 0, 0, 0x6, 0, 0, 0x1, false⟩,
  ⟨"SPN_INT_STATUS", 0xA00004, 1, 0x4, 1, 0x4, 0, 0, 0, 0x7, 0, 0, 0, false⟩,
  ⟨"SPN_INT_ENABLE", 0xA00008, 1, 0x4, 1, 0x4, 0, 0x7, 0, 0, 0, 0, 0, false⟩,
  ⟨"SPN_SIG_STATUS_LO", 0xA00010, 1, 0x4, 1, 0x4, 0, 0, 0, 0xFFFFFFFF, 0, 0, 0, false⟩,
  ⟨"SPN_SIG_STATUS_HI", 0xA00014, 1, 0x4, 1, 0x4, 0, 0, 0, 0xFFFFFFFF, 0, 0, 0, false⟩,
  ⟨"SPN_SIG_EN_LO", 0xA00018, 1, 0x4, 1, 0x4, 0, 0xFFFFFFFF, 0, 0, 0, 0, 0, false⟩,
  ⟨"SPN_SIG_EN_HI", 0xA0001C, 1, 0x4, 1, 0x4, 0, 0xFFFFFFFF, 0, 0, 0, 0, 0, false⟩,
  ⟨"SPN_ERR_STATUS_LO", 0xA00020, 1, 0x4, 1, 0x4, 0, 0, 0, 0xFFFFFFFF, 0, 0, 0, false⟩,
  ⟨"SPN_ERR_STATUS_HI", 0xA00024, 1, 0x4, 1, 0x4, 0, 0, 0, 0xFFFFFFFF, 0, 0, 0, false⟩,
  ⟨"SPN_CH_CTRL", 0xA01000, 64, 0x80, 1, 0x4, 0, 0, 0, 0, 0xF, 0, 0, false⟩,
  ⟨"SPN_CH_CFG", 0xA01004, 64, 0x80, 1, 0x4, 0, 0, 0x1, 0, 0, 0, 0, false⟩,
  ⟨"SPN_CH_STATUS", 0xA01008, 64, 0x80, 1, 0x4, 0, 0, 0, 0, 0, 0, 0xFFFFFF3F, false⟩,
  ⟨"SPN_CH_EVENT", 0xA0100C, 64, 0x80, 1, 0x4, 0, 0, 0, 0, 0xFF, 0, 0, false⟩,
  ⟨"SPN_CH_PC_LO", 0xA01010, 64, 0x80, 1, 0x4, 0, 0, 0xFFFFFFFF, 0, 0, 0, 0, false⟩,
  ⟨"SPN_CH_PC_HI", 0xA01014, 64, 0x80, 1, 0x4, 0, 0, 0xFFFFFFFF, 0, 0, 0, 0, false⟩,
  ⟨"SPN_CH_SBASE_LO", 0xA01018, 64, 0x80, 1, 0x4, 0, 0, 0xFFFFFFFF, 0, 0, 0, 0, false⟩,
  ⟨"SPN_CH_SBASE_HI", 0xA0101C, 64, 0x80, 1, 0x4, 0, 0, 0xFFFFFFFF, 0, 0, 0, 0, false⟩,
  ⟨"SPN_CH_DBASE_LO", 0xA01020, 64, 0x80, 1, 0x4, 0, 0, 0xFFFFFFFF, 0, 0, 0, 0, false⟩,
  ⟨"SPN_CH_DBASE_HI", 0xA01024, 64, 0x80, 1, 0x4, 0, 0, 0xFFFFFFFF, 0, 0, 0, 0, false⟩,
  ⟨"SPN_CH_LEN", 0xA01028, 64, 0x80, 1, 0x4, 0, 0, 0x3F3F, 0, 0, 0, 0, false⟩,
  ⟨"SPN_CH_SPTR_LO", 0xA01030, 64, 0x80, 1, 0x4, 0, 0, 0xFFFFFFFF, 0, 0, 0, 0, false⟩,
  ⟨"SPN_CH_SPTR_HI", 0xA01034, 64, 0x80, 1, 0x4, 0, 0, 0xFF, 0, 0, 0, 0, false⟩,
  ⟨"SPN_CH_DPTR_LO", 0xA01038, 64, 0x80, 1, 0x4, 0, 0, 0xFFFFFFFF, 0, 0, 0, 0, false⟩,
  ⟨"SPN_CH_DPTR_HI", 0xA0103C, 64, 0x80, 1, 0x4, 0, 0, 0xFF, 0, 0, 0, 0, false⟩,
  ⟨"SPN_CH_XCNT_LO", 0xA01040, 64, 0x80, 1, 0x4, 0, 0, 0xFFFFFFFF, 0, 0, 0, 0, false⟩,
  ⟨"SPN_CH_XCNT_HI", 0xA01044, 64, 0x80, 1, 0x4, 0, 0, 0xFFFFFFFF, 0, 0, 0, 0, false⟩,
  ⟨"SPN_CH_ERR_ADDR_LO", 0xA01048, 64, 0x80, 1, 0x4, 0, 0, 0, 0, 0, 0, 0xFFFFFFFF, true⟩,
  ⟨"SPN_CH_ERR_ADDR_HI", 0xA0104C, 64, 0x80, 1, 0x4, 0, 0, 0, 0, 0, 0, 0xFFFFFFFF, true⟩,
  ⟨"SPN_CH_ERR_INFO", 0xA01050, 64, 0x80, 1, 0x4, 0, 0, 0, 0, 0, 0, 0xFFFFFF3F, false⟩,
  ⟨"SPN_CH_SIG_WT_LO", 0xA01054, 64, 0x80, 1, 0x4, 0, 0, 0, 0, 0, 0, 0xFFFFFFFF, true⟩,
  ⟨"SPN_CH_SIG_WT_HI", 0xA01058, 64, 0x80, 1, 0x4, 0, 0, 0, 0, 0, 0, 0xFFFFFFFF, true⟩]

/-- The registers of block STP. -/
def regRowsSTP : List RegRow := [
  ⟨"STP_STATUS", 0x70000, 1, 0x4, 1, 0x4, 0, 0, 0, 0x2, 0, 0, 0x3FD, false⟩,
  ⟨"STP_INT_STATUS", 0x70004, 1, 0x4, 1, 0x4, 0, 0, 0, 0xFF, 0, 0, 0, false⟩,
  ⟨"STP_INT_ENABLE", 0x70008, 1, 0x4, 1, 0x4, 0, 0xFF, 0, 0, 0, 0, 0, false⟩,
  ⟨"STP_CTRL", 0x7000C, 1, 0x4, 1, 0x4, 0, 0, 0, 0, 0x3, 0, 0, false⟩,
  ⟨"STP_CFG", 0x70010, 1, 0x4, 1, 0x4, 0x640002, 0x3FF001F, 0, 0, 0, 0, 0, false⟩,
  ⟨"STP_REF_NOM", 0x70014, 1, 0x4, 1, 0x4, 0x2625A00, 0x3FFFFFF, 0, 0, 0, 0, 0, false⟩,
  ⟨"STP_REF_PPB", 0x70018, 1, 0x4, 1, 0x4, 0, 0, 0, 0, 0, 0, 0xFFFFFFFF, false⟩,
  ⟨"STP_PHASE", 0x7001C, 1, 0x4, 1, 0x4, 0, 0, 0, 0, 0, 0, 0xFFFF, false⟩,
  ⟨"STP_HOLD_LIMIT", 0x70020, 1, 0x4, 1, 0x4, 0, 0xFFFF, 0, 0, 0, 0, 0, false⟩,
  ⟨"STP_OUT_CFG", 0x70040, 8, 0x8, 1, 0x4, 0x804, 0, 0xFFFFF, 0, 0, 0, 0, false⟩,
  ⟨"STP_OUT_FREQ", 0x70044, 8, 0x8, 1, 0x4, 0, 0, 0xFFFFFFFF, 0, 0, 0, 0, false⟩,
  ⟨"STP_SYNC_CFG", 0x70080, 1, 0x4, 1, 0x4, 0x810, 0xFF1F, 0, 0, 0, 0, 0, false⟩,
  ⟨"STP_OUT_STATUS", 0x70084, 1, 0x4, 1, 0x4, 0, 0, 0, 0, 0, 0, 0xFFFFFF, false⟩,
  ⟨"STP_OUT_PHASE", 0x700C0, 8, 0x4, 1, 0x4, 0, 0, 0x7FFF, 0, 0, 0, 0, false⟩]

/-- The registers of block WRP. -/
def regRowsWRP : List RegRow := [
  ⟨"WRP_STATUS", 0x20000, 1, 0x4, 1, 0x4, 0, 0, 0, 0x1, 0, 0, 0, false⟩,
  ⟨"WRP_INT_STATUS", 0x20004, 1, 0x4, 1, 0x4, 0, 0, 0, 0xF, 0, 0, 0, false⟩,
  ⟨"WRP_INT_ENABLE", 0x20008, 1, 0x4, 1, 0x4, 0, 0xF, 0, 0, 0, 0, 0, false⟩,
  ⟨"WRP_CTRL", 0x2000C, 1, 0x4, 1, 0x4, 0, 0, 0, 0, 0x1, 0, 0, false⟩,
  ⟨"WRP_CFG", 0x20010, 1, 0x4, 1, 0x4, 0, 0x1, 0, 0, 0, 0, 0, false⟩,
  ⟨"WRP_NOW_LO", 0x20014, 1, 0x4, 1, 0x4, 0, 0, 0, 0, 0, 0, 0xFFFFFFFF, true⟩,
  ⟨"WRP_NOW_HI", 0x20018, 1, 0x4, 1, 0x4, 0, 0, 0, 0, 0, 0, 0xFFFFFFFF, true⟩,
  ⟨"WRP_PRELOAD_LO", 0x2001C, 1, 0x4, 1, 0x4, 0, 0xFFFFFFFF, 0, 0, 0, 0, 0, false⟩,
  ⟨"WRP_PRELOAD_HI", 0x20020, 1, 0x4, 1, 0x4, 0, 0xFFFFFFFF, 0, 0, 0, 0, 0, false⟩,
  ⟨"WRP_SYNC_WT_LO", 0x20024, 1, 0x4, 1, 0x4, 0, 0, 0, 0, 0, 0, 0xFFFFFFFF, true⟩,
  ⟨"WRP_SYNC_WT_HI", 0x20028, 1, 0x4, 1, 0x4, 0, 0, 0, 0, 0, 0, 0xFFFFFFFF, true⟩,
  ⟨"WRP_SYNC_DIFF_LO", 0x2002C, 1, 0x4, 1, 0x4, 0, 0, 0, 0, 0, 0, 0xFFFFFFFF, true⟩,
  ⟨"WRP_SYNC_DIFF_HI", 0x20030, 1, 0x4, 1, 0x4, 0, 0, 0, 0, 0, 0, 0xFFFFFFFF, true⟩,
  ⟨"WRP_STEP_BEFORE_LO", 0x20034, 1, 0x4, 1, 0x4, 0, 0, 0, 0, 0, 0, 0xFFFFFFFF, true⟩,
  ⟨"WRP_STEP_BEFORE_HI", 0x20038, 1, 0x4, 1, 0x4, 0, 0, 0, 0, 0, 0, 0xFFFFFFFF, true⟩,
  ⟨"WRP_STEP_AFTER_LO", 0x2003C, 1, 0x4, 1, 0x4, 0, 0, 0, 0, 0, 0, 0xFFFFFFFF, true⟩,
  ⟨"WRP_STEP_AFTER_HI", 0x20040, 1, 0x4, 1, 0x4, 0, 0, 0, 0, 0, 0, 0xFFFFFFFF, true⟩,
  ⟨"WRP_STEP_INFO", 0x20044, 1, 0x4, 1, 0x4, 0, 0, 0, 0, 0, 0, 0x7FFFF, false⟩,
  ⟨"WRP_STEP_CNT", 0x20048, 1, 0x4, 1, 0x4, 0, 0xFFFFFFFF, 0, 0, 0, 0, 0, false⟩]

/-- The registers of block HFB. -/
def regRowsHFB : List RegRow := [
  ⟨"HFB_STATUS", 0x80000, 1, 0x4, 1, 0x4, 0, 0, 0, 0x2, 0, 0, 0x1D, false⟩,
  ⟨"HFB_INT_STATUS", 0x80004, 1, 0x4, 1, 0x4, 0, 0, 0, 0xF, 0, 0, 0, false⟩,
  ⟨"HFB_INT_ENABLE", 0x80008, 1, 0x4, 1, 0x4, 0, 0xF, 0, 0, 0, 0, 0, false⟩,
  ⟨"HFB_CTRL", 0x8000C, 1, 0x4, 1, 0x4, 0, 0, 0, 0, 0x1, 0, 0, false⟩,
  ⟨"HFB_CAL_ADDR", 0x80010, 1, 0x4, 1, 0x4, 0, 0xFF1F, 0, 0, 0, 0, 0, false⟩,
  ⟨"HFB_CAL_DATA", 0x80014, 1, 0x4, 1, 0x4, 0, 0, 0, 0, 0, 0, 0xFFFF, false⟩,
  ⟨"HFB_DLL_LOCK", 0x80018, 1, 0x4, 1, 0x4, 0, 0, 0, 0, 0, 0, 0xFFFFFFFF, false⟩,
  ⟨"HFB_CAL_VALID", 0x8001C, 1, 0x4, 1, 0x4, 0, 0, 0, 0, 0, 0, 0xFFFFFFFF, false⟩,
  ⟨"HFB_IN_CFG", 0x80100, 32, 0x20, 1, 0x4, 0x8000, 0, 0xFFFF, 0, 0, 0, 0, false⟩,
  ⟨"HFB_DLY", 0x80104, 32, 0x20, 1, 0x4, 0, 0, 0xFFFF, 0, 0, 0, 0, false⟩,
  ⟨"HFB_STAMP_CNT", 0x80108, 32, 0x20, 1, 0x4, 0, 0xFFFFFFFF, 0, 0, 0, 0, 0, false⟩,
  ⟨"HFB_DEAD_CNT", 0x8010C, 32, 0x20, 1, 0x4, 0, 0xFFFFFFFF, 0, 0, 0, 0, 0, false⟩,
  ⟨"HFB_DROP_CNT", 0x80110, 32, 0x20, 1, 0x4, 0, 0xFFFFFFFF, 0, 0, 0, 0, 0, false⟩,
  ⟨"HFB_EDGE_CNT", 0x80114, 32, 0x20, 1, 0x4, 0, 0, 0, 0, 0, 0, 0xFFFFFFFF, false⟩]

/-- The registers of block GLB. -/
def regRowsGLB : List RegRow := [
  ⟨"GLB_ID", 0x0, 1, 0x4, 1, 0x4, 0x1932, 0, 0, 0, 0, 0, 0xFFFFFF, false⟩,
  ⟨"GLB_FEATURE", 0x4, 1, 0x4, 1, 0x4, 0x20840C18, 0, 0, 0, 0, 0, 0x3FFFFFFF, false⟩,
  ⟨"GLB_STATUS", 0x8, 1, 0x4, 1, 0x4, 0, 0, 0, 0x1B, 0, 0, 0x24, false⟩,
  ⟨"GLB_INT_STATUS", 0xC, 1, 0x4, 1, 0x4, 0, 0, 0, 0x1FF, 0, 0, 0, false⟩,
  ⟨"GLB_INT_ENABLE", 0x10, 1, 0x4, 1, 0x4, 0, 0x1FF, 0, 0, 0, 0, 0, false⟩,
  ⟨"GLB_RUN", 0x14, 1, 0x4, 1, 0x4, 0, 0x80, 0, 0, 0x70, 0, 0x30F, false⟩,
  ⟨"GLB_START_AT_LO", 0x18, 1, 0x4, 1, 0x4, 0, 0, 0, 0, 0, 0, 0xFFFFFFFF, true⟩,
  ⟨"GLB_START_AT_HI", 0x1C, 1, 0x4, 1, 0x4, 0, 0, 0, 0, 0, 0, 0xFFFFFFFF, true⟩,
  ⟨"GLB_RUN_NUMBER", 0x20, 1, 0x4, 1, 0x4, 0, 0, 0, 0, 0, 0, 0xFFFFFFFF, false⟩,
  ⟨"GLB_DEGRADE", 0x24, 1, 0x4, 1, 0x4, 0, 0, 0, 0, 0, 0, 0x1F, false⟩,
  ⟨"GLB_BOOT", 0x28, 1, 0x4, 1, 0x4, 0x4, 0xF, 0, 0, 0, 0, 0x3FF10, false⟩,
  ⟨"GLB_BUSERR_INFO", 0x2C, 1, 0x4, 1, 0x4, 0, 0, 0, 0, 0, 0, 0xFF, false⟩,
  ⟨"GLB_BUSERR_ADDR_LO", 0x30, 1, 0x4, 1, 0x4, 0, 0, 0, 0, 0, 0, 0xFFFFFFFF, true⟩,
  ⟨"GLB_BUSERR_ADDR_HI", 0x34, 1, 0x4, 1, 0x4, 0, 0, 0, 0, 0, 0, 0xFFFFFFFF, true⟩,
  ⟨"GLB_BUSERR_CNT", 0x38, 1, 0x4, 1, 0x4, 0, 0xFFFFFFFF, 0, 0, 0, 0, 0, false⟩,
  ⟨"GLB_DEGRADE_WT_LO", 0x40, 5, 0x8, 1, 0x4, 0, 0, 0, 0, 0, 0, 0xFFFFFFFF, true⟩,
  ⟨"GLB_DEGRADE_WT_HI", 0x44, 5, 0x8, 1, 0x4, 0, 0, 0, 0, 0, 0, 0xFFFFFFFF, true⟩,
  ⟨"GLB_VEC_MASK", 0x100, 8, 0x4, 1, 0x4, 0, 0xFFFFFFFF, 0, 0, 0, 0, 0, false⟩,
  ⟨"GLB_VEC_PEND", 0x120, 8, 0x4, 1, 0x4, 0, 0, 0, 0, 0, 0, 0xFFFFFFFF, false⟩]

/-- The registers of block BRD. -/
def regRowsBRD : List RegRow := [
  ⟨"BRD_STATUS", 0x60000, 1, 0x4, 1, 0x4, 0x1, 0, 0, 0x10, 0, 0, 0xF, false⟩,
  ⟨"BRD_INT_STATUS", 0x60004, 1, 0x4, 1, 0x4, 0, 0, 0, 0x1F, 0, 0, 0, false⟩,
  ⟨"BRD_INT_ENABLE", 0x60008, 1, 0x4, 1, 0x4, 0, 0x1F, 0, 0, 0, 0, 0, false⟩,
  ⟨"BRD_CMD", 0x6000C, 1, 0x4, 1, 0x4, 0, 0xFF, 0, 0, 0x100, 0, 0x7000, false⟩,
  ⟨"BRD_CMD_LEN", 0x60010, 1, 0x4, 1, 0x4, 0, 0x7FFF, 0, 0, 0, 0, 0, false⟩,
  ⟨"BRD_OUT_LEN", 0x60014, 1, 0x4, 1, 0x4, 0, 0, 0, 0, 0, 0, 0x7FFF, false⟩,
  ⟨"BRD_DEBUG", 0x60018, 1, 0x4, 1, 0x4, 0, 0, 0, 0, 0, 0, 0x3, false⟩,
  ⟨"BRD_OWNER", 0x6001C, 1, 0x4, 1, 0x4, 0, 0, 0, 0, 0, 0, 0x1FF, false⟩,
  ⟨"BRD_SVN", 0x60020, 1, 0x4, 1, 0x4, 0, 0, 0, 0, 0, 0, 0xFFFFFFFF, false⟩,
  ⟨"BRD_JSEQ", 0x60024, 1, 0x4, 1, 0x4, 0, 0, 0, 0, 0, 0, 0xFFFFFFFF, false⟩,
  ⟨"BRD_JRN_DROP_CNT", 0x60028, 1, 0x4, 1, 0x4, 0, 0xFFFFFFFF, 0, 0, 0, 0, 0, false⟩,
  ⟨"BRD_JRN_BACKLOG", 0x6002C, 1, 0x4, 1, 0x4, 0, 0, 0, 0, 0, 0, 0x7FFF, false⟩,
  ⟨"BRD_KEY_ID", 0x60030, 4, 0x4, 1, 0x4, 0, 0, 0, 0, 0, 0, 0x1FF, false⟩,
  ⟨"BRD_FRAG_CNT", 0x60040, 4, 0x4, 1, 0x4, 0, 0xFFFFFFFF, 0, 0, 0, 0, 0, false⟩,
  ⟨"BRD_BOOT_NONCE_LO", 0x60050, 1, 0x4, 1, 0x4, 0, 0, 0, 0, 0, 0, 0xFFFFFFFF, true⟩,
  ⟨"BRD_BOOT_NONCE_HI", 0x60054, 1, 0x4, 1, 0x4, 0, 0, 0, 0, 0, 0, 0xFFFFFFFF, true⟩,
  ⟨"BRD_JHEAD", 0x60080, 12, 0x4, 1, 0x4, 0, 0, 0, 0, 0, 0, 0xFFFFFFFF, false⟩]

/-- The registers of block FAR. -/
def regRowsFAR : List RegRow := [
  ⟨"FAR_STATUS", 0x50000, 1, 0x4, 1, 0x4, 0, 0, 0, 0x2, 0, 0, 0xD, false⟩,
  ⟨"FAR_INT_STATUS", 0x50004, 1, 0x4, 1, 0x4, 0, 0, 0, 0x3F, 0, 0, 0, false⟩,
  ⟨"FAR_INT_ENABLE", 0x50008, 1, 0x4, 1, 0x4, 0, 0x3F, 0, 0, 0, 0, 0, false⟩,
  ⟨"FAR_CTRL", 0x5000C, 1, 0x4, 1, 0x4, 0, 0, 0, 0, 0x7, 0, 0, false⟩,
  ⟨"FAR_PROG_STATUS", 0x50010, 1, 0x4, 1, 0x4, 0, 0, 0, 0, 0, 0, 0x7F0F, false⟩,
  ⟨"FAR_FREE", 0x50014, 1, 0x4, 1, 0x4, 0, 0, 0, 0, 0, 0, 0xFF, false⟩,
  ⟨"FAR_XTAL_PPB", 0x50018, 1, 0x4, 1, 0x4, 0, 0, 0, 0, 0, 0, 0xFFFFFFFF, false⟩,
  ⟨"FAR_XTAL_UNC", 0x5001C, 1, 0x4, 1, 0x4, 0, 0, 0, 0, 0, 0, 0xFFFFFFFF, false⟩,
  ⟨"FAR_VALID", 0x50020, 4, 0x4, 1, 0x4, 0, 0, 0, 0, 0, 0, 0xFFFFFFFF, false⟩,
  ⟨"FAR_INFORCE", 0x50030, 4, 0x4, 1, 0x4, 0, 0, 0, 0, 0, 0, 0xFFFFFFFF, false⟩,
  ⟨"FAR_STATS_CFG", 0x50040, 1, 0x4, 1, 0x4, 0x10, 0xFFFF011F, 0, 0, 0, 0, 0, false⟩,
  ⟨"FAR_STATS_MASK", 0x50044, 6, 0x4, 1, 0x4, 0, 0xFFFFFFFF, 0, 0, 0, 0, 0, false⟩,
  ⟨"FAR_STATS_RES0", 0x51000, 192, 0x8, 1, 0x4, 0, 0, 0, 0, 0, 0, 0xFFFFFFFF, false⟩,
  ⟨"FAR_STATS_RES1", 0x51004, 192, 0x8, 1, 0x4, 0, 0, 0, 0, 0, 0, 0x33, false⟩]

/-- The registers of block MON. -/
def regRowsMON : List RegRow := [
  ⟨"MON_STATUS", 0x40000, 1, 0x4, 1, 0x4, 0, 0, 0, 0x1, 0, 0, 0x6, false⟩,
  ⟨"MON_INT_STATUS", 0x40004, 1, 0x4, 1, 0x4, 0, 0, 0, 0x3F, 0, 0, 0, false⟩,
  ⟨"MON_INT_ENABLE", 0x40008, 1, 0x4, 1, 0x4, 0, 0x3F, 0, 0, 0, 0, 0, false⟩,
  ⟨"MON_THERM_CFG", 0x4000C, 1, 0x4, 1, 0x4, 0x56E64, 0xFFFFF, 0, 0, 0, 0, 0, false⟩,
  ⟨"MON_T_EN", 0x40010, 1, 0x4, 1, 0x4, 0xFFFFFFFF, 0xFFFFFFFF, 0, 0, 0, 0, 0, false⟩,
  ⟨"MON_T_MAX", 0x40014, 1, 0x4, 1, 0x4, 0, 0, 0, 0, 0, 0, 0x1FFFFF, false⟩,
  ⟨"MON_V_OUT", 0x40018, 1, 0x4, 1, 0x4, 0, 0, 0, 0, 0, 0, 0xFFFF, false⟩,
  ⟨"MON_T_FAULT", 0x4001C, 1, 0x4, 1, 0x4, 0, 0, 0, 0, 0, 0, 0xFFFFFFFF, false⟩,
  ⟨"MON_T", 0x40100, 32, 0x4, 1, 0x4, 0, 0, 0, 0, 0, 0, 0xFFFF, false⟩,
  ⟨"MON_T_TRIM", 0x40180, 32, 0x4, 1, 0x4, 0, 0xFF, 0, 0, 0, 0, 0, false⟩,
  ⟨"MON_V", 0x40200, 16, 0x8, 1, 0x4, 0, 0, 0, 0, 0, 0, 0xFFFFFFFF, false⟩,
  ⟨"MON_V_WIN", 0x40204, 16, 0x8, 1, 0x4, 0x3232, 0xFFFF, 0, 0, 0, 0, 0, false⟩,
  ⟨"MON_P", 0x40300, 16, 0x8, 1, 0x4, 0, 0, 0, 0, 0, 0, 0xFFFFFFFF, false⟩,
  ⟨"MON_P_DRIFT", 0x40304, 16, 0x8, 1, 0x4, 0, 0, 0, 0, 0, 0, 0xFFFFFFFF, false⟩]

/-- The registers of block TCK. -/
def regRowsTCK : List RegRow := [
  ⟨"TCK_STATUS", 0x90000, 1, 0x4, 1, 0x4, 0, 0, 0, 0x6, 0, 0, 0x39, false⟩,
  ⟨"TCK_INT_STATUS", 0x90004, 1, 0x4, 1, 0x4, 0, 0, 0, 0x7F, 0, 0, 0, false⟩,
  ⟨"TCK_INT_ENABLE", 0x90008, 1, 0x4, 1, 0x4, 0, 0x7F, 0, 0, 0, 0, 0, false⟩,
  ⟨"TCK_CTRL", 0x9000C, 1, 0x4, 1, 0x4, 0, 0, 0, 0, 0x3F, 0, 0, false⟩,
  ⟨"TCK_CFG", 0x90010, 1, 0x4, 1, 0x4, 0, 0, 0xFF, 0, 0, 0, 0, false⟩,
  ⟨"TCK_PERIOD", 0x90014, 1, 0x4, 1, 0x4, 0x1D4C0, 0, 0xFFFFFFFF, 0, 0, 0, 0, false⟩,
  ⟨"TCK_SKIP_CNT", 0x90018, 1, 0x4, 1, 0x4, 0, 0xFFFFFFFF, 0, 0, 0, 0, 0, false⟩,
  ⟨"TCK_CAL_CTRL", 0x9001C, 1, 0x4, 1, 0x4, 0, 0xFF, 0, 0, 0, 0, 0, false⟩,
  ⟨"TCK_CAL_TARGET", 0x90020, 1, 0x4, 1, 0x4, 0xFFFF, 0xFFFF, 0, 0, 0, 0, 0, false⟩,
  ⟨"TCK_CAL_Z", 0x90024, 1, 0x4, 1, 0x4, 0, 0, 0, 0, 0, 0, 0xFFFFFFFF, false⟩,
  ⟨"TCK_CAL_F", 0x90028, 1, 0x4, 1, 0x4, 0, 0, 0, 0, 0, 0, 0xFFFFFFFF, false⟩,
  ⟨"TCK_RES_WT_LO", 0x9002C, 1, 0x4, 1, 0x4, 0, 0, 0, 0, 0, 0, 0xFFFFFFFF, true⟩,
  ⟨"TCK_RES_WT_HI", 0x90030, 1, 0x4, 1, 0x4, 0, 0, 0, 0, 0, 0, 0xFFFFFFFF, true⟩,
  ⟨"TCK_WR_CFG", 0x90034, 1, 0x4, 1, 0x4, 0xC00, 0x1, 0x1F00, 0, 0, 0, 0, false⟩,
  ⟨"TCK_WR_BASE_LO", 0x90038, 1, 0x4, 1, 0x4, 0, 0, 0xFFFFFFFF, 0, 0, 0, 0, false⟩,
  ⟨"TCK_WR_BASE_HI", 0x9003C, 1, 0x4, 1, 0x4, 0, 0, 0xFFFFFFFF, 0, 0, 0, 0, false⟩,
  ⟨"TCK_WR_PTR", 0x90040, 1, 0x4, 1, 0x4, 0, 0, 0x3FFFFFFF, 0, 0, 0, 0, false⟩,
  ⟨"TCK_WR_CNT_LO", 0x90044, 1, 0x4, 1, 0x4, 0, 0, 0, 0, 0, 0, 0xFFFFFFFF, true⟩,
  ⟨"TCK_WR_CNT_HI", 0x90048, 1, 0x4, 1, 0x4, 0, 0, 0, 0, 0, 0, 0xFFFFFFFF, true⟩,
  ⟨"TCK_SEQ", 0x90100, 16, 0x4, 1, 0x4, 0, 0, 0xFF, 0, 0, 0, 0, false⟩,
  ⟨"TCK_INJ", 0x90140, 4, 0x4, 1, 0x4, 0, 0, 0xFF, 0, 0, 0, 0, false⟩,
  ⟨"TCK_RES", 0x90180, 16, 0x4, 1, 0x4, 0, 0, 0, 0, 0, 0, 0xFFFF, false⟩,
  ⟨"TCK_INJ_RES", 0x901C0, 4, 0x4, 1, 0x4, 0, 0, 0, 0, 0, 0, 0xFFFF, false⟩,
  ⟨"TCK_IN_CORR_Z", 0x90200, 24, 0x8, 1, 0x4, 0, 0xFFFFFFFF, 0, 0, 0, 0, 0, false⟩,
  ⟨"TCK_IN_CORR_G", 0x90204, 24, 0x8, 1, 0x4, 0x10000, 0xFFFFFF, 0, 0, 0, 0, 0, false⟩]

/-- The registers of block PWR. -/
def regRowsPWR : List RegRow := [
  ⟨"PWR_STATUS", 0xA0000, 1, 0x4, 1, 0x4, 0, 0, 0, 0x1, 0, 0, 0x6, false⟩,
  ⟨"PWR_INT_STATUS", 0xA0004, 1, 0x4, 1, 0x4, 0, 0, 0, 0x3FF, 0, 0, 0, false⟩,
  ⟨"PWR_INT_ENABLE", 0xA0008, 1, 0x4, 1, 0x4, 0, 0x3FF, 0, 0, 0, 0, 0, false⟩,
  ⟨"PWR_CTRL", 0xA000C, 1, 0x4, 1, 0x4, 0, 0, 0, 0, 0x1, 0, 0, false⟩,
  ⟨"PWR_DOM_TARGET", 0xA0010, 1, 0x4, 1, 0x4, 0x1FFFFFFF, 0x1FFFFFFF, 0, 0, 0, 0, 0, false⟩,
  ⟨"PWR_DOM_STATE", 0xA0014, 1, 0x4, 1, 0x4, 0x1FFFFFFF, 0, 0, 0, 0, 0, 0x1FFFFFFF, false⟩,
  ⟨"PWR_BLK_RESET", 0xA0018, 1, 0x4, 1, 0x4, 0, 0, 0, 0, 0x1FFFFFFF, 0, 0, false⟩,
  ⟨"PWR_RESET_CAUSE", 0xA001C, 1, 0x4, 1, 0x4, 0x1, 0, 0, 0, 0, 0, 0x1F, false⟩,
  ⟨"PWR_LAST_FATAL", 0xA0020, 1, 0x4, 1, 0x4, 0, 0, 0, 0, 0, 0, 0x1FFFF, false⟩,
  ⟨"PWR_LAST_FATAL_WT_LO", 0xA0024, 1, 0x4, 1, 0x4, 0, 0, 0, 0, 0, 0, 0xFFFFFFFF, true⟩,
  ⟨"PWR_LAST_FATAL_WT_HI", 0xA0028, 1, 0x4, 1, 0x4, 0, 0, 0, 0, 0, 0, 0xFFFFFFFF, true⟩,
  ⟨"PWR_VIO_STATUS", 0xA002C, 1, 0x4, 1, 0x4, 0, 0, 0, 0, 0, 0, 0x7F7F3FFF, false⟩,
  ⟨"PWR_BROWNOUT_CNT", 0xA0030, 1, 0x4, 1, 0x4, 0, 0xFFFFFFFF, 0, 0, 0, 0, 0, false⟩,
  ⟨"PWR_ALERT", 0xA0034, 1, 0x4, 1, 0x4, 0, 0, 0, 0, 0, 0, 0x3F, false⟩,
  ⟨"PWR_AGE_CFG", 0xA0038, 1, 0x4, 1, 0x4, 0x3A98, 0xFFFF, 0, 0, 0, 0, 0, false⟩,
  ⟨"PWR_AGE_LIMIT", 0xA003C, 1, 0x4, 1, 0x4, 0x558C00, 0xFFFFFFFF, 0, 0, 0, 0, 0, false⟩,
  ⟨"PWR_AGE_EQ", 0xA0040, 1, 0x4, 1, 0x4, 0, 0xFFFFFFFF, 0, 0, 0, 0, 0, false⟩,
  ⟨"PWR_POWERED", 0xA0044, 1, 0x4, 1, 0x4, 0, 0xFFFFFFFF, 0, 0, 0, 0, 0, false⟩]

/-- The registers of block PDK. -/
def regRowsPDK : List RegRow := [
  ⟨"PDK_STATUS", 0x30000, 1, 0x4, 1, 0x4, 0, 0, 0, 0x1, 0, 0, 0x1E, false⟩,
  ⟨"PDK_INT_STATUS", 0x30004, 1, 0x4, 1, 0x4, 0, 0, 0, 0x7, 0, 0, 0, false⟩,
  ⟨"PDK_INT_ENABLE", 0x30008, 1, 0x4, 1, 0x4, 0, 0x7, 0, 0, 0, 0, 0, false⟩,
  ⟨"PDK_CTRL", 0x3000C, 1, 0x4, 1, 0x4, 0, 0, 0, 0, 0x3, 0, 0, false⟩,
  ⟨"PDK_CFG", 0x30010, 1, 0x4, 1, 0x4, 0, 0x3, 0, 0, 0, 0, 0, false⟩,
  ⟨"PDK_REQ", 0x30020, 5, 0x4, 1, 0x4, 0, 0xFFFFFFFF, 0, 0, 0, 0, 0, false⟩,
  ⟨"PDK_BUSY", 0x30040, 5, 0x4, 1, 0x4, 0, 0, 0, 0, 0, 0, 0xFFFFFFFF, false⟩,
  ⟨"PDK_FAIL", 0x30060, 5, 0x4, 1, 0x4, 0, 0, 0, 0, 0, 0, 0xFFFFFFFF, false⟩,
  ⟨"PDK_SEL", 0x30080, 1, 0x4, 1, 0x4, 0, 0xFF, 0, 0, 0, 0, 0, false⟩,
  ⟨"PDK_SIG", 0x30084, 1, 0x4, 1, 0x4, 0, 0, 0, 0, 0, 0, 0xFFFFFFFF, false⟩,
  ⟨"PDK_SIG_EXP", 0x30088, 1, 0x4, 1, 0x4, 0, 0, 0, 0, 0, 0, 0xFFFFFFFF, false⟩,
  ⟨"PDK_MEM_INFO", 0x3008C, 1, 0x4, 1, 0x4, 0, 0, 0, 0, 0, 0, 0x1FFFFFF, false⟩,
  ⟨"PDK_REPAIR", 0x30090, 1, 0x4, 1, 0x4, 0, 0, 0, 0, 0, 0, 0xFFFF, false⟩]

/-- The registers of block ERL. -/
def regRowsERL : List RegRow := [
  ⟨"ERL_STATUS", 0x10000, 1, 0x4, 1, 0x4, 0, 0, 0, 0x3, 0, 0, 0xC, false⟩,
  ⟨"ERL_INT_STATUS", 0x10004, 1, 0x4, 1, 0x4, 0, 0, 0, 0xF, 0, 0, 0, false⟩,
  ⟨"ERL_INT_ENABLE", 0x10008, 1, 0x4, 1, 0x4, 0, 0xF, 0, 0, 0, 0, 0, false⟩,
  ⟨"ERL_CFG", 0x1000C, 1, 0x4, 1, 0x4, 0, 0x3, 0, 0, 0, 0, 0, false⟩,
  ⟨"ERL_NEXT", 0x10010, 1, 0x4, 1, 0x4, 0, 0, 0, 0, 0, 0, 0xFFFFFFFF, false⟩,
  ⟨"ERL_OLDEST", 0x10014, 1, 0x4, 1, 0x4, 0, 0, 0, 0, 0, 0, 0xFFFFFFFF, false⟩,
  ⟨"ERL_CNT", 0x10018, 4, 0x4, 1, 0x4, 0, 0xFFFFFFFF, 0, 0, 0, 0, 0, false⟩]

/-- Every register of the device. -/
def regRows : List RegRow :=
  regRowsLNK ++ regRowsCND ++ regRowsSPC ++ regRowsSTR ++ regRowsTRD ++ regRowsBOB ++ regRowsTAP ++ regRowsPNL ++ regRowsSHU ++ regRowsREC ++ regRowsQUL ++ regRowsSKN ++ regRowsHNS ++ regRowsSPN ++ regRowsSTP ++ regRowsWRP ++ regRowsHFB ++ regRowsGLB ++ regRowsBRD ++ regRowsFAR ++ regRowsMON ++ regRowsTCK ++ regRowsPWR ++ regRowsPDK ++ regRowsERL

/-- Registers whose reset value is not zero, part 0. -/
def resetRows0 : List ResetRow := [
  ⟨0x100000, 24, 0x10000, 1, 0x4, 0x232000⟩,
  ⟨0x100008, 24, 0x10000, 1, 0x4, 0xA000⟩,
  ⟨0x100024, 24, 0x10000, 1, 0x4, 0x1410⟩,
  ⟨0x102108, 24, 0x10000, 8, 0x80, 0x10000⟩,
  ⟨0x102110, 24, 0x10000, 8, 0x80, 0x40⟩,
  ⟨0x104100, 24, 0x10000, 8, 0x40, 0x168⟩,
  ⟨0x106014, 24, 0x10000, 1, 0x4, 0xFFFF⟩,
  ⟨0x106200, 24, 0x10000, 16, 0x20, 0x200⟩,
  ⟨0x300040, 16, 0x4, 1, 0x4, 0x10⟩,
  ⟨0x300400, 64, 0x4, 1, 0x4, 0x8⟩,
  ⟨0x40000C, 1, 0x4, 1, 0x4, 0x550200⟩,
  ⟨0x400010, 1, 0x4, 1, 0x4, 0x204⟩,
  ⟨0x400050, 1, 0x4, 1, 0x4, 0x10⟩,
  ⟨0x400054, 1, 0x4, 1, 0x4, 0x180401⟩,
  ⟨0x40006C, 1, 0x4, 1, 0x4, 0x4⟩,
  ⟨0x400100, 2, 0x20, 1, 0x4, 0x2EE000⟩,
  ⟨0x500104, 16, 0x80, 1, 0x4, 0x2040⟩,
  ⟨0x50010C, 16, 0x80, 1, 0x4, 0x70000⟩,
  ⟨0x500110, 16, 0x80, 1, 0x4, 0x124F800⟩,
  ⟨0x500114, 16, 0x80, 1, 0x4, 0x10110⟩,
  ⟨0x500118, 16, 0x80, 1, 0x4, 0x3⟩,
  ⟨0x50011C, 16, 0x80, 1, 0x4, 0x10000⟩,
  ⟨0x600114, 2, 0x80, 1, 0x4, 0x3A⟩,
  ⟨0x600400, 8, 0x40, 1, 0x4, 0x4⟩,
  ⟨0x108000, 24, 0x10000, 1, 0x4, 0x4⟩,
  ⟨0x700040, 5, 0x4, 1, 0x4, 0x4060000⟩,
  ⟨0x700400, 32, 0x10, 1, 0x4, 0x1⟩,
  ⟨0x701000, 256, 0x10, 1, 0x4, 0xF10000⟩,
  ⟨0x10A100, 24, 0x10000, 8, 0x10, 0x32000000⟩,
  ⟨0x800010, 8, 0x4, 1, 0x4, 0x37⟩,
  ⟨0x901000, 4, 0x1000, 1, 0x4, 0x1296⟩,
  ⟨0x901004, 4, 0x1000, 1, 0x4, 0x200⟩,
  ⟨0x70010, 1, 0x4, 1, 0x4, 0x640002⟩,
  ⟨0x70014, 1, 0x4, 1, 0x4, 0x2625A00⟩,
  ⟨0x70040, 8, 0x8, 1, 0x4, 0x804⟩,
  ⟨0x70080, 1, 0x4, 1, 0x4, 0x810⟩,
  ⟨0x80100, 32, 0x20, 1, 0x4, 0x8000⟩,
  ⟨0x0, 1, 0x4, 1, 0x4, 0x1932⟩,
  ⟨0x4, 1, 0x4, 1, 0x4, 0x20840C18⟩,
  ⟨0x28, 1, 0x4, 1, 0x4, 0x4⟩]

/-- Registers whose reset value is not zero, part 1. -/
def resetRows1 : List ResetRow := [
  ⟨0x60000, 1, 0x4, 1, 0x4, 0x1⟩,
  ⟨0x50040, 1, 0x4, 1, 0x4, 0x10⟩,
  ⟨0x4000C, 1, 0x4, 1, 0x4, 0x56E64⟩,
  ⟨0x40010, 1, 0x4, 1, 0x4, 0xFFFFFFFF⟩,
  ⟨0x40204, 16, 0x8, 1, 0x4, 0x3232⟩,
  ⟨0x90014, 1, 0x4, 1, 0x4, 0x1D4C0⟩,
  ⟨0x90020, 1, 0x4, 1, 0x4, 0xFFFF⟩,
  ⟨0x90034, 1, 0x4, 1, 0x4, 0xC00⟩,
  ⟨0x90204, 24, 0x8, 1, 0x4, 0x10000⟩,
  ⟨0xA0010, 1, 0x4, 1, 0x4, 0x1FFFFFFF⟩,
  ⟨0xA0014, 1, 0x4, 1, 0x4, 0x1FFFFFFF⟩,
  ⟨0xA001C, 1, 0x4, 1, 0x4, 0x1⟩,
  ⟨0xA0038, 1, 0x4, 1, 0x4, 0x3A98⟩,
  ⟨0xA003C, 1, 0x4, 1, 0x4, 0x558C00⟩]

/-- Every register whose reset value is not zero. -/
def resetRows : List ResetRow :=
  resetRows0 ++ resetRows1

/-- The value a register holds after reset; 0 where no row gives another. -/
def resetOf (a : Nat) : Word :=
  match resetRows.find? (fun r => r.hit a) with
  | some r => BitVec.ofNat 32 r.value
  | none => 0#32

/-- The first instances of the counters: RW registers that hardware counts in. -/
def counterBases : List Nat :=
  [0x100044, 0x100104, 0x100108, 0x10010C, 0x102014, 0x102124, 0x102128, 0x10212C, 0x102130, 0x102134,
   0x104028, 0x10402C, 0x104114, 0x104118, 0x10600C, 0x106110, 0x10621C, 0x300014, 0x300018, 0x302044,
   0x302048, 0x30204C, 0x400030, 0x400038, 0x40010C, 0x401018, 0x40101C, 0x500160, 0x600018, 0x60001C,
   0x60012C, 0x10802C, 0x108030, 0x108034, 0x108038, 0x10803C, 0x108040, 0x108044, 0x700060, 0x700408,
   0x701004, 0x701008, 0x10A104, 0x10A108, 0x10A10C, 0x800104, 0x800108, 0x80010C, 0x901008, 0x90100C,
   0x90111C, 0x20048, 0x80108, 0x8010C, 0x80110, 0x38, 0x60028, 0x60040, 0x90018, 0xA0030,
   0x10018]

/-- The row of the register at an address, if the register space holds one there (R365). -/
def regRowAt (a : Nat) : Option RegRow := regRows.find? (fun r => r.hit a)

end Sys2Proof.Machine
end

