-- ==== Sys2Proof/Machine/Bits.lean ====
section
/-!
DEFINITION. Bit fields, integers and bytes: the small arithmetic every meaning uses (R2, R3), the CRC-32 of R41 and
the rounding of the signal path.
-/

namespace Sys2Proof.Machine

/-- The value of a field in a word (R2). -/
def fieldOf (w : Word) (f : Fld) : Nat := w.toNat / 2 ^ f.lo % 2 ^ f.width

/-- The bits that a field covers. -/
def fieldMask (f : Fld) : Word := BitVec.ofNat 32 ((2 ^ f.width - 1) * 2 ^ f.lo)

/-- The word with a field holding a value, its other bits unchanged; the value is cut to the field's width. -/
def setField (w : Word) (f : Fld) (v : Nat) : Word :=
  (w &&& ~~~(fieldMask f)) ||| BitVec.ofNat 32 (v % 2 ^ f.width * 2 ^ f.lo)

/-- A number as a 32-bit word, wrapping. -/
def w32 (n : Nat) : Word := BitVec.ofNat 32 n

/-- The low word of a pair that holds a 64-bit value. -/
def lo32 (n : Nat) : Word := BitVec.ofNat 32 n

/-- The high word of a pair that holds a 64-bit value. -/
def hi32 (n : Nat) : Word := BitVec.ofNat 32 (n / 2 ^ 32)

/-- The signed value of the low bits of a number, two's complement. -/
def signed (width n : Nat) : Int :=
  let m := n % 2 ^ width
  if m < 2 ^ (width - 1) then (m : Int) else (m : Int) - 2 ^ width

/-- A signed value as an unsigned number of a width, two's complement. -/
def unsigned (width : Nat) (x : Int) : Nat := (x % (2 ^ width : Int)).toNat

/-- A value held between two bounds. -/
def clampInt (lo hi x : Int) : Int := if x < lo then lo else if hi < x then hi else x

/-- A value held between two bounds. -/
def clampNat (lo hi x : Nat) : Nat := if x < lo then lo else if hi < x then hi else x

/-- Round to the nearest integer after a division by 2^s, halves to the even neighbour: the round_conv of the signal
path (Channel conditioning and decimation). -/
def roundConv (x : Int) (s : Nat) : Int :=
  let d : Int := 2 ^ s
  let q := x / d
  let r := x % d
  if r * 2 < d then q
  else if d < r * 2 then q + 1
  else if q % 2 = 0 then q else q + 1

/-- The little-endian bytes of a number (R3). -/
def leBytes : Nat → Nat → List Byte
  | 0, _ => []
  | k + 1, n => BitVec.ofNat 8 n :: leBytes k (n / 256)

/-- The number that little-endian bytes hold (R3). -/
def leNat : List Byte → Nat
  | [] => 0
  | b :: t => b.toNat + 256 * leNat t

/-- One bit of the CRC-32: the register after a shift with the reflected polynomial. -/
def crcBit (c : BitVec 32) : BitVec 32 :=
  if c.getLsbD 0 then (c >>> 1) ^^^ 0xEDB88320#32 else c >>> 1

/-- One byte of the CRC-32. -/
def crcByte (c : BitVec 32) (b : Byte) : BitVec 32 :=
  let c0 := c ^^^ b.setWidth 32
  crcBit (crcBit (crcBit (crcBit (crcBit (crcBit (crcBit (crcBit c0)))))))

/-- The CRC-32 of R41 over bytes. -/
def crc32 (bs : List Byte) : BitVec 32 := ~~~(bs.foldl crcByte 0xFFFFFFFF#32)

/-- Set bit n of a word. -/
def setBitW (w : Word) (n : Nat) : Word := w ||| BitVec.ofNat 32 (2 ^ n)

/-- Clear bit n of a word. -/
def clrBitW (w : Word) (n : Nat) : Word := w &&& ~~~(BitVec.ofNat 32 (2 ^ n))

/-- A count held at a largest value. -/
def satAdd (limit a b : Nat) : Nat := if limit < a + b then limit else a + b

/-- The numbers below n, in order. -/
def upTo (n : Nat) : List Nat := List.range n

end Sys2Proof.Machine
end

