-- ==== Sys2Proof/Machine/UnitsBase.lean ====
section
/-!
DEFINITION. State parts shared by every block: what leaves the device (Out), the error log (R466 to R469), the
configuration journal (R420, R421), the dictionary side of CAN (R389 to R403), run control (R16 to R26), and the power
manager, Paddock and the monitors' hidden state.
-/

namespace Sys2Proof.Machine

/-- The secure firmware on hart 0, which serves the dictionary (R385). -/
def firmware : Src := ⟨true, 0⟩

/-- SRC as bits [3:0]: DOM in [0], hart in [3:1] (R376). -/
def srcCode (r : Src) : Nat := (if r.secure then 1 else 0) + 2 * (r.hart % 8)

/-- Completion status of a Hitch request (R376, R377). -/
inductive Status where
  | ok
  | busErr
  | decodeErr
  | retry
  deriving DecidableEq, Repr

/-- What the device sends out, one constructor per interface; State.outs lists them, newest first. -/
inductive Out where
  /-- A message interrupt to the host die, with its vector (R382). -/
  | msgi (vector : Nat)
  /-- A Hitch completion: tag, status and the data words of a read (R376, R377). -/
  | completion (tag : Nat) (status : Status) (data : List Nat)
  /-- A load access fault reported to the core of a hart after the bridge gave up (R377). -/
  | bridgeError (tag : Nat)
  /-- A message sent on a return lane: port, type, tag, payload (R53 to R56). -/
  | linkMessage (port type tag payload : Nat)
  /-- The return lane's generator sends a PRBS pattern, or no longer does: port, on, pattern, inverted (R72, R73). -/
  | retPrbs (port : Nat) (on : Bool) (pattern : Nat) (invert : Bool)
  /-- A write to partner memory by a Harness port: port, address, bytes (R303, R304). -/
  | partnerWrite (port addr : Nat) (bytes : List Byte)
  /-- A read request to partner memory by a Harness port: port, address, bytes (R299, R313, R324). -/
  | partnerRead (port addr len : Nat)
  /-- An MSI-X vector sent to a partner (R315). -/
  | msix (port vector : Nat)
  /-- Completion of a partner read: port, data, or none where it was refused; whether it is poisoned (R301, R311). -/
  | partnerCompletion (port : Nat) (data : Option (List Byte)) (poison : Bool)
  /-- A CAN frame: port, COB-ID, data bytes (R394, R395, R403). -/
  | canFrame (port cobId : Nat) (bytes : List Byte)
  /-- An answer of a USDO server: port, abort code or 0, data (R396). -/
  | usdoAnswer (port abort : Nat) (bytes : List Byte)
  /-- A DisplayPort AUX request: output, command, address, bytes (R213). -/
  | auxRequest (output cmd addr len : Nat) (bytes : List Byte)
  /-- A command given to a bank of an HBM pseudo-channel: 0 REFpb, 1 RFMpb (R178). -/
  | hbmCommand (pc code bank : Nat)
  deriving DecidableEq, Repr

/-- One entry of the error log (R466). -/
structure ErlEntry where
  wt : Nat
  frac : Nat
  sev : Nat
  coalesced : Bool
  isOpen : Bool
  code : Nat
  eseq : Nat
  unit : Nat
  count : Nat
  arg0 : Nat
  arg1 : Nat
  deriving DecidableEq, Repr

/-- A log slot that holds nothing. -/
def ErlEntry.empty : ErlEntry := ⟨0, 0, 0, false, false, 0, 0, 0, 0, 0, 0⟩

/-- The 32 bytes of a log entry (R466). -/
def ErlEntry.bytes (e : ErlEntry) : List Byte :=
  leBytes 8 e.wt ++ leBytes 1 e.frac
    ++ leBytes 1 (e.sev + (if e.coalesced then 4 else 0) + (if e.isOpen then 8 else 0))
    ++ leBytes 2 e.code ++ leBytes 4 e.eseq ++ leBytes 2 e.unit ++ leBytes 2 e.count
    ++ leBytes 4 e.arg0 ++ leBytes 8 e.arg1

/-- An entry that still coalesces: its number and the beat of its latest extension (R468). -/
structure ErlOpen where
  eseq : Nat
  code : Nat
  unit : Nat
  last : Nat
  deriving DecidableEq, Repr

/-- The error log: the 1,024 newest entries by slot, and the entries that coalesce. -/
structure ErlSt where
  entries : Tab ErlEntry
  opens : List ErlOpen
  deriving DecidableEq, Repr

/-- One journal entry (R421). -/
structure JEntry where
  wt : Nat
  frac : Nat
  kind : Nat
  src : Nat
  flags : Nat
  addr : Nat
  value : Nat
  deriving DecidableEq, Repr

/-- The 32 bytes of a journal entry that takes index jseq (R421). -/
def JEntry.bytes (e : JEntry) (jseq : Nat) : List Byte :=
  leBytes 8 e.wt ++ leBytes 1 e.frac ++ leBytes 1 e.kind ++ leBytes 1 e.src ++ leBytes 1 e.flags
    ++ leBytes 4 jseq ++ leBytes 8 e.addr ++ leBytes 8 e.value

/-- One entry of a side source: its stamp (beats and 1/256 beat), its bytes, and for a STAMP entry its input and the beat since power-on in
which it was taken (R283, R358). -/
structure SideEntry where
  wt : Nat
  frac : Nat
  unit : Nat
  bytes : List Byte
  taken : Nat
  deriving DecidableEq, Repr

/-- What the present beat has seen so far: where software and hardware meet a field in one beat, R373 decides by what the field held
before the beat and what hardware did to it in the beat. -/
structure TickSt where
  /-- Warp time as the beat found it, and the registers, with what software has written into counters since. -/
  now0 : Nat
  regs0 : Tab Word
  /-- Bits of flags that hardware has set in this beat, by register. -/
  hits : Tab Word
  /-- Bits of fields that hardware has loaded in this beat, by register. -/
  loads : Tab Word
  /-- W1S bits, by register, that software wrote while the command before was not over, with the requester as the journal codes it. -/
  again : List (Nat × Nat × Nat)
  /-- Journal entries of software that entered the chaining queue in this beat (R420). -/
  soft : Nat
  deriving DecidableEq, Repr

/-- The first beat: every register holds its reset value. -/
def TickSt.init : TickSt := ⟨0, [], [], [], [], 0⟩

/-- What has made a run command pending or taken in the present beat (R19 to R24). -/
structure RunSt where
  /-- Beat in which the ARM in progress began (GLB_RUN.BUSY is 1 while it is held). -/
  armSince : Option Nat
  /-- A timed start is pending; a start takes place with the next beat (R21). -/
  timedStart : Bool
  startNext : Bool
  /-- ABORT was accepted in this stop: held records are discarded (R23). -/
  aborting : Bool
  /-- Warp times of the latest run start and run stop (R22, R423), and their beats since power-on. -/
  startWt : Nat
  stopWt : Nat
  startBeat : Nat
  stopBeat : Nat
  /-- Software STOP or ABORT last accepted: its code and the beat (R24). -/
  softStop : Option (Nat × Nat)
  /-- Beat of the latest FATAL entry that acted as STOP (R24). -/
  fatalAt : Option Nat
  /-- The run manifest of the run that is stopping: 0 not begun, 1 being signed, 2 waiting for room, 4 begun again at a brownout's end, 3 pushed or not
  made (R23, R423). -/
  manifest : Nat
  /-- By kind of degradation, the unit that its onset named (R31). -/
  degUnits : Tab Nat
  deriving DecidableEq, Repr

/-- Run control after reset. -/
def RunSt.init : RunSt := ⟨none, false, false, false, 0, 0, 0, 0, none, none, 0, []⟩

/-- A Hitch request to a register, a window or a bit alias: who makes it, its tag, its direction, its size in bytes, its
address and what it writes (R376); what the ECC of a Shuttle memory finds in the word it reads (R267). -/
structure HitchReq where
  src : Src
  tag : Nat
  write : Bool
  size : Nat
  addr : Nat
  data : Nat
  ecc : Ecc
  /-- The bytes of a write of HBM, as far as they are enabled (R368). -/
  bytes : List (Option Byte)
  deriving DecidableEq, Repr

/-- A request that was answered with RETRY and that the bridge issues again (R377): how often it has, and the beat of the last
answer. -/
structure Retry where
  req : HitchReq
  tries : Nat
  since : Nat
  deriving DecidableEq, Repr

/-- The Hitch bridge and the boot sequence (R374 to R387). -/
structure HitchSt where
  /-- High words latched, by high-word address and requester (R369). -/
  shadows : Tab Word
  retries : List Retry
  /-- A write that waits for room in the Bridle's chaining queue, and the requests behind it, oldest first (R378, R420). -/
  held : List HitchReq
  /-- HBM requests in progress that the bridge has answered itself, because the link was lost (R375). -/
  answered : List Nat
  /-- Bits of UCIe modules in operation, and the lost-link flag (R374, R375). -/
  modulesUp : Nat
  linkLost : Bool
  /-- Link errors counted for packets of a reserved TYPE (R376). -/
  linkErrors : Nat
  /-- Beat at which the present boot stage began (R386, R387). -/
  stageSince : Nat
  deriving DecidableEq, Repr

/-- The bridge after reset. -/
def HitchSt.init : HitchSt := ⟨[], [], [], [], 0, false, 0, 0⟩

/-- A segmented USDO transfer that is open on a port (R396). -/
structure UsdoOpen where
  download : Bool
  index : Nat
  sub : Nat
  bytes : List Byte
  expected : Nat
  since : Nat
  client : Nat
  deriving DecidableEq, Repr

/-- One EMCY: code, condition, run state, unit, beat count (R395). -/
structure Emcy where
  code : Nat
  condition : Nat
  state : Nat
  unit : Nat
  wt : Nat
  deriving DecidableEq, Repr

/-- One TPDO's communication object (R403). -/
structure TpdoObj where
  cobId : Nat
  ttype : Nat
  inhibit : Nat
  event : Nat
  deriving DecidableEq, Repr

/-- The reset object of TPDO k + 1 (R403). -/
def TpdoObj.init (nodeId k : Nat) : TpdoObj :=
  ⟨0x180 + 0x100 * k + nodeId, 0xFE, 10, if k = 1 then 5000 else 1000⟩

/-- A port's sending of one TPDO: the beat its event timer started, whether it was sent since the port became Operational, and the
mapped values last seen (R403). -/
structure TpdoTx where
  since : Nat
  sent : Bool
  seen : List Byte
  deriving DecidableEq, Repr

/-- Nothing sent. -/
def TpdoTx.init : TpdoTx := ⟨0, false, []⟩

/-- One CAN port (R389 to R403). nmt: 0 initialising, 5 Operational, 4 Stopped, 127 Pre-operational (the CiA 1301
heartbeat codes). -/
structure CanPort where
  nmt : Nat
  tpdo : Tab TpdoTx
  /-- ADDRESS of object 0x2F00 (R402). -/
  address : Nat
  usdo : Option UsdoOpen
  /-- EMCYs held back by the inhibit time, oldest first, and the beat of the last one sent. -/
  held : List Emcy
  lastEmcy : Option Nat
  /-- Conditions of the error register that are active: (code, register bit). -/
  active : List (Nat × Nat)
  /-- The beat of the latest heartbeat or boot-up message. -/
  lastBeat : Nat
  /-- Rates in force: nominal, data. -/
  nomRate : Nat
  dataRate : Nat
  deriving DecidableEq, Repr

/-- A CAN port after reset. -/
def CanPort.init : CanPort := ⟨0, [], 0, none, [], none, [], 0, 2, 1⟩

/-- A dictionary request that the firmware has taken and not answered: port, client, entry, the data of a write; where the bridge issues its
register access again, how often it has and the beat of the latest RETRY (R377, R397). -/
structure DictReq where
  port : Nat
  client : Nat
  index : Nat
  sub : Nat
  data : Option (List Byte)
  retry : Option (Nat × Nat)
  deriving DecidableEq, Repr

/-- The dictionary objects both ports share (R390, R394, R395, R399, R402). -/
structure DictSt where
  inhibitEmcy : Nat
  heartbeat : Nat
  usdoTimeout : Nat
  stopLink0 : Bool
  stopLink1 : Bool
  abortedWrites : Nat
  nodeFlags : Nat
  nodeId : Nat
  nomRate : Tab Nat
  dataRate : Tab Nat
  portEn : Nat
  cobEmcy : Nat
  /-- The error field 0x1003, newest first. -/
  history : List Nat
  tpdo : Tab TpdoObj
  autoInc : Bool
  severe : Nat
  gaps : Nat
  attestReport : List Byte
  sessionIn : List Byte
  sessionOut : List Byte
  /-- Requests not answered, oldest first (R397). -/
  waiting : List DictReq
  /-- The Vendor ID and the values of object 0x2102 that boot took from Farrier's records (R389, R432). -/
  vendorId : Nat
  comm : List Nat
  deriving DecidableEq, Repr

/-- The dictionary after reset (R389, R394, R395, R399). -/
def DictSt.init : DictSt :=
  ⟨10, 1000, 1000, false, false, 0, 0, 0, [], [], 3, 0x80, [], [], false, 0, 0, [], [], [], [], 0, [2, 2, 1, 1, 3]⟩

/-- The power manager's and the reset controller's hidden state (R454 to R462, R470). -/
structure PwrSt where
  /-- A domain in transition: its number, true for a power-up, and the beat it began (R456). -/
  moving : Option (Nat × Bool × Nat)
  /-- The beat in which the rail of the domain that powers up has closed, and the RETRYs it has given since (R380, R456). -/
  railAt : Option Nat
  updRetries : Nat
  /-- Entry warp time of a VSTBY brownout, and of the brownout of each VIO bank with the beat of that entry, while it lasts (R459, R460). -/
  brownout : Option Nat
  vio : Tab (Option (Nat × Nat))
  /-- Stamps already popped in a bank's brownout: first, last, their number (R460). -/
  suspects : Tab (Nat × Nat × Nat)
  /-- NRESET is low; PWR_OK is low; the hold after a THERMAL reset (R461, R484). -/
  nresetLow : Bool
  pwrOkLow : Bool
  thermalHold : Bool
  /-- CANID0 to CANID6 as sampled at the latest release of NRESET, until boot takes the node-ID from them (R391). -/
  canid : Option Nat
  /-- Equivalent seconds in 2^-16 s and powered seconds not yet in the registers, which count 225 s (R470). -/
  ageAcc : Nat
  poweredAcc : Nat
  ageWarned : Bool
  driftWarned : Bool
  /-- The beat of the latest POWER_ON reset: no brownout starts in it (R458). -/
  porAt : Option Nat
  deriving DecidableEq, Repr

/-- The power manager after POWER_ON: NRESET is still low (R457). -/
def PwrSt.init : PwrSt := ⟨none, none, 0, none, [], [], true, false, false, none, 0, 0, false, false, none⟩

/-- The result of the latest test of a unit (R465). -/
structure PdkRes where
  sig : Nat
  expected : Nat
  memInfo : Nat
  repair : Nat
  deriving DecidableEq, Repr

/-- A unit never tested. -/
def PdkRes.none : PdkRes := ⟨0, 0, 0, 0⟩

/-- Paddock: the units still under test, in which mode, the RETRYs given for each of them, and the latest results (R380, R463
to R465). -/
structure PdkSt where
  running : List Nat
  mode : Nat
  anyFail : Bool
  retries : Tab Nat
  results : Tab PdkRes
  deriving DecidableEq, Repr

/-- Paddock after reset. -/
def PdkSt.init : PdkSt := ⟨[], 0, false, [], []⟩

end Sys2Proof.Machine
end

