-- ==== Sys2Proof/Machine/UnitsCal.lean ====
section
/-!
DEFINITION. State parts of Farrier (R428 to R438), of the monitor net (R439 to R443) and of Tack (R444 to R450).
-/

namespace Sys2Proof.Machine

/-- A programming under way: its slot, its 256 bytes, and the pseudo-channel it records where it is automatic (R433,
R434). -/
structure FarProg where
  slot : Nat
  bytes : List Byte
  auto : Option Nat
  deriving DecidableEq, Repr

/-- What a channel of the signal statistics has counted: n, s1, s2, and whether its count is over (R437). -/
structure StatSum where
  n : Nat
  s1 : Int
  s2 : Nat
  done : Bool
  deriving DecidableEq, Repr

/-- Nothing counted. -/
def StatSum.init : StatSum := ⟨0, 0, 0, false⟩

/-- Farrier. -/
structure FarSt where
  /-- The used slots of the store, 256 bytes each; a slot not listed has no bit programmed (R428). -/
  slots : Tab (List Byte)
  stage : Tab Byte
  prog : Option FarProg
  /-- Retirements that wait for an automatic record, pseudo-channel by pseudo-channel (R434). -/
  waiting : List Nat
  /-- Slots of aborted programmings, whose VOID is programmed at the brownout's exit (R435). -/
  voidDue : List Nat
  /-- The signal statistics: FAR_STATS_CFG as latched at run start, the masked channels with their sums (R437). -/
  statsCfg : Word
  stats : Tab (Option StatSum)
  /-- Channels whose OK result waits to be applied. -/
  toApply : List Nat
  /-- The slot programmed last and the beat its programming ended in: it counts as written from the next beat (R433). -/
  lastDone : Option (Nat × Nat)
  deriving DecidableEq, Repr

/-- Farrier with an empty store. -/
def FarSt.init : FarSt := ⟨[], [], none, [], [], 0#32, [], [], none⟩

/-- The monitor net: thermal monitors that take a new MON_TRIM record's trim at their next conversion, and the beat in
which the programming of one ended that counts as written from the next (R432, R433); by thermal monitor a trim that a
write has replaced in the present beat, with the beat (R443); by voltage monitor the readings in a row outside and inside
its window (R441). -/
structure MonSt where
  trimDue : List Nat
  trimNew : Option Nat
  trimOld : Tab (Nat × Nat)
  outRun : Tab Nat
  inRun : Tab Nat
  deriving DecidableEq, Repr

/-- The monitor net after reset. -/
def MonSt.init : MonSt := ⟨[], none, [], [], []⟩

/-- A group of conversions in progress: injected or regular, its first entry, how many, its sampling instant with its fraction and its
beat (R445, R448). -/
structure TckGroup where
  injected : Bool
  first : Nat
  count : Nat
  wt : Nat
  frac : Nat
  since : Nat
  deriving DecidableEq, Repr

/-- A calibration under way: input, converter, step; none of its conversions has begun while it waits (R449). -/
structure TckCal where
  input : Nat
  conv : Nat
  step : Nat
  begun : Option Nat
  deriving DecidableEq, Repr

/-- Tack. -/
structure TckSt where
  /-- The next entry of a sequence that runs. -/
  regNext : Option Nat
  injNext : Option Nat
  group : Option TckGroup
  /-- STOP waits for the group in progress. -/
  stopping : Bool
  cal : Option TckCal
  /-- Regular sequences since START. -/
  seqCount : Nat
  /-- The input corrections and the converter trims in force since the latest regular-sequence start (R449). -/
  corr : Tab (Int × Nat)
  trims : List (Int × Nat)
  /-- Inputs whose correction in the TACK_CAL record in force is loaded at the next regular-sequence start, and the beat in which the programming
  of a record ended that counts as written from the next (R432, R433). -/
  corrDue : List Nat
  corrNew : Option Nat
  /-- By input, the Z and G words that a write has replaced in the present beat, with the beat (R449). -/
  corrOld : Tab (Nat × Nat × Nat)
  /-- The beat of the writer's latest bus error (R450). -/
  wrErrAt : Option Nat
  deriving DecidableEq, Repr

/-- Tack after reset: no correction. -/
def TckSt.init : TckSt := ⟨none, none, none, false, none, 0, [], [], [], none, [], none⟩

end Sys2Proof.Machine
end

