-- ==== Sys2Proof/Machine/UnitsClk.lean ====
section
/-!
DEFINITION. State parts of the clock unit and warp time (R332 to R351), and of the Hoofbeat inputs (R352 to R359).
-/

namespace Sys2Proof.Machine

/-- A sync event that waits for its beat W: the beat, and what STP_SYNC_CFG directed when it was registered, both 0 where
ONESHOT was not armed (R346, R347). -/
structure SyncWait where
  beat : Nat
  divAct : Nat
  wrpAct : Nat
  deriving DecidableEq, Repr

/-- The clock unit and warp time. -/
structure ClkSt where
  /-- The relock under way: 0 none, 1 it waits for REFIN, 2 the PLL retunes, 3 lock is held (R335); the beat this
  began, whether it goes to REFIN, and the warp time at which the clocks stopped. -/
  stage : Nat
  since : Nat
  toRefin : Bool
  stopWt : Nat
  /-- Beat in which the present holdover began, and whether its limit has been logged (R337, R338). -/
  holdSince : Nat
  holdLogged : Bool
  /-- The clocks are stopped for a snap by this phase error, 1/256 beat (R341). -/
  snap : Option Int
  /-- Sync events on their way to their beat W, oldest first. -/
  syncs : List SyncWait
  /-- An accepted LOAD: its value and its target beat (R350). -/
  load : Option (Nat × Nat)
  /-- The beat at which the divider of an output was restarted at phase 0; none while its phase is not defined (R345,
  R347). -/
  phases : Tab (Option Nat)
  /-- STP_CFG.REF_TOL as the latest relock took it (R332, R360). -/
  refTol : Nat
  /-- The root's frequency while it follows REFIN, as an offset from STP_REF_NOM in parts per 10^9: what was measured in the last 16 ms
  and the measurement before, each with its beat, latest first; and the frequency of the present holdover (R337, R339). -/
  freqs : List (Nat × Int)
  holdPpb : Int
  deriving DecidableEq, Repr

/-- The clock unit at power-up: the relock on the crystal is under way (R334). -/
def ClkSt.init : ClkSt := ⟨2, 0, false, 0, 0, false, none, [], none, [], 100, [], 0⟩

/-- A Hoofbeat input (R352 to R358). -/
structure HfbIn where
  /-- When the latest stamped edge arrived, 1/256 beat of the beats since power-on. -/
  lastAt : Option Nat
  /-- Input edges since the prescaler's latest output (R352, R355). -/
  scaled : Nat
  /-- Edges since the latest one that decimation let through. -/
  skipped : Nat
  /-- What the next stamp carries: DROP_BEFORE, DEAD_BEFORE, WARP_STEP. -/
  dropBefore : Bool
  deadBefore : Bool
  warpStep : Bool
  /-- The calibration table, complete or not, and the table in force since run start (R354). -/
  table : List Nat
  inForce : List Nat
  deriving DecidableEq, Repr

/-- An input that has seen no edge and was never calibrated. -/
def HfbIn.init : HfbIn := ⟨none, 0, 0, false, false, false, [], []⟩

/-- The Hoofbeat block: its inputs, and the inputs that the calibration under way covers (R354). -/
structure HfbSt where
  inputs : Tab HfbIn
  calibrating : List Nat
  deriving DecidableEq, Repr

/-- Hoofbeat after reset. -/
def HfbSt.init : HfbSt := ⟨[], []⟩

end Sys2Proof.Machine
end

