-- ==== Sys2Proof/Machine/UnitsHns.lean ====
section
/-!
DEFINITION. State parts of the Harness ports (R297 to R315) and of Spindle (R316 to R329).
-/

namespace Sys2Proof.Machine

/-- An entry written into a partner ring and not covered by a notification that was transmitted (R303, R308). -/
structure RingEntry where
  len : Nat
  stream : Nat
  seq : Nat
  at_ : Nat
  deriving DecidableEq, Repr

/-- A notification that was sent and is not transmitted in full: its WR, and how many entries it covers (R304). -/
structure Notice where
  wr : Nat
  covers : Nat
  deriving DecidableEq, Repr

/-- A partner ring, beyond the registers that mirror it (R302 to R308). -/
structure PRing where
  /-- WR_W; entries written since EN; entries not notified in full, oldest first. -/
  written : Nat
  entries : Nat
  open_ : List RingEntry
  /-- A notification is due; one is outstanding; the WR and the count of the last one transmitted in full. -/
  due : Bool
  out : Option Notice
  sentWr : Nat
  sentCount : Nat
  /-- LOSS and a stall since the previous notification; RING_LOST; RING_STAT.CFG_BAD. -/
  lossSince : Bool
  stallSince : Bool
  lost : Nat
  cfgBad : Bool
  deriving DecidableEq, Repr

/-- A ring as at the reset of its port. -/
def PRing.init : PRing := ⟨0, 0, [], false, none, 0, 0, false, false, 0, false⟩

/-- A Harness port: its rings; the words of its partner page that the partner stores, by offset; the high words that a read
latched, by the offset of the low word; the doorbell Quill and PP_STATUS.DB_OVERFLOW; MSI-X pending bits; the settings in
force (R298, R300, R314, R315). -/
structure PPort where
  rings : Tab PRing
  page : Tab Word
  latched : Tab Word
  door : List Half
  doorOver : Bool
  pba : Word
  cfg : Word
  /-- The function mask of MSI-X, as the partner has set it (R315). -/
  msixMask : Bool
  /-- Whose turn it was: the engine whose entry was taken last; the engine whose entry is partly written, between the memory writes of a PRIO 1
  channel, and how many of its memory writes have gone; the latest memory write was Spindle's (R303, R308, R326). -/
  lastEngine : Nat
  entryEngine : Option Nat
  entryTlps : Nat
  spinLast : Bool
  deriving DecidableEq, Repr

/-- A port as at its reset, with the reset value of HNS_PORT_CFG in force (R298, R330). -/
def PPort.init : PPort := ⟨[], [], [], [], false, 0#32, 0x00001296#32, false, 31, none, 0, true⟩

/-- A loop level of a channel: its count and the address of its LOOP (R322). -/
structure SpnLoop where
  count : Nat
  addr : Nat
  deriving DecidableEq, Repr

/-- An instruction as fetched: W0, W1, W2 (R319). -/
structure SpnIns where
  w0 : Nat
  w1 : Nat
  w2 : Nat
  deriving DecidableEq, Repr

/-- The instruction that a channel has begun and has not ended: a MOVE with the bytes moved; a WAIT with the beat it began,
the beat of its latest poll and whether a poll met its condition; a SIGNAL that waits for its flush; an END it is parked on
(R318, R320, R323 to R325). -/
inductive SpnWork where
  | move (i : SpnIns) (done : Nat)
  | wait (i : SpnIns) (since : Nat) (polled : Option Nat) (met : Bool)
  | signal (i : SpnIns)
  | parked
  deriving DecidableEq, Repr

/-- A Spindle channel beyond its registers (R317 to R328). -/
structure SpnCh where
  work : Option SpnWork
  loop0 : Option SpnLoop
  loop1 : Option SpnLoop
  /-- SPN_CH_PC was written since the stop (R318). -/
  pcWritten : Bool
  /-- HALT or STOP waits for the element boundary. -/
  haltAsked : Bool
  stopAsked : Bool
  /-- For each port, the partner bus address last written since the latest SIGNAL (R324). -/
  touched : Tab Nat
  /-- The beat in which the element, poll or flush in work could first ask its partner for data (R299). -/
  asked : Nat
  /-- The power manager asked it to quiesce: the beat and the domain (R328). -/
  quiesce : Option (Nat × Nat)
  /-- State before PAUSED_DOMAIN, and the domain it waits for. -/
  pausedIn : Option (Nat × Nat)
  /-- The beat in which HALT stopped it at once, and the state it was in; the beat of the latest STOP; the beat of the latest POKE (R325,
  R329). -/
  halted : Option (Nat × Nat)
  stopped : Option Nat
  poked : Option Nat
  /-- The latest POKE came with a register write, which waited for its requester's writes itself (R325, R378). -/
  pokeFree : Bool
  deriving DecidableEq, Repr

/-- A channel after reset. -/
def SpnCh.init : SpnCh := ⟨none, none, none, false, false, false, [], 0, none, none, none, none, none, false⟩

/-- The channels of Spindle that were served last: of PRIO 0 and of PRIO 1 (R326). -/
structure SpnTurns where
  last0 : Nat
  last1 : Nat
  deriving DecidableEq, Repr

/-- Channel 0 comes first after a reset. -/
def SpnTurns.init : SpnTurns := ⟨63, 63⟩

end Sys2Proof.Machine
end

