-- ==== Sys2Proof/Machine/UnitsCond.lean ====
section
/-!
DEFINITION. State parts of the channel conditioners (R76 to R101).
-/

namespace Sys2Proof.Machine

/-- A sample in an alignment store: its warp time in 1/256 beat, its grid position, its code, its flags (R76, R98), the beat in
which its frame is whole (R22), and the stride it was taken at (R43). -/
structure Samp where
  stamp : Int
  pos : Int
  code : Int
  ovr : Bool
  taint : Bool
  whole : Nat
  stride : Nat
  deriving DecidableEq, Repr

/-- An output of a tap: its stamp and grid position, the positions of the oldest and newest input of its span (in the channel's own
count, which no step of warp time moves), real and imaginary value (imaginary 0 at taps C and M), flags (R98), brk: a position is missing between the tap's
output before and this one; and when it was taken, in 1/256 beat of the beats since power-on, which no step of warp time
moves. -/
structure TapSamp where
  stamp : Int
  pos : Int
  lo : Int
  hi : Int
  re : Int
  im : Int
  ovr : Bool
  sat : Bool
  taint : Bool
  brk : Bool
  taken : Int
  deriving DecidableEq, Repr

/-- Capture words on their way to the Bobbin: the beat of their release at the capture tap, whether they come from tap
Z, the distance to the position before them at the stride they were taken at, and the output they carry (R81, R82, R172). -/
structure CapWord where
  due : Nat
  zoom : Bool
  per : Nat
  samp : TapSamp
  deriving DecidableEq, Repr

/-- Positions of a channel in its own count: from first to last in equal steps, as the samples of one lane frame lie; a lane of a gang
brings every second or fourth one (R45). -/
structure Stretch where
  first : Int
  last : Int
  step : Nat
  deriving DecidableEq, Repr

/-- A position of the stretch lies from lo to hi. -/
def Stretch.meets (x : Stretch) (lo hi : Int) : Bool :=
  let d : Int := max 1 x.step
  let p := if lo ≤ x.first then x.first else x.first + (lo - x.first + d - 1) / d * d
  decide (p ≤ hi) && decide (p ≤ x.last)

/-- One position. -/
def Stretch.one (p : Int) : Stretch := ⟨p, p, 1⟩

/-- A flagged stretch of inputs, and its kind: 0 overrange, 1 saturation, 2 taint (R98). -/
structure Mark where
  at_ : Stretch
  kind : Nat
  deriving DecidableEq, Repr

/-- A channel's conditioner. -/
structure CondCh where
  store : List Samp
  /-- What of the samples on their way to the store is still to show: the beat in which one comes, and 0 where it is stored, 1 where it is
  late, 2 where it is early; only the first of several alike in a row (R79). -/
  arrivals : List (Nat × Nat)
  /-- The latest sample that came was late or early, and there was no alignment since (R79). -/
  missed : Bool
  /-- The stride of the samples that tap A releases (R43, R102). -/
  stride : Nat
  /-- How far steps of warp time have moved grid positions: a position of the channel's own count is a grid position less this
  (R76, R98). -/
  shift : Int
  /-- Grid position and stamp of the latest position that tap A has released or found missing, samples released in a row without a
  missing one, and positions missing in a row. -/
  last : Option Int
  lastT : Int
  contig : Nat
  miss : Nat
  /-- OFFSET and GAIN as they were before the latest run start loaded them (R86). -/
  prior : Option (Int × Nat)
  /-- The latest outputs of tap C, newest first: the rank window (R87). -/
  window : List TapSamp
  /-- Integrators and combs of the CIC, I and Q, modulo 2^79 (R91). -/
  integI : List Int
  integQ : List Int
  combI : List Int
  combQ : List Int
  /-- Inputs of the FIR, newest first (R92). -/
  fir : List (Int × Int)
  marks : List Mark
  /-- First and last stamp of outputs suppressed in a row at taps M and Z (R99). -/
  supM : Option (Int × Int)
  supZ : Option (Int × Int)
  /-- A position is missing since the latest output of tap M, or of tap Z. -/
  brkM : Bool
  brkZ : Bool
  /-- Taps M and Z have delivered an output since ARM (R101). -/
  readyM : Bool
  readyZ : Bool
  capture : List CapWord
  deriving DecidableEq, Repr

/-- Five zeros: the CIC's registers after reset. -/
def five : List Int := [0, 0, 0, 0, 0]

/-- A conditioner that has seen no sample. -/
def CondCh.init : CondCh :=
  ⟨[], [], false, 4, 0, none, 0, 0, 0, none, [], five, five, five, five, [], [], none, none, true, true, false, false, []⟩

/-- The conditioners: the channels, the coefficient memory by slice, set and word (R95), the words of each set rewritten
since an uncorrectable error in it (R97), and whether Λ has been computed for this ARM (R77). -/
structure CondSt where
  chans : Tab CondCh
  coef : Tab Nat
  rewritten : Tab Nat
  lambdaSet : Bool
  deriving DecidableEq, Repr

/-- The conditioners after reset. -/
def CondSt.init : CondSt := ⟨[], [], [], false⟩

end Sys2Proof.Machine
end

