-- ==== Sys2Proof/Machine/UnitsLink.lean ====
section
/-!
DEFINITION. State parts of the Linkai ports: a lane's receiver and a port's bring-up, messages, gap and power
(R35 to R74, R489).
-/

namespace Sys2Proof.Machine

/-- A frame taken on a lane whose CRC result is not yet known (R42). -/
structure InFlight where
  /-- Extended index under which its samples were delivered, or would be. -/
  index : Nat
  crcGood : Bool
  markerGood : Bool
  training : Bool
  indexGood : Bool
  /-- The frame's own index, extended. -/
  ownIndex : Nat
  delivered : Bool
  /-- The lane lost its locks after the frame was taken: the result counts and taints, and decides nothing more (R11, R42). -/
  stale : Bool
  /-- The frame was taken in VERIFY (R60). -/
  verify : Bool
  /-- The channel it feeds, the positions of its samples there, in the conditioner's own count, and how many of them entered the store
  (R83). -/
  chan : Nat
  at_ : Stretch
  kept : Nat
  /-- The beat in which the frame is whole (R22). -/
  whole : Nat
  deriving DecidableEq, Repr

/-- A PRBS checker and the near-end generator of its lane (R72 to R74): the last 31 bits of the pattern, newest in bit 0, and how
many have come; correct bits in a row while it has no lock; the last 64 bits since lock, 1 for a wrong one; the generator's last
31 bits; whether an injection of MODE 4 goes on, and the bits since it began. -/
structure PrbsSt where
  hist : Nat
  seen : Nat
  good : Nat
  wrong : Nat
  gen : Nat
  errs : Bool
  count : Nat
  deriving DecidableEq, Repr

/-- A checker that has seen nothing; the generator starts from ones. -/
def PrbsSt.init : PrbsSt := ⟨0, 0, 0, 0, 2 ^ 31 - 1, false, 0⟩

/-- A lane of a port. -/
structure LaneSt where
  /-- The last 58 scrambled bits received, newest in bit 0, and how many have been received (to 58) (R36). -/
  descr : Nat
  descrBits : Nat
  /-- The payload of the latest block, descrambled, and whether it was discarded (R36). -/
  payload : Nat
  payloadOk : Bool
  /-- The latest block was a control block; the next block is the first after block lock was gained (R35, R36). -/
  control : Bool
  skip : Bool
  /-- Blocks and invalid headers of the window of 64 blocks; valid headers in a row (R68). -/
  winBlocks : Nat
  winBad : Nat
  goodHdrs : Nat
  /-- Frames in a row without, and with, a valid marker (R68). -/
  badMarks : Nat
  goodMarks : Nat
  /-- The index predicted for the next frame, extended to 64 bits (R48, R49). -/
  pred : Option Nat
  /-- The latest extended index that a good frame, or the reference frame, gave: the upper bits follow from it (R49). -/
  ref : Option Nat
  /-- The lane's frames are delivered: since ALIGN, or after a step since its first good frame (R64). -/
  live : Bool
  /-- CRC-good frames in a row that disagree with the prediction, and the index the next would have to agree (R48). -/
  misRun : Nat
  misNext : Nat
  flight : List InFlight
  /-- Failed frames of the window, and the beat its window began (R64). -/
  fails : Nat
  failSince : Nat
  /-- Clean frames counted in VERIFY (R60). -/
  clean : Nat
  convFault : Bool
  /-- The pending injection: 1 sample bit, 2 header, 3 marker (R74). -/
  inject : Nat
  /-- The PRBS checker and the near-end generator (R72 to R74). -/
  prbs : PrbsSt
  deriving DecidableEq, Repr

/-- A lane after reset. -/
def LaneSt.init : LaneSt :=
  ⟨0, 0, 0, false, false, false, 0, 0, 0, 0, 0, none, none, false, 0, 0, [], 0, 0, 0, false, 0, PrbsSt.init⟩

/-- A message of the return lane (R53 to R57). -/
structure LinkMsg where
  mtype : Nat
  payload : Nat
  tag : Nat
  software : Bool
  resends : Nat
  sent : Nat
  deriving DecidableEq, Repr

/-- What a port does once LOCK or VERIFY has ended (R60, R64, R69). -/
inductive LockFor where
  /-- The first LOCK of a bring-up: CAP follows. -/
  | cap
  /-- VERIFY at the present speed follows, and a climb, a fallback or a run-time step with it. -/
  | verify
  /-- A wake from DOZE: ACTIVE follows. -/
  | wake
  deriving DecidableEq, Repr

/-- A Linkai port beyond its registers. -/
structure PortSt where
  /-- Bring-up attempt, 1 to 3; 0 while none runs (R61). -/
  attempt : Nat
  /-- Beat in which the present phase began (R62). -/
  since : Nat
  /-- Beat since which the return lane is OFF, data and clock idle (R489). -/
  offSince : Option Nat
  /-- Beat in which a failed attempt began its 100 µs wait (R61). -/
  waiting : Option Nat
  lockFor : LockFor
  /-- The target speed, the speed that a fallback VERIFY settles at, the layout in force (R60). -/
  target : Nat
  fallback : Bool
  layoutLo : Nat
  layoutHi : Nat
  wantSpeed : Nat
  wantLo : Nat
  wantHi : Nat
  layoutDone : Bool
  /-- A recovery: it climbs no higher than the speed held before (R66). -/
  recovery : Bool
  cap : Nat
  /-- A run-time step is under way (R64). -/
  stepping : Bool
  /-- The run is a diagnostic bring-up (R63). -/
  diag : Bool
  /-- Only ALIGN is to be run (R63). -/
  alignOnly : Bool
  /-- INDEX_LOAD was acknowledged or is not needed (R62). -/
  indexReady : Bool
  /-- This ARM's ALIGN of the port is done (R77). -/
  alignedArm : Bool
  /-- Version seen in STATUS and the capability words of the CAP exchange (R58). -/
  seenVersion : Nat
  caps : Tab Nat
  /-- Forwarded clock lost (R68). -/
  clkLost : Bool
  tag : Nat
  outstanding : Option LinkMsg
  devQueue : List LinkMsg
  software : Option LinkMsg
  /-- Samples are being delivered, the stamp of the latest one and its distance to the next (1/256 beat), and an open gap's first
  missing stamp (R67). -/
  delivering : Bool
  lastStamp : Option Int
  lastStep : Nat
  gap : Option Int
  /-- e(p) of R77, 1/256 beat. -/
  spread : Nat
  /-- The placement before a recovery, 1/256 beat (R66). -/
  oldPlace : Option Int
  deriving DecidableEq, Repr

/-- A port after reset: everything off (R59). -/
def PortSt.init : PortSt :=
  ⟨0, 0, some 0, none, .cap, 0, false, 0, 0, 0, 0, 0, false, false, 2, false, false, false, false, false, 0, [], false, 1,
   none, [], none, false, none, 0, none, 0, none⟩

end Sys2Proof.Machine
end

