-- ==== Sys2Proof/Machine/UnitsPnl.lean ====
section
/-!
DEFINITION. State parts of the display engine (R211 to R228).
-/

namespace Sys2Proof.Machine

/-- The registers of one layer as a commit took them (R221, R225). -/
structure LayerSet where
  cfg : Word
  pos : Word
  size : Word
  base : Nat
  stride : Word
  deriving DecidableEq, Repr

/-- The registers of one CRC rectangle as a commit took them (R228). -/
structure RectSet where
  corner0 : Word
  corner1 : Word
  expected : Word
  deriving DecidableEq, Repr

/-- The pending registers as a commit took them: eight layers, the background, four rectangles (R225). -/
structure Snapshot where
  layers : List LayerSet
  bg : Word
  rects : List RectSet
  deriving DecidableEq, Repr

/-- The pending registers at their reset values: every layer off (R229). -/
def Snapshot.init : Snapshot :=
  ⟨List.replicate 8 ⟨4#32, 0#32, 0#32, 0, 0#32⟩, 0#32, List.replicate 4 ⟨0#32, 0#32, 0#32⟩⟩

/-- A commit that waits: its snapshot, whether it carries PAL, the beat it took effect, and whether that beat lies at or
after the deadline of the coming blank (R220, R225). -/
structure PendCommit where
  snap : Snapshot
  pal : Bool
  at_ : Nat
  late : Bool
  deriving DecidableEq, Repr

/-- The image slots of a PLANE layer: the slot that holds the newest complete image, and the slot that the frame in
composition reads (R223). -/
structure SlotSt where
  newest : Option Nat
  reading : Option Nat
  deriving DecidableEq, Repr

/-- An output. -/
structure OutputSt where
  /-- The timing generator runs; DISABLE waits for the next blank. -/
  running : Bool
  stopAsked : Bool
  /-- The scan store that is the front (R218). -/
  front : Nat
  /-- The frame in composition, and whether its composition is complete (R226). -/
  composing : Nat
  composed : Bool
  /-- The snapshot in composition, whether its commit carried PAL and has not been flipped, and the commit that waits. -/
  snap : Snapshot
  snapPal : Bool
  commit : Option PendCommit
  slots : Tab SlotSt
  /-- Beat and line from which the current line is reckoned (R217). -/
  lineBeat : Nat
  lineBase : Nat
  /-- Link training in progress: the combinations of rate code and lane count to try, in order (R212). -/
  training : Option (List (Nat × Nat))
  /-- An AUX transaction is with the sink; a GO waits for the end of training; DEFER replies to the transaction so far (R213). -/
  auxBusy : Bool
  auxWaits : Bool
  auxDefers : Nat
  deriving DecidableEq, Repr

/-- An output after reset. -/
def OutputSt.init : OutputSt :=
  ⟨false, false, 0, 0, false, Snapshot.init, false, none, [], 0, 0, none, false, false, 0⟩

/-- The display engine: its outputs; the two scan stores, pixel y × 3,840 + x of store i at i × 2^23 + that; pixels that
read with an uncorrectable error; the pending and active palettes, entry x at x and overlay entry ov at 4,096 + ov; the
copy in progress, with the palette writes that wait for its end; the beat of a PAL command (R218 to R220). -/
structure PnlSt where
  outputs : Tab OutputSt
  stores : Tab Nat
  badPixels : List Nat
  palPending : Tab Nat
  palActive : Tab Nat
  palCopy : Bool
  palWaiting : List (Nat × Nat)
  palAt : Option Nat
  deriving DecidableEq, Repr

/-- The display engine after reset. -/
def PnlSt.init : PnlSt := ⟨[], [], [], [], [], false, [], none⟩

end Sys2Proof.Machine
end

