-- ==== Sys2Proof/Machine/UnitsRec.lean ====
section
/-!
DEFINITION. State parts of the record path (R269 to R293), of the Bridle (R405 to R426) and of the decompressors.
-/

namespace Sys2Proof.Machine

/-- The common header of a fragment, before the Bridle completes it (R273). -/
structure FragHdr where
  rtype : Nat
  stream : Nat
  cls : Nat
  flags : Nat
  run : Nat
  frag : Nat
  seq : Nat
  wt : Nat
  wtFrac : Nat
  enc : Nat
  source : Nat
  rawLen : Nat
  wireLen : Nat
  rate : Nat
  thLen : Nat
  endWt : Nat
  endFrac : Nat
  keyId : Nat
  deriving DecidableEq, Repr

/-- Bytes 0 to 59 of the common header (R273). -/
def FragHdr.bytes60 (h : FragHdr) : List Byte :=
  leBytes 2 0x1932 ++ leBytes 1 1 ++ leBytes 1 h.rtype ++ leBytes 1 h.stream ++ leBytes 1 h.cls
    ++ leBytes 2 h.flags ++ leBytes 4 h.run ++ leBytes 4 h.frag ++ leBytes 8 h.seq ++ leBytes 8 h.wt
    ++ leBytes 1 h.wtFrac ++ leBytes 1 h.enc ++ leBytes 2 h.source ++ leBytes 4 h.rawLen
    ++ leBytes 4 h.wireLen ++ leBytes 2 h.rate ++ leBytes 2 h.thLen ++ leBytes 8 h.endWt
    ++ leBytes 1 h.endFrac ++ leBytes 1 h.keyId ++ leBytes 2 0

/-- The 64 bytes of the common header, HCRC last (R273, R275). -/
def FragHdr.bytes (h : FragHdr) : List Byte :=
  h.bytes60 ++ leBytes 4 (crc32 h.bytes60).toNat

/-- A packet of a record Quill: one fragment, with its common header and its body, and its length slot, which holds beside the length of
these ABORT, CLOSE and the flags to be ORed into the header (R288, R289); the cycle in which the slot was written. -/
structure Packet where
  hdr : FragHdr
  body : List Byte
  poison : Bool
  abort : Bool
  close : Nat
  flags : Nat
  closed : Nat
  deriving DecidableEq, Repr

/-- A packet that its producer waits to push: the producer by number, the stream, and the packet, or none for the next fragment of the open
record that the producer fired in a beat (R288). -/
structure Waiter where
  producer : Nat
  stream : Nat
  fired : Nat
  packet : Option Packet
  deriving DecidableEq, Repr

/-- A packet that is open for writing: its producer, the beat its record was fired in, and the words pushed, the length slot among
them (R288). -/
structure OpenPkt where
  producer : Nat
  fired : Nat
  words : Nat
  deriving DecidableEq, Repr

/-- A record Quill (R286 to R289): the packets it holds, oldest first; the one open for writing; what producers wait to push, each one's in
its order; the producer that had the latest turn; and the sequence number of the record that each producer sends. -/
structure QuillSt where
  packets : List Packet
  opened : Option OpenPkt
  waiting : List Waiter
  last : Nat
  seqs : Tab Nat
  deriving DecidableEq, Repr

/-- An empty Quill. -/
def QuillSt.init : QuillSt := ⟨[], none, [], 0, []⟩

/-- A fragment that left a Skein engine: its header, its body as sent, and once tagged its trailer (R272, R275). -/
structure Fragment where
  hdr : FragHdr
  body : List Byte
  trailer : Option (List Byte)
  /-- The session key under which it was tagged, none for a CRC trailer (R417). -/
  key : Option Nat
  deriving DecidableEq, Repr

/-- A Skein engine: the fragment it holds for the Bridle and the port (R290, R305). -/
structure EngSt where
  held : Option Fragment
  /-- The ring on which its fragment waits has been counted as stalled (R305). -/
  stalled : Bool
  /-- Body bytes taken and emitted beyond the last whole 64-byte unit counted (R296). -/
  rawRest : Nat
  wireRest : Nat
  /-- Records of which a fragment was poisoned and the last has not come: stream and sequence number (R274, R292). -/
  poisoned : List (Nat × Nat)
  deriving DecidableEq, Repr

/-- An idle engine. -/
def EngSt.init : EngSt := ⟨none, false, 0, 0, []⟩

/-- One producing unit of a stream: its source number, its record type, and the end stamp of its last complete unit
(R284). -/
structure UnitEnd where
  source : Nat
  rtype : Nat
  wt : Nat
  frac : Nat
  deriving DecidableEq, Repr

/-- A stream: the next sequence number and the counts of its run-end marker (R270, R284). -/
structure StreamSt where
  seq : Nat
  sent : Nat
  vetoed : Nat
  discStop : Nat
  discAbort : Nat
  sideRefused : Nat
  runEnd : Bool
  runEndSeq : Nat
  ends : List UnitEnd
  fragsSent : Nat
  wireSent : Nat
  keyAtStop : Nat
  deriving DecidableEq, Repr

/-- A stream with nothing sent. -/
def StreamSt.init : StreamSt := ⟨0, 0, 0, 0, 0, 0, false, 0, [], 0, 0, 0⟩

/-- A word of a Quill of single words: 16 bits of a mailbox or a doorbell Quill, or an entry (R289, R314). -/
inductive QuillWord where
  | half (v : Half)
  | entry (e : SideEntry)
  deriving DecidableEq, Repr

/-- What a cycle of FCLK has done to a Quill of words so far (R286, R287): the Quill's depth as the cycle began, the words pushed in the
cycle, which no pop of the cycle returns, and the words whose push found the Quill full, which a pop of the cycle still makes room for. -/
structure QuillTurn where
  depth : Nat
  pushed : Nat
  refused : List QuillWord
  deriving DecidableEq, Repr

/-- A side source: the entries in its Quill, oldest first, entries gathered in its open record with the beat of the
oldest, entries refused since its previous record, and the settings in force for the open record (R283). -/
structure SideSt where
  quill : List SideEntry
  gathered : List SideEntry
  since : Nat
  refused : Nat
  cfg : Word
  /-- The index of the first gathered entry that came with poison (R286). -/
  memErr : Option Nat
  deriving DecidableEq, Repr

/-- A side source with nothing gathered. -/
def SideSt.init : SideSt := ⟨[], [], 0, 0, 0#32, none⟩

/-- A directory entry of a ring: first position, its stamp and the period, both in 1/256 beat (R172). -/
structure DirEntry where
  first : Nat
  stamp : Int
  period : Nat
  deriving DecidableEq, Repr

/-- One channel of an open shed record (R277): its capture words a position, the trigger position and the first position
carried, once they are known, the position after the last one wanted, the next position to read, the words read so far,
the directory breaks met, and flags. -/
structure WaveChan where
  ch : Nat
  wpp : Nat
  qc : Option Nat
  first : Nat
  stop : Nat
  next : Nat
  data : List Byte
  breaks : List DirEntry
  start : Option DirEntry
  taint : Bool
  past : Bool
  shortPre : Bool
  /-- HBM offsets of bursts of lost units that were read and are not yet noted (R180, R181). -/
  hurt : List Nat
  /-- The index of the first position that was replaced after a memory error (R180, R274). -/
  bad : Option Nat
  deriving DecidableEq, Repr

/-- An open record of a shed, from its firing to its close (R153 to R158, R277, R278). -/
structure WaveRec where
  shed : Nat
  stream : Nat
  fired : Nat
  t : Int
  acq : Nat
  segment : Nat
  missed : Nat
  coarse : Bool
  forced : Bool
  spill : Bool
  shuttle : Bool
  taintedTrig : Bool
  chans : List WaveChan
  /-- The sequence number, once fragment 0 was begun, and fragments pushed so far (R278). -/
  seq : Option Nat
  pushed : Nat
  /-- POST has ended, or an early close was met: its code (R274). -/
  cause : Option Nat
  /-- Feature blocks by slice, slices whose part has not ended, NO_FEATURE, and a veto (R255 to R257). -/
  feats : List (Nat × List Half)
  noFeature : Bool
  partsLeft : List Nat
  vetoed : Bool
  deriving DecidableEq, Repr

/-- The open RAW record of a channel: its first position, its entry in the directory, the words read so far, GAP,
and MEM_ERR (R180, R280). -/
structure RawRec where
  first : Nat
  start : DirEntry
  data : List Byte
  gap : Bool
  /-- The index of the first position that was replaced after a memory error. -/
  memErr : Option Nat
  deriving DecidableEq, Repr

/-- One spectrum carried in a SPECTRUM record (R281). -/
structure SpecItem where
  index : Nat
  e : Int
  sflags : Nat
  stamp : Int
  log : List Nat
  complex : List (Int × Int)
  deriving DecidableEq, Repr

/-- A SPECTRUM record of a channel that is open: the stride code of its spectra (R33), its spectra, oldest first, the beat of the oldest, and the
beat in which the last bin of the newest left the Reed (R281). -/
structure SpecRec where
  rate : Nat
  items : List SpecItem
  oldest : Nat
  newest : Nat
  deriving DecidableEq, Repr

/-- A software record being copied (R285). -/
structure UserCopy where
  wt : Nat
  frac : Nat
  stream : Nat
  source : Nat
  addr : Nat
  len : Nat
  tag : Nat
  deriving DecidableEq, Repr

/-- A decompressor's settings as its GO latched them (R293). -/
structure DecSt where
  src : Nat
  srcLen : Nat
  dst : Nat
  dstLen : Nat
  expect : Option Nat
  deriving DecidableEq, Repr

/-- The record path (R269 to R293). -/
structure RecSt where
  streams : Tab StreamSt
  quills : Tab QuillSt
  engines : Tab EngSt
  sides : Tab SideSt
  waves : List WaveRec
  raws : Tab (Option RawRec)
  /-- Next position a channel's raw streaming reads (R280). -/
  rawNext : Tab Nat
  specs : Tab (List SpecRec)
  user : Option UserCopy
  decs : Tab (Option DecSt)
  deriving DecidableEq, Repr

/-- The record path with nothing in it. -/
def RecSt.init : RecSt := ⟨[], [], [], [], [], [], [], [], none, []⟩

/-- A session of a Harness port: its key identifier, the key itself (a number that stands for it), the run key derived
from it with the run number it was derived for, and older keys still in flight; prior: the beat in which this session was opened, with the
key identifier, the key and the run key that were in force before it (R416 to R418, R426). -/
structure Session where
  valid : Bool
  keyId : Nat
  key : Nat
  runKey : Option (Nat × Nat)
  old : List Nat
  prior : Option (Nat × Option (Nat × Nat × Nat))
  deriving DecidableEq, Repr

/-- A port without a session. -/
def Session.none : Session := ⟨false, 0, 0, Option.none, [], Option.none⟩

/-- A run of writes to one memory window by one requester, not yet journalled (R421): the requester, its first address, the
next address, the data, and the journal flags. -/
structure WinRun where
  src : Nat
  first : Nat
  next : Nat
  data : List Byte
  flags : Nat
  deriving DecidableEq, Repr

/-- The Bridle (R405 to R426). -/
structure BrdSt where
  sessions : Tab Session
  /-- The command buffer, 16 KiB (R413); the requester who gave GO, as the journal codes it; CODE and LEN as GO took them. -/
  buf : Tab Byte
  cmdSrc : Nat
  cmdCode : Nat
  cmdLen : Nat
  /-- Chain head H (48 bytes) and the entries that wait for chaining, oldest first (R420). -/
  head : List Byte
  chain : List JEntry
  /-- Entries chained and not yet exported, with their JSEQ, oldest first; an entry was not exported since reset (R422). -/
  backlog : List (JEntry × Nat)
  jrnGap : Bool
  windows : List WinRun
  /-- An applied Oseri image with no change since (R411); its value at run start; JSEQ at run start; a debug state other
  than LOCKED during the run (R423). -/
  sealed : Bool
  sealedAtStart : Bool
  jseqAtStart : Nat
  debugInRun : Bool
  /-- Fuses: the device secret disabled (R425); the digests of the owner keys by slot (R405). -/
  secretOff : Bool
  owners : Tab (List Byte)
  serial : List Byte
  /-- The device certificate as boot took it from its record (R406, R432). -/
  cert : Option (List Byte)
  /-- The nonce that this boot drew (R420, R421). -/
  nonce : Nat
  /-- Digests of the sealed firmware and the user image (R424). -/
  fwDigest : List Byte
  userDigest : List Byte
  /-- A manifest that is signed or being signed, with the warp time and fraction of its signing (R423). -/
  manifest : List Byte
  manifestWt : Nat
  manifestFrac : Nat
  deriving DecidableEq, Repr

/-- The Bridle after reset, with unprogrammed fuses. -/
def BrdSt.init : BrdSt :=
  ⟨[], [], 0, 0, 0, List.replicate 48 0#8, [], [], false, [], false, false, 0, false, false, [], List.replicate 8 0#8, none, 0,
    List.replicate 48 0#8, List.replicate 48 0#8, [], 0, 0⟩

end Sys2Proof.Machine
end

