-- ==== Sys2Proof/Machine/UnitsShu.lean ====
section
/-!
DEFINITION. State parts of the Shuttle cores (R230 to R267).
-/

namespace Sys2Proof.Machine

/-- An entry of the loop stack (R249): first and last instruction of the body, passes that remain. -/
structure LoopEnt where
  start : Nat
  last : Nat
  count : Nat
  deriving DecidableEq, Repr

/-- What follows the delay slot that the next instruction stands in (R250, R262). -/
inductive Slot where
  | notTaken
  | jump (target : Nat)
  | reti
  deriving DecidableEq, Repr

/-- A part in a slot of the shed buffer: its tag, the record it belongs to (shed and beat of firing), its slot, its
descriptor, and the beat in which that became readable (R252, R256). -/
structure Part where
  tag : Nat
  shed : Nat
  fired : Nat
  slot : Nat
  desc : List Half
  since : Nat
  deriving DecidableEq, Repr

/-- A write to an address register, modifier, length, base or PAGE that address formation does not see yet: the index X,
the value, and how many more instructions form their addresses without it (R244). -/
structure LateWrite where
  x : Nat
  value : Half
  left : Nat
  deriving DecidableEq, Repr

/-- What an interrupt handler finds and must leave: the call stack, the loop stack, A0 to A3, AC0 (R262). -/
structure Lent where
  calls : List Nat
  loops : List LoopEnt
  a : List Half
  ac0 : Int
  deriving DecidableEq, Repr

/-- A Shuttle core (R230 to R236). Lists d (16), a, m, l, b (8 each) hold the registers by number. -/
structure CoreSt where
  /-- Program memory, data memory, shed buffer: instruction or 16-bit word by number (R230). -/
  prog : Tab Word
  data : Tab Half
  buf : Tab Half
  /-- Words that hold an uncorrectable error (R267). -/
  progBad : List Nat
  dataBad : List Nat
  pc : Nat
  d : List Half
  a : List Half
  m : List Half
  l : List Half
  b : List Half
  ac0 : Int
  ac1 : Int
  sr : Half
  page : Half
  /-- Timer period, and the beat its counter was loaded (R263). -/
  tick : Half
  tickBeat : Nat
  ipc : Nat
  /-- What the handler that runs found (R262). -/
  found : Option Lent
  /-- Call stack and loop stack, innermost first (R249, R250). -/
  calls : List Nat
  loops : List LoopEnt
  /-- Pending interrupts: bit 0 DESC, 1 MBOX, 2 TICK, 3 HOST (R260). -/
  ipend : Nat
  /-- The shadow copies of D8 to D15, A4 to A7, M4 to M7, AC1 and the flags (R261). -/
  sd : List Half
  sa : List Half
  sm : List Half
  sac1 : Int
  sflags : Nat
  /-- What instructions issued in consecutive cycles see of each other (R244): late writes; SR and D as they were before the
  latest instruction; the word the latest instruction stored to and what it held before; the address registers the
  latest instruction modified. -/
  late : List LateWrite
  srBefore : Half
  dBefore : List Half
  stBefore : Option (Nat × Half)
  modded : List Nat
  /-- The next instruction stands in a delay slot. -/
  delay : Option Slot
  /-- A halt was asked for; a single step is under way (R265). -/
  haltAsked : Bool
  stepping : Bool
  /-- The beat of the latest RUN that found the core running (R266). -/
  runBeat : Option Nat
  /-- The mailbox Quills, oldest word first (R251). -/
  mboxIn : List Half
  mboxOut : List Half
  /-- Warp time latched by IN on port 4 (R251). -/
  latched : Nat
  /-- The part held, the next word of its descriptor, the part in the other slot, the next TAG (R252). -/
  held : Option Part
  descAt : Nat
  queued : Option Part
  tag : Nat
  deriving DecidableEq, Repr

/-- A core after reset: every register 0, memories as a list of nothing. -/
def CoreSt.init : CoreSt :=
  ⟨[], [], [], [], [], 0, List.replicate 16 0#16, List.replicate 8 0#16, List.replicate 8 0#16, List.replicate 8 0#16,
    List.replicate 8 0#16, 0, 0, 0#16, 0#16, 0#16, 0, 0, none, [], [], 0, List.replicate 8 0#16, List.replicate 4 0#16,
    List.replicate 4 0#16, 0, 0, [], 0#16, List.replicate 16 0#16, none, [], none, false, false, none, [], [], 0, none, 0, none, 0⟩

end Sys2Proof.Machine
end

