-- ==== Sys2Proof/Machine/UnitsSpec.lean ====
section
/-!
DEFINITION. State parts of the Reeds (R103 to R124), of the slice trigger front ends and the Treadle (R126 to R160),
and of the Bobbin (R163 to R190).
-/

namespace Sys2Proof.Machine

/-- A complete window that waits for its spectrum to leave: the beat it was complete, whether its Reed has taken it, and then the beat its loading
starts and the beat its first bin leaves; its index; the warp time (1/256 beat) of its first sample; the span of inputs it depends on, its
flags (R105, R119, R123); the latency it shows; whether it is computed at 18 bits (R115); the stride its samples were taken at
(R33); its inputs after windowing (R113). -/
structure PendWin where
  done : Nat
  placed : Bool
  loadAt : Nat
  due : Nat
  index : Nat
  stamp : Int
  lo : Int
  hi : Int
  taint : Bool
  ovr : Bool
  reduced : Bool
  latency : Nat
  stride : Nat
  inputs : List (Int × Int)
  deriving DecidableEq, Repr

/-- A spectrum that has left: the beat, its index and its span of inputs; a later notice is late (R121). -/
structure LeftWin where
  beat : Nat
  index : Nat
  lo : Int
  hi : Int
  deriving DecidableEq, Repr

/-- A spectral stream of a channel (R103 to R124). -/
structure StreamRt where
  /-- n_0 of R105, once the first window has started. -/
  n0 : Option Int
  /-- Grid position of the first sample of the oldest window that is incomplete, and the tap outputs from there on,
  oldest first. -/
  start : Int
  held : List TapSamp
  /-- Windows are being formed; while false a restart on the grid is awaited (R105), from the position given. -/
  running : Bool
  restart : Option Int
  /-- The next spectrum carries GAP (R120). -/
  gapNext : Bool
  pend : List PendWin
  left : List LeftWin
  /-- End stamp of the last complete window (R105), 1/256 beat. -/
  endStamp : Option Int
  deriving DecidableEq, Repr

/-- A stream before its run. -/
def StreamRt.init : StreamRt := ⟨none, 0, [], false, none, false, [], [], none⟩

/-- A Reed: the beat until which its loading is taken (R123), and whether it computes at 18 bits (R115). -/
structure ReedRt where
  freeAt : Nat
  reduced : Bool
  deriving DecidableEq, Repr

/-- An idle Reed. -/
def ReedRt.init : ReedRt := ⟨0, false⟩

/-- The Reeds: streams by channel, Reeds by number, the user window tables by slice, table and entry, the entries of each
rewritten since an uncorrectable error, one bit each (R112). The effective overlaps are in SPC_CH_STATUS. -/
structure SpecSt where
  streams : Tab StreamRt
  reeds : Tab ReedRt
  tables : Tab Nat
  rewritten : Tab Nat
  deriving DecidableEq, Repr

/-- The Reeds after reset. -/
def SpecSt.init : SpecSt := ⟨[], [], [], []⟩

/-- What an event was decided from: nothing that can be tainted, samples of a channel from one grid position to another,
or a spectrum of a stream (R147). -/
inductive Basis where
  | plain
  | samples (ch : Nat) (lo hi : Int)
  | spectrum (ch index : Nat)
  deriving DecidableEq, Repr

/-- A change of a trigger bus bit: the beat it reaches the matrix, the new bit, for a rising event its stamp in 1/256
beat, what it was decided from, and its taint (R126, R136, R147). -/
structure BusChg where
  beat : Nat
  bit : Bool
  stamp : Option Int
  basis : Basis
  taint : Bool
  deriving DecidableEq, Repr

/-- A value that a primitive unit has compared: its span of grid positions, and whether a notice covers it (R128, R147). -/
structure PrimVal where
  v : Int
  lo : Int
  hi : Int
  taint : Bool
  deriving DecidableEq, Repr

/-- A primitive unit: state 0 UNKNOWN, 1 LOW, 2 HIGH; the width, the idle length, the values held for the slopes, latest first, the first
grid position of the present pulse or idle run, its output (R128 to R130), whether TIMEOUT has fired in this idle run (R129), whether a
notice covers a sample of the present pulse or idle run (R147); the beat in which the latest sample reaches the Treadle, and whether the
output was 1 after a sample of that beat (R130). -/
structure PrimSt where
  st : Nat
  width : Nat
  idle : Nat
  vals : List PrimVal
  from_ : Int
  out : Bool
  fired : Bool
  taint : Bool
  due : Nat
  high : Bool
  deriving DecidableEq, Repr

/-- A unit in UNKNOWN. -/
def PrimSt.init : PrimSt := ⟨0, 0, 0, [], 0, false, false, false, 0, false⟩

/-- A unit that goes to UNKNOWN: widths, runs and values are cleared (R130). -/
def PrimSt.unknown (p : PrimSt) : PrimSt := { PrimSt.init with fired := p.fired, out := p.out, due := p.due, high := p.high }

/-- A spectral condition unit: its consecutive count and its condition (R134). -/
structure ScSt where
  count : Nat
  value : Bool
  deriving DecidableEq, Repr

/-- A condition at 0. -/
def ScSt.init : ScSt := ⟨0, false⟩

/-- A firing within its retention time: the term, the beat, the trigger time, the inputs whose stamps its literals held
with those stamps, the sum lines and sheds that rose, and whether it is known to be tainted (R148). -/
structure Firing where
  beat : Nat
  term : Nat
  time : Int
  inputs : List (Nat × Int)
  lines : List Nat
  tainted : Bool
  deriving DecidableEq, Repr

/-- A shed beyond its registers (R149 to R158). -/
structure ShedSt where
  acq : Nat
  segment : Nat
  /-- The time of the arm, from which PRE is filled, in 1/256 beat of warp time (R152). -/
  armWt : Nat
  /-- Missed edges since the previous record (R153), and the firing beat and edges since it (R154). -/
  missed : Nat
  firedBeat : Nat
  edges : Nat
  /-- The beat of the latest change of state and the state before it: what the shed was at the start of that beat
  (R149). -/
  changed : Nat
  before : Nat
  /-- The latest firing was a FORCE; T (beats by 2^8 plus fraction) and the missed edges before it, for what R157 undoes. -/
  forced : Bool
  prevTrig : Nat
  prevMissed : Nat
  /-- The beat of the latest DISARM: it wins over an edge of the same beat, armed anew in that beat or not (R157). -/
  disarmAt : Option Nat
  deriving DecidableEq, Repr

/-- A shed never armed. -/
def ShedSt.init : ShedSt := ⟨0, 0, 0, 0, 0, 0, 0, 0, false, 0, 0, none⟩

/-- A word of the state that is held in three copies (R144): its group, and its place in the group. -/
structure TmrCell where
  group : Nat
  i : Nat
  j : Nat
  deriving DecidableEq, Repr

/-- A rise of a spectral condition unit with STOP: the beat in which it reaches the Treadle, the unit, the centre of its window (R135). -/
structure MaskRise where
  due : Nat
  unit : Nat
  centre : Int
  deriving DecidableEq, Repr

/-- A copy of the Treadle that was outvoted: the beats in a row in which it disagreed, and the latest of them (R146). -/
structure CopySt where
  bad : Nat
  lastBad : Nat
  deriving DecidableEq, Repr

/-- A copy that agrees. -/
def CopySt.init : CopySt := ⟨0, 0⟩

/-- The Treadle and the slice trigger front ends: the voted state, which alone acts, and what of the three copies differs from it
(R144, R145). -/
structure TrdSt where
  /-- Bus changes on their way to the matrix, with their bus index. -/
  coming : List (Nat × BusChg)
  /-- Changes of each bus bit since run start, newest first. -/
  bus : Tab (List BusChg)
  runBeat : Nat
  terms : Nat
  sums : Nat
  prims : Tab PrimSt
  scs : Tab ScSt
  firings : List Firing
  sheds : Tab ShedSt
  copies : Tab CopySt
  /-- TRIG_OUT pins as driven, and the beat until which a pulse lasts (R140). -/
  pins : Nat
  pulses : Tab Nat
  /-- The mask memory by slice and entry, 0x0000FFFF where not written (R133). -/
  masks : Tab Word
  /-- The stop request of a mask: the beat in which its rise reached the Treadle, and the unit; rises on their way (R135). -/
  maskRise : Option (Nat × Nat)
  rises : List MaskRise
  /-- Sheds that have fired in the present beat: the event follows once nothing in the beat can undo it (R153, R157). -/
  fired : List Nat
  /-- The levels of the TRIG_IN pins (R139). -/
  inPins : Nat
  /-- Where the copies differ from the vote in this beat: copy, word, the bits that differ (R144, R145). -/
  upset : List (Nat × TmrCell × Nat)
  deriving DecidableEq, Repr

/-- The Treadle after reset. -/
def TrdSt.init : TrdSt := ⟨[], [], 0, 0, 0, [], [], [], [], [], 0, [], [], none, [], [], 0, []⟩

/-- A capture ring (R167 to R174). -/
structure RingSt where
  /-- Positions accepted, and positions whose unit has been written to HBM. -/
  next : Nat
  done : Nat
  /-- The oldest position whose stamp is still known (R172). -/
  floor : Nat
  /-- Words accepted and not yet committed, as bytes from position done on. -/
  buf : List Byte
  /-- The beats since which the units of the write buffer have held words, oldest first (R169). -/
  since : List Nat
  /-- The directory (R172). -/
  dir : List DirEntry
  /-- The next word starts a new directory entry. -/
  brk : Bool
  /-- The latest word's stamp and period. -/
  lastStamp : Int
  /-- The first beat of the run has been captured. -/
  live : Bool
  deriving DecidableEq, Repr

/-- An empty ring. -/
def RingSt.init : RingSt := ⟨0, 0, 0, [], [], [], true, 0, false⟩

/-- A request in a bank queue: who asks, its class (R175), write or read, its HBM offset and length, the unit of its
pseudo-channel that it lies in, the bytes of a write (none where a byte is not enabled), an identification (the Hitch tag,
the ring's channel), the beat in which it entered, and, where a later access to its unit has acted already, what it read before that
(R176; a write has stored its bytes). -/
structure HbmReq where
  who : Requester
  cls : Nat
  write : Bool
  off : Nat
  len : Nat
  unit : Nat
  data : List (Option Byte)
  id : Nat
  since : Nat
  early : Option (List Byte)
  deriving DecidableEq, Repr

/-- An HBM stack beyond its registers (R178, R186 to R188). -/
structure StackSt where
  hot : Bool
  idleSince : Nat
  /-- Beat of the present self-refresh stage, and whether an exit is wanted. -/
  since : Nat
  exitWanted : Bool
  freqWanted : Option Nat
  deriving DecidableEq, Repr

/-- A stack after reset. -/
def StackSt.init : StackSt := ⟨false, 0, 0, false, none⟩

/-- A pseudo-channel: queue of requests in the order they came, refreshes owed by bank, activations counted by bank,
lost units (R181), rows (48 × row + bank) with the number of their uncorrectable bursts (R183), the rows and beats of those
within the window (R184), corrected bursts not yet logged and the beat of the latest entry (R179); the bank picked last, and the beat of
that pick (R176). -/
structure PcSt where
  queue : List HbmReq
  owed : Tab Nat
  acts : Tab Nat
  lost : List Nat
  rows : Tab Nat
  rowBeats : List (Nat × Nat)
  ceCount : Nat
  ceLogged : Option Nat
  picked : Nat
  pickedAt : Option Nat
  deriving DecidableEq, Repr

/-- An idle pseudo-channel. -/
def PcSt.init : PcSt := ⟨[], [], [], [], [], [], 0, none, 47, none⟩

/-- The lookup under way: channel, warp time in 1/256 beat (R490). -/
structure Lookup where
  ch : Nat
  time : Int
  deriving DecidableEq, Repr

/-- The Bobbin (R163 to R190). -/
structure BobSt where
  rings : Tab RingSt
  stackSt : Tab StackSt
  pcs : Tab PcSt
  lookup : Option Lookup
  /-- Repair candidates not yet repaired: pseudo-channel, bank, row (R183). -/
  candidates : List (Nat × Nat × Nat)
  /-- The M pseudo-channels of stack 1 that were active at the last reset, one bit each (R164). -/
  hostMask : Nat
  /-- Spare rows used by pseudo-channel and bank (48 × pseudo-channel + bank), and soft repairs since reset (R183). -/
  sparesUsed : Tab Nat
  repairs : Nat
  /-- Unit of the patrol scrub that is next. -/
  patrol : Nat
  deriving DecidableEq, Repr

/-- The Bobbin after reset. -/
def BobSt.init : BobSt := ⟨[], [], [], none, [], 0xFFFFFFFF, [], 0, 0⟩

end Sys2Proof.Machine
end

