-- ==== Sys2Proof/Machine/UnitsTap.lean ====
section
/-!
DEFINITION. State parts of the Tapestry (R192 to R209).
-/

namespace Sys2Proof.Machine

/-- The counts and flags of a frame (R196 to R200, R208); tainted: a cell that it counts derives from a tainted sample, a carried one too
(R201, R274). -/
structure FrameCnt where
  number : Nat
  opened : Nat
  spectra : Nat
  drop : Nat
  sat : Nat
  oor : Nat
  taint : Nat
  late : Nat
  reduced : Bool
  gap : Bool
  stepped : Bool
  first : Option Int
  newest : Option Int
  half : Bool
  tainted : Bool
  deriving DecidableEq, Repr

/-- A frame that opens in a beat of warp time. -/
def FrameCnt.init (n wt : Nat) (half : Bool) : FrameCnt :=
  ⟨n, wt, 0, 0, 0, 0, 0, 0, false, false, false, none, none, half, false⟩

/-- A frame that a boundary ended: its counts, the boundary's warp time, whether it is the last of the run, whether
CLEAR applies, and the settings in force at its close (R201, R204). -/
structure ClosingFrame where
  cnt : FrameCnt
  boundary : Nat
  last : Bool
  clear : Bool
  persist : Word
  map : Word
  gain : Word
  deriving DecidableEq, Repr

/-- A spectrum that forms columns in a plane: the beat its first bin left the Reed, its warp time and flags, the frame it was admitted to
once its column 0 was formed, and its columns that are not yet formed, each with its row (R194 to R196, R199). -/
structure FormSpec where
  firstBin : Nat
  stamp : Int
  flags : Nat
  frame : Option Nat
  rows : List (Nat × Option Nat)
  deriving DecidableEq, Repr

/-- A density record that a sweep sends: its stream, the fragments pushed, and the bytes of the one in work (R202, R208, R272). -/
structure SendSt where
  stream : Nat
  frag : Nat
  piece : List Byte
  deriving DecidableEq, Repr

/-- The sweep of a closed frame: the cells swept so far, in sweep order, and their counts; the record it sends, if it makes one (R200,
R202). -/
structure SweepSt where
  cf : ClosingFrame
  next : Nat
  taken : Tab Nat
  send : Option SendSt
  deriving DecidableEq, Repr

/-- A plane: the bank that the open frame's increments go into and the bank of the frame being closed, by cell number y × 1,024 + j; the
spectra that form columns, oldest first; the queue of increments, each with its frame, column and row (R196); the open frame; the frame
that waits for its close; the sweep under way; the beat its zeroing ends; whether CLEAR was asked for (R204); whether a count carried past
the run's last frame derives from a tainted sample (R201, R274). -/
structure PlaneSt where
  acc : Tab Nat
  other : Tab Nat
  forming : List FormSpec
  queue : List (Nat × Nat × Nat)
  frame : Option FrameCnt
  closing : Option ClosingFrame
  sweep : Option SweepSt
  zeroUntil : Option Nat
  clearAsked : Bool
  /-- Beat of the next PERIOD boundary, the close that run stop orders once it has come (its counts are
  those of the open frame when that is done), the image of the latest frame swept
  (palette index by cell) and that frame's number (R199, R207). -/
  nextBoundary : Nat
  stopped : Option ClosingFrame
  image : Tab Nat
  imageFrame : Option Nat
  carryTaint : Bool
  deriving DecidableEq, Repr

/-- A plane after reset. -/
def PlaneSt.init : PlaneSt := ⟨[], [], [], [], none, none, none, none, false, 0, none, [], none, false⟩

/-- The planes. -/
structure TapSt where
  planes : Tab PlaneSt
  deriving DecidableEq, Repr

/-- The Tapestry after reset. -/
def TapSt.init : TapSt := ⟨[]⟩

end Sys2Proof.Machine
end

