-- ==== Sys2Proof/Machine/State.lean ====
section
/-!
DEFINITION. The state of the device: everything the spec gives it, as plain data; the reasons a step can stop; and the
state right after a POWER_ON reset.
-/

namespace Sys2Proof.Machine

/-- The state of the device. Registers are held in one table by address (regs); a register that is a view of other
state (WRP_NOW) has its home there. Everything else the spec gives a block is in that block's part. -/
structure State where
  /-- Warp time: the 64-bit beat count (R349). -/
  now : BitVec 64
  /-- The fraction of warp time, 1/256 beat (R341, R349). -/
  nowFrac : Nat
  /-- Beats that have passed since power-on, whatever warp time was set to. -/
  beats : Nat
  /-- Commands waiting, first in, first out. -/
  pending : List Instr
  /-- The model's own count of free values taken (see the assumption log); nothing rests on its value. -/
  fresh : Nat
  /-- What has left the device, newest first. -/
  outs : List Out
  /-- Every register of the register map that does not hold its reset value. -/
  regs : Tab Word
  /-- HBM: the bytes of the stacks' cells, by pseudo-channel, 256-byte unit and byte (R165). -/
  hbm : Tab Byte
  run : RunSt
  erl : ErlSt
  hitch : HitchSt
  can : Tab CanPort
  dict : DictSt
  pwr : PwrSt
  pdk : PdkSt
  recs : RecSt
  brd : BrdSt
  ports : Tab PortSt
  lanes : Tab LaneSt
  cond : CondSt
  spec : SpecSt
  trd : TrdSt
  bob : BobSt
  tap : TapSt
  pnl : PnlSt
  shu : Tab CoreSt
  hns : Tab PPort
  spn : Tab SpnCh
  clk : ClkSt
  hfb : HfbSt
  far : FarSt
  mon : MonSt
  tck : TckSt
  /-- What the present beat has seen (R373). -/
  tick : TickSt
  /-- Blocks, by vector, in which a user broke a "must" whose outcome the manual does not state: their results are undefined until
  their next reset (R1). -/
  breach : List Nat
  /-- The Spindle channels that moved an element last, by PRIO (R326). -/
  spnTurns : SpnTurns
  /-- What the present cycle of FCLK has done to each Quill of words (R287). -/
  turns : Tab (Option QuillTurn)
  deriving DecidableEq, Repr

/-- The reasons a command faults. The spec gives no command of the table an effect that stops the device, so this list
holds only the stop kept for an encoding outside the model. -/
inductive Fault where
  /-- Raised by no meaning; kept so that the type is not empty. Safe: it stops. -/
  | impossible
  deriving DecidableEq, Repr

/-- The reasons a command is refused. -/
inductive Refusal where
  /-- Raised by exec for a command whose meaning is not written yet, with its mnemonic. Safe: it stops. -/
  | notModelled (mnemonic : String)
  deriving DecidableEq, Repr

/-- The state right after a POWER_ON reset (R461): every register at its reset value, every memory empty, nothing in
progress; the root's relock on the crystal has begun (R334), boot is at stage RESET (R386), no fuse is programmed. -/
def State.reset : State :=
  { now := 0#64, nowFrac := 0, beats := 0, pending := [], fresh := 0, outs := [], regs := [], hbm := [],
    run := RunSt.init, erl := ⟨[], []⟩, hitch := HitchSt.init, can := [], dict := DictSt.init, pwr := PwrSt.init,
    pdk := PdkSt.init, recs := RecSt.init, brd := BrdSt.init, ports := [], lanes := [], cond := CondSt.init,
    spec := SpecSt.init, trd := TrdSt.init, bob := BobSt.init, tap := TapSt.init, pnl := PnlSt.init, shu := [], hns := [],
    spn := [], clk := ClkSt.init, hfb := HfbSt.init, far := FarSt.init, mon := MonSt.init, tck := TckSt.init, tick := TickSt.init,
    breach := [], spnTurns := SpnTurns.init, turns := [] }

end Sys2Proof.Machine
end

