-- ==== Sys2Proof/Machine/Ops.lean ====
section
/-!
DEFINITION. The named operations over the state that every block shares: registers and their fields, warp time,
interrupt vectors (R381, R382), the error log (R466 to R469, R487), degradation (R31), EMCY (R395), the journal's
entries (R420), HBM bytes, and the side Quills (R286, R287).
-/

namespace Sys2Proof.Machine

/-- The Hitch codes of Status (R376). -/
def Status.code : Status → Nat
  | .ok => 0
  | .busErr => 1
  | .decodeErr => 2
  | .retry => 3

/-! ### Blocks -/

/-- Vectors of the global blocks (R381). -/
def vGLB : Nat := 0
def vERL : Nat := 1
def vWRP : Nat := 2
def vPDK : Nat := 3
def vMON : Nat := 4
def vFAR : Nat := 5
def vBRD : Nat := 6
def vSTP : Nat := 7
def vHFB : Nat := 8
def vTCK : Nat := 9
def vPWR : Nat := 10
def vTRD : Nat := 208
def vBOB : Nat := 209
def vTAP : Nat := 210
def vPNL : Nat := 211
def vREC : Nat := 212
def vSKN : Nat := 213
def vHNS : Nat := 214
def vSPN : Nat := 215

/-- Vectors of the blocks of slice n (R381). -/
def vLNK (n : Nat) : Nat := 16 + 8 * n
def vCND (n : Nat) : Nat := 17 + 8 * n
def vSPC (n : Nat) : Nat := 18 + 8 * n
def vSTR (n : Nat) : Nat := 19 + 8 * n
def vSHU (n : Nat) : Nat := 20 + 8 * n
def vQUL (n : Nat) : Nat := 21 + 8 * n

/-- The base address of the block with a vector (R364, R381). -/
def blockBase (v : Nat) : Nat :=
  if v ≤ 10 then 0x10000 * v
  else if v < 208 then 0x100000 + 0x10000 * ((v - 16) / 8) + 0x2000 * ((v - 16) % 8)
  else 0x300000 + 0x100000 * (v - 208)

/-- The vector of the block that holds a register address (R364, R381). -/
def vectorOf (a : Nat) : Nat :=
  if a < 0x100000 then a / 0x10000
  else if a < 0x300000 then 16 + 8 * ((a - 0x100000) / 0x10000) + (a - 0x100000) % 0x10000 / 0x2000
  else 208 + (a - 0x300000) / 0x100000

/-! ### Registers -/

/-- The value a register holds. -/
def State.rd (s : State) (a : Nat) : Word := Tab.get resetOf s.regs a

/-- A register given a value. -/
def State.wr (s : State) (a : Nat) (v : Word) : State := { s with regs := Tab.put resetOf s.regs a v }

/-- The value of a register's field. -/
def State.fget (s : State) (a : Nat) (f : Fld) : Nat := fieldOf (s.rd a) f

/-- A register's field given a value, its other fields unchanged. -/
def State.fset (s : State) (a : Nat) (f : Fld) (v : Nat) : State := s.wr a (setField (s.rd a) f v)

/-- A field of a register is not 0. -/
def State.flag (s : State) (a : Nat) (f : Fld) : Bool := s.fget a f != 0

/-- The bits of a register that hardware has set in this beat (R373). -/
def State.hit (s : State) (a : Nat) : Word := Tab.get (fun _ => 0#32) s.tick.hits a

/-- Hardware sets bits of a register in this beat (R373). -/
def State.strike (s : State) (a : Nat) (w : Word) : State :=
  { s with tick := { s.tick with hits := Tab.put (fun _ => 0#32) s.tick.hits a (s.hit a ||| w) } }

/-- A flag field set to 1. -/
def State.fon (s : State) (a : Nat) (f : Fld) : State := (s.fset a f 1).strike a (fieldMask f)

/-- A flag field set to 0. -/
def State.foff (s : State) (a : Nat) (f : Fld) : State := s.fset a f 0

/-- Bit n of a register. -/
def State.bit (s : State) (a n : Nat) : Bool := (s.rd a).getLsbD n

/-- Bit n of a register set. -/
def State.bitOn (s : State) (a n : Nat) : State := (s.wr a (setBitW (s.rd a) n)).strike a (setBitW 0#32 n)

/-- Bit n of a register cleared. -/
def State.bitOff (s : State) (a n : Nat) : State := s.wr a (clrBitW (s.rd a) n)

/-- A wrapping counter register advanced. -/
def State.count (s : State) (a n : Nat) : State := s.wr a (s.rd a + w32 n)

/-- A saturating counter register advanced. -/
def State.countSat (s : State) (a n : Nat) : State :=
  s.wr a (w32 (satAdd 0xFFFFFFFF (s.rd a).toNat n))

/-- The 64-bit value of a pair of registers. -/
def State.pair (s : State) (lo hi : Nat) : Nat := (s.rd lo).toNat + 2 ^ 32 * (s.rd hi).toNat

/-- A pair of registers given a 64-bit value. -/
def State.setPair (s : State) (lo hi v : Nat) : State := (s.wr lo (lo32 v)).wr hi (hi32 v)

/-- The bits of a register that hardware has loaded in this beat (R373). -/
def State.loaded (s : State) (a : Nat) : Word := Tab.get (fun _ => 0#32) s.tick.loads a

/-- A register as one field. -/
def wholeWord : Fld := ⟨0, 32⟩

/-- A field that software writes too is loaded by hardware (R373). -/
def State.fload (s : State) (a : Nat) (f : Fld) (v : Nat) : State :=
  let s1 := s.fset a f v
  { s1 with tick := { s1.tick with loads := Tab.put (fun _ => 0#32) s1.tick.loads a (s1.loaded a ||| fieldMask f) } }

/-- Software, the requester as the journal codes it, writes 1 to a W1S bit whose command before is not over: it starts, if that one ends in
this beat, and is refused at the end of the beat where a rule refuses it (R373). -/
def State.againBy (s : State) (a b src : Nat) : State := { s with tick := { s.tick with again := s.tick.again ++ [(a, b, src)] } }

/-- The same for a command that does not look at its requester. -/
def State.again (s : State) (a b : Nat) : State := s.againBy a b 0

/-- What a register held when the present beat began (R373). -/
def State.rd0 (s : State) (a : Nat) : Word := Tab.get resetOf s.tick.regs0 a


/-- A free value of a width: one the spec does not give (log entry 6). -/
def State.free (s : State) : Nat := Config.freeValue s.fresh

/-- The state after a free value was taken. -/
def State.took (s : State) : State := { s with fresh := s.fresh + 1 }

/-- The blocks of a region of registers are reset: their results are defined again (R1). -/
def State.mended (s : State) (lo hi : Nat) : State :=
  { s with breach := s.breach.filter (fun v => decide (blockBase v < lo) || decide (hi ≤ blockBase v)) }

/-- Every register of a region given back its reset value. -/
def State.clearRegs (s : State) (lo hi : Nat) : State :=
  State.mended { s with regs := s.regs.filter (fun p => decide (p.1 < lo) || decide (hi ≤ p.1)) } lo hi

/-- A user broke a "must" in a block, and the manual states no outcome (R1). -/
def State.breached (s : State) (v : Nat) : State := if s.breach.contains v then s else { s with breach := v :: s.breach }

/-- A value that a block gives: open while a breach makes the block's results undefined (R1). -/
def State.unsure (s : State) (v : Nat) (x : Nat) : Nat := if s.breach.contains v then s.free else x

/-! ### Time -/

/-- Warp time as a number of beats. -/
def State.wt (s : State) : Nat := s.now.toNat

/-- A stamp of the present warp time, 1/256 beat, counted in beats since power-on. -/
def State.takenAt (s : State) (stamp : Int) : Int := stamp - 256 * (s.wt : Int) + 256 * (s.beats : Int)

/-- Beats of a millisecond at the nominal reference (log entry 3). -/
def beatsPerMs : Nat := 1200000

/-- Beats of a microsecond at the nominal reference. -/
def beatsPerUs : Nat := 1200

/-- Beats since an earlier beat. -/
def State.since (s : State) (b : Nat) : Nat := s.beats - b

/-- Something sent out of the device. -/
def State.emit (s : State) (o : Out) : State := { s with outs := o :: s.outs }

/-! ### Run state -/

/-- The run states of R16. -/
def rsIdle : Nat := 0
def rsConfigured : Nat := 1
def rsArmed : Nat := 2
def rsRunning : Nat := 3
def rsStopping : Nat := 4

/-- GLB_RUN.STATE. -/
def State.runState (s : State) : Nat := s.fget R.GLB_RUN F.GLB_RUN_STATE

/-- IDLE or CONFIGURED. -/
def State.atRest (s : State) : Bool := s.runState == rsIdle || s.runState == rsConfigured

/-- The number of the run, or of the latest one (R25). -/
def State.runNumber (s : State) : Nat := (s.rd R.GLB_RUN_NUMBER).toNat

/-- Samples taken at this time, in 1/256 beat since power-on, are analysed: in RUNNING, from run start on. What has formed no complete
unit at run stop is discarded (R22). -/
def State.analysed (s : State) (taken : Int) : Bool :=
  s.runState == rsRunning && decide ((s.run.startBeat : Int) ≤ taken / 256)

/-- Samples taken at this time take a position of the capture tap: those of the run, which reach it up to 660 beats later (R22, R82,
R168). -/
def State.captured (s : State) (taken : Int) : Bool :=
  s.analysed taken
    || (s.runState == rsStopping && decide ((s.run.startBeat : Int) ≤ taken / 256) && decide (taken / 256 < (s.run.stopBeat : Int)))

/-! ### Interrupt vectors -/

/-- The block's INT_STATUS register. -/
def intStatus (v : Nat) : Nat :=
  blockBase v + (if v = 0 ∨ (16 ≤ v ∧ v < 208 ∧ v % 8 = 0) then 0xC else 4)

/-- The block's INT_ENABLE register. -/
def intEnable (v : Nat) : Nat := intStatus v + 4

/-- The vector is pending: some bit is set in both INT_STATUS and INT_ENABLE (R381). -/
def State.vecLive (s : State) (v : Nat) : Bool :=
  (s.rd (intStatus v) &&& s.rd (intEnable v)) != 0#32

/-- GLB_VEC_PEND shows the vector pending (R382). -/
def State.vecPend (s : State) (v : Nat) : Bool := s.bit (R.GLB_VEC_PEND (v / 32)) (v % 32)

/-- The vector is masked (R382). -/
def State.vecMasked (s : State) (v : Nat) : Bool := s.bit (R.GLB_VEC_MASK (v / 32)) (v % 32)

/-- Send the vector's MSGI, unless it is masked or the in-package link is lost (R375, R382). -/
def State.sendMsgi (s : State) (v : Nat) : State :=
  if s.vecMasked v || s.hitch.linkLost then s else s.emit (.msgi v)

/-- Bring GLB_VEC_PEND of a vector into line with its block; a vector that becomes pending sends one MSGI (R382). -/
def State.settleVec (s : State) (v : Nat) : State :=
  if s.vecLive v then
    if s.vecPend v then s
    else (s.bitOn (R.GLB_VEC_PEND (v / 32)) (v % 32)).sendMsgi v
  else if s.vecPend v then s.bitOff (R.GLB_VEC_PEND (v / 32)) (v % 32) else s

/-- After a software write to INT_STATUS or INT_ENABLE: a vector that is still pending sends one further MSGI (R382). -/
def State.resettleVec (s : State) (v : Nat) : State :=
  if s.vecLive v && s.vecPend v then s.sendMsgi v else s.settleVec v

/-- An event sets its bit of a block's INT_STATUS (R381, R382). -/
def State.raise (s : State) (v b : Nat) : State := (s.bitOn (intStatus v) b).settleVec v

/-! ### HBM -/

/-- HBM offset of an address, when it lies in the HBM range of R164. -/
def hbmOffset (a : Nat) : Option Nat :=
  if 0x4000000000 ≤ a ∧ a < 0x4C00000000 then some (a - 0x4000000000) else none

/-- The numbers of the bits below 32 that are 0 in a word: the active pseudo-channels of a stack. -/
def zeroBits (w : Word) : List Nat := (upTo 32).filter (fun i => !w.getLsbD i)

/-- The active pseudo-channels of stack 0 and stack 1, numbered within the stack (R164, R184). -/
def State.activePcs (s : State) (stack : Nat) : List Nat :=
  zeroBits (s.rd (if stack = 0 then R.BOB_PC_RETIRED_LO else R.BOB_PC_RETIRED_HI))

/-- Bytes of a pseudo-channel: 0.75 GiB (R163). -/
def pcBytes : Nat := 0x30000000

/-- Offset of stack 1 in the HBM range. -/
def stack1Base : Nat := 0x600000000

/-- Bytes of the HBM range. -/
def hbmBytes : Nat := 0xC00000000

/-- h: bytes of the host partition (R8). -/
def State.hostBytes (s : State) : Nat := 2 ^ 30 * s.fget R.BOB_HOST F.BOB_HOST_GIB

/-- The offset of the host base (R164). -/
def State.hostBase (s : State) : Nat := hbmBytes - s.hostBytes

/-- The end of the stack 0 capture range, 0 when it is empty (R164, R491). -/
def State.captureEnd0 (s : State) : Nat := pcBytes * (s.activePcs 0).length

/-- The end of the stack 1 capture range, its start when it is empty (R164, R491). -/
def State.captureEnd1 (s : State) : Nat := max stack1Base (s.hostBase - pcBytes * (32 - (s.activePcs 1).length))

/-- The pseudo-channel (0 to 63) and the 256-byte unit in it that hold an offset of the HBM range; none for a hole
(R164, R165, R491). -/
def State.hbmUnit (s : State) (off : Nat) : Option (Nat × Nat) :=
  if off < s.captureEnd0 then
    let pcs := s.activePcs 0
    let u := off / 256
    (pcs[u % pcs.length]?).map (fun q => (q, u / pcs.length))
  else if stack1Base ≤ off ∧ off < s.captureEnd1 then
    let pcs := s.activePcs 1
    let u := (off - stack1Base) / 256
    (pcs[u % pcs.length]?).map (fun q => (32 + q, u / pcs.length))
  else if s.hostBase ≤ off ∧ off < hbmBytes then
    let pcs := (upTo 32).filter (fun i => decide (s.bob.hostMask / 2 ^ i % 2 = 1))
    let m := pcs.length
    let v := (off - s.hostBase) / 256
    (pcs[v % m]?).map (fun q => (32 + q, 3145728 - (s.hostBytes + 256 * m - 1) / (256 * m) + v / m))
  else none

/-- The place of an offset's byte in the stacks' cells. -/
def State.hbmCell (s : State) (off : Nat) : Option Nat :=
  (s.hbmUnit off).map (fun u => pcBytes * u.1 + 256 * u.2 + off % 256)

/-- The byte of a place in a table of bytes; no place reads 0. -/
def cellByte (t : Tab Byte) : Option Nat → Byte
  | some k => Tab.get (fun _ => 0#8) t k
  | none => 0#8

/-- A table of bytes with a byte put at a place; no place stores nothing. -/
def putCell (t : Tab Byte) (v : Byte) : Option Nat → Tab Byte
  | some k => Tab.put (fun _ => 0#8) t k v
  | none => t

/-- A byte of HBM; one that nothing has written reads 0 (R174, R386). -/
def State.hbmByte (s : State) (off : Nat) : Byte := cellByte s.hbm (s.hbmCell off)

/-- The byte that a read of HBM gives: the one stored, and any while a breach makes the Bobbin's results undefined (R1). -/
def State.hbmShown (s : State) (off : Nat) : Byte :=
  if s.breach.contains vBOB then Config.openByte s.beats off else s.hbmByte off

/-- Bytes that reads of HBM give from an offset. -/
def State.hbmRead (s : State) (off : Nat) : Nat → List Byte
  | 0 => []
  | n + 1 => s.hbmShown off :: s.hbmRead (off + 1) n

/-- Bytes put into a table of bytes from a number upward. -/
def putBytes (t : Tab Byte) (off : Nat) : List Byte → Tab Byte
  | [] => t
  | b :: bs => putBytes (Tab.put (fun _ => 0#8) t off b) (off + 1) bs

/-- Bytes of a table of bytes from a number upward. -/
def getBytes (t : Tab Byte) (off : Nat) : Nat → List Byte
  | 0 => []
  | n + 1 => Tab.get (fun _ => 0#8) t off :: getBytes t (off + 1) n

/-- A byte written to HBM; a hole stores nothing. -/
def State.hbmPut (s : State) (off : Nat) (v : Byte) : State := { s with hbm := putCell s.hbm v (s.hbmCell off) }

/-- Bytes written to HBM from an offset. -/
def State.hbmWrite (s : State) (off : Nat) : List Byte → State
  | [] => s
  | b :: bs => (s.hbmPut off b).hbmWrite (off + 1) bs

/-! ### Hitch completions -/

/-- A BUS_ERR or DECODE_ERR that the loom die answers is latched, counted, and raises BUS_ERR (R365, R388). -/
def State.busErr (s : State) (src : Src) (kind : Nat) (write : Bool) (addr : Nat) (alias_ : Bool) : State :=
  let b (x : Bool) : Nat := if x then 1 else 0
  (((s.setPair R.GLB_BUSERR_ADDR_LO R.GLB_BUSERR_ADDR_HI addr).wr R.GLB_BUSERR_INFO
    (w32 (kind + 4 * b write + 8 * b src.secure + 16 * (src.hart % 8) + 128 * b alias_))).count R.GLB_BUSERR_CNT 1).raise
    vGLB 8

/-- How the Bobbin names a Hitch request: its tag and its requester. -/
def hitchId (src : Src) (tag : Nat) : Nat := tag % 1024 + 1024 * srcCode src

/-- The requester in such a name. -/
def idSrc (id : Nat) : Src := ⟨decide (id / 1024 % 2 = 1), id / 2048 % 8⟩

/-- A completion of an HBM request leaves, unless the bridge has answered the request itself (R375). -/
def State.hbmAnswer (s : State) (id : Nat) (status : Status) (data : List Nat) : State :=
  if s.hitch.answered.contains id then { s with hitch := { s.hitch with answered := s.hitch.answered.erase id } }
  else s.emit (.completion (id % 1024) status data)

/-- An HBM request is answered with BUS_ERR (R166, R180, R365). -/
def State.hbmBusErr (s : State) (id : Nat) (write : Bool) (off : Nat) : State :=
  (s.busErr (idSrc id) 0 write (0x4000000000 + off) false).hbmAnswer id .busErr []

/-! ### Side Quills -/

/-- Side source i. -/
def State.side (s : State) (i : Nat) : SideSt := Tab.get (fun _ => SideSt.init) s.recs.sides i

/-- Side source i replaced. -/
def State.setSide (s : State) (i : Nat) (x : SideSt) : State :=
  { s with recs := { s.recs with sides := Tab.put (fun _ => SideSt.init) s.recs.sides i x } }

/-- Entries a side Quill holds at most (R289). -/
def sideDepth : Nat := 512

/-- A side entry of source i refused, counted for the next record of its gathering place and for its stream (R283, R284,
R287, R357). -/
def State.sideRefused (s : State) (i key : Nat) : State :=
  let x := s.side key
  let st := s.fget (R.REC_SIDE_CFG i) F.REC_SIDE_CFG_STREAM
  let q := Tab.get (fun _ => StreamSt.init) s.recs.streams st
  let s1 := s.setSide key { x with refused := x.refused + 1 }
  { s1 with recs := { s1.recs with
      streams := Tab.put (fun _ => StreamSt.init) s1.recs.streams st { q with sideRefused := q.sideRefused + 1 } } }

/-! ### Pushes and pops in one cycle (R286, R287) -/

/-- Numbers of the Quills of words: the two mailboxes of a core, the doorbell Quill of a port, the side and stamp Quills. -/
def qnMboxIn (n : Nat) : Nat := n
def qnMboxOut (n : Nat) : Nat := 24 + n
def qnDoor (p : Nat) : Nat := 48 + p
def qnSide (key : Nat) : Nat := 56 + key

/-- The present cycle of Quill k, which now holds len words. -/
def State.turn (s : State) (k len : Nat) : QuillTurn := (Tab.get (fun _ => none) s.turns k).getD ⟨len, 0, []⟩

/-- The present cycle of Quill k replaced. -/
def State.setTurn (s : State) (k : Nat) (t : Option QuillTurn) : State := { s with turns := Tab.put (fun _ => none) s.turns k t }

/-- Quills that a reset empties have no cycle behind them. -/
def State.turnsGone (s : State) (p : Nat → Bool) : State := { s with turns := s.turns.filter (fun e => !p e.1) }

/-- A reset takes the pushes of the cycle that Quill k had no room for with it. -/
def State.turnCalm (s : State) (k : Nat) : State :=
  s.setTurn k ((Tab.get (fun _ => none) s.turns k).map (fun t => { t with refused := [] }))

/-- A word is pushed into Quill k, which held len. -/
def State.turnPush (s : State) (k len : Nat) : State :=
  let t := s.turn k len
  s.setTurn k (some { t with pushed := t.pushed + 1 })

/-- A push finds Quill k full: it is refused at the end of the cycle, unless a pop comes in it. -/
def State.turnWait (s : State) (k len : Nat) (w : QuillWord) : State :=
  let t := s.turn k len
  s.setTurn k (some { t with refused := t.refused ++ [w] })

/-- A pop of Quill k is valid: a word of an earlier cycle is there. -/
def State.popValid (s : State) (k len : Nat) : Bool := decide ((s.turn k len).pushed < len)

/-- A word of Quill k is popped: a push of the cycle that found it full is stored in the slot. -/
def State.turnPop (s : State) (k len : Nat) : State × Option QuillWord :=
  let t := s.turn k len
  match t.refused with
  | [] => (s.setTurn k (some t), none)
  | w :: rest => (s.setTurn k (some { t with pushed := t.pushed + 1, refused := rest }), some w)

/-- The 16-bit word among these. -/
def halvesOf : Option QuillWord → List Half
  | some (.half v) => [v]
  | _ => []

/-- A push into Quill k, which holds len words, finds that it was empty as the cycle began. -/
def State.fillsQuill (s : State) (k len : Nat) : Bool := decide ((s.turn k len).depth = 0) && decide (len = 0)

/-- A push into side Quill i was refused: it is counted (R287, R289). -/
def State.sideRefusal (s : State) (i : Nat) : State :=
  (((s.sideRefused i i).count (R.REC_SIDE_DROP i) 1).bitOn R.REC_SIDE_STATUS i).raise vREC 1

/-- A push into side Quill i: stored, or at full to be refused (R287, R289). A source whose EN is 0 takes nothing. -/
def State.sidePush (s : State) (i : Nat) (e : SideEntry) : State :=
  let x := s.side i
  let len := x.quill.length
  if len < sideDepth then (s.setSide i { x with quill := x.quill ++ [e] }).turnPush (qnSide i) len
  else s.turnWait (qnSide i) len (.entry e)

/-! ### The error log -/

/-- Severities (R466). -/
def sevInfo : Nat := 0
def sevWarning : Nat := 1
def sevError : Nat := 2
def sevFatal : Nat := 3

/-- CODE [7:0] of events that set no INT_STATUS bit (R467). -/
def ecCfgReject : Nat := 0x40
def ecCfgErr : Nat := 0x41
def ecBlockReset : Nat := 0x42
def ecInject : Nat := 0x43
def ecGapEnd : Nat := 0x44
def ecAbortDiscard : Nat := 0x45
def ecStopCoincident : Nat := 0x46
def ecAttemptFail : Nat := 0x47

/-- The commit of a log entry: counted by severity, its ERL interrupt bit raised, and pushed to side Quill 0 when its
severity is exported; a FATAL entry is held in PWR_LAST_FATAL and pulls ALERT_N low (R461, R462, R469). -/
def State.erlCommit (s : State) (e : ErlEntry) : State :=
  let s1 := (s.count (R.ERL_CNT e.sev) 1).raise vERL e.sev
  let s2 := if s1.fget R.ERL_CFG F.ERL_CFG_EXPORT_MIN ≤ e.sev then s1.sidePush 0 ⟨e.wt, e.frac, 0, e.bytes, s1.beats⟩ else s1
  let s3 := if sevError ≤ e.sev then { s2 with dict := { s2.dict with severe := (s2.dict.severe + 1) % 2 ^ 32 } } else s2
  if e.sev = sevFatal then
    (((((s3.fon R.ERL_STATUS F.ERL_STATUS_FATAL_SEEN).bitOn R.PWR_ALERT 3).wr R.PWR_LAST_FATAL
      (w32 (e.code + 0x10000))).setPair R.PWR_LAST_FATAL_WT_LO R.PWR_LAST_FATAL_WT_HI e.wt))
  else s3

/-- Log slots (R469). -/
def erlSlots : Nat := 1024

/-- A log slot is given an entry. -/
def State.erlStore (s : State) (e : ErlEntry) : State :=
  { s with erl := { s.erl with entries := Tab.put (fun _ => ErlEntry.empty) s.erl.entries (e.eseq % erlSlots) e } }

/-- A new entry takes the next ESEQ and its slot; beyond 1,024 the oldest is overwritten (R466, R469). -/
def State.erlAllocate (s : State) (e : ErlEntry) : State :=
  let n := (s.rd R.ERL_NEXT).toNat
  let s1 := (s.erlStore { e with eseq := n }).count R.ERL_NEXT 1
  if erlSlots ≤ n then (s1.wr R.ERL_OLDEST (w32 (n + 1 - erlSlots))).fon R.ERL_STATUS F.ERL_STATUS_WRAPPED else s1

/-- An entry written and committed at once, with the stamp given (R468, R487). -/
def State.logAt (s : State) (wt frac vec num sev unit a0 a1 : Nat) : State :=
  let e : ErlEntry := ⟨wt, frac, sev, false, false, vec * 256 + num, (s.rd R.ERL_NEXT).toNat, unit % 2 ^ 16, 1,
    a0 % 2 ^ 32, a1 % 2 ^ 64⟩
  (s.erlAllocate e).erlCommit e

/-- An entry of the present beat: writing block's vector, CODE [7:0], severity, UNIT, ARG0, ARG1. -/
def State.log (s : State) (vec num sev unit a0 a1 : Nat) : State :=
  s.logAt s.wt s.nowFrac vec num sev unit a0 a1

/-- An event that sets its INT_STATUS bit and writes its entry (R467). -/
def State.event (s : State) (vec b sev unit a0 a1 : Nat) : State :=
  (s.raise vec b).log vec b sev unit a0 a1

/-- The entries that coalesce, and ERL_STATUS.OPEN with them. -/
def State.setOpens (s : State) (xs : List ErlOpen) : State :=
  State.fset { s with erl := { s.erl with opens := xs } } R.ERL_STATUS F.ERL_STATUS_OPEN (if xs.isEmpty then 0 else 1)

/-- A coalescing entry is committed and closed (R468). -/
def State.erlClose (s : State) (o : ErlOpen) : State :=
  let e := Tab.get (fun _ => ErlEntry.empty) s.erl.entries (o.eseq % erlSlots)
  let s1 := s.setOpens (s.erl.opens.filter (fun (x : ErlOpen) => decide (x.eseq ≠ o.eseq)))
  if e.eseq = o.eseq then
    let e1 := { e with isOpen := false }
    State.erlCommit (State.erlStore s1 e1) e1
  else s1

/-- An event whose entry coalesces: it extends the open entry of the same code and unit, or opens one; an entry whose
COUNT reaches 65,535, or that nothing has extended for 1,024 beats, is committed (R468). -/
def State.logCoalesce (s0 : State) (vec num sev unit a0 : Nat) : State :=
  let code := vec * 256 + num
  let stale := s0.erl.opens.filter (fun (o : ErlOpen) =>
    decide (o.code = code) && decide (o.unit = unit) && decide (o.last + 1024 < s0.beats))
  let s := stale.foldl (fun x o => x.erlClose o) s0
  match s.erl.opens.find? (fun o => decide (o.code = code) && decide (o.unit = unit)) with
  | some o =>
    let e := Tab.get (fun _ => ErlEntry.empty) s.erl.entries (o.eseq % erlSlots)
    let o1 : ErlOpen := { o with last := s.beats }
    let s1 := s.setOpens (s.erl.opens.map (fun (x : ErlOpen) => if x.eseq = o.eseq then o1 else x))
    let s2 := if e.eseq = o.eseq then
        State.erlStore s1 { e with coalesced := true, count := e.count + 1, arg1 := s.wt }
      else s1
    if 65535 ≤ e.count + 1 then s2.erlClose o1 else s2
  | none =>
    let n := (s.rd R.ERL_NEXT).toNat
    let e : ErlEntry := ⟨s.wt, s.nowFrac, sev, false, true, code, n, unit, 1, a0 % 2 ^ 32, s.wt⟩
    let o1 : ErlOpen := ⟨n, code, unit, s.beats⟩
    let s1 := s.erlAllocate e
    s1.setOpens (s1.erl.opens ++ [o1])

/-- An entry whose severity no rule gives; the spec names every FATAL one (R466, R467). -/
def State.logSev (s : State) (vec num unit a0 a1 : Nat) : State := s.took.log vec num (s.free % 3) unit a0 a1

/-- A block reset or an update has ended: its entry, with the RETRYs given and the replies discarded (R380, R461). -/
def State.resetEnded (s : State) (vec unit counts : Nat) : State := s.logSev vec ecBlockReset unit counts 0

/-- A VIO bank is lost: its inputs are ignored, its outputs inactive (R460). -/
def State.bankLost (s : State) (b : Nat) : Bool := s.bit R.PWR_VIO_STATUS (24 + b)

/-! ### The journal -/

/-- An entry of hardware's own enters the Bridle's chaining queue, ahead of those of software of the same beat (R420). -/
def State.journal (s : State) (e : JEntry) : State :=
  let n := s.brd.chain.length - s.tick.soft
  { s with brd := { s.brd with chain := s.brd.chain.take n ++ e :: s.brd.chain.drop n } }

/-- An entry of the present beat. -/
def State.jentry (s : State) (kind src flags addr value : Nat) : JEntry :=
  ⟨s.wt, s.nowFrac, kind, src, flags, addr, value⟩

/-! ### EMCY -/

/-- CAN port p. -/
def State.canPort (s : State) (p : Nat) : CanPort := Tab.get (fun _ => CanPort.init) s.can p

/-- CAN port p replaced. -/
def State.setCan (s : State) (p : Nat) (x : CanPort) : State :=
  { s with can := Tab.put (fun _ => CanPort.init) s.can p x }

/-- The error register 0x1001: bit 0 any condition, and the bit of each condition that is active on a port (R395). -/
def State.errorRegister (s : State) : Nat :=
  let xs := (s.canPort 0).active ++ (s.canPort 1).active
  (xs.foldl (fun w c => setBitW w c.2) (if xs.isEmpty then 0#32 else 1#32)).toNat

/-- Bytes cut or filled to a length. -/
def fit (n : Nat) (bs : List Byte) : List Byte := (bs ++ List.replicate n 0#8).take n

/-- The data of an EMCY: code, error register, then the manufacturer-specific field (R395). -/
def Emcy.bytes (e : Emcy) (errReg : Nat) : List Byte :=
  leBytes 2 e.code ++ leBytes 1 errReg ++ leBytes 2 e.condition ++ leBytes 1 e.state ++ leBytes 1 e.unit
    ++ leBytes 8 e.wt

/-- A port takes part in its network: enabled, booted, its VIO bank not lost (R389, R392, R460). -/
def State.canOn (s : State) (p : Nat) : Bool :=
  !s.bankLost 5 && decide (s.dict.portEn / 2 ^ p % 2 = 1) && decide ((s.canPort p).nmt ≠ 0)

/-- A port sends one EMCY, or holds it back for the inhibit time; it enters 0x1003 (R395). -/
def State.emcySend (s : State) (p : Nat) (e : Emcy) : State :=
  if !s.canOn p || decide (s.dict.cobEmcy / 2 ^ 31 % 2 = 1) then s
  else
    let s1 := { s with dict := { s.dict with history := (e.code :: s.dict.history).take 16 } }
    let x := s1.canPort p
    let blocked := match x.lastEmcy with
      | some b => decide (s.beats < b + 120000 * s.dict.inhibitEmcy)
      | none => false
    if blocked || !x.held.isEmpty then s1.setCan p { x with held := x.held ++ [e] }
    else (s1.setCan p { x with lastEmcy := some s.beats }).emit
      (.canFrame p (s.dict.cobEmcy % 2 ^ 11) (e.bytes s1.errorRegister))

/-- The onset of a condition on one port (R395). -/
def State.emcyOn (s : State) (p code bit unit : Nat) : State :=
  let x := s.canPort p
  let s1 := s.setCan p { x with active := (x.active.filter (fun c => c.1 ≠ code)) ++ [(code, bit)] }
  s1.emcySend p ⟨code, code, s.runState, unit, s.wt⟩

/-- The end of a condition on one port: an EMCY of code 0x0000 that names it (R395). -/
def State.emcyOff (s : State) (p code unit : Nat) : State :=
  let x := s.canPort p
  if x.active.any (fun c => c.1 = code) then
    (s.setCan p { x with active := x.active.filter (fun c => c.1 ≠ code) }).emcySend p
      ⟨0, code, s.runState, unit, s.wt⟩
  else s

/-- The onset of a condition on both ports. -/
def State.emcyOnAll (s : State) (code bit unit : Nat) : State :=
  (s.emcyOn 0 code bit unit).emcyOn 1 code bit unit

/-- The end of a condition on both ports. -/
def State.emcyOffAll (s : State) (code unit : Nat) : State := (s.emcyOff 0 code unit).emcyOff 1 code unit

/-! ### Degradation -/

/-- Kinds of degradation (R31). -/
def dgLinkStep : Nat := 0
def dgReedRetired : Nat := 1
def dgThermal : Nat := 2
def dgPcRetired : Nat := 3
def dgSliceAbsent : Nat := 4

/-- Reed r of slice n. -/
def State.reed (s : State) (n r : Nat) : ReedRt := Tab.get (fun _ => ReedRt.init) s.spec.reeds (4 * n + r)

/-- Reed r of slice n replaced. -/
def State.setReed (s : State) (n r : Nat) (x : ReedRt) : State :=
  { s with spec := { s.spec with reeds := Tab.put (fun _ => ReedRt.init) s.spec.reeds (4 * n + r) x } }

/-- The Reed, by its number in the slice, that computes window j of a stream: of a pair the lower takes the even ones
(R107). -/
def State.specReed (s : State) (c j : Nat) : Nat :=
  let a := R.SPC_CH_STATUS (c / 8) (c % 8)
  s.fget a F.SPC_CH_STATUS_REED + (if s.flag a F.SPC_CH_STATUS_PAIRED then j % 2 else 0)

/-- A Reed computes at 18 or at 24 bits from now on: its registers show it (R115). -/
def State.reedPrecision (s : State) (n r : Nat) (reduced : Bool) : State :=
  let x := s.reed n r
  if x.reduced == reduced then s
  else
    let s1 := ((s.setReed n r { x with reduced := reduced }).fset (R.SPC_ALLOC n r) F.SPC_ALLOC_REDUCED
      (if reduced then 1 else 0)).raise (vSPC n) (if reduced then 5 else 6)
    s1.fset (R.SPC_STATUS n) F.SPC_STATUS_REDUCED (if (upTo 4).any (fun k => (s1.reed n k).reduced) then 1 else 0)

/-- The precision of the windows of channel c whose loading starts in or after this beat (R115). -/
def State.windowsPrecision (s : State) (c : Nat) (on : Bool) : State :=
  let x := Tab.get (fun _ => StreamRt.init) s.spec.streams c
  let now := x.pend.filter (fun w => w.placed && decide (w.loadAt = s.beats))
  let y := { x with pend := x.pend.map (fun w => if !w.placed || decide (s.beats ≤ w.loadAt) then { w with reduced := on } else w) }
  now.foldl (fun z w => z.reedPrecision (c / 8) (z.specReed c w.index) on)
    { s with spec := { s.spec with streams := Tab.put (fun _ => StreamRt.init) s.spec.streams c y } }

/-- When the thermal degradation sets in or ends, the windows whose loading has yet to start, or starts in this beat, are computed at the new
precision (R115). -/
def State.thermalWindows (s : State) (d : Nat) (on : Bool) : State :=
  if d = dgThermal then (s.spec.streams.map (fun e => e.1)).foldl (fun x c => x.windowsPrecision c on) s else s

/-- The unit that the onset of a degradation named (R31). -/
def State.degUnit (s : State) (d : Nat) : Nat := Tab.get (fun _ => 0) s.run.degUnits d

/-- The unit that the onset of a degradation names, kept for its end. -/
def State.keepDegUnit (s : State) (d unit : Nat) : State :=
  { s with run := { s.run with degUnits := Tab.put (fun _ => 0) s.run.degUnits d unit } }

/-- The unit of a degradation's EMCY: a thermal monitor is no port, Reed or pseudo-channel (R395). -/
def degEmcyUnit (d unit : Nat) : Nat := if d = dgThermal then 0xFF else unit

/-- A degradation takes effect: its bit and onset time, a WARNING entry, EMCY (R31, R395, R487). Nothing where the bit
is set already. -/
def State.degradeOn (s : State) (d unit : Nat) : State :=
  if s.bit R.GLB_DEGRADE d then s
  else
    (((((s.keepDegUnit d unit).thermalWindows d true).bitOn R.GLB_DEGRADE d).setPair (R.GLB_DEGRADE_WT_LO d) (R.GLB_DEGRADE_WT_HI d) s.wt).event
      vGLB 7 sevWarning unit (d + 0x100) 0).emcyOnAll (0xFF01 + d) (if d = dgThermal then 3 else 7) (degEmcyUnit d unit)

/-- A degradation ends: its bit cleared, an INFO entry with the unit and the time of its onset, EMCY (R31, R395, R487). -/
def State.degradeOff (s : State) (d : Nat) : State :=
  if s.bit R.GLB_DEGRADE d then
    (((s.thermalWindows d false).bitOff R.GLB_DEGRADE d).event vGLB 7 sevInfo (s.degUnit d) d
      (s.pair (R.GLB_DEGRADE_WT_LO d) (R.GLB_DEGRADE_WT_HI d))).emcyOffAll (0xFF01 + d) (degEmcyUnit d (s.degUnit d))
  else s

end Sys2Proof.Machine
end

