-- ==== Sys2Proof/Machine/FarOps.lean ====
section
/-!
DEFINITION. Farrier's record store: valid records (R429, R430, R432), the records in force (R431), the checks before a
programming (R433), automatic records (R434).
-/

namespace Sys2Proof.Machine

/-- The 256 bytes of a slot; one that nothing was programmed into is all 0 (R428). -/
def State.slot (s : State) (k : Nat) : List Byte :=
  match Tab.get (fun _ => []) s.far.slots k with
  | [] => List.replicate 256 0#8
  | b :: t => b :: t

/-- A slot given its bytes; all 0 leaves it free. -/
def State.setSlot (s : State) (k : Nat) (bs : List Byte) : State :=
  { s with far := { s.far with
      slots := Tab.put (fun _ => []) s.far.slots k (if bs.all (fun b => b == 0#8) then [] else bs) } }

/-- n bytes of a record from a place, as a number. -/
def recNat (r : List Byte) (at_ n : Nat) : Nat := leNat ((r.drop at_).take n)

/-- Fields of a record (R429). -/
def recMark (r : List Byte) : Nat := recNat r 0 2
def recKind (r : List Byte) : Nat := recNat r 2 1
def recIndex (r : List Byte) : Nat := recNat r 4 2
def recGen (r : List Byte) : Nat := recNat r 6 2
def recPart (r : List Byte) : Nat := recNat r 8 1
def recParts (r : List Byte) : Nat := recNat r 9 1
def recPayload (r : List Byte) : List Byte := (r.drop 16).take 236

/-- The CRC of a record, VOID taken as 0 (R429). -/
def recCrc (r : List Byte) : Nat := (crc32 (r.take 3 ++ [0#8] ++ (r.drop 4).take 248)).toNat

/-- MARK, VOID, CRC, byte 11 and the PART fields are correct (R433, check 1). -/
def recImage (r : List Byte) : Bool :=
  recMark r == 0xFA7C && recNat r 3 1 == 0 && recCrc r == recNat r 252 4 && recNat r 11 1 == 0
    && decide (recPart r < recParts r)

/-- KIND is listed in R432. -/
def recListed (r : List Byte) : Bool := decide (1 ≤ recKind r) && decide (recKind r ≤ 11)

/-- The absolute value of an integer is at most a limit. -/
def within (x : Int) (limit : Nat) : Bool := decide (x.natAbs ≤ limit)

/-- The limits of R449 on an input correction. -/
def corrOk (z : Int) (g : Nat) : Bool := within z 32768 && decide (0xE000 ≤ g) && decide (g ≤ 0x12000)

/-- The limits of an HBM_REPAIR payload (R432): the count, each bank, and each pseudo-channel within the record's stack. -/
def repairOk (stack : Nat) (p : List Byte) : Bool :=
  let n := recNat p 0 2
  decide (n ≤ 58) && (upTo n).all (fun i =>
    let e := recNat p (2 + 4 * i) 4
    decide (e / 2 ^ 14 % 64 ≤ 47) && decide (e / 2 ^ 24 % 64 / 32 = stack))

/-- The plausibility limits of a record's payload (R432); those of a multi-part item are met by what its part holds. -/
def recPlausible (r : List Byte) : Bool :=
  let p := recPayload r
  match recKind r with
  | 1 => recNat p 8 2 != 0 && recNat p 8 2 != 0xFFFF
  | 2 => recPart r != 0 || (decide (1 ≤ recNat p 0 2) && decide (recNat p 0 2 ≤ 2048)
      && decide (recNat p 0 2 + 2 ≤ 236 * recParts r))
  | 3 => decide (recNat p 0 1 ≤ 3) && decide (recNat p 1 1 ≤ 3) && decide (recNat p 2 1 ≤ 4) && decide (recNat p 3 1 ≤ 4)
      && decide (recNat p 4 1 ≤ 3)
      && (recNat p 5 1 % 2 == 0 || (decide (1 ≤ recNat p 6 1) && decide (recNat p 6 1 ≤ 127)))
  | 4 => within (signed 32 (recNat p 4 4)) 50000
  | 5 => (upTo 10).all (fun i => recNat p (2 * i) 2 != 0)
  | 6 => repairOk (recIndex r) p
  | 7 => (upTo 118).all (fun i => recNat p (2 * i) 2 == 0 || decide (recNat p (2 * i) 2 < Config.memorySpares (recIndex r) i))
  | 8 => (upTo 48).all (fun i =>
      recNat p 0 6 / 2 ^ i % 2 == 0
        || (within (signed 16 (recNat p (6 + 4 * i) 2)) 8192 && within (signed 16 (recNat p (8 + 4 * i) 2)) 16384))
  | 9 => (upTo 32).all (fun i => within (signed 8 (recNat p i 1)) 96) && (upTo 16).all (fun i => recNat p (32 + 4 * i) 4 != 0)
  | 10 => (upTo 4).all (fun i => decide (0xF000 ≤ recNat p (5 * i + 2) 3) && decide (recNat p (5 * i + 2) 3 ≤ 0x11000))
      && (upTo 24).all (fun i => corrOk (signed 32 (recNat p (20 + 7 * i) 4)) (recNat p (24 + 7 * i) 3))
  | 11 => decide (10 ≤ recNat p 0 1) && decide (recNat p 0 1 ≤ 24)
  | _ => false

/-- A record is valid (R430). -/
def recValid (r : List Byte) : Bool := recImage r && recListed r && recPlausible r

/-- The used slots of the store, with their bytes. -/
def State.usedSlots (s : State) : List (Nat × List Byte) := s.far.slots.filter (fun e => !e.2.isEmpty)

/-- The slots that hold valid records of an item (R430, R431). -/
def State.itemRecords (s : State) (kind index : Nat) : List (Nat × List Byte) :=
  s.usedSlots.filter (fun e => recKind e.2 == kind && recIndex e.2 == index && recValid e.2)

/-- The slots of a generation of an item, by part, where every part of it is valid. -/
def wholeGen (rs : List (Nat × List Byte)) (gen : Nat) : Option (List (Nat × List Byte)) :=
  match rs.find? (fun e => recGen e.2 == gen) with
  | none => none
  | some e0 =>
    let parts := (upTo (recParts e0.2)).map (fun k =>
      rs.find? (fun e => recGen e.2 == gen && recPart e.2 == k && recParts e.2 == recParts e0.2))
    if parts.all (fun p => p.isSome) then some (parts.filterMap id) else none

/-- The record or the parts in force of an item: the newest generation that is whole (R431). -/
def State.inForce (s : State) (kind index : Nat) : List (Nat × List Byte) :=
  let rs := s.itemRecords kind index
  (rs.foldl (fun (best : Option (Nat × List (Nat × List Byte))) e =>
    match wholeGen rs (recGen e.2), best with
    | some w, none => some (recGen e.2, w)
    | some w, some b => if b.1 < recGen e.2 then some (recGen e.2, w) else some b
    | none, b => b) none).elim [] (fun b => b.2)

/-- The payload in force of a one-part item. -/
def State.payload (s : State) (kind index : Nat) : Option (List Byte) := (s.inForce kind index).head?.map (fun e => recPayload e.2)

/-- The CHAN_CAL record a channel takes its values from: the newest valid one of its group whose MASK includes it (R431). -/
def State.calRecord (s : State) (c : Nat) : Option (Nat × List Byte) :=
  ((s.itemRecords 8 (c / 48)).filter (fun e => recNat (recPayload e.2) 0 6 / 2 ^ (c % 48) % 2 == 1)).foldl
    (fun best e => match best with
      | none => some e
      | some b => if recGen b.2 < recGen e.2 then some e else some b) none

/-- A slot is in force (R431). -/
def State.slotInForce (s : State) (k : Nat) (r : List Byte) : Bool :=
  recValid r && (if recKind r = 8 then (upTo 192).any (fun c => (s.calRecord c).any (fun e => e.1 == k))
    else (s.inForce (recKind r) (recIndex r)).any (fun e => e.1 == k))

/-- A word of 32 flags. -/
def flagWord (f : Nat → Bool) : Word := (upTo 32).foldl (fun w i => if f i then setBitW w i else w) 0#32

/-- Slots that count as used: programmed ones, and those of aborted programmings (R428, R435). -/
def State.slotUsed (s : State) (k : Nat) : Bool := s.usedSlots.any (fun e => e.1 == k) || s.far.voidDue.contains k

/-- FAR_VALID, FAR_INFORCE and FAR_FREE show the store (R430, R451). -/
def State.showStore (s : State) : State :=
  let used := s.usedSlots
  let valid := used.filter (fun e => recValid e.2)
  let force := valid.filter (fun e => s.slotInForce e.1 e.2)
  let s1 := (upTo 4).foldl (fun x w =>
    (x.wr (R.FAR_VALID w) (flagWord (fun i => valid.any (fun e => e.1 == 32 * w + i)))).wr (R.FAR_INFORCE w)
      (flagWord (fun i => force.any (fun e => e.1 == 32 * w + i)))) s
  s1.wr R.FAR_FREE (w32 ((upTo 128).filter (fun k => !s.slotUsed k)).length)

/-- The lowest free slot. -/
def State.freeSlot (s : State) : Option Nat := (upTo 128).find? (fun k => !s.slotUsed k)

/-- The used slots with a correct MARK of an item, valid or not (R433, check 4). -/
def State.itemSlots (s : State) (kind index : Nat) : List (List Byte) :=
  (s.usedSlots.map (fun e => e.2)).filter (fun r => recMark r == 0xFA7C && recKind r == kind && recIndex r == index)

/-- GEN exceeds that of every slot of the item, or repeats the highest for a part that no slot holds (R433, check 4). -/
def State.genOk (s : State) (r : List Byte) : Bool :=
  let rs := s.itemSlots (recKind r) (recIndex r)
  let top := rs.foldl (fun m x => max m (recGen x)) 0
  rs.isEmpty || decide (top < recGen r)
    || (decide (1 < recParts r) && recGen r == top && !rs.any (fun x => recGen x == top && recPart x == recPart r))

/-- FAR_PROG_STATUS.RESULT codes (R451). -/
def frOk : Nat := 0
def frFull : Nat := 1
def frBadImage : Nat := 2
def frUnknownKind : Nat := 3
def frImplausible : Nat := 4
def frStaleGen : Nat := 5
def frAborted : Nat := 6
def frVerifyFail : Nat := 7

/-- The result of the checks of a staged record; OK where it may be programmed (R433). -/
def State.farCheck (s : State) (r : List Byte) : Nat :=
  if !recImage r then frBadImage
  else if !recListed r then frUnknownKind
  else if !recPlausible r then frImplausible
  else if !s.genOk r then frStaleGen
  else if s.freeSlot.isNone then frFull
  else frOk

/-- FAR_PROG_STATUS shows a result and its slot (R433). -/
def State.farResult (s : State) (result slot : Nat) : State :=
  (s.fset R.FAR_PROG_STATUS F.FAR_PROG_STATUS_RESULT result).fset R.FAR_PROG_STATUS F.FAR_PROG_STATUS_SLOT slot

/-- A programming begins (R433). -/
def State.farBegin (s : State) (p : FarProg) : State :=
  State.fon { s with far := { s.far with prog := some p } } R.FAR_STATUS F.FAR_STATUS_BUSY

/-- The 256 bytes of a record: kind, index, generation, origin, payload (R429). -/
def recBytes (kind index gen origin : Nat) (payload : List Byte) : List Byte :=
  let b := leBytes 2 0xFA7C ++ leBytes 1 kind ++ leBytes 1 0 ++ leBytes 2 index ++ leBytes 2 gen ++ leBytes 1 0
    ++ leBytes 1 1 ++ leBytes 1 origin ++ leBytes 1 0 ++ leBytes 4 0
    ++ (payload ++ List.replicate 236 0#8).take 236
  b ++ leBytes 4 (crc32 b).toNat

/-- The automatic record of a retirement cannot be made (R434). -/
def State.farAutoFail (s : State) (q : Nat) : State := s.event vFAR 4 sevError q 0 0

/-- An automatic HBM_REPAIR record is begun: the entries in force of its stack and the retirement (R434). -/
def State.farAuto (s : State) (q : Nat) : State :=
  let stack := q / 32
  let p := (s.payload 6 stack).getD []
  let n := recNat p 0 2
  let gen := (s.itemSlots 6 stack).foldl (fun m r => max m (recGen r + 1)) 0
  match s.freeSlot with
  | none => s.farAutoFail q
  | some k =>
    if 58 ≤ n ∨ 65536 ≤ gen then s.farAutoFail q
    else
      let body := leBytes 2 (n + 1) ++ ((p.drop 2).take (4 * n)) ++ leBytes 4 (q % 64 * 2 ^ 24 + 2 ^ 30)
      s.farBegin ⟨k, recBytes 6 stack gen 2 body, some q⟩

/-- The automatic records that wait are begun one after the other, as the engine is free and no VSTBY brownout holds it. -/
def State.farGo (s : State) : Nat → State
  | 0 => s
  | n + 1 =>
    if s.far.prog.isSome || s.pwr.brownout.isSome then s
    else
      match s.far.waiting with
      | [] => s
      | q :: rest => (State.farAuto { s with far := { s.far with waiting := rest } } q).farGo n

/-- The next automatic record that waits is begun, where the engine is free. -/
def State.farNext (s : State) : State := s.farGo s.far.waiting.length

/-- A pseudo-channel was retired: its record is programmed now, or when the engine is free (R434). -/
def State.farRetired (s : State) (q : Nat) : State :=
  State.farNext { s with far := { s.far with waiting := s.far.waiting ++ [q] } }

/-- The store without a record whose programming ended in the present beat: it counts as written from the next (R433). -/
def State.settled (s : State) : State :=
  match s.far.lastDone with
  | some d => if d.2 = s.beats then s.setSlot d.1 [] else s
  | none => s

/-- FAR_XTAL_PPB and FAR_XTAL_UNC show the XTAL record in force, applied at each relock (R432, R436). -/
def State.applyXtal (s : State) : State :=
  let p := (s.settled.payload 4 0).getD []
  (s.wr R.FAR_XTAL_PPB (w32 (recNat p 4 4))).wr R.FAR_XTAL_UNC (w32 (recNat p 8 4))

/-! ### Signal statistics (R437) -/

/-- The integer square root, with k more bits to decide from a value whose bits above them are settled. -/
def sqrtBits (n : Nat) : Nat → Nat → Nat
  | 0, r => r
  | k + 1, r => sqrtBits n k (if (r + 2 ^ k) * (r + 2 ^ k) ≤ n then r + 2 ^ k else r)

/-- The integer square root of a number below 2^128. -/
def isqrt (n : Nat) : Nat := sqrtBits n 64 0

/-- A quotient rounded to the nearest integer, halves away from zero. -/
def roundAway (a : Int) (b : Nat) : Int :=
  if 0 ≤ a then (2 * a + b) / (2 * b : Nat) else -((-2 * a + b) / (2 * b : Nat))

/-- The offset from the sums of n samples, in 1/4 LSB: the negative of the rounded mean. -/
def statOffset (x : StatSum) : Int := -(roundAway (4 * x.s1) x.n)

/-- The gain from the sums: round(65,536 × target / (4 r)) for r = sqrt(n s2 − s1²) / n; none where r is 0. -/
def statGain (x : StatSum) (target : Nat) : Option Nat :=
  let v := ((x.s2 * x.n : Nat) - x.s1 * x.s1).toNat
  let a := 16384 * target * x.n
  if v = 0 then none else some ((isqrt (4 * a * a / v) + 1) / 2)

/-- FAR_STATS_RES of a channel: OFFSET, GAIN, result code. -/
def State.statRes (s : State) (c : Nat) (offset : Int) (gain code : Nat) : State :=
  (s.wr (R.FAR_STATS_RES0 c) (w32 (unsigned 16 offset + 65536 * (gain % 65536)))).wr (R.FAR_STATS_RES1 c)
    (w32 (gain / 65536 % 4 + 16 * code))

/-- The result of a channel at run stop; OFFSET and GAIN of a result that is not OK are not given. -/
def State.statLoad (s : State) (c : Nat) (x : StatSum) : State :=
  let full := 2 ^ fieldOf s.far.statsCfg F.FAR_STATS_CFG_WINDOW
  let target := fieldOf s.far.statsCfg F.FAR_STATS_CFG_TARGET
  let bad (code : Nat) : State := s.took.statRes c (s.free % 65536 : Nat) (s.free / 65536) code
  if x.n < full then bad 2
  else
    match statGain x target with
    | none => bad 3
    | some g =>
      let o := statOffset x
      if within o 8192 ∧ within ((g : Int) - 65536) 16384 then
        let s1 := s.statRes c o g 1
        if fieldOf s.far.statsCfg F.FAR_STATS_CFG_APPLY = 1 then
          { s1 with far := { s1.far with toApply := s1.far.toApply ++ [c] } }
        else s1
      else bad 3

/-- Run start: a pending measurement begins, with the settings and channels of that beat. -/
def State.statsStart (s : State) : State :=
  if s.flag R.FAR_STATUS F.FAR_STATUS_STATS_PENDING then
    let cs := (upTo 192).filter (fun c => s.bit (R.FAR_STATS_MASK (c / 32)) (c % 32))
    let s1 := ((s.foff R.FAR_STATUS F.FAR_STATUS_STATS_PENDING).fon R.FAR_STATUS F.FAR_STATUS_STATS_ACTIVE).foff R.FAR_CTRL
      F.FAR_CTRL_STATS_GO
    { s1 with far := { s1.far with
        statsCfg := s.rd R.FAR_STATS_CFG, stats := cs.map (fun c => (c, some StatSum.init)), toApply := [] } }
  else s

/-- Run stop: the results of an active measurement are loaded. -/
def State.statsStop (s : State) : State :=
  if s.flag R.FAR_STATUS F.FAR_STATUS_STATS_ACTIVE then
    let s1 := s.far.stats.foldl (fun x e => match e.2 with
      | some v => x.statLoad e.1 v
      | none => x) s
    let s2 := (s1.foff R.FAR_STATUS F.FAR_STATUS_STATS_ACTIVE).raise vFAR 2
    { s2 with far := { s2.far with stats := [] } }
  else s

/-- A sample of tap A counts where it is masked, carries neither taint nor overrange, and the count is not full. -/
def State.statsCount (s : State) (c : Nat) (code : Int) : State :=
  match Tab.get (fun _ => none) s.far.stats c with
  | none => s
  | some x =>
    if x.done = false ∧ x.n < 2 ^ fieldOf s.far.statsCfg F.FAR_STATS_CFG_WINDOW then
      { s with far := { s.far with
          stats := Tab.put (fun _ => none) s.far.stats c (some ⟨x.n + 1, x.s1 + code, x.s2 + (code * code).toNat, false⟩) } }
    else s

/-! ### The programming engine (R433 to R435) -/

/-- A result that ends a programming without a valid record: shown, and PROG_FAIL, or AUTO_FAIL for an automatic record. -/
def State.farFailed (s : State) (p : FarProg) (result : Nat) : State :=
  let s1 := s.farResult result p.slot
  match p.auto with
  | some q => s1.farAutoFail q
  | none => (s1.raise vFAR 1).foff R.FAR_CTRL F.FAR_CTRL_PROG

/-- The staged record. -/
def State.staged (s : State) : List Byte := getBytes s.far.stage 0 256

/-- PROG is carried out: the staged record is checked, and its programming begins where it passes (R433). -/
def State.farProg (s : State) : State :=
  let r := s.staged
  let result := s.farCheck r
  match s.freeSlot with
  | some k =>
    if result = frOk then State.farBegin (s.fon R.FAR_CTRL F.FAR_CTRL_PROG) ⟨k, r, none⟩
    else ((s.farResult result 0).raise vFAR 1).foff R.FAR_CTRL F.FAR_CTRL_PROG
  | none => ((s.farResult result 0).raise vFAR 1).foff R.FAR_CTRL F.FAR_CTRL_PROG

/-- The monitors that take the record in force at their next conversion: all of them once a record written in an earlier beat counts
(R433). -/
def State.trimsDue (s : State) : State :=
  match s.mon.trimNew with
  | some b => if b < s.beats then { s with mon := { s.mon with trimDue := upTo 32, trimNew := none } } else s
  | none => s

/-- The same for Tack's inputs. -/
def State.corrsDue (s : State) : State :=
  match s.tck.corrNew with
  | some b => if b < s.beats then { s with tck := { s.tck with corrDue := upTo 24, corrNew := none } } else s
  | none => s

/-- A record is written, and counts from the next beat: monitors and inputs take a new record's values at their next boundary from then on
(R432, R433). -/
def State.farWritten (s : State) (k : Nat) (r : List Byte) : State :=
  let s1 := State.showStore (State.setSlot { s with far := { s.far with lastDone := some (k, s.beats) } } k r)
  if recKind r = 9 then let s2 := s1.trimsDue; { s2 with mon := { s2.mon with trimNew := some s2.beats } }
  else if recKind r = 10 then let s2 := s1.corrsDue; { s2 with tck := { s2.tck with corrNew := some s2.beats } }
  else s1

/-- The engine is free for what waits: a PROG, then automatic records. -/
def State.farResume (s : State) : State :=
  if s.flag R.FAR_CTRL F.FAR_CTRL_PROG && s.far.prog.isNone && s.pwr.brownout.isNone then s.farProg else s.farNext

/-- A VSTBY brownout begins: a programming in progress is aborted, and its slot counts as used (R435, R459). -/
def State.farAbort (s : State) : State :=
  match s.far.prog with
  | none => s
  | some p =>
    let s1 := { s with far := { s.far with prog := none, voidDue := s.far.voidDue ++ [p.slot] } }
    State.showStore ((s1.foff R.FAR_STATUS F.FAR_STATUS_BUSY).farFailed p frAborted)

/-- A VSTBY brownout ends: VOID of the slots of aborted programmings is programmed to 0xFF, their MARK never was; how many of
their other bits were is not given. What waits begins (R435, R459). -/
def State.farReturn (s : State) : State :=
  let s1 := s.far.voidDue.foldl (fun (x : State) k =>
    let y := x.took
    y.setSlot k ([0#8, 0#8, 0#8, 0xFF#8] ++ leBytes 252 x.free)) s
  State.farResume (State.showStore { s1 with far := { s1.far with voidDue := [] } })

end Sys2Proof.Machine
end

