-- ==== Sys2Proof/Machine/StackOps.lean ====
section
/-!
DEFINITION. The HBM stacks' self-refresh (R186 to R188).
-/

namespace Sys2Proof.Machine

/-- Self-refresh states (BOB_SR_STATUS.STATE). -/
def srActive : Nat := 0
def srPending : Nat := 1
def srEntering : Nat := 2
def srRefresh : Nat := 3
def srSwitch : Nat := 4
def srExiting : Nat := 5

/-- Stack k. -/
def State.stack (s : State) (k : Nat) : StackSt := Tab.get (fun _ => StackSt.init) s.bob.stackSt k

/-- Stack k replaced. -/
def State.setStack (s : State) (k : Nat) (x : StackSt) : State :=
  { s with bob := { s.bob with stackSt := Tab.put (fun _ => StackSt.init) s.bob.stackSt k x } }

/-- BOB_SR_STATUS[k].STATE. -/
def State.srState (s : State) (k : Nat) : Nat := s.fget (R.BOB_SR_STATUS k) F.BOB_SR_STATUS_STATE

/-- The stack that holds an HBM offset: 0 below 0x6_0000_0000. -/
def stackOf (off : Nat) : Nat := if off < stack1Base then 0 else 1

/-- Stack k holds part of an enabled ring. -/
def State.stackUsed (s : State) (k : Nat) : Bool :=
  (upTo 192).any (fun c =>
    s.bit (R.BOB_RING_CFG c) 0 &&
      (let b := (s.rd (R.BOB_RING_BASE c)).toNat % 2 ^ 20 * 65536
      stackOf b == k || stackOf (b + (s.rd (R.BOB_RING_SIZE c)).toNat % 2 ^ 20 * 65536 - 1) == k))

/-- Stack k is ACTIVE at FSEL 0 (R188). -/
def State.stackFull (s : State) (k : Nat) : Bool :=
  s.srState k == srActive && s.fget (R.BOB_SR_STATUS k) F.BOB_SR_STATUS_FCUR == 0

/-- BOB_STATUS.READY: every stack that holds part of an enabled ring is ACTIVE at FSEL 0 (R188, R191). -/
def State.bobReady (s : State) : State :=
  s.fset R.BOB_STATUS F.BOB_STATUS_READY
    (if (upTo 2).all (fun k => s.stackFull k || !s.stackUsed k) then 1 else 0)

/-- A stack shows a self-refresh state, and READY follows. -/
def State.srShow (s : State) (k st : Nat) : State :=
  (s.fset (R.BOB_SR_STATUS k) F.BOB_SR_STATUS_STATE st).bobReady

/-- A stack goes into a self-refresh state. -/
def State.srGo (s : State) (k st : Nat) : State := (s.setStack k { s.stack k with since := s.beats }).srShow k st

/-- The commands of BOB_SR_CTRL that are under way are over; a FREQ_GO that is still pending is not (R186, R191). -/
def State.srCtrlDone (s : State) (k : Nat) : State :=
  s.wr (R.BOB_SR_CTRL k) (if (s.stack k).freqWanted.isSome then s.rd (R.BOB_SR_CTRL k) &&& fieldMask F.BOB_SR_CTRL_FREQ_GO else 0#32)

/-- A request reaches a stack (R186): the idle count starts again; an entry in ENTERING is cancelled, a stack in
self-refresh exits once it may. -/
def State.stackTouch (s : State) (k : Nat) : State :=
  let x := s.stack k
  let s1 := s.setStack k { x with idleSince := s.beats, exitWanted := x.exitWanted || decide (srRefresh ≤ s.srState k) }
  if s.srState k = srEntering then
    ((s1.srGo k srActive).count (R.BOB_SR_CANCEL_CNT k) 1).foff (R.BOB_SR_CTRL k) F.BOB_SR_CTRL_SR_ENTER
  else s1

/-- A shed is armed (R186): an entry that has not issued SRE is refused, a stack in self-refresh exits once it may. -/
def State.stackShedArmed (s : State) (k : Nat) : State :=
  if s.srState k = srPending ∨ s.srState k = srEntering then
    (((s.setStack k { s.stack k with freqWanted := none }).srGo k srActive).srCtrlDone k).raise vBOB 8
  else if srRefresh ≤ s.srState k then s.setStack k { s.stack k with exitWanted := true }
  else s

/-- A requester reaches n bytes of HBM from an offset (R186). -/
def State.hbmTouch (s : State) (off n : Nat) : State :=
  let a := stackOf off
  let b := stackOf (off + (n - 1))
  if a = b then s.stackTouch a else (s.stackTouch a).stackTouch b

end Sys2Proof.Machine
end

