-- ==== Sys2Proof/Machine/BobOps.lean ====
section
/-!
DEFINITION. Operations of the Bobbin: its layout (R164, R491), requests and their classes (R175, R176), corrected and
uncorrectable bursts (R179 to R181), repair and retirement (R183 to R185), holes (R166).
-/

namespace Sys2Proof.Machine

/-- Pseudo-channel q. -/
def State.pc (s : State) (q : Nat) : PcSt := Tab.get (fun _ => PcSt.init) s.bob.pcs q

/-- Pseudo-channel q replaced. -/
def State.setPc (s : State) (q : Nat) (x : PcSt) : State :=
  { s with bob := { s.bob with pcs := Tab.put (fun _ => PcSt.init) s.bob.pcs q x } }

/-- BOB_LAYOUT0 and BOB_LAYOUT1 show the ends of the capture ranges (R191, R491). -/
def State.showLayout (s : State) : State :=
  (s.wr R.BOB_LAYOUT0 (w32 (s.captureEnd0 / 65536))).wr R.BOB_LAYOUT1 (w32 (s.captureEnd1 / 65536))

/-- BOB_PC_RETIRED, the word that holds pseudo-channel q, and its bit. -/
def retiredReg (q : Nat) : Nat := if q < 32 then R.BOB_PC_RETIRED_LO else R.BOB_PC_RETIRED_HI

/-- BOB_PC_PENDING, the word that holds pseudo-channel q. -/
def pendingReg (q : Nat) : Nat := if q < 32 then R.BOB_PC_PENDING_LO else R.BOB_PC_PENDING_HI

/-- A pending pseudo-channel is retired, and Farrier records it (R184, R185, R434). -/
def State.retirePc (s : State) (q : Nat) : State :=
  (((((((s.bitOff (pendingReg q) (q % 32)).bitOn (retiredReg q) (q % 32)).fset (R.BOB_PC_STATUS q)
    F.BOB_PC_STATUS_STATE 2).raise vBOB 5).degradeOn dgPcRetired q)).showLayout).farRetired q

/-- A pseudo-channel becomes pending for retirement, which comes at once in IDLE or CONFIGURED (R184). -/
def State.pendPc (s : State) (q : Nat) : State :=
  if s.bit (retiredReg q) (q % 32) then s
  else
    let s1 := ((s.bitOn (pendingReg q) (q % 32)).fset (R.BOB_PC_STATUS q) F.BOB_PC_STATUS_STATE 1).raise vBOB 4
    if s1.atRest then s1.retirePc q else s1

/-- Hardware makes a pseudo-channel pending only where BOB_RETIRE_CFG.AUTO is 1 (R184). -/
def State.pendPcAuto (s : State) (q : Nat) : State :=
  if s.flag R.BOB_RETIRE_CFG F.BOB_RETIRE_CFG_AUTO && !s.bit (pendingReg q) (q % 32) then s.pendPc q else s

/-- The contents of a repaired row are lost: each byte is a value the spec does not give (R183). -/
def State.loseRow (s : State) (q bank row : Nat) : State :=
  (upTo 1024).foldl (fun x i =>
    let k := pcBytes * q + 256 * (192 * row + 48 * (i / 256) + bank) + i % 256
    { x with hbm := Tab.put (fun _ => 0#8) x.hbm k (BitVec.ofNat 8 x.free), fresh := x.fresh + 1 }) s

/-- Soft repair of a candidate, where the bank has a spare row, whose errors are counted anew; else the pseudo-channel becomes
pending (R183, R184). -/
def State.repairRow (s : State) (c : Nat × Nat × Nat) : State :=
  let q := c.1
  let bank := c.2.1
  let row := c.2.2
  let key := 48 * q + bank
  let used := Tab.get (fun _ => 0) s.bob.sparesUsed key
  if used < Config.spareRows q bank then
    let n := s.bob.repairs
    let s1 := { s with bob := { s.bob with
      sparesUsed := Tab.put (fun _ => 0) s.bob.sparesUsed key (used + 1), repairs := n + 1 } }
    let s2 := if n < 256 then
        s1.wr (R.BOB_REPAIR n) (w32 (2 ^ 31 + 2 ^ 24 * q + 2 ^ 14 * bank + row))
      else s1
    let x := s2.pc q
    (s2.setPc q { x with rows := Tab.put (fun _ => 0) x.rows (48 * row + bank) 0 }).loseRow q bank row
  else s.pendPcAuto q

/-- Every repair candidate is repaired: at run stop, or at once in IDLE or CONFIGURED (R183). -/
def State.repairAll (s : State) : State :=
  let xs := s.bob.candidates
  xs.foldl (fun x c => x.repairRow c) { s with bob := { s.bob with candidates := [] } }

/-- Every pending pseudo-channel is retired, at run stop (R184). -/
def State.retireAll (s : State) : State :=
  (upTo 64).foldl (fun x q => if x.bit (pendingReg q) (q % 32) then x.retirePc q else x) s

/-- An access to a hole: flagged and logged with its address (R166). -/
def State.holeAccess (s : State) (off : Nat) : State := s.event vBOB 10 sevError 0 0 (0x4000000000 + off)

/-- The class of a requester's traffic (R175). -/
def classOf : Requester → Nat
  | .capture => 1
  | .builder => 2
  | .scrub => 4
  | .hitch => 3
  | .window => 3
  | .spindle => 3
  | .bar2 => 3
  | .writeBack => 3
  | .tack => 3

/-- A request enters its bank queue, or meets a hole; the answer tells which (R166, R175, R186). -/
def State.hbmEnter (s : State) (who : Requester) (write : Bool) (off len id : Nat) (data : List (Option Byte)) :
    State × Bool :=
  match s.hbmUnit off with
  | none => (s.holeAccess off, false)
  | some (q, w) =>
    let x := s.pc q
    let r : HbmReq := ⟨who, classOf who, write, off, len, w, data, id, s.beats, none⟩
    ((s.setPc q { x with queue := x.queue ++ [r] }).stackTouch (q / 32), true)

/-- The class that a request has now: class 3 rises to 2 after AGE beats (R175). -/
def State.classNow (s : State) (r : HbmReq) : Nat :=
  let a := s.fget R.BOB_CFG F.BOB_CFG_AGE
  let age := if 16 ≤ a ∧ a ≤ 4096 then a else 4096
  if r.cls = 3 ∧ r.since + age < s.beats then 2 else r.cls

/-- The most urgent class in a bank's queue. -/
def State.bankClass (s : State) (q bank : Nat) : Option Nat :=
  ((s.pc q).queue.filter (fun r => decide (r.unit % 48 = bank))).foldl (fun a r => match a with
    | none => some (s.classNow r)
    | some b => some (min b (s.classNow r))) none

/-- The request of a bank that is served next: of the most urgent class, the oldest; but an earlier request to its unit goes
first (R176). -/
def State.bankNext (s : State) (q bank : Nat) : Option HbmReq :=
  let xs := (s.pc q).queue.filter (fun r => decide (r.unit % 48 = bank))
  let best := xs.foldl (fun a r => match a with
    | none => some r
    | some b => if s.classNow r < s.classNow b then some r else some b) none
  match best with
  | none => none
  | some b => xs.find? (fun r => decide (r.unit = b.unit))

/-- The bank and the request that pseudo-channel q serves next, where the bank queues given are ready under the timing set: of those with
the most urgent class, the first bank after the one picked last (R176). -/
def State.pcNext (s : State) (q : Nat) (ready : BitVec 48) : Option (Nat × HbmReq) :=
  let turn := (upTo 48).map (fun i => ((s.pc q).picked + 1 + i) % 48)
  let best := (turn.filter (fun b => ready.getLsbD b)).foldl (fun a b => match a, s.bankClass q b with
    | some (k, c), some d => if d < c then some (b, d) else some (k, c)
    | none, some d => some (b, d)
    | x, none => x) (none : Option (Nat × Nat))
  best.bind (fun e => (s.bankNext q e.1).map (fun r => (e.1, r)))

/-- The place of a request's unit in its pseudo-channel: bank and row (R165). -/
def unitBank (w : Nat) : Nat := w % 48
def unitRow (w : Nat) : Nat := w / 192

/-- A corrected burst of a pseudo-channel: counted, flagged, logged at most once a millisecond with the count since the
previous entry (R179). -/
def State.correctedBurst (s : State) (q : Nat) : State :=
  let x := s.pc q
  let n := x.ceCount + 1
  let due := match x.ceLogged with
    | none => true
    | some b => decide (b + beatsPerMs ≤ s.beats)
  let s1 := ((s.setPc q { x with
    ceCount := if due then 0 else n, ceLogged := if due then some s.beats else x.ceLogged }).count
    (R.BOB_CE_CNT (q / 32)) 1).raise vBOB 0
  if due then
    let e : ErlEntry := ⟨s1.wt, s1.nowFrac, sevInfo, decide (1 < n), false, vBOB * 256, (s1.rd R.ERL_NEXT).toNat, q,
      min 65535 n, 0, 0⟩
    (s1.erlAllocate e).erlCommit e
  else s1

/-- The row failures of a pseudo-channel that lie within the window (R184). -/
def State.recentRows (s : State) (q : Nat) : List (Nat × Nat) :=
  let window := max 1 (s.fget R.BOB_RETIRE_CFG F.BOB_RETIRE_CFG_WINDOW) * 3600000 * beatsPerMs
  (s.pc q).rowBeats.filter (fun e => decide (s.beats ≤ e.2 + window))

/-- An uncorrectable burst at an HBM offset, in unit w of pseudo-channel q, of a request of a class: counted, latched, flagged, logged
(R180), and its row followed (R183, R184). Kinds: 0 ECC, 1 command parity, 2 write-data parity, 3 lost unit. -/
def State.badBurst (s : State) (q w off cls kind : Nat) : State :=
  let bank := unitBank w
  let row := unitRow w
  let addr := 0x4000000000 + off / 32 * 32
  let key := 48 * row + bank
  let x := s.pc q
  let times := Tab.get (fun _ => 0) x.rows key + 1
  let recent := (s.recentRows q).filter (fun e => decide (e.1 ≠ key)) ++ [(key, s.beats)]
  let s1 := s.setPc q { x with rows := Tab.put (fun _ => 0) x.rows key times, rowBeats := recent }
  let info := q + 2 ^ 6 * bank + 2 ^ 12 * row + 2 ^ 26 * cls + 2 ^ 29 * kind
  let s2 := (((s1.count (R.BOB_UE_CNT (q / 32)) 1).setPair R.BOB_ERR_ADDR_LO R.BOB_ERR_ADDR_HI addr).wr
    R.BOB_ERR_INFO (w32 info)).event vBOB 1 sevError q 0 addr
  let s4 := if times = 2 then
      let y := { s2 with bob := { s2.bob with candidates := s2.bob.candidates ++ [(q, bank, row)] } }
      if y.atRest then y.repairAll else y
    else s2
  if s4.fget R.BOB_RETIRE_CFG F.BOB_RETIRE_CFG_ROW_LIMIT < recent.length then s4.pendPcAuto q else s4

/-- An uncorrectable burst that a requester met at an HBM offset. -/
def State.badBurstAt (s : State) (off cls kind : Nat) : State :=
  match s.hbmUnit off with
  | some (q, w) => s.badBurst q w off cls kind
  | none => s

/-- A read of HBM outside the bank queues met an uncorrectable burst: an ECC error or a parity error that came three times, its command does not
say which (R180, R181; log entry 256). -/
def State.badRead (s : State) (off cls : Nat) : State := s.took.badBurstAt off cls (s.free % 2)

/-- The unit that holds an HBM offset is lost (R181). -/
def State.unitLost (s : State) (off : Nat) : Bool :=
  match s.hbmUnit off with
  | some (q, w) => (s.pc q).lost.contains w
  | none => false

/-- The first of n bytes from an HBM offset that lies in a lost unit, as its distance (R181). -/
def State.lostAfter (s : State) (off n : Nat) : Option Nat :=
  ((upTo ((off % 256 + n + 255) / 256)).find? (fun i => s.unitLost (off / 256 * 256 + 256 * i))).map (fun i => 256 * i - off % 256)

/-- A complete write of a unit takes it from the list of lost units (R181). -/
def State.unitWhole (s : State) (off : Nat) : State :=
  match s.hbmUnit off with
  | some (q, w) =>
    let x := s.pc q
    s.setPc q { x with lost := x.lost.filter (fun u => u ≠ w) }
  | none => s

/-- Bytes of a write stored from an offset; a byte that is not enabled keeps its value. -/
def State.hbmStore (s : State) (off : Nat) : List (Option Byte) → State
  | [] => s
  | some b :: t => (s.hbmPut off b).hbmStore (off + 1) t
  | none :: t => s.hbmStore (off + 1) t

/-- The byte that a request in a bank queue writes at an HBM offset. -/
def HbmReq.byteAt (r : HbmReq) (off : Nat) : Option Byte :=
  if r.write && r.early.isNone && decide (r.off ≤ off) then ((r.data[off - r.off]?).getD none) else none

/-- The byte that an access made now reads at an HBM offset: of the latest write that waits for its unit, which the access does not pass, else
the one stored (R176). -/
def State.hbmNow (s : State) (off : Nat) : Byte :=
  match s.hbmUnit off with
  | some (q, w) =>
    if s.breach.contains vBOB then s.hbmShown off
    else (s.pc q).queue.foldl (fun a r => if r.unit = w then (r.byteAt off).getD a else a) (s.hbmByte off)
  | none => s.hbmShown off

/-- The bytes that an access made now reads from an HBM offset (R176). -/
def State.hbmLook (s : State) (off : Nat) : Nat → List Byte
  | 0 => []
  | n + 1 => s.hbmNow off :: s.hbmLook (off + 1) n

/-- A request in a bank queue takes its effect on the stored bytes ahead of its service: a write stores, a read reads. -/
def State.requestEarly (s : State) (r : HbmReq) : State × HbmReq :=
  if r.early.isSome then (s, r)
  else if r.write then (s.hbmStore r.off r.data, { r with early := some [] })
  else (s, { r with early := some (s.hbmRead r.off r.len) })

/-- A write to the unit at an HBM offset is about to act, and passes no earlier request to it: those in the bank queue take their effects
first, in arrival order (R176). -/
def State.unitSettle (s : State) (off : Nat) : State :=
  match s.hbmUnit off with
  | some (q, w) =>
    let r := (s.pc q).queue.foldl (fun (a : State × List HbmReq) r =>
      if r.unit = w then ((a.1.requestEarly r).1, a.2 ++ [(a.1.requestEarly r).2]) else (a.1, a.2 ++ [r])) (s, [])
    r.1.setPc q { r.1.pc q with queue := r.2 }
  | none => s

/-- The same for every unit of n bytes from an HBM offset. -/
def State.hbmSettle (s : State) (off n : Nat) : State :=
  (upTo ((off % 256 + n + 255) / 256)).foldl (fun x i => x.unitSettle (off / 256 * 256 + 256 * i)) s

/-- A requester writes bytes to HBM from an offset, behind the requests that wait for their units (R176): its stacks are reached (R186), and
the units that it writes whole are no longer lost (R181). -/
def State.hbmFill (s : State) (off : Nat) (bs : List Byte) : State :=
  let first := (off + 255) / 256
  ((upTo ((off + bs.length) / 256 - first)).foldl (fun x i => x.unitWhole (256 * (first + i)))
    ((s.hbmSettle off bs.length).hbmWrite off bs)).hbmTouch off bs.length

/-- How many of the n bytes from an HBM offset lie in units that exist, up to the first hole (R166). -/
def State.hbmPrefix (s : State) (off n : Nat) : Nat → Nat
  | 0 => 0
  | fuel + 1 =>
    if n = 0 ∨ hbmBytes ≤ off ∨ (s.hbmUnit off).isNone = true then 0
    else
      let k := min n (256 - off % 256)
      k + s.hbmPrefix (off + k) (n - k) fuel

/-- How many of the n bytes from an address can be reached in HBM. -/
def State.reach (s : State) (addr n : Nat) : Nat :=
  match hbmOffset addr with
  | some off => s.hbmPrefix off n (n / 256 + 2)
  | none => 0

/-- A read of n bytes at an address reaches its stack (R186); the failing burst of one that met an uncorrectable error, at a
distance or in a lost unit, is noted (R180, R181). -/
def State.readReach (s : State) (addr n : Nat) (ue : Option Nat) : State :=
  match hbmOffset addr with
  | none => s
  | some off =>
    if s.reach addr n ≠ n then s
    else
      let s1 := s.hbmTouch off n
      match ue, s.lostAfter off n with
      | some d, _ => s1.badRead (off + min d (n - 1)) 3
      | none, some d => s1.badBurstAt (off + d) 3 3
      | none, none => s1

/-- A write that failed three times puts its unit into the lost-unit list (R181). -/
def State.loseUnit (s : State) (q w : Nat) : State :=
  let x := s.pc q
  if x.lost.contains w then s
  else if x.lost.length < 16 then s.setPc q { x with lost := x.lost ++ [w] }
  else (s.setPc q { x with lost := x.lost.drop 1 ++ [w] }).raise vBOB 2

/-- Little-endian 4-byte words of bytes. -/
def words32 : List Byte → List Nat
  | a :: b :: c :: d :: t => leNat [a, b, c, d] :: words32 t
  | [] => []
  | xs => [leNat xs]

end Sys2Proof.Machine
end

