-- ==== Sys2Proof/Machine/HfbOps.lean ====
section
/-!
DEFINITION. Operations of the Hoofbeat inputs that the run boundaries share (R352, R354, R355).
-/

namespace Sys2Proof.Machine

/-- Hoofbeat input i. -/
def State.hfbIn (s : State) (i : Nat) : HfbIn := Tab.get (fun _ => HfbIn.init) s.hfb.inputs i

/-- Hoofbeat input i replaced. -/
def State.setHfbIn (s : State) (i : Nat) (x : HfbIn) : State :=
  { s with hfb := { s.hfb with inputs := Tab.put (fun _ => HfbIn.init) s.hfb.inputs i x } }

/-- The inputs in use as configured. -/
def State.hfbOn (s : State) (i : Nat) : Bool := s.flag (R.HFB_IN_CFG i) F.HFB_IN_CFG_EN

/-- A calibration of every input whose EN is 1 starts (R354). -/
def State.hfbCalStart (s : State) : State :=
  let s1 := (s.foff R.HFB_STATUS F.HFB_STATUS_CAL_PENDING).fon R.HFB_STATUS F.HFB_STATUS_CALIBRATING
  { s1 with hfb := { s1.hfb with calibrating := (upTo 32).filter (fun i => s1.hfbOn i) } }

/-- Run stop of Hoofbeat: a deferred calibration starts (R354). -/
def State.hfbStop (s : State) : State :=
  if s.flag R.HFB_STATUS F.HFB_STATUS_CAL_PENDING then s.hfbCalStart else s

end Sys2Proof.Machine
end

