-- ==== Sys2Proof/Machine/RecOps.lean ====
section
/-!
DEFINITION. Operations on records: streams and their sequence numbers (R269, R270), fragments and their headers (R272
to R275), record Quills (R286 to R289), side records (R283), SPECTRUM records (R281).
-/

namespace Sys2Proof.Machine

/-- Record types (R276). -/
def rtWaveform : Nat := 1
def rtRaw : Nat := 2
def rtSpectrum : Nat := 3
def rtDensity : Nat := 4
def rtFlip : Nat := 5
def rtStamp : Nat := 6
def rtTack : Nat := 7
def rtErrlog : Nat := 8
def rtJournal : Nat := 9
def rtManifest : Nat := 10
def rtRunEnd : Nat := 11
def rtUser : Nat := 12

/-- FLAGS bits (R274). -/
def fTaint : Nat := 1
def fOvr : Nat := 2
def fGap : Nat := 4
def fMemErr : Nat := 8
def fReduced : Nat := 16
def fStepped : Nat := 32
def fTaintedTrig : Nat := 64
def fNoFeature : Nat := 128
def fShortPre : Nat := 256
def fLast : Nat := 512
def fStoredFallback : Nat := 8192
def fLateTaint : Nat := 16384
def fIdle : Nat := 32768

/-- CLOSE codes (R274). -/
def clNormal : Nat := 0
def clOverrun : Nat := 1
def clAbandoned : Nat := 2
def clDisarmed : Nat := 3
def clStopped : Nat := 4
def clBreak : Nat := 5
def clHold : Nat := 6

/-- A record on its way into a Quill: times in 1/256 beat; the flags every fragment carries; the flags and the end time
of its first n bytes (R273, R274). -/
structure RecIn where
  rtype : Nat
  stream : Nat
  source : Nat
  flags : Nat
  content : Nat → Nat
  t : Int
  endAt : Nat → Int
  rate : Nat
  close : Nat
  thLen : Nat

/-- Stream k. -/
def State.stream (s : State) (k : Nat) : StreamSt := Tab.get (fun _ => StreamSt.init) s.recs.streams k

/-- Stream k replaced. -/
def State.setStream (s : State) (k : Nat) (x : StreamSt) : State :=
  { s with recs := { s.recs with streams := Tab.put (fun _ => StreamSt.init) s.recs.streams k x } }

/-- REC_STREAM_CFG.EN of stream k. -/
def State.streamOn (s : State) (k : Nat) : Bool := s.flag (R.REC_STREAM_CFG k) F.REC_STREAM_CFG_EN

/-- Record Quill k. -/
def State.quill (s : State) (k : Nat) : QuillSt := Tab.get (fun _ => QuillSt.init) s.recs.quills k

/-- The words a packet takes: its length slot and its body (R288, R289). -/
def Packet.words (p : Packet) : Nat := 1 + (64 + p.body.length + 31) / 32

/-- The depth of a record Quill: its packets, and the words of the open one so far (R286, R288). -/
def QuillSt.depth (q : QuillSt) : Nat :=
  q.packets.foldl (fun n p => n + p.words) (match q.opened with
    | some o => o.words
    | none => 0)

/-- The words of a record Quill (R289). -/
def quillWords : Nat := 8192

/-- Record Quill k replaced, with what REC_Q_STATUS and REC_Q_MAX show of it. -/
def State.setQuill (s : State) (k : Nat) (q : QuillSt) : State :=
  let d := q.depth
  let a := R.REC_Q_STATUS k
  let s1 := { s with recs := { s.recs with quills := Tab.put (fun _ => QuillSt.init) s.recs.quills k q } }
  let s2 := (((s1.fset a F.REC_Q_STATUS_DEPTH d).fset a F.REC_Q_STATUS_EMPTY (if d = 0 then 1 else 0)).fset a
    F.REC_Q_STATUS_FULL (if d = quillWords then 1 else 0)).fset a F.REC_Q_STATUS_PKT_OPEN (if q.opened.isSome then 1 else 0)
  if (s2.rd (R.REC_Q_MAX k)).toNat < d then s2.wr (R.REC_Q_MAX k) (w32 d) else s2

/-- A record of a stream takes its sequence number; a MANIFEST record is not counted among the run's (R270, R423). -/
def State.takeSeq (s : State) (k rtype : Nat) : Nat × State :=
  let q := s.stream k
  if rtype = rtManifest then (q.seq, s.setStream k { q with seq := q.seq + 1 })
  else (q.seq, (s.setStream k { q with seq := q.seq + 1, sent := q.sent + 1 }).count (R.REC_STREAM_REC_CNT k) 1)

/-! ### Turns at a record Quill (R288, R289) -/

/-- The number of a producer of records: its record type and its source. -/
def producerNo (rtype source : Nat) : Nat := 65536 * rtype + source

/-- A packet of a stream may begin: 2 + 2^(FRAG_EXP − 5) + 1 words are free (R289). -/
def State.quillRoom (s : State) (q : QuillSt) (stream : Nat) : Bool :=
  decide (q.depth + (3 + 2 ^ (s.fget (R.REC_STREAM_CFG stream) F.REC_STREAM_CFG_FRAG_EXP - 5)) ≤ quillWords)

/-- A stream's run-end marker has been emitted and STOPPING goes on: nothing of the stream but the MANIFEST record follows the marker in the run
(R284, R423). -/
def State.streamEnded (s : State) (k : Nat) : Bool := s.runState == rsStopping && (s.stream k).runEnd

/-- A producer may take its turn. -/
def State.turnOpen (s : State) (w : Waiter) : Bool :=
  decide (w.producer / 65536 = rtRunEnd) || decide (w.producer / 65536 = rtManifest) || !s.streamEnded w.stream

/-- How many producers' numbers after the latest turn a producer's turn comes. -/
def turnKey (last producer : Nat) : Nat := if last < producer then producer - last else 2 ^ 32 + producer - last

/-- The waiter whose turn is next: producers in round-robin order, the packets of one in its order (R288). -/
def nextTurn (last : Nat) (ws : List Waiter) : Option Waiter :=
  ws.foldl (fun b w => match b with
    | none => some w
    | some v => if turnKey last w.producer < turnKey last v.producer then some w else b) none

/-- An open shed record takes its number as its first fragment begins, if it has none (R270, R278). -/
def State.waveNumber (s : State) (w : Waiter) : State :=
  let mine (x : WaveRec) : Bool := decide (producerNo rtWaveform x.shed = w.producer) && decide (x.fired = w.fired)
  if s.recs.waves.any (fun x => mine x && x.seq.isNone) then
    let (seq, s1) := s.takeSeq w.stream (w.producer / 65536)
    { s1 with recs := { s1.recs with waves := s1.recs.waves.map (fun x => if mine x then { x with seq := some seq } else x) } }
  else s

/-- A producer has its turn: a whole packet is pushed, numbered where it is its record's first; or the packet of a record's next fragment
is opened with its length slot (R270, R288). A plane that sweeps a frame names the number of its fragment (R202). -/
def State.quillTake (s : State) (k : Nat) (q : QuillSt) (w : Waiter) : State :=
  match w.packet with
  | none =>
    if w.producer / 65536 = rtDensity then
      let (seq, s1) := if w.fired = 0 then s.takeSeq w.stream (w.producer / 65536) else (Tab.get (fun _ => 0) q.seqs w.producer, s)
      s1.setQuill k { q with
        opened := some ⟨w.producer, w.fired, 1⟩, seqs := Tab.put (fun _ => 0) q.seqs w.producer seq }
    else (s.setQuill k { q with opened := some ⟨w.producer, w.fired, 1⟩ }).waveNumber w
  | some p =>
    let (seq, s1) := if p.hdr.frag = 0 then s.takeSeq w.stream (w.producer / 65536) else (Tab.get (fun _ => 0) q.seqs w.producer, s)
    s1.setQuill k { q with
      packets := q.packets ++ [{ p with hdr := { p.hdr with seq := seq }, closed := s.beats / 2 }],
      seqs := Tab.put (fun _ => 0) q.seqs w.producer seq }

/-- Producers take their turns, at most n of them, while no packet is open and there is room. -/
def State.quillAdmit (s : State) (k : Nat) : Nat → State
  | 0 => s
  | n + 1 =>
    let q := s.quill k
    match q.opened, nextTurn q.last (q.waiting.filter s.turnOpen) with
    | none, some w =>
      if s.quillRoom q w.stream then
        (s.quillTake k { q with waiting := q.waiting.erase w, last := w.producer } w).quillAdmit k n
      else s
    | _, _ => s

/-- The producers of Quill k that wait have their turns as far as they may. -/
def State.quillRefill (s : State) (k : Nat) : State := s.quillAdmit k (s.quill k).waiting.length

/-- A producer waits for its turns with these. -/
def State.enqueue (s : State) (k : Nat) (ws : List Waiter) : State :=
  let q := s.quill k
  (s.setQuill k { q with waiting := q.waiting ++ ws }).quillRefill k

/-- Nothing of the present run is in Quill k, or on its way into it. -/
def State.quillDone (s : State) (k : Nat) : Bool :=
  let q := s.quill k
  q.packets.isEmpty && q.opened.isNone && q.waiting.all (fun w => !s.turnOpen w)

/-- The fragment size of a stream (R272). -/
def State.fragSize (s : State) (k : Nat) : Nat := 2 ^ s.fget (R.REC_STREAM_CFG k) F.REC_STREAM_CFG_FRAG_EXP

/-- The body cut into pieces of a size; an empty body is one empty piece (R272). -/
def cutBody (size : Nat) (body : List Byte) : List (List Byte) :=
  let n := (body.length + size - 1) / size
  (upTo (if n = 0 then 1 else n)).map (fun i => (body.drop (i * size)).take size)

/-- One fragment: its common header as the record builder fills it, and its length slot as it is written at the close (R273, R275, R288). -/
def State.fragment (s : State) (r : RecIn) (frag upto : Nat) (piece : List Byte) (last : Bool) : Packet :=
  let e := r.endAt upto
  let h : FragHdr :=
    { rtype := r.rtype, stream := r.stream, cls := s.fget (R.REC_STREAM_CFG r.stream) F.REC_STREAM_CFG_CLASS,
      flags := r.flags % 65536, run := s.runNumber, frag := frag, seq := 0,
      wt := unsigned 64 (r.t / 256), wtFrac := (r.t % 256).toNat, enc := 0, source := r.source,
      rawLen := piece.length, wireLen := piece.length, rate := r.rate, thLen := (if last then r.thLen else 0),
      endWt := unsigned 64 (e / 256), endFrac := (e % 256).toNat, keyId := 0 }
  ⟨h, piece, false, false, if last then r.close else 0, (w32 (r.content upto) ||| w32 (if last then fLast else 0)).toNat, 0⟩

/-- The fragments of a record from number i on, the last of them with LAST_FRAG. -/
def State.fragments (s : State) (r : RecIn) (i upto : Nat) : List (List Byte) → List Packet
  | [] => []
  | p :: rest => s.fragment r i (upto + p.length) p rest.isEmpty :: s.fragments r (i + 1) (upto + p.length) rest

/-- The record Quill of stream k (R269). -/
def State.quillOf (s : State) (k : Nat) : Nat := s.fget (R.REC_STREAM_CFG k) F.REC_STREAM_CFG_QUILL

/-- The producing unit's last complete unit on a stream (R22, R284). -/
def State.unitEnd (s : State) (k source rtype : Nat) (e : Int) : State :=
  let q := s.stream k
  let keep := q.ends.filter (fun (x : UnitEnd) => decide (x.source ≠ source) || decide (x.rtype ≠ rtype))
  s.setStream k { q with ends := keep ++ [⟨source, rtype, unsigned 64 (e / 256), (e % 256).toNat⟩] }

/-! ### Discards -/

/-- One record of a stream is discarded by ABORT. -/
def State.countAbort (s : State) (k : Nat) : State :=
  let q := s.stream k
  (s.setStream k { q with discAbort := q.discAbort + 1 }).count (R.REC_STREAM_DISC k) 1

/-- One record of a stream is discarded at run stop (R158). -/
def State.countDiscard (s : State) (k : Nat) : State :=
  let q := s.stream k
  (s.setStream k { q with discStop := q.discStop + 1 }).count (R.REC_STREAM_DISC k) 1

/-- One record of a stream is vetoed (R255). -/
def State.countVeto (s : State) (k : Nat) : State :=
  let q := s.stream k
  (s.setStream k { q with vetoed := q.vetoed + 1 }).count (R.REC_STREAM_DISC k) 1

/-- Once ABORT was accepted, the records that the run still completes are discarded; side records and run-end markers go
on (R23, R289). -/
def State.aborts (s : State) (rtype : Nat) : Bool :=
  s.run.aborting && decide (s.runState = rsStopping) && !([rtStamp, rtTack, rtErrlog, rtJournal, rtManifest, rtRunEnd].contains rtype)

/-- A record of a type goes out on a stream: it is enabled, and ABORT does not discard it. -/
def State.recordGoes (s : State) (stream rtype : Nat) : Bool := s.streamOn stream && !s.aborts rtype

/-- A whole record pushed at its close. On a stream that is not enabled it is not made. -/
def State.pushRecord (s : State) (r : RecIn) (body : List Byte) : State :=
  if s.streamOn r.stream then
    if s.aborts r.rtype then s.countAbort r.stream
    else
      let ps := s.fragments r 0 0 (cutBody (s.fragSize r.stream) body)
      (s.unitEnd r.stream r.source r.rtype (r.endAt body.length)).enqueue (s.quillOf r.stream)
        (ps.map (fun p => ⟨producerNo r.rtype r.source, r.stream, 0, some p⟩))
  else s

/-- IDLE of a side record made outside RUNNING and STOPPING (R283). -/
def State.idleFlag (s : State) : Nat :=
  if s.runState = rsRunning ∨ s.runState = rsStopping then 0 else fIdle

/-! ### Side records -/

/-- The record type of side source i (R276, R283). -/
def sideType (i : Nat) : Nat :=
  if i = 0 then rtErrlog else if i = 1 then rtJournal else if i = 2 then rtTack
  else if i = 3 then rtStamp else rtManifest

/-- The gathering place of a source: sources 0, 1, 2 and 4 their own, source 3 one for each Hoofbeat input (R283,
R357). -/
def sideKey (i unit : Nat) : Nat := if i = 3 then 8 + unit else i

/-- The entries that begin within the first n bytes, the first of them off bytes on. -/
def entriesIn (n : Nat) : Nat → List SideEntry → Nat
  | _, [] => 0
  | off, e :: t => if off < n then 1 + entriesIn n (off + e.bytes.length) t else 0

/-- Side source i closes the record it gathers: its entries, then the type header (R283). -/
def State.sideClose (s : State) (i unit close : Nat) : State :=
  let key := sideKey i unit
  let x := s.side key
  match x.gathered with
  | [] => s
  | e0 :: rest =>
    let entries := e0 :: rest
    let stamp (e : SideEntry) : Int := (e.wt : Int) * 256 + e.frac
    let th := leBytes 4 entries.length ++ leBytes 2 (e0.bytes.length) ++ leBytes 2 (min 65535 x.refused)
    let body := entries.foldl (fun b e => b ++ e.bytes) [] ++ th
    let begun (n : Nat) : Nat := entriesIn n 0 entries
    let s1 := s.setSide key { x with gathered := [], refused := 0, memErr := none }
    s1.pushRecord
      { rtype := sideType i, stream := fieldOf x.cfg F.REC_SIDE_CFG_STREAM, source := (if i = 3 then unit else 0),
        flags := s.idleFlag,
        content := fun n => (match x.memErr with
          | some j => if j < begun n then fMemErr else 0
          | none => 0),
        t := stamp e0, endAt := fun n => stamp ((entries.take (begun n)).foldl (fun _ e => e) e0), rate := 0,
        close := close, thLen := 8 } body

/-- An entry joins the record of its source; a full record closes; the settings of the source are those in force at its
first entry (R283). -/
def State.sideGather (s : State) (i unit : Nat) (e : SideEntry) : State :=
  let key := sideKey i unit
  let x := s.side key
  let cfg := if x.gathered.isEmpty then s.rd (R.REC_SIDE_CFG i) else x.cfg
  let since := if x.gathered.isEmpty then s.beats else x.since
  let s1 := s.setSide key { x with gathered := x.gathered ++ [e], cfg := cfg, since := since }
  let limit := if i = 4 then 1 else 2 ^ min 10 (fieldOf cfg F.REC_SIDE_CFG_BATCH_EXP)
  if limit ≤ x.gathered.length + 1 then s1.sideClose i unit clNormal else s1

/-- Every open side record closes, at run stop (R283). -/
def State.sidesStop (s : State) : State :=
  let s1 := [0, 1, 2, 4].foldl (fun x i => x.sideClose i 0 clStopped) s
  (upTo 32).foldl (fun x u => x.sideClose 3 u clStopped) s1

/-! ### SPECTRUM records -/

/-- The form of a channel's stream as its SPECTRUM records give it (R281). -/
def State.specStream (s : State) (c : Nat) : Nat := s.fget (R.QUL_CH_CFG (c / 8) (c % 8)) F.QUL_CH_CFG_SPEC_STREAM

/-- Zero bytes up to a multiple of 8. -/
def pad8 (n : Nat) : List Byte := List.replicate ((8 - n % 8) % 8) 0#8

/-- One spectrum of a SPECTRUM record (R118, R281). -/
def SpecItem.bytes (x : SpecItem) : List Byte :=
  let b := leBytes 6 x.index ++ leBytes 1 (unsigned 8 x.e) ++ leBytes 1 x.sflags
    ++ leBytes 8 (unsigned 64 (x.stamp / 256))
    ++ x.log.foldl (fun a l => a ++ leBytes 2 l) []
    ++ x.complex.foldl (fun a z => a ++ leBytes 3 (unsigned 24 z.1) ++ leBytes 3 (unsigned 24 z.2)) []
  b ++ pad8 b.length

/-- The header flags of a spectrum (R274): TAINT, OVR, GAP, REDUCED, STEPPED, LATE_TAINT. -/
def SpecItem.flags (x : SpecItem) : Nat :=
  let f := x.sflags
  f % 4 + f / 4 % 2 * fGap + f / 8 % 2 * fReduced + f / 16 % 2 * fStepped + f / 32 % 2 * fLateTaint

/-- The OR of the flags of those spectra that begin within the first n bytes. -/
def specFlags (n : Nat) : Nat → List SpecItem → Word
  | _, [] => 0#32
  | off, x :: t => if off < n then w32 x.flags ||| specFlags n (off + x.bytes.length) t else 0#32

/-- The stamp of the last spectrum that begins within the first n bytes. -/
def specEnd (n : Nat) (e : Int) : Nat → List SpecItem → Int
  | _, [] => e
  | off, x :: t => if off < n then specEnd n x.stamp (off + x.bytes.length) t else e

/-- RATE of a channel (R273). -/
def State.rateOf (s : State) (c stride gang : Nat) (zoom : Bool) : Nat :=
  let ddc := R.CND_DDC_CFG (c / 8) (c % 8)
  let logD := s.fget ddc F.CND_DDC_CFG_RC_EXP + (if s.flag ddc F.CND_DDC_CFG_RF then 2 else 1)
  (if stride = 4 then 2 else if stride = 2 then 1 else 0) + 4 * (if gang = 4 then 2 else if gang = 2 then 1 else 0)
    + (if zoom then 16 + 32 * logD else 0)

/-- A SPECTRUM record closes (R281). -/
def State.specClose (s : State) (c close : Nat) (x : SpecRec) : State :=
  match x.items with
  | [] => s
  | i0 :: _ =>
    let n := c / 8
    let l := c % 8
    let cfg := R.SPC_CH_CFG n l
    let lenExp := s.fget cfg F.SPC_CH_CFG_LEN_EXP
    let zoom := s.flag cfg F.SPC_CH_CFG_SRC
    let count := s.fget (R.SPC_CH_BINS n l) F.SPC_CH_BINS_COUNT
    let first := s.fget (R.SPC_CH_BINS n l) F.SPC_CH_BINS_FIRST
    let bins := if zoom then 2 ^ lenExp else 2 ^ (lenExp - 1)
    let th := leBytes 2 c ++ leBytes 1 lenExp ++ leBytes 1 (s.fget (R.SPC_CH_STATUS n l) F.SPC_CH_STATUS_EFF_OVL)
      ++ leBytes 1 (s.fget cfg F.SPC_CH_CFG_WIN) ++ leBytes 1 (s.fget cfg F.SPC_CH_CFG_OUT_FMT)
      ++ leBytes 1 (if zoom then 1 else 0) ++ leBytes 1 (i0.stamp % 256).toNat
      ++ leBytes 2 first ++ leBytes 2 (if count = 0 then bins - first else count) ++ leBytes 2 x.items.length
      ++ leBytes 2 (s.fget (R.SPC_CH_POFS n l) F.SPC_CH_POFS_POFS)
    let body := x.items.foldl (fun b i => b ++ i.bytes) [] ++ th
    State.pushRecord (if s.recordGoes (s.specStream c) rtSpectrum then s.count (R.QUL_SPEC_REC_CNT n l) 1 else s)
      { rtype := rtSpectrum, stream := s.specStream c, source := c, flags := 0,
        content := fun k => (specFlags k 0 x.items).toNat, t := i0.stamp,
        endAt := fun k => specEnd k i0.stamp 0 x.items, rate := x.rate, close := close, thLen := 16 } body

end Sys2Proof.Machine
end

