-- ==== Sys2Proof/Machine/RingOps.lean ====
section
/-!
DEFINITION. Operations on capture rings (R167 to R174), and the reading of shed records and raw streams from them
(R277, R278, R280).
-/

namespace Sys2Proof.Machine

/-- The capture ring of channel c. -/
def State.ring (s : State) (c : Nat) : RingSt := Tab.get (fun _ => RingSt.init) s.bob.rings c

/-- The capture ring of channel c replaced. -/
def State.setRing (s : State) (c : Nat) (x : RingSt) : State :=
  { s with bob := { s.bob with rings := Tab.put (fun _ => RingSt.init) s.bob.rings c x } }

/-- CAP_SRC of channel c: the capture tap takes tap Z. -/
def State.capZoom (s : State) (c : Nat) : Bool := s.flag (R.CND_CH_CFG (c / 8) (c % 8)) F.CND_CH_CFG_CAP_SRC

/-- b_c: bytes of a capture position (R151). -/
def State.posBytes (s : State) (c : Nat) : Nat := if s.capZoom c then 4 else 2

/-- The ring's size in bytes. -/
def State.ringBytes (s : State) (c : Nat) : Nat := (s.rd (R.BOB_RING_SIZE c)).toNat % 2 ^ 20 * 65536

/-- The channel has an enabled ring. -/
def State.ringOn (s : State) (c : Nat) : Bool := s.bit (R.BOB_RING_CFG c) 0

/-- The HBM offset of position p (R168). -/
def State.posOffset (s : State) (c p : Nat) : Nat :=
  (s.rd (R.BOB_RING_BASE c)).toNat % 2 ^ 20 * 65536
    + (if s.ringBytes c = 0 then 0 else p * s.posBytes c % s.ringBytes c)

/-- The oldest position that is held (R170, R172). -/
def State.heldFrom (s : State) (c : Nat) : Nat :=
  let x := s.ring c
  let b := s.posBytes c
  max x.floor (x.next - (s.ringBytes c / b - 65536 / b))

/-- The directory entry that covers a position: the latest at or before it. -/
def dirAt (dir : List DirEntry) (p : Nat) : Option DirEntry :=
  dir.foldl (fun a e => if e.first ≤ p then some e else a) none

/-- The stamp of a position, 1/256 beat (R172). -/
def dirStamp (dir : List DirEntry) (p : Nat) : Option Int :=
  match dirAt dir p with
  | some e => some (e.stamp + ((p - e.first) * e.period : Nat))
  | none => none

/-- The first position stamped at or after a time within one directory entry that reaches up to position stop. -/
def entryFind (e : DirEntry) (stop : Nat) (t : Int) : Option Nat :=
  let k : Nat := if t ≤ e.stamp then 0 else ((t - e.stamp + (e.period : Int) - 1) / (max e.period 1 : Nat)).toNat
  if e.first + k < stop then some (e.first + k) else none

/-- The first position of a ring, below position next, stamped at or after a time (R153, R172). -/
def dirFind (t : Int) (next : Nat) : List DirEntry → Option Nat
  | [] => none
  | e :: rest =>
    let stop := match rest with
      | r :: _ => r.first
      | [] => next
    match entryFind e stop t with
    | some p => some p
    | none => dirFind t next rest

/-- A committed position lies in a lost unit (R181). -/
def State.posLost (s : State) (c p : Nat) : Bool := decide (p < (s.ring c).done) && s.unitLost (s.posOffset c p)

/-- The bytes of position p as the record builder reads it: from HBM once committed, else from the write buffer; a word that cannot be
read is 0x0001 (R169, R180). -/
def State.posRead (s : State) (c p : Nat) : List Byte :=
  let x := s.ring c
  let b := s.posBytes c
  if s.posLost c p then (List.replicate (b / 2) [0x01#8, 0x00#8]).foldl (· ++ ·) []
  else if p < x.done then s.hbmLook (s.posOffset c p) b else (x.buf.drop ((p - x.done) * b)).take b

/-! ### Shed records -/

/-- The waveform records that are open, replaced one by one. -/
def State.mapWaves (s : State) (f : WaveRec → WaveRec) : State :=
  { s with recs := { s.recs with waves := s.recs.waves.map f } }

/-- A channel of a shed record has given all it will. -/
def WaveChan.full (x : WaveChan) : Bool := x.qc.isSome && decide (x.stop ≤ x.next)

/-- Positions of a channel's data. -/
def WaveChan.npos (x : WaveChan) : Nat := x.data.length / (2 * x.wpp)

/-- The channels' data laid out one after the other as far as it is complete (R277). -/
def layRows : List WaveChan → List Byte
  | [] => []
  | x :: t => if x.full then x.data ++ layRows t else x.data

/-- Positions that every channel has given. -/
def commonPos : List WaveChan → Nat
  | [] => 0
  | [x] => x.npos
  | x :: t => min x.npos (commonPos t)

/-- The channels' data laid out position by position (R277). -/
def layTurns (xs : List WaveChan) : List Byte :=
  (upTo (commonPos xs)).foldl (fun a i =>
    xs.foldl (fun b x => b ++ (x.data.drop (i * 2 * x.wpp)).take (2 * x.wpp)) a) []

/-- The payload of a shed record as far as it can be laid out. -/
def WaveRec.laid (w : WaveRec) : List Byte := if w.spill then layTurns w.chans else layRows w.chans

/-- The taint and overrange bits of capture words. -/
def wordFlags : List Byte → Nat
  | a :: _ :: t => ((w32 (a.toNat % 2 + a.toNat / 2 % 2 * 2)) ||| w32 (wordFlags t)).toNat
  | _ => 0

/-- The channels of a record laid out one after the other, the first off bytes on, each with the positions that begin within the first n
bytes. -/
def rowsCovered (n : Nat) : Nat → List WaveChan → List (WaveChan × Nat)
  | _, [] => []
  | off, x :: t => (x, min x.npos ((n - off + 2 * x.wpp - 1) / (2 * x.wpp))) :: rowsCovered n (off + x.data.length) t

/-- The channels of a record laid out position by position, the first off bytes into each turn of some bytes, each with the positions that
begin within the first n bytes. -/
def turnsCovered (n turn most : Nat) : Nat → List WaveChan → List (WaveChan × Nat)
  | _, [] => []
  | off, x :: t => (x, min most ((n - off + turn - 1) / turn)) :: turnsCovered n turn most (off + 2 * x.wpp) t

/-- The positions of each channel that the first n bytes of a record's payload carry, in whole or in part (R273, R274, R277). -/
def WaveRec.covered (w : WaveRec) (n : Nat) : List (WaveChan × Nat) :=
  if w.spill then turnsCovered n (w.chans.foldl (fun a x => a + 2 * x.wpp) 0) (commonPos w.chans) 0 w.chans
  else rowsCovered n 0 w.chans

/-- The stamp of the last of a channel's first k positions. -/
def WaveChan.stampAt (x : WaveChan) (k : Nat) : Option Int :=
  match x.start with
  | none => none
  | some e0 => if k = 0 then none else dirStamp ([e0] ++ x.breaks) (x.first + k - 1)

/-- The latest stamp that the first n bytes of a record's payload carry; its trigger time where they carry none (R276). -/
def WaveRec.endStamp (w : WaveRec) (n : Nat) : Int :=
  ((w.covered n).foldl (fun e p => match e, p.1.stampAt p.2 with
    | some a, some b => some (if a < b then b else a)
    | none, b => b
    | a, none => a) none).getD w.t

/-- The first position that a record carries of a channel follows a break of its ring (R274). -/
def WaveChan.follows (x : WaveChan) : Bool :=
  match x.start with
  | some e => decide (e.first = x.first) && decide (x.first ≠ 0)
  | none => false

/-- The content flags of the first n bytes of a record's payload (R274). -/
def WaveRec.content (w : WaveRec) (n : Nat) : Nat :=
  ((w.covered n).foldl (fun f p =>
    let x := p.1
    f ||| w32 (wordFlags (x.data.take (p.2 * 2 * x.wpp)))
      ||| (if (x.follows && decide (0 < p.2)) || x.breaks.any (fun e => decide (e.first - x.first < p.2)) then w32 fGap else 0#32)
      ||| (match x.bad with
        | some i => if i < p.2 then w32 fMemErr else 0#32
        | none => 0#32)) 0#32).toNat

/-- The feature blocks of a record, each behind its prefix (R255, R277). -/
def WaveRec.features (w : WaveRec) : List Byte :=
  w.feats.foldl (fun b f => b ++ leBytes 1 f.1 ++ leBytes 1 0 ++ leBytes 2 f.2.length
    ++ f.2.foldl (fun a v => a ++ leBytes 2 v.toNat) []) []

/-- A directory entry of the type header (R277); full: PRE + POST positions. -/
def WaveChan.dirBytes (x : WaveChan) (wanted : Nat) : List Byte :=
  let e0 := x.start.getD ⟨x.first, 0, 0⟩
  let st : Int := e0.stamp + ((x.first - e0.first) * e0.period : Nat)
  let fl := wordFlags x.data
  let flags := fl % 2 + fl / 2 % 2 * 2 + (if x.breaks.isEmpty then 0 else 4) + (if x.shortPre then 8 else 0)
    + (if x.npos < wanted then 16 else 0)
  leBytes 2 x.ch ++ leBytes 1 x.wpp ++ leBytes 1 flags ++ leBytes 1 (st % 256).toNat ++ leBytes 3 0
    ++ leBytes 8 (unsigned 64 (st / 256)) ++ leBytes 4 (x.qc.getD x.first - x.first) ++ leBytes 4 e0.period
    ++ leBytes 8 x.npos

/-- A break entry of the type header (R277). -/
def WaveChan.breakBytes (x : WaveChan) (e : DirEntry) : List Byte :=
  leBytes 2 x.ch ++ leBytes 1 (e.stamp % 256).toNat ++ leBytes 1 0 ++ leBytes 4 (e.first - x.first)
    ++ leBytes 8 (unsigned 64 (e.stamp / 256)) ++ leBytes 4 e.period ++ leBytes 4 0

/-- The first 40 bytes of a shed record's type header (R277). -/
def WaveRec.header40 (w : WaveRec) : List Byte :=
  let nbreak := w.chans.foldl (fun n x => n + x.breaks.length) 0
  leBytes 1 w.shed
    ++ leBytes 1 ((if w.coarse then 1 else 0) + (if w.spill then 2 else 0) + (if w.forced then 4 else 0)
      + (if w.shuttle then 8 else 0))
    ++ leBytes 2 w.chans.length ++ leBytes 4 w.acq ++ leBytes 4 w.segment ++ leBytes 4 (min 0xFFFFFFFF w.missed)
    ++ leBytes 8 (unsigned 64 (w.t / 256)) ++ leBytes 1 (w.t % 256).toNat ++ leBytes 3 0
    ++ leBytes 4 w.features.length ++ leBytes 4 nbreak ++ leBytes 4 0

/-- PRE + POST of a shed. -/
def State.shedWanted (s : State) (k : Nat) : Nat :=
  (s.rd (R.TRD_SHED_PRE k)).toNat + s.pair (R.TRD_SHED_POST_LO k) (R.TRD_SHED_POST_HI k)

/-- The type header of a shed record (R277). -/
def WaveRec.typeHeader (w : WaveRec) (wanted : Nat) : List Byte :=
  w.header40 ++ w.chans.foldl (fun b x => b ++ x.dirBytes wanted) []
    ++ w.chans.foldl (fun b x => x.breaks.foldl (fun c e => c ++ x.breakBytes e) b) []

/-- The record's header values as they stand (R274, R276). -/
def WaveRec.recIn (w : WaveRec) (close : Nat) : RecIn :=
  { rtype := rtWaveform, stream := w.stream, source := w.shed,
    flags := (if w.taintedTrig then fTaintedTrig else 0) + (if w.noFeature then fNoFeature else 0)
      + (if w.chans.any (fun x => x.shortPre) then fShortPre else 0),
    content := w.content, t := w.t, endAt := w.endStamp, rate := 0, close := close, thLen := 0 }

/-- A shed record's producer number. -/
def WaveRec.producer (w : WaveRec) : Nat := producerNo rtWaveform w.shed

/-- A shed record waits for its turn, or has it, to push its next fragment (R288). -/
def State.waveWaits (s : State) (w : WaveRec) : Bool :=
  (s.quill (s.quillOf w.stream)).waiting.any (fun x => decide (x.producer = w.producer) && decide (x.fired = w.fired))
def State.waveOpen (s : State) (w : WaveRec) : Bool :=
  match (s.quill (s.quillOf w.stream)).opened with
  | some o => decide (o.producer = w.producer) && decide (o.fired = w.fired)
  | none => false

/-- A shed record waits for a turn. -/
def State.waveAsk (s : State) (w : WaveRec) : State :=
  s.enqueue (s.quillOf w.stream) [⟨w.producer, w.stream, w.fired, none⟩]

/-- The shed record of a number and a beat of firing is another one now. -/
def State.setWave (s : State) (w : WaveRec) : State :=
  s.mapWaves (fun x => if x.shed = w.shed ∧ x.fired = w.fired then w else x)

/-- A record in the spill layout that closed with OVERRUN carries as many positions of every channel, once each has been read up to its end
(R278). -/
def WaveRec.level (w : WaveRec) : WaveRec :=
  if w.spill ∧ w.cause = some clOverrun ∧ w.chans.all WaveChan.full = true then
    let n := commonPos w.chans
    { w with chans := w.chans.map (fun x => { x with
        data := x.data.take (n * 2 * x.wpp), breaks := x.breaks.filter (fun e => decide (e.first < x.first + n)) }) }
  else w

/-- A record has been begun, its POST has ended, and every channel is read. -/
def WaveRec.ready (w : WaveRec) : Bool := w.seq.isSome && w.cause.isSome && w.chans.all WaveChan.full

/-- The body of a shed record as far as it is known: its payload so far, or where it is ready the whole (R277). -/
def WaveRec.body (w : WaveRec) (wanted : Nat) : List Byte :=
  if w.ready then w.laid ++ w.features ++ w.typeHeader wanted else w.laid

/-- A shed record has closed: its shed's flags and entries (R156, R159, R278). -/
def State.waveClosed (s : State) (w : WaveRec) : State :=
  let s1 := s.unitEnd w.stream w.shed rtWaveform (w.endStamp w.laid.length)
  let cause := w.cause.getD clNormal
  let k := w.shed
  let past := (w.chans.find? (fun x => x.past)).map (fun x => x.ch)
  if cause = clOverrun then
    ((s1.fon (R.TRD_SHED_STATUS k) F.TRD_SHED_STATUS_OVERRUN).event vTRD 6 sevWarning k (past.getD 0)
      (unsigned 64 (w.t / 256))).raise vREC 4
  else if cause = clAbandoned then (s1.fon (R.TRD_SHED_STATUS k) F.TRD_SHED_STATUS_ABANDONED).raise vREC 5
  else s1

/-- The open packet of a shed record as its slot is written: the fragment, and the record with one more pushed (R272, R288). -/
def State.wavePacket (s : State) (w : WaveRec) (piece : List Byte) (last : Bool) : Packet :=
  let r : RecIn := { w.recIn (w.cause.getD clNormal) with thLen := (w.typeHeader (s.shedWanted w.shed)).length }
  let p := s.fragment r w.pushed (w.pushed * s.fragSize w.stream + piece.length) piece last
  { p with hdr := { p.hdr with seq := w.seq.getD 0 }, closed := s.beats / 2 }

/-- A shed record that has its turn goes on: the fragment that is complete is closed, and after the last the record is; else the words read
so far stand in the open packet (R272, R278, R288). -/
def State.wavePush (s : State) (w : WaveRec) : State :=
  let k := s.quillOf w.stream
  let q := s.quill k
  let size := s.fragSize w.stream
  let body := w.body (s.shedWanted w.shed)
  let piece := (body.drop (w.pushed * size)).take size
  let last := w.ready && decide (body.length ≤ (w.pushed + 1) * size)
  if last || decide (piece.length = size) then
    let s1 := s.setQuill k { q with packets := q.packets ++ [s.wavePacket w piece last], opened := none }
    if last then
      State.quillRefill (State.waveClosed { s1 with recs := { s1.recs with
        waves := s1.recs.waves.filter (fun x => decide (x.shed ≠ w.shed) || decide (x.fired ≠ w.fired)) } } w) k
    else (s1.setWave { w with pushed := w.pushed + 1 }).waveAsk w
  else s.setQuill k { q with opened := some ⟨w.producer, w.fired, 1 + (64 + piece.length + 31) / 32⟩ }

/-- Words read from ring positions by the builder: up to the position given, as far as they are held; a position that is
not held any more stops the reading (R156, R170, R278). -/
def State.waveRead (s : State) (x : WaveChan) (limit : Nat) : Nat → WaveChan
  | 0 => x
  | n + 1 =>
    if x.next < limit ∧ x.next < x.stop ∧ s.heldFrom x.ch ≤ x.next then
      let dir := (s.ring x.ch).dir
      let e := dirAt dir x.next
      let y := match x.start, e with
        | none, some e0 => { x with start := some e0 }
        | some _, some e1 => if e1.first = x.next then { x with breaks := x.breaks ++ [e1] } else x
        | _, none => x
      let burst := s.posOffset x.ch x.next / 32 * 32
      let lost := s.posLost x.ch x.next
      let hurt := if lost && !y.hurt.contains burst then y.hurt ++ [burst] else y.hurt
      let bad := if lost then some (y.bad.getD (x.next - x.first)) else y.bad
      s.waveRead { y with data := y.data ++ s.posRead y.ch y.next, next := y.next + 1, hurt := hurt, bad := bad } limit n
    else x

/-- The uncorrectable bursts that a record's reading met are noted (R180). -/
def State.waveHurt (s : State) (w : WaveRec) : State × WaveRec :=
  let bad := w.chans.foldl (fun b x => b ++ x.hurt) []
  if bad.isEmpty then (s, w)
  else (bad.foldl (fun x off => x.badBurstAt off 2 3) s,
    { w with chans := w.chans.map (fun x => { x with hurt := [] }) })

/-- A channel of a record reads every position that is committed. -/
def State.waveReadAll (s : State) (x : WaveChan) : WaveChan :=
  if x.qc.isSome then s.waveRead x (s.ring x.ch).done ((s.ring x.ch).done - x.next) else x

/-- The record builder's reads of committed positions of a ring reach their stacks (R186). -/
def State.readTouch (s : State) (c from_ to_ : Nat) : State :=
  if from_ < to_ then (s.stackTouch (stackOf (s.posOffset c from_))).stackTouch (stackOf (s.posOffset c (to_ - 1))) else s

/-- The reads that brought a record from one state to another reach their stacks (R186). -/
def State.waveTouch (s : State) (before after : WaveRec) : State :=
  (before.chans.zip after.chans).foldl (fun x p => x.readTouch p.1.ch p.1.next p.2.next) s

/-- A record is truncated where it stands: each channel ends at a position given, and the close has a cause. Positions overwritten before they are
read count over a close that was met before (R156). -/
def WaveRec.truncate (w : WaveRec) (cause : Nat) (at_ : WaveChan → Nat) : WaveRec :=
  { w with
    cause := (match w.cause with
      | some c => if c = clNormal ∨ cause = clOverrun then some cause else some c
      | none => some cause),
    chans := w.chans.map (fun x =>
      match x.qc with
      | some _ => { x with stop := min x.stop (max x.next (at_ x)) }
      | none => { x with qc := some (at_ x), first := at_ x, next := at_ x, stop := at_ x }) }

/-- A record one of whose unread positions is no longer held closes with what was read (R156). -/
def State.waveOverrun (s : State) (w : WaveRec) : WaveRec :=
  let gone (x : WaveChan) : Bool := x.qc.isSome && decide (x.next < x.stop) && decide (x.next < s.heldFrom x.ch)
  if !w.spill && w.chans.any gone then
    WaveRec.truncate { w with chans := w.chans.map (fun x => { x with past := x.past || gone x }) } clOverrun (fun x => x.next)
  else w

/-- The open record of a shed and a beat of firing reads what is committed, once it is begun, and goes on where it has its turn (R278). -/
def State.waveStep (s : State) (shed fired : Nat) : State :=
  match s.recs.waves.find? (fun w => decide (w.shed = shed) && decide (w.fired = fired)) with
  | none => s
  | some w =>
    let read := if w.seq.isSome then { w with chans := w.chans.map (fun x => s.waveReadAll x) } else w
    let r := State.waveHurt (s.waveTouch w read) (s.waveOverrun read)
    let w1 := r.2.level
    let s1 := r.1.setWave w1
    if s1.waveOpen w1 then s1.wavePush w1 else s1

/-- The open records in turn, n times over: each turn that ends may give another record its own. -/
def State.wavesGo (s : State) : Nat → State
  | 0 => s
  | n + 1 => State.wavesGo ((s.recs.waves.map (fun w => (w.shed, w.fired))).foldl (fun x p => x.waveStep p.1 p.2) s) n

/-- The record builder goes on with the shed records, as far as the fragments go that are complete. -/
def State.buildWaves (s : State) : State :=
  s.wavesGo (s.recs.waves.foldl (fun n w => n + 1 + (w.body (s.shedWanted w.shed)).length / s.fragSize w.stream) 0)

/-! ### Raw streaming -/

/-- Run-length flag entries of packed words: index, count, kind (R280). -/
def flagRuns : Nat → List Nat → List (Nat × Nat × Nat)
  | _, [] => []
  | i, w :: t =>
    let kind := w / 2 % 2 + w % 2 * 2
    let rest := flagRuns (i + 1) t
    if kind = 0 then rest
    else match rest with
      | (k, n, q) :: more => if k = i + 1 ∧ q = kind ∧ n < 65535 then (i, n + 1, kind) :: more else (i, 1, kind) :: rest
      | [] => [(i, 1, kind)]

/-- The 16-bit words of bytes. -/
def words16 : List Byte → List Nat
  | a :: b :: t => (a.toNat + 256 * b.toNat) :: words16 t
  | _ => []

/-- The packed payload: bits [15:2] of each word as 14-bit fields, zero-filled to a multiple of 8 bytes (R280). -/
def packWords (ws : List Nat) : List Byte :=
  let v := ws.foldr (fun w a => w / 4 + 2 ^ 14 * a) 0
  let n := (14 * ws.length + 63) / 64 * 8
  leBytes n v

/-- The gang width of a channel as LNK_CFG sets it (R45). -/
def State.ringGang (s : State) (c : Nat) : Nat :=
  let g := if c % 8 < 4 then s.fget (R.LNK_CFG (c / 8)) F.LNK_CFG_GANG_LO else s.fget (R.LNK_CFG (c / 8)) F.LNK_CFG_GANG_HI
  if g = 2 then 4 else if g = 1 then 2 else 1

/-- RATE of positions of a channel's capture tap that lie a period apart (R172, R273). -/
def State.rateAt (s : State) (c period : Nat) : Nat :=
  let ddc := R.CND_DDC_CFG (c / 8) (c % 8)
  let d := if s.capZoom c then 2 ^ s.fget ddc F.CND_DDC_CFG_RC_EXP * (if s.flag ddc F.CND_DDC_CFG_RF then 4 else 2) else 1
  s.rateOf c (period * s.ringGang c / (256 * d)) (s.ringGang c) (s.capZoom c)

/-- The open RAW record of a channel closes (R280). -/
def State.rawClose (s : State) (c close : Nat) : State :=
  match Tab.get (fun _ => none) s.recs.raws c with
  | none => s
  | some x =>
    let cfg := R.QUL_CH_CFG (c / 8) (c % 8)
    let pack := s.flag cfg F.QUL_CH_CFG_RAW_PACK
    let wpp := if s.capZoom c then 2 else 1
    let ws := words16 x.data
    let npos := x.data.length / (2 * wpp)
    let runs := if pack then flagRuns 0 ws else []
    let payload := if pack then
        packWords ws ++ runs.foldl (fun b r => b ++ leBytes 4 r.1 ++ leBytes 2 r.2.1 ++ leBytes 1 r.2.2 ++ leBytes 1 0) []
      else x.data
    let st : Int := x.start.stamp + ((x.first - x.start.first) * x.start.period : Nat)
    let covered (n : Nat) : Nat := min npos (((if pack then (8 * n + 13) / 14 else (n + 1) / 2) + wpp - 1) / wpp)
    let th := leBytes 2 c ++ leBytes 1 (if pack then 1 else 0) ++ leBytes 1 wpp ++ leBytes 1 (st % 256).toNat
      ++ leBytes 3 0 ++ leBytes 4 x.start.period ++ leBytes 4 runs.length ++ leBytes 8 x.first ++ leBytes 8 npos
    let s1 := { s with recs := { s.recs with raws := Tab.put (fun _ => none) s.recs.raws c none } }
    if npos = 0 then s1
    else
      let s2 := s1.pushRecord
        { rtype := rtRaw, stream := s.fget cfg F.QUL_CH_CFG_RAW_STREAM, source := c, flags := 0,
          content := fun n => wordFlags (x.data.take (covered n * 2 * wpp)) + (if x.gap then fGap else 0)
            + (match x.memErr with
              | some i => if i < covered n then fMemErr else 0
              | none => 0),
          t := st, endAt := fun n => st + ((covered n - 1) * x.start.period : Nat), rate := s.rateAt c x.start.period, close := close, thLen := 32 } (payload ++ th)
      let s3 := if s.recordGoes (s.fget cfg F.QUL_CH_CFG_RAW_STREAM) rtRaw then s2.count (R.QUL_RAW_REC_CNT (c / 8) (c % 8)) 1 else s2
      if close = clOverrun then
        ((s3.raise vREC 4).count (R.QUL_RAW_OVR_CNT (c / 8) (c % 8)) 1).raise (vQUL (c / 8)) 0
      else if close = clBreak then s3.raise (vQUL (c / 8)) 1 else s3

/-- Raw streaming reads one committed position: it opens a record, closes one at a break or where it is full, and after
an overwritten position goes on at the first one held (R280). -/
def State.rawStep (s : State) (c : Nat) : State :=
  let cfg := R.QUL_CH_CFG (c / 8) (c % 8)
  let p0 := Tab.get (fun _ => 0) s.recs.rawNext c
  let lost := decide (p0 < s.heldFrom c)
  let s0 := if lost then s.rawClose c clOverrun else s
  let p := if lost then s.heldFrom c else p0
  let ring := s0.ring c
  if ring.done ≤ p then s0
  else
    match dirAt ring.dir p with
    | none => s0
    | some e =>
      let open_ := Tab.get (fun _ => none) s0.recs.raws c
      let brk := open_.isSome && decide (e.first = p)
      let s1 := if brk then s0.rawClose c clBreak else s0
      let x : RawRec := match Tab.get (fun _ => none) s1.recs.raws c with
        | some r => r
        | none => ⟨p, e, [], lost || (decide (e.first = p) && decide (p ≠ 0)), none⟩
      let bad := s1.posLost c p
      let y : RawRec := { x with data := x.data ++ s1.posRead c p, memErr := if bad then some (x.memErr.getD (p - x.first)) else x.memErr }
      let at_ := s1.posOffset c p
      let s1b := if bad && (decide (at_ % 32 = 0) || decide (p = x.first)) then s1.badBurstAt at_ 2 3 else s1
      let s1c := s1b.readTouch c p (p + 1)
      let s2 := { s1c with recs := { s1c.recs with
        raws := Tab.put (fun _ => none) s1c.recs.raws c (some y),
        rawNext := Tab.put (fun _ => 0) s1c.recs.rawNext c (p + 1) } }
      if 2 ^ s2.fget cfg F.QUL_CH_CFG_RAW_EXP * s2.posBytes c ≤ y.data.length then s2.rawClose c clNormal else s2

/-- Raw streaming of a channel reads every committed position. -/
def State.rawAdvance (s : State) (c : Nat) : Nat → State
  | 0 => s
  | n + 1 => (s.rawStep c).rawAdvance c n

/-- Raw streaming of a channel goes on where RAW_EN is 1. -/
def State.buildRaw (s : State) (c : Nat) : State :=
  if s.flag (R.QUL_CH_CFG (c / 8) (c % 8)) F.QUL_CH_CFG_RAW_EN then
    s.rawAdvance c ((s.ring c).done - Tab.get (fun _ => 0) s.recs.rawNext c)
  else s

/-! ### Uncorrectable bursts in open records -/

/-- The words of a range of positions that an open record of the builder holds become 0x0001 (R180). -/
def spoil (from_ count wpp first : Nat) (data : List Byte) : List Byte :=
  (upTo (data.length / (2 * wpp))).foldl (fun b i =>
    let p := first + i
    b ++ (if from_ ≤ p ∧ p < from_ + count then (List.replicate wpp [0x01#8, 0x00#8]).foldl (· ++ ·) []
      else (data.drop (i * 2 * wpp)).take (2 * wpp))) []

/-- The index of the first replaced position, once those from a position on are, of npos positions from first on. -/
def spoiled (from_ npos first : Nat) (bad : Option Nat) : Option Nat :=
  let i := from_ - first
  if i < npos then some (match bad with
    | some j => min i j
    | none => i)
  else bad

/-- An uncorrectable burst that the record builder read from the ring of channel c: the words of the positions it covers in
the open records are replaced, and those records carry MEM_ERR (R180). -/
def State.builderBurst (s : State) (c off : Nat) : State :=
  let b := s.posBytes c
  let base := (s.rd (R.BOB_RING_BASE c)).toNat % 2 ^ 20 * 65536
  let burst := off / 32 * 32
  let cap := s.ringBytes c / b
  let slot := (burst - base) / b
  let at_ (first : Nat) : Nat := first + (slot + cap - first % max 1 cap) % max 1 cap
  let s1 := s.mapWaves (fun w =>
    { w with chans := w.chans.map (fun x =>
        if x.ch = c then { x with
          data := spoil (at_ x.first) (32 / b) x.wpp x.first x.data, bad := spoiled (at_ x.first) x.npos x.first x.bad }
        else x) })
  match Tab.get (fun _ => none) s1.recs.raws c with
  | none => s1
  | some x =>
    let y : RawRec := { x with 
      data := spoil (at_ x.first) (32 / b) (b / 2) x.first x.data, memErr := spoiled (at_ x.first) (x.data.length / b) x.first x.memErr }
    { s1 with recs := { s1.recs with raws := Tab.put (fun _ => none) s1.recs.raws c (some y) } }

/-! ### Committing -/

/-- The bytes that the ring's present unit still takes. -/
def State.unitRoom (s : State) (c : Nat) : Nat := 256 - (s.ring c).done * s.posBytes c % 256

/-- A unit of a ring is about to be written, n of its bytes from an HBM offset on, behind the requests that wait for it (R176): where it is
written partly, it is read first, and one that was lost gives an uncorrectable burst; after the write it is lost no more (R169, R181). -/
def State.unitMerge (s0 : State) (off n : Nat) : State :=
  let s := s0.unitSettle off
  if s.unitLost off then (if n < 256 then s.badBurstAt off 1 3 else s).unitWhole off else s

/-- The units that n positions of a ring from p on fill, each about to be written. -/
def State.unitsMerge (s : State) (c : Nat) : Nat → Nat → Nat → State
  | 0, _, _ => s
  | fuel + 1, p, n =>
    let off := s.posOffset c p
    let k := min n ((256 - off % 256) / s.posBytes c)
    if n = 0 then s else (s.unitMerge off (k * s.posBytes c)).unitsMerge c fuel (p + k) (n - k)

/-- The first n bytes of a ring's write buffer are written to HBM and their positions are committed (R169). -/
def State.ringCommit (s0 : State) (c n : Nat) : State :=
  let s := s0.unitsMerge c (n / 256 + 2) (s0.ring c).done (n / s0.posBytes c)
  let x := s.ring c
  let b := s.posBytes c
  let bytes := x.buf.take n
  let s1 := (upTo (n / b)).foldl (fun y i =>
    y.hbmWrite (s.posOffset c (x.done + i)) ((bytes.drop (i * b)).take b)) s
  let rest := x.buf.drop n
  let s2 := ((s1.setRing c { x with
    done := x.done + n / b, buf := rest, since := if rest.isEmpty then [] else x.since.drop 1 }).stackTouch
    (stackOf (s.posOffset c x.done))).fset (R.BOB_RING_STATUS c) F.BOB_RING_STATUS_MERGING (if rest.isEmpty then 0 else 1)
  ((s2.setPair (R.BOB_RING_WPOS_LO c) (R.BOB_RING_WPOS_HI c) (x.done + n / b)).buildWaves).buildRaw c

/-- A partial unit of a ring is written (R169). -/
def State.ringFlush (s : State) (c : Nat) : State :=
  if (s.ring c).buf.isEmpty then s else s.ringCommit c (s.ring c).buf.length

end Sys2Proof.Machine
end

