-- ==== Sys2Proof/Machine/TrdOps.lean ====
section
/-!
DEFINITION. Operations of the slice trigger front ends and the Treadle: bus changes (R126, R136), primitive units (R127 to
R131), literals, terms and sum lines (R136 to R138), outputs (R140), sheds (R149 to R158), taint (R147, R148).
-/

namespace Sys2Proof.Machine

/-- Bit n of a number. -/
def nbit (v n : Nat) : Bool := decide (v / 2 ^ n % 2 = 1)

/-- The Treadle's state replaced. -/
def State.setTrd (s : State) (x : TrdSt) : State := { s with trd := x }

/-- Warp time in 1/256 beat. -/
def State.wt256 (s : State) : Nat := s.wt * 256 + s.nowFrac

/-- The changes of bus bit i that reached the matrix, newest first. -/
def State.busHist (s : State) (i : Nat) : List BusChg := Tab.get (fun _ => []) s.trd.bus i

/-- The slice whose front end drives bus bit i, for the bits a slice drives (R126). -/
def busSlice (i : Nat) : Option Nat :=
  if i < 192 then some (i / 8) else if i < 576 then some ((i - 192) / 16) else none

/-- The primitives and spectral conditions evaluate (R141). -/
def State.evaluates (s : State) : Bool := s.runState == rsRunning || s.runState == rsStopping

/-- A change of bus bit i on its way: in one beat a first rise keeps its stamp, a fall in the beat of a rise takes effect in the next,
and a rise after it leaves the bit at 1 (R130). An absent slice drives nothing (R159). -/
def State.pushBus (s : State) (i : Nat) (x : BusChg) : State :=
  let absent := match busSlice i with
    | some n => s.bit R.TRD_SLICE_ABSENT n
    | none => false
  let riseNow := s.trd.coming.any (fun c => decide (c.1 = i) && c.2.bit && decide (c.2.beat = x.beat))
  if absent then s
  else if x.bit then
    let before := s.trd.coming.filter (fun c => !(decide (c.1 = i) && !c.2.bit && decide (x.beat < c.2.beat)))
    s.setTrd { s.trd with coming := if riseNow then before else before ++ [(i, x)] }
  else
    let y := if riseNow then { x with beat := x.beat + 1 } else x
    s.setTrd { s.trd with coming := s.trd.coming ++ [(i, y)] }

/-- A bus bit that is 1 for one beat (R130, R139, R360). -/
def State.pulseBus (s : State) (i beat : Nat) (stamp : Int) (basis : Basis) (taint : Bool) : State :=
  (s.pushBus i ⟨beat, true, some stamp, basis, taint⟩).pushBus i ⟨beat + 1, false, none, .plain, false⟩

/-- Beats over which a bus history is kept: the longest delay and the longest window (R136). -/
def busSpan : Nat := 16383 + 65536

/-- A bus history with its part beyond the span cut, but for the newest change in it. -/
def pruneHist (from_ : Nat) : List BusChg → List BusChg
  | [] => []
  | x :: t => if x.beat < from_ then [x] else x :: pruneHist from_ t

/-- The changes that have reached the matrix join their bits' histories. -/
def State.busApply (s : State) : State :=
  let due := s.trd.coming.filter (fun c => decide (c.2.beat ≤ s.beats))
  let rest := s.trd.coming.filter (fun c => !decide (c.2.beat ≤ s.beats))
  let bus := due.foldl (fun b c =>
    let h := Tab.get (fun _ => []) b c.1
    Tab.put (fun _ => []) b c.1 (c.2 :: pruneHist (s.beats - busSpan) h)) s.trd.bus
  s.setTrd { s.trd with coming := rest, bus := bus }

/-- Input i is active: enabled, and at the level that POL makes active (R139). -/
def State.inActive (s : State) (i : Nat) : Bool :=
  nbit (s.fget R.TRD_IN_CFG F.TRD_IN_CFG_EN) i
    && (nbit s.trd.inPins i != nbit (s.fget R.TRD_IN_CFG F.TRD_IN_CFG_POL) i)

/-- TRIG_IN input i drives its bus bit 1 beat later where its activity has changed against an earlier state (R139). -/
def State.inDrives (s old : State) (i : Nat) (stamp : Option Int) : State :=
  if s.inActive i = old.inActive i then s
  else s.pushBus (608 + i) ⟨s.beats + 1, s.inActive i, if s.inActive i then stamp else none, .plain, false⟩

/-- A write of TRD_IN_CFG takes effect on the inputs; a bit that becomes 1 by it has no edge at the pin and carries no stamp (R139; log
entry 210). -/
def State.inWritten (s old : State) : State := (upTo 8).foldl (fun x i => x.inDrives old i none) s

/-! ### Literals and terms -/

/-- The bit in beat b by a history, newest first. -/
def bitAt : List BusChg → Nat → Bool
  | [], _ => false
  | x :: t, b => if x.beat ≤ b then x.bit else bitAt t b

/-- The latest rising event in or before beat b that carries a stamp. -/
def riseAt : List BusChg → Nat → Option BusChg
  | [], _ => none
  | x :: t, b => if x.beat ≤ b ∧ x.stamp.isSome then some x else riseAt t b

/-- The delayed bit of a literal in beat b: 0 for its first DELAY beats of a run (R136, R141). -/
def State.litBit (s : State) (m j b : Nat) : Bool :=
  let a := R.TRD_LIT_A m j
  let d := (s.rd (R.TRD_LIT_B m j)).toNat % 2 ^ 14
  if b < s.trd.runBeat + d then false
  else (bitAt (s.busHist (s.fget a F.TRD_LIT_A_INPUT)) (b - d)) != s.flag a F.TRD_LIT_A_INV

/-- The delayed bit rises in beat e. -/
def State.litRises (s : State) (m j e : Nat) : Bool := s.litBit m j e && !(decide (0 < e) && s.litBit m j (e - 1))

/-- The value of a literal in beat b: the delayed bit, or in EDGE mode 1 for WIN beats from each rise (R136). -/
def State.litValue (s : State) (m j b : Nat) : Bool :=
  let a := R.TRD_LIT_A m j
  if s.flag a F.TRD_LIT_A_MODE then
    let d := (s.rd (R.TRD_LIT_B m j)).toNat % 2 ^ 14
    let win := max 1 (s.fget a F.TRD_LIT_A_WIN)
    let edges := (s.trd.runBeat + d) :: (s.busHist (s.fget a F.TRD_LIT_A_INPUT)).map (fun x => x.beat + d)
    edges.any (fun e => decide (e ≤ b) && decide (b < e + win) && s.litRises m j e)
  else s.litBit m j b

/-- The rising event whose stamp a literal carries in beat b; an inverted literal carries none (R136). -/
def State.litEvent (s : State) (m j b : Nat) : Option BusChg :=
  let a := R.TRD_LIT_A m j
  let d := (s.rd (R.TRD_LIT_B m j)).toNat % 2 ^ 14
  if s.flag a F.TRD_LIT_A_INV ∨ b < d then none else riseAt (s.busHist (s.fget a F.TRD_LIT_A_INPUT)) (b - d)

/-- The enabled literals of a term. -/
def State.litsOf (s : State) (m : Nat) : List Nat := (upTo 8).filter (fun j => s.flag (R.TRD_LIT_A m j) F.TRD_LIT_A_EN)

/-- The value of a term in beat b (R137). -/
def State.termValue (s : State) (m b : Nat) : Bool :=
  let ls := s.litsOf m
  !ls.isEmpty && ls.all (fun j => s.litValue m j b)

/-- The values of all terms, bit m for term m. -/
def State.termBits (s : State) (b : Nat) : Nat :=
  (upTo 64).foldl (fun v m => if s.termValue m b then v + 2 ^ m else v) 0

/-- Sum line L is the OR of its terms (R138). -/
def State.sumValue (s : State) (terms l : Nat) : Bool :=
  let mask := s.pair (R.TRD_SUM_MASK_LO l) (R.TRD_SUM_MASK_HI l)
  (upTo 64).any (fun m => nbit mask m && nbit terms m)

/-- The trigger time of a firing and whether it is coarse (R137). A TREF that names a literal whose EN is 0 gives the coarse time (log entry 255). -/
def State.fireTime (s : State) (m b : Nat) : Int × Bool :=
  let tref := s.fget (R.TRD_TERM_CFG m) F.TRD_TERM_CFG_TREF
  let lit : Option Nat := if tref < 8 then some tref
    else (s.litsOf m).find? (fun j => s.litValue m j b && !(decide (0 < b) && s.litValue m j (b - 1)))
  let ev := match lit with
    | some j => if (s.litsOf m).contains j then s.litEvent m j b else none
    | none => none
  match ev with
  | some e => (e.stamp.getD 0, false)
  | none => ((s.wt256 : Int), true)

/-- The firing of a term in the present beat: its time, and the events its literals hold (R137, R148). -/
def State.firingOf (s : State) (m : Nat) (lines : List Nat) : Firing :=
  let inputs := (s.litsOf m).filterMap (fun j =>
    (s.litEvent m j s.beats).map (fun e => (s.fget (R.TRD_LIT_A m j) F.TRD_LIT_A_INPUT, e.stamp.getD 0)))
  ⟨s.beats, m, (s.fireTime m s.beats).1, inputs, lines, false⟩

/-! ### Taint -/

/-- The lowest of some numbers, with a value for none. -/
def lowest (d : Nat) (xs : List Nat) : Nat := xs.foldl (fun a x => if x < a then x else a) d

/-- The tainted inputs of a firing. -/
def State.taintedInputs (s : State) (f : Firing) : List Nat :=
  (f.inputs.filter (fun p => (s.busHist p.1).any (fun x => x.taint && decide (x.stamp = some p.2)))).map (fun p => p.1)

/-- A firing becomes tainted: its entry, its count, and the flag on its records (R148, R487). -/
def State.taintFiring (s : State) (f : Firing) : State :=
  let ins := s.taintedInputs f
  let a0 := (f.time % 256).toNat + 2 ^ 8 * lowest 1023 ins + 2 ^ 18 * min 127 ins.length
    + 2 ^ 25 * (lowest 127 f.lines % 128)
  let s1 := (s.event vTRD 2 sevWarning f.term a0 (unsigned 64 (f.time / 256))).count R.TRD_TAINT_TRIG_CNT 1
  let sheds := (f.lines.filter (fun l => decide (16 ≤ l))).map (fun l => l - 16)
  let hit := s1.recs.waves.filter (fun w => sheds.contains w.shed && decide (w.fired = f.beat))
  let s2 := hit.foldl (fun x w => x.fon (R.TRD_SHED_STATUS w.shed) F.TRD_SHED_STATUS_TAINTED_TRIG) s1
  s2.mapWaves (fun w => if sheds.contains w.shed && decide (w.fired = f.beat) then { w with taintedTrig := true } else w)

/-- Firings with a tainted event, within their retention, become tainted (R148). -/
def State.settleFirings (s : State) : State :=
  let bad (f : Firing) : Bool := !f.tainted && decide (s.beats ≤ f.beat + 1024) && !(s.taintedInputs f).isEmpty
  let hits := s.trd.firings.filter bad
  let s1 := s.setTrd { s.trd with firings := s.trd.firings.map (fun f => if bad f then { f with tainted := true } else f) }
  hits.foldl (fun x f => x.taintFiring f) s1

/-- Events that a test picks become tainted and are counted for their slice (R147). -/
def State.taintWhere (s : State) (n : Nat) (p : BusChg → Bool) : State :=
  let hit (x : BusChg) : Bool := !x.taint && p x && decide (s.beats ≤ x.beat + 1024)
  let mark (x : BusChg) : BusChg := if hit x then { x with taint := true } else x
  let num := s.trd.bus.foldl (fun k e => k + (e.2.filter hit).length) 0
    + (s.trd.coming.filter (fun c => hit c.2)).length
  let s1 := s.setTrd { s.trd with
    bus := s.trd.bus.map (fun e => (e.1, e.2.map mark)),
    coming := s.trd.coming.map (fun c => (c.1, mark c.2)) }
  if num = 0 then s1
  else ((s1.count (R.STR_TAINT_EVT_CNT n) num).raise (vSTR n) 0).settleFirings

/-- A notice marks what a primitive unit holds of the samples that it covers, for the events still to be decided from them (R147). -/
def PrimSt.noticed (p : PrimSt) (w : Stretch) : PrimSt :=
  let top := match p.vals with
    | x :: _ => x.hi
    | [] => p.from_ - 1
  { p with
    vals := p.vals.map (fun x => if w.meets x.lo x.hi then { x with taint := true } else x),
    taint := p.taint || w.meets p.from_ top }

/-- A taint notice reaches the front end of its slice (R83, R147). -/
def State.taintSamples (s : State) (c : Nat) (w : Stretch) : State :=
  let s1 := s.setTrd { s.trd with prims := s.trd.prims.map (fun e => if e.1 = c then (e.1, e.2.noticed w) else e) }
  s1.taintWhere (c / 8) (fun x => match x.basis with
    | .samples ch lo hi => decide (ch = c) && w.meets lo hi
    | _ => false)

/-- A late-taint mark reaches the Treadle (R121, R147). -/
def State.taintSpectrum (s : State) (c index : Nat) : State :=
  s.taintWhere (c / 8) (fun x => match x.basis with
    | .spectrum ch j => decide (ch = c) && decide (j = index)
    | _ => false)

/-! ### Primitive units -/

/-- The tests of R128 for a kind: whether v or d falls to LOW, and whether it rises to HIGH. -/
def primTests (kind : Nat) (a b h v : Int) (d : Option Int) : Bool × Bool :=
  match kind with
  | 1 => (decide (v < a - h), decide (a ≤ v))
  | 2 => (decide (a + h < v), decide (v ≤ a))
  | 3 => (decide (a + h < v) || decide (v < b - h), decide (b ≤ v) && decide (v ≤ a))
  | 4 => (decide (b + h ≤ v) && decide (v ≤ a - h), decide (a < v) || decide (v < b))
  | 5 => match d with
    | some x => (decide (x < a - h), decide (a ≤ x))
    | none => (false, false)
  | 6 => match d with
    | some x => (decide (-a + h < x), decide (x ≤ -a))
    | none => (false, false)
  | _ => (false, false)

/-- The next state of a unit on the tests (R128). -/
def primNext (st : Nat) (t : Bool × Bool) : Nat :=
  if st = 0 then (if t.1 then 1 else 0) else if st = 1 then (if t.2 then 2 else 1) else (if t.1 then 1 else 2)

/-- What a primitive unit's step decides: an event, the first grid position it was decided from, and whether it is tainted. -/
structure PrimEvent where
  event : Bool
  lo : Int
  taint : Bool
  deriving DecidableEq, Repr

/-- What a primitive unit does with a value that reaches the Treadle in a beat: its next state, and the event (R128 to R130, R147). -/
def primStep (cfg thr width : Word) (hyst due : Nat) (p : PrimSt) (x : PrimVal) : PrimSt × PrimEvent :=
  let kind := fieldOf cfg F.STR_PRIM_CFG_KIND
  let qual := fieldOf cfg F.STR_PRIM_CFG_QUAL
  let span := fieldOf cfg F.STR_PRIM_CFG_SPAN + 1
  let a := signed 16 (fieldOf thr F.STR_PRIM_THR_THR_A)
  let b := signed 16 (fieldOf thr F.STR_PRIM_THR_THR_B)
  let wmin := fieldOf width F.STR_PRIM_WIDTH_WMIN
  let wmax := fieldOf width F.STR_PRIM_WIDTH_WMAX
  let old := p.vals[span - 1]?
  let st := primNext p.st (primTests kind a b hyst x.v (old.map (fun o => x.v - o.v)))
  let r0 := p.st == 2
  let r1 := st == 2
  let w := if r1 then (if r0 then min 65535 (p.width + 1) else 1) else p.width
  let idle := if st = 1 then (if p.st = 1 then p.idle + 1 else 1) else 0
  let slope := decide (5 ≤ kind)
  let own := if slope then (old.map (fun o => o.lo)).getD x.lo else x.lo
  let ownTaint := x.taint || (slope && (p.vals.take span).any (fun o => o.taint))
  let runFrom := if st = p.st then p.from_ else own
  let runTaint := ownTaint || (decide (st = p.st) && p.taint)
  let timeout := decide (st = 1) && decide (idle = wmin) && !p.fired
  let ended := r0 && !r1
  let event := match qual with
    | 0 => r1 && !r0
    | 1 => r1 && decide (wmin ≤ w) && !p.out
    | 2 => ended && decide (p.width ≤ wmax)
    | 3 => ended && decide (wmin ≤ p.width) && decide (p.width ≤ wmax)
    | 4 => timeout
    | _ => false
  let level := match qual with
    | 0 => r1
    | 1 => r1 && decide (wmin ≤ w)
    | _ => false
  let basisFrom := if qual = 0 then own else if ended then min p.from_ own else min runFrom own
  let taint := if qual = 0 then ownTaint else if ended then p.taint || ownTaint else runTaint
  (⟨st, w, idle, (x :: p.vals).take 16, runFrom, level,
    if r1 then false else (p.fired || (decide (qual = 4) && timeout)), runTaint, due,
    level || (decide (p.due = due) && p.high)⟩, ⟨event, basisFrom, taint⟩)

/-- The value a unit compares, in 1/4 LSB (R127). -/
def primValue (cfg : Word) (x : TapSamp) : Int :=
  if fieldOf cfg F.STR_PRIM_CFG_TAP = 2 then
    clampInt (-32768) 32767 (roundConv (if fieldOf cfg F.STR_PRIM_CFG_ZSEL = 1 then x.im else x.re) 8)
  else x.re

/-- The beat in which what a tap releases in a beat reaches the Treadle: 10 beats later, or 1 or 2 more for slopes and qualifiers (R131). -/
def primDue (cfg : Word) (released : Nat) : Nat :=
  released + 10 + (if 5 ≤ fieldOf cfg F.STR_PRIM_CFG_KIND then 1 else 0) + (if fieldOf cfg F.STR_PRIM_CFG_QUAL = 0 then 0 else 1)

/-- The output of a primitive unit falls: its bus bit stays 1 for the beat where an earlier sample of the beat left the output at 1
(R130). -/
def State.primFall (s : State) (c due : Nat) (p : PrimSt) : State :=
  s.pushBus c ⟨if p.due = due ∧ p.high then due + 1 else due, false, none, .plain, false⟩

/-- A position is missing for the primitive unit of channel c, in the beat in which its tap would have released it: the unit goes
UNKNOWN, and its output with it (R128, R130). -/
def State.primLost (s : State) (c base : Nat) : State :=
  let cfg := s.rd (R.STR_PRIM_CFG (c / 8) (c % 8))
  let kind := fieldOf cfg F.STR_PRIM_CFG_KIND
  let p := Tab.get (fun _ => PrimSt.init) s.trd.prims c
  if !s.evaluates || decide (kind = 0) || decide (7 ≤ kind) then s
  else
    let s1 := s.setTrd { s.trd with
      prims := Tab.put (fun _ => PrimSt.init) s.trd.prims c { p.unknown with out := false } }
    let due := primDue cfg base
    if p.out then s1.primFall c due p else s1

/-- An event of the primitive unit of channel c is counted, and as tainted where it is (R147, R161). -/
def State.primCount (s : State) (c : Nat) (e : PrimEvent) : State :=
  let s1 := if e.event then s.count (R.STR_PRIM_CNT (c / 8) (c % 8)) 1 else s
  if e.event && e.taint then (s1.count (R.STR_TAINT_EVT_CNT (c / 8)) 1).raise (vSTR (c / 8)) 0 else s1

/-- A sample of tap 0 (C), 1 (M) or 2 (Z) reaches the primitive unit of channel c, released in a beat (R130, R131); one taken before
run start, or at run stop or after it, is not analysed (R22, R141). -/
def State.primSample (s : State) (c tap : Nat) (released : Nat) (x : TapSamp) : State :=
  let n := c / 8
  let l := c % 8
  let cfg := s.rd (R.STR_PRIM_CFG n l)
  let kind := fieldOf cfg F.STR_PRIM_CFG_KIND
  if !s.captured x.taken || decide (kind = 0) || decide (7 ≤ kind) || decide (fieldOf cfg F.STR_PRIM_CFG_TAP ≠ tap) then s
  else
    let p0 := Tab.get (fun _ => PrimSt.init) s.trd.prims c
    let p := if x.brk then { p0.unknown with out := false } else p0
    let due := primDue cfg released
    let (q, e) := primStep cfg (s.rd (R.STR_PRIM_THR n l)) (s.rd (R.STR_PRIM_WIDTH n l))
      (s.fget (R.STR_PRIM_HYST n l) F.STR_PRIM_HYST_HYST) due p ⟨primValue cfg x, x.lo, x.hi, x.taint⟩
    let basis : Basis := .samples c e.lo x.hi
    let s1 := State.primCount (s.setTrd { s.trd with prims := Tab.put (fun _ => PrimSt.init) s.trd.prims c q }) c e
    if 2 ≤ fieldOf cfg F.STR_PRIM_CFG_QUAL then
      (if e.event then s1.pulseBus c due x.stamp basis e.taint else s1)
    else if q.out && !p0.out then s1.pushBus c ⟨due, true, some x.stamp, basis, e.taint⟩
    else if !q.out && p0.out then s1.primFall c due p
    else s1

/-! ### The three copies -/

/-- A register of the Treadle or of a slice's trigger front end. -/
def tmrReg (a : Nat) : Bool := vectorOf a == vTRD || (decide (0x100000 ≤ a) && decide (a < 0x280000) && decide (vectorOf a % 8 = 3))

/-- Bits of a number as a flag. -/
def flagBits (b : Bool) : Nat := if b then 1 else 0

/-- A stamp as a word of 72 bits. -/
def stampWord (x : Option Int) : Nat := (x.map (fun t => unsigned 72 t)).getD 0

/-- A field of a value that a primitive unit holds: 0 the value, 1 and 2 its span, 3 its taint. -/
def PrimVal.word (x : PrimVal) (j : Nat) : Nat :=
  if j = 0 then unsigned 17 x.v else if j = 1 then unsigned 72 x.lo else if j = 2 then unsigned 72 x.hi else flagBits x.taint

/-- That field takes another value. -/
def PrimVal.put (x : PrimVal) (j v : Nat) : PrimVal :=
  if j = 0 then { x with v := signed 17 v } else if j = 1 then { x with lo := signed 72 v }
  else if j = 2 then { x with hi := signed 72 v } else { x with taint := nbit v 0 }

/-- A word of a primitive unit: 0 its state, 1 the width, 2 the idle length, 3 its flags, 4 where the present run began, 5 the beat of its latest
sample, and from 8 on the values it holds, four words each. -/
def PrimSt.word (p : PrimSt) (j : Nat) : Nat :=
  if j = 0 then p.st else if j = 1 then p.width else if j = 2 then p.idle
  else if j = 3 then flagBits p.out + 2 * flagBits p.fired + 4 * flagBits p.taint + 8 * flagBits p.high
  else if j = 4 then unsigned 72 p.from_ else if j = 5 then p.due
  else (p.vals[(j - 8) / 4]?.map (fun x => x.word (j % 4))).getD 0

/-- That word takes another value. -/
def PrimSt.put (p : PrimSt) (j v : Nat) : PrimSt :=
  if j = 0 then { p with st := v % 4 } else if j = 1 then { p with width := v % 2 ^ 16 } else if j = 2 then { p with idle := v }
  else if j = 3 then { p with out := nbit v 0, fired := nbit v 1, taint := nbit v 2, high := nbit v 3 }
  else if j = 4 then { p with from_ := signed 72 v } else if j = 5 then { p with due := v }
  else { p with vals := p.vals.modify ((j - 8) / 4) (fun x => x.put (j % 4) v) }

/-- A word of a change of a bus bit: 0 the bit, 1 its stamp, 2 its taint. -/
def BusChg.word (x : BusChg) (j : Nat) : Nat :=
  if j = 0 then flagBits x.bit else if j = 1 then stampWord x.stamp else flagBits x.taint

/-- That word takes another value; a change without a stamp has none to lose. -/
def BusChg.put (x : BusChg) (j v : Nat) : BusChg :=
  if j = 0 then { x with bit := nbit v 0 } else if j = 1 then { x with stamp := x.stamp.map (fun _ => signed 72 v) }
  else { x with taint := nbit v 0 }

/-- A word of a shed beyond its registers. -/
def ShedSt.word (k : ShedSt) (j : Nat) : Nat :=
  if j = 0 then k.segment else if j = 1 then k.acq else if j = 2 then k.missed else if j = 3 then k.edges
  else if j = 4 then k.armWt else k.firedBeat

/-- That word takes another value. -/
def ShedSt.put (k : ShedSt) (j v : Nat) : ShedSt :=
  if j = 0 then { k with segment := v } else if j = 1 then { k with acq := v } else if j = 2 then { k with missed := v }
  else if j = 3 then { k with edges := v } else if j = 4 then { k with armWt := v } else { k with firedBeat := v }

/-- A word of the state that is held in three copies, as the vote gives it (R144): 0 a register; 1 a mask entry; 2 the state of a
primitive unit; 3 of a spectral condition unit; 4 a delay line or EDGE window, by the changes it holds, three words each; 5 the terms and sum
lines; 6 the output stages; 7 a shed; 8 a change on its way to the matrix. -/
def State.tmrWord (s : State) (x : TmrCell) : Nat :=
  match x.group with
  | 0 => if tmrReg x.i then (s.rd x.i).toNat else 0
  | 1 => (Tab.get (fun _ => 0x0000FFFF#32) s.trd.masks x.i).toNat
  | 2 => (Tab.get (fun _ => PrimSt.init) s.trd.prims x.i).word x.j
  | 3 =>
    let u := Tab.get (fun _ => ScSt.init) s.trd.scs x.i
    if x.j = 0 then u.count else flagBits u.value
  | 4 => ((s.busHist x.i)[x.j / 3]?.map (fun c => c.word (x.j % 3))).getD 0
  | 5 => if x.j = 0 then s.trd.terms else s.trd.sums
  | 6 => if x.j = 0 then s.trd.pins else Tab.get (fun _ => 0) s.trd.pulses x.i
  | 7 => (Tab.get (fun _ => ShedSt.init) s.trd.sheds x.i).word x.j
  | _ => (s.trd.coming[x.i]?.map (fun c => c.2.word x.j)).getD 0

/-- A word of the state that is held in three copies takes another value. -/
def State.tmrPut (s : State) (x : TmrCell) (v : Nat) : State :=
  match x.group with
  | 0 => if tmrReg x.i then s.wr x.i (w32 v) else s
  | 1 => s.setTrd { s.trd with masks := Tab.put (fun _ => 0x0000FFFF#32) s.trd.masks x.i (w32 v) }
  | 2 =>
    let p := Tab.get (fun _ => PrimSt.init) s.trd.prims x.i
    s.setTrd { s.trd with prims := Tab.put (fun _ => PrimSt.init) s.trd.prims x.i (p.put x.j v) }
  | 3 =>
    let u := Tab.get (fun _ => ScSt.init) s.trd.scs x.i
    let y := if x.j = 0 then { u with count := v % 256 } else { u with value := nbit v 0 }
    s.setTrd { s.trd with scs := Tab.put (fun _ => ScSt.init) s.trd.scs x.i y }
  | 4 =>
    let h := (s.busHist x.i).modify (x.j / 3) (fun c => c.put (x.j % 3) v)
    s.setTrd { s.trd with bus := Tab.put (fun _ => []) s.trd.bus x.i h }
  | 5 => s.setTrd (if x.j = 0 then { s.trd with terms := v % 2 ^ 64 } else { s.trd with sums := v % 2 ^ 80 })
  | 6 => s.setTrd (if x.j = 0 then { s.trd with pins := v % 2 ^ 16 }
      else { s.trd with pulses := Tab.put (fun _ => 0) s.trd.pulses x.i v })
  | 7 =>
    let k := Tab.get (fun _ => ShedSt.init) s.trd.sheds x.i
    s.setTrd { s.trd with sheds := Tab.put (fun _ => ShedSt.init) s.trd.sheds x.i (k.put x.j v) }
  | _ => s.setTrd { s.trd with coming := s.trd.coming.modify x.i (fun c => (c.1, c.2.put x.j v)) }

/-- The bits of a word in which copy k differs from the vote in this beat (R145). -/
def State.copyDiff (s : State) (k : Nat) (x : TmrCell) : Nat :=
  match s.trd.upset.find? (fun e => decide (e.1 = k) && decide (e.2.1 = x)) with
  | some e => e.2.2
  | none => 0

/-- What copy k holds of a word: what the vote gives, but for the bits that an upset has turned over in this beat. What is written or changes in
the beat reaches every copy (R144, R145). -/
def State.copyWord (s : State) (k : Nat) (x : TmrCell) : Nat := s.tmrWord x ^^^ s.copyDiff k x

/-- The vote of three copies, bit by bit, two out of three (R145). -/
def vote3 (a b c : Nat) : Nat := (a &&& b) ||| (a &&& c) ||| (b &&& c)

/-- Bits of a word turn over in copy k. The vote of the three copies is what acts from then on: where the other two agree, that is what
they hold (R145). -/
def State.upsetWord (s : State) (k : Nat) (x : TmrCell) (bits : Nat) : State :=
  let now (j : Nat) : Nat := if j = k then s.copyWord j x ^^^ bits else s.copyWord j x
  let v := vote3 (now 0) (now 1) (now 2)
  let s1 := s.setTrd { s.trd with
    upset := (upTo 3).map (fun j => (j, x, now j ^^^ v)) ++ s.trd.upset.filter (fun e => decide (e.2.1 ≠ x)) }
  if v = s.tmrWord x then s1 else s1.tmrPut x v

/-- The copies that differ from the vote are overwritten with it at the start of a beat (R145). -/
def State.resync (s : State) : State := s.setTrd { s.trd with upset := [] }

/-- Upsets strike copy k: what they strike is free. -/
def State.upsets (s : State) (k : Nat) : State :=
  (Config.upset s.fresh).foldl (fun x e => x.upsetWord k ⟨e.1, e.2.1, e.2.2.1⟩ e.2.2.2) s.took

/-! ### Sheds -/

/-- States of a shed (R149). -/
def shDisarmed : Nat := 0
def shPending : Nat := 1
def shPrefill : Nat := 2
def shReady : Nat := 3
def shPost : Nat := 4
def shHoldoff : Nat := 5
def shDone : Nat := 6

/-- Shed k beyond its registers. -/
def State.shed (s : State) (k : Nat) : ShedSt := Tab.get (fun _ => ShedSt.init) s.trd.sheds k

/-- Shed k replaced. -/
def State.setShed (s : State) (k : Nat) (x : ShedSt) : State :=
  s.setTrd { s.trd with sheds := Tab.put (fun _ => ShedSt.init) s.trd.sheds k x }

/-- TRD_SHED_STATUS.STATE of shed k. -/
def State.shedState (s : State) (k : Nat) : Nat := s.fget (R.TRD_SHED_STATUS k) F.TRD_SHED_STATUS_STATE

/-- Shed k changes state, at the end of the beat (R149). -/
def State.shedGo (s : State) (k st : Nat) : State :=
  let x := s.shed k
  let y : ShedSt := if x.changed = s.beats then x else { x with changed := s.beats, before := s.shedState k }
  (s.setShed k y).fset (R.TRD_SHED_STATUS k) F.TRD_SHED_STATUS_STATE st

/-- The state of shed k at the start of the present beat. -/
def State.shedAtStart (s : State) (k : Nat) : Nat :=
  let x := s.shed k
  if x.changed = s.beats then x.before else s.shedState k

/-- A shed is armed: any state from PENDING to HOLDOFF (R186). -/
def State.shedArmed (s : State) (k : Nat) : Bool :=
  decide (shPending ≤ s.shedState k) && decide (s.shedState k ≤ shHoldoff)

/-- The channels of a shed's mask. -/
def State.shedChans (s : State) (k : Nat) : List Nat :=
  (upTo 192).filter (fun c => (s.rd (R.TRD_SHED_CHMASK k (c / 32))).getLsbD (c % 32))

/-- The channels that a shed goes on with: those of its mask whose slice is not absent (R159). -/
def State.shedLive (s : State) (k : Nat) : List Nat := (s.shedChans k).filter (fun c => !s.bit R.TRD_SLICE_ABSENT (c / 8))

/-- POST of a shed. -/
def State.shedPostLen (s : State) (k : Nat) : Nat := s.pair (R.TRD_SHED_POST_LO k) (R.TRD_SHED_POST_HI k)

/-- PRE of a shed. -/
def State.shedPre (s : State) (k : Nat) : Nat := (s.rd (R.TRD_SHED_PRE k)).toNat

/-- SPILL of a shed. -/
def State.shedSpill (s : State) (k : Nat) : Bool := s.flag (R.TRD_SHED_CFG k) F.TRD_SHED_CFG_SPILL

/-- The bytes that a channel's ring must hold for a shed (R151). -/
def State.shedNeeds (s : State) (k c : Nat) : Nat :=
  (if s.shedSpill k then s.shedPre k else s.shedPre k + s.shedPostLen k) * s.posBytes c + 65536

/-- The ring of a channel as the arm check sees it. -/
def State.ringHolds (s : State) (c : Nat) : Nat := if s.ringOn c then s.ringBytes c else 0

/-- PRE positions stamped at or after the arm have been released on every channel (R152). -/
def State.prefilled (s : State) (k : Nat) : Bool :=
  (s.shedLive k).all (fun c =>
    let r := s.ring c
    let arm := (dirFind ((s.shed k).armWt : Int) r.next r.dir).getD r.next
    decide (s.shedPre k ≤ r.next - arm))

/-- From PENDING at run start, or from an arm in RUNNING: PREFILL, or READY at once (R149, R150, R152). -/
def State.shedBegin (s : State) (k : Nat) : State :=
  if s.shedPre k = 0 ∨ s.flag (R.TRD_SHED_CFG k) F.TRD_SHED_CFG_PRE_MODE then s.shedGo k shReady else s.shedGo k shPrefill

/-- An arm with the check of R151, in ARMED to PENDING, in RUNNING to PREFILL or READY. -/
def State.shedArm (s : State) (k : Nat) : State :=
  let cs := s.shedChans k
  let bad := cs.find? (fun c => decide (s.ringHolds c < s.shedNeeds k c))
  if cs.isEmpty || bad.isSome then
    let c := bad.getD 255
    let size := match bad with
      | some b => s.ringHolds b / 65536
      | none => 0
    let need := match bad with
      | some b => s.shedNeeds k b
      | none => 0
    ((s.shedGo k shDisarmed).fon (R.TRD_SHED_STATUS k) F.TRD_SHED_STATUS_CFG_BAD).event vTRD 5 sevError k
      (c + 2 ^ 8 * size) need
  else
    let x := s.shed k
    let s1 := s.setShed k { x with acq := x.acq + 1, segment := 0, armWt := s.wt256, edges := 0 }
    let s2 := (s1.stackShedArmed 0).stackShedArmed 1
    if s2.runState = rsRunning then s2.shedBegin k else s2.shedGo k shPending

/-- A channel's trigger position becomes known: the first position carried follows from it (R152, R153). With ACCEPT_ANY and a trigger position
before the arm, the record starts there (log entry 255). -/
def State.fixQc (s : State) (k : Nat) (x : WaveChan) (q : Nat) : WaveChan :=
  let pre := s.shedPre k
  let r := s.ring x.ch
  let accept := s.flag (R.TRD_SHED_CFG k) F.TRD_SHED_CFG_PRE_MODE
  let arm := if accept then (dirFind ((s.shed k).armWt : Int) r.next r.dir).getD q else 0
  let first := min q (max arm (q - pre))
  { x with qc := some q, first := first, next := first, stop := q + s.shedPostLen k, shortPre := decide (q - first < pre) }

/-- A missed edge (R149, R153). -/
def State.shedMiss (s : State) (k : Nat) : State :=
  let x := s.shed k
  (s.setShed k { x with missed := x.missed + 1 }).count (R.TRD_SHED_MISSED k) 1

/-- An accepted edge fires a READY shed (R153). -/
def State.shedFire (s : State) (k : Nat) (t : Int) (coarse forced tainted : Bool) : State :=
  let x := s.shed k
  let chans := (s.shedLive k).map (fun c =>
    let r := s.ring c
    let y : WaveChan := ⟨c, s.posBytes c / 2, none, 0, 0, 0, [], [], none, false, false, false, [], none⟩
    match dirFind t r.next r.dir with
    | some q => s.fixQc k y (max q (s.heldFrom c))
    | none => y)
  let shuttle := s.flag (R.TRD_SHED_CFG k) F.TRD_SHED_CFG_SHUTTLE
  let slices := (upTo 24).filter (fun n => chans.any (fun y => decide (y.ch / 8 = n)))
  let w : WaveRec :=
    ⟨k, s.fget (R.TRD_SHED_CFG k) F.TRD_SHED_CFG_STREAM, s.beats, t, x.acq - 1, x.segment, x.missed, coarse, forced,
      s.shedSpill k, shuttle, tainted, chans, none, 0, none, [], false,
      if shuttle then slices else [], false⟩
  let s1 := s.setShed k { x with
    missed := 0, firedBeat := s.beats, edges := 0, forced := forced, prevMissed := x.missed,
    prevTrig := 256 * s.pair (R.TRD_SHED_TRIG_LO k) (R.TRD_SHED_TRIG_HI k) + (s.rd (R.TRD_SHED_TRIG_FRAC k)).toNat }
  let s2 := { s1 with recs := { s1.recs with waves := s1.recs.waves ++ [w] } }
  let s3 := (s2.setPair (R.TRD_SHED_TRIG_LO k) (R.TRD_SHED_TRIG_HI k) (unsigned 64 (t / 256))).wr
    (R.TRD_SHED_TRIG_FRAC k) (w32 (t % 256).toNat)
  let s4 := State.shedGo ((s3.count (R.TRD_SHED_COUNT k) 1).setTrd { (s3.count (R.TRD_SHED_COUNT k) 1).trd with
    fired := s.trd.fired ++ [k] }) k shPost
  if tainted then s4.fon (R.TRD_SHED_STATUS k) F.TRD_SHED_STATUS_TAINTED_TRIG else s4

/-- SHED_FIRED for the sheds whose firing stands when the beat is over (R153, R157). -/
def State.shedsFired (s : State) : State :=
  if s.trd.fired.isEmpty then s else State.raise (s.setTrd { s.trd with fired := [] }) vTRD 3

/-- A DISARM of the present beat bars a shed from firing in it (R157). -/
def State.shedBarred (s : State) (k : Nat) : Bool := decide ((s.shed k).disarmAt = some s.beats)

/-- A firing of the present beat is taken back (R157): its record, its count, what it latched and its event. -/
def State.shedUnfire (s0 : State) (k : Nat) : State :=
  let s := s0.setTrd { s0.trd with fired := s0.trd.fired.filter (fun j => decide (j ≠ k)) }
  let x := s.shed k
  let s1 := { s with recs := { s.recs with
    waves := s.recs.waves.filter (fun w => decide (w.shed ≠ k) || decide (w.fired ≠ s.beats)) } }
  let s2 := (s1.setShed k { x with missed := x.prevMissed }).setPair (R.TRD_SHED_TRIG_LO k) (R.TRD_SHED_TRIG_HI k)
    (x.prevTrig / 256)
  ((s2.wr (R.TRD_SHED_TRIG_FRAC k) (w32 (x.prevTrig % 256))).wr (R.TRD_SHED_COUNT k)
    (s2.rd (R.TRD_SHED_COUNT k) - 1#32)).shedGo k shReady

/-- The hold-off of a shed is met (R154). -/
def State.holdMet (s : State) (k : Nat) : Bool :=
  let x := s.shed k
  let mode := s.fget (R.TRD_SHED_CFG k) F.TRD_SHED_CFG_HOLD_MODE
  let hold := (s.rd (R.TRD_SHED_HOLD k)).toNat
  if mode = 1 then decide (x.firedBeat + hold ≤ s.beats)
  else if mode = 2 then decide (hold ≤ x.edges)
  else true

/-- A rising edge of a shed's line, or none, taken by what the shed was at the start of the beat (R149, R157): a READY
shed fires, unless a DISARM of the same beat won; over a FORCE of the same beat the line's trigger time stands. -/
def State.shedEdge (s : State) (k : Nat) (t : Int) (coarse : Bool) : State :=
  let st := s.shedAtStart k
  let x := s.shed k
  if st = shReady then
    if s.shedState k = shReady ∧ !s.shedBarred k then s.shedFire k t coarse false false
    else if s.shedState k = shPost then
      (if x.forced then ((s.shedUnfire k).shedFire k t coarse false false).shedMiss k else s)
    else s.shedMiss k
  else if st = shPrefill then s.shedMiss k
  else if st = shPost ∨ st = shHoldoff then
    let s1 := (s.setShed k { x with edges := x.edges + 1 }).shedMiss k
    if s1.shedState k = shHoldoff ∧ s1.holdMet k then s1.shedGo k shReady else s1
  else s

/-- FORCE: a READY shed fires with the warp time of the write; otherwise the FORCE counts as missed (R157). -/
def State.shedForce (s : State) (k : Nat) : State :=
  if s.shedAtStart k = shReady ∧ s.shedState k = shReady ∧ !s.shedBarred k then s.shedFire k (s.wt256 : Int) false true false
  else s.shedMiss k

/-- POST of a shed has ended: its record awaits only its last words, the segment is counted, and the shed goes on
(R154). -/
def State.shedPosted (s : State) (k : Nat) : State :=
  let x := s.shed k
  let seg := s.fget (R.TRD_SHED_SEG k) F.TRD_SHED_SEG_SEGMENTS
  let s1 := s.setShed k { x with segment := x.segment + 1 }
  let s2 := s1.mapWaves (fun w => if w.shed = k ∧ w.cause = none then { w with cause := some clNormal } else w)
  let s3 := if seg ≠ 0 ∧ seg ≤ x.segment + 1 then (s2.shedGo k shDone).raise vTRD 4
    else if s2.holdMet k then s2.shedGo k shReady else s2.shedGo k shHoldoff
  s3.buildWaves

/-- The last position of every channel of a shed's open record has been released (R154). -/
def State.postReleased (s : State) (k : Nat) : Bool :=
  s.recs.waves.all (fun w => decide (w.shed ≠ k) || w.cause.isSome
    || w.chans.all (fun x => x.qc.isSome && decide (x.stop ≤ (s.ring x.ch).next)))

/-- A shed's open record is cut where its channels stand, for DISARM or an absence (R158, R159). -/
def State.shedCut (s : State) (k cause : Nat) : State :=
  (s.mapWaves (fun w => if w.shed = k ∧ w.cause = none then w.truncate cause (fun x => (s.ring x.ch).next) else w)).buildWaves

/-- DISARM of a shed (R158); an edge accepted in the same beat counts as missed (R157). -/
def State.shedDisarm (s0 : State) (k : Nat) : State :=
  let s := s0.setShed k { s0.shed k with disarmAt := some s0.beats }
  if s.shedState k = shPost ∧ (s.shed k).firedBeat = s.beats ∧ s.shedAtStart k = shReady then
    ((s.shedUnfire k).shedMiss k).shedGo k shDisarmed
  else if s.shedState k = shPost then (s.shedGo k shDisarmed).shedCut k clDisarmed else s.shedGo k shDisarmed

/-- A shed record that is discarded gives up its turn: its open packet closes with ABORT (R288). -/
def State.waveAbort (s : State) (w : WaveRec) : State :=
  let k := s.quillOf w.stream
  let q := s.quill k
  let mine (x : Waiter) : Bool := decide (x.producer = w.producer) && decide (x.fired = w.fired)
  let piece := (w.laid.drop (w.pushed * s.fragSize w.stream)).take (s.fragSize w.stream)
  let q1 := if s.waveOpen w then
      { q with packets := q.packets ++ [{ s.wavePacket w piece false with abort := true }], opened := none }
    else q
  (s.setQuill k { q1 with waiting := q1.waiting.filter (fun x => !mine x) }).quillRefill k

/-- A record of a shed that is in POST at run stop, without spill, is discarded (R158). Whole fragments of it that a Quill
still holds go with it. -/
def State.shedDiscard (s : State) (k : Nat) : State :=
  match s.recs.waves.find? (fun w => decide (w.shed = k) && decide (w.cause = none)) with
  | none => s
  | some w =>
    let q := s.quillOf w.stream
    let mine (p : Packet) : Bool := decide (p.hdr.stream = w.stream) && decide (some p.hdr.seq = w.seq)
    let s1 := { s with recs := { s.recs with
      waves := s.recs.waves.filter (fun y => !(decide (y.shed = k) && decide (y.cause = none))) } }
    let x := s1.quill q
    let s2 := (s1.setQuill q { x with packets := x.packets.filter (fun p => !mine p) }).waveAbort w
    ((s2.count (R.TRD_SHED_DISCARD k) 1).event vTRD 10 sevInfo k 0 0).countDiscard w.stream

/-- Run stop of the sheds: every shed is DISARMED; records still in POST are discarded, but a spilling shed's goes on to
its last position of the run (R158). -/
def State.shedsStop (s : State) : State :=
  (upTo 64).foldl (fun x k =>
    let y := if x.shedState k = shPost ∧ !x.shedSpill k then x.shedDiscard k else x
    y.shedGo k shDisarmed) s

/-! ### The matrix -/

/-- Output o is driven: enabled, in RUNNING, and its sum line or pulse is on (R140). -/
def State.outActive (s : State) (o : Nat) : Bool :=
  let cfg := R.TRD_OUT_CFG o
  s.flag cfg F.TRD_OUT_CFG_EN && !s.bankLost 4 && s.runState == rsRunning
    && (if s.flag cfg F.TRD_OUT_CFG_MODE then decide (s.beats < Tab.get (fun _ => 0) s.trd.pulses o) else nbit s.trd.sums o)

/-- The level of TRIG_OUT pin o: inactive, or active, inverted by POL (R140). -/
def State.outPin (s : State) (o : Nat) : Bool := s.outActive o != s.flag (R.TRD_OUT_CFG o) F.TRD_OUT_CFG_POL

/-- The pins as the outputs drive them. -/
def State.drivePins (s : State) : State :=
  s.setTrd { s.trd with pins := (upTo 16).foldl (fun v o => if s.outPin o then v + 2 ^ o else v) 0 }

/-- A rising sum line starts a pulse of an output in MODE 1 (R140). -/
def State.outRise (s : State) (o : Nat) : State :=
  if s.flag (R.TRD_OUT_CFG o) F.TRD_OUT_CFG_MODE then
    let pw := max 1 (s.fget (R.TRD_OUT_CFG o) F.TRD_OUT_CFG_PW)
    s.setTrd { s.trd with pulses := Tab.put (fun _ => 0) s.trd.pulses o (s.beats + pw) }
  else s

/-- The lowest-numbered term of a sum line that fired in this beat (R138). -/
def State.lineTerm (s : State) (fired l : Nat) : Option Nat :=
  let mask := s.pair (R.TRD_SUM_MASK_LO l) (R.TRD_SUM_MASK_HI l)
  (upTo 64).find? (fun m => nbit mask m && nbit fired m)

/-- The matrix in the present beat: terms that rise fire, sum lines that rise drive outputs and sheds (R136 to R141,
R148). -/
def State.matrix (s0 : State) : State :=
  let s := s0.busApply
  if !s.evaluates then s.drivePins
  else
    let terms := s.termBits s.beats
    let fired := (upTo 64).foldl (fun v m => if nbit terms m && !nbit s.trd.terms m then v + 2 ^ m else v) 0
    let sums := (upTo 80).foldl (fun v l => if s.sumValue terms l then v + 2 ^ l else v) 0
    let rising := (upTo 80).filter (fun l => nbit sums l && !nbit s.trd.sums l)
    let fs := ((upTo 64).filter (fun m => nbit fired m)).map (fun m =>
      s.firingOf m (rising.filter (fun l => decide (s.lineTerm fired l = some m))))
    let s1 := s.setTrd { s.trd with terms := terms, sums := sums, firings := s.trd.firings ++ fs }
    let s2 := rising.foldl (fun x l =>
      if l < 16 then x.outRise l
      else
        let tm := match x.lineTerm fired l with
          | some m => x.fireTime m x.beats
          | none => ((x.wt256 : Int), true)
        x.shedEdge (l - 16) tm.1 tm.2) s1
    s2.settleFirings.drivePins

/-- The Treadle at run start: delay lines, windows, counts and stamps of before are cleared; every primitive unit is UNKNOWN and every
spectral condition 0, and with them their bus bits (R130, R134; log entry 210); the other bits as they stand count from run start on
(R141); pending sheds begin (R149). -/
def State.trdStart (s : State) : State :=
  let now := s.busApply
  let bus := (upTo 624).foldl (fun b i =>
    let v := decide (576 ≤ i) && bitAt (now.busHist i) now.beats
    if v then Tab.put (fun _ => []) b i [⟨now.beats, true, none, .plain, false⟩] else b) ([] : Tab (List BusChg))
  let s1 := now.setTrd { now.trd with
    coming := now.trd.coming.filter (fun c => decide (576 ≤ c.1)), bus := bus, runBeat := now.beats, terms := 0, sums := 0, prims := [], scs := [], firings := [],
    pulses := [], maskRise := none, rises := [] }
  let s2 := s1.foff R.TRD_STATUS F.TRD_STATUS_MASK_STOP
  let s3 := (upTo 384).foldl (fun x u => (x.foff (R.STR_SC_STATUS (u / 16) (u % 16)) F.STR_SC_STATUS_VIOLATED).foff
    (R.STR_SC_STATUS (u / 16) (u % 16)) F.STR_SC_STATUS_VALUE) s2
  (upTo 64).foldl (fun x k =>
    let y := x.shed k
    if x.shedState k = shPending then (x.setShed k { y with acq := 1, segment := 0, missed := 0, armWt := x.wt256 }).shedBegin k
    else x.setShed k { y with acq := 0, segment := 0, missed := 0 }) s3

end Sys2Proof.Machine
end

