-- ==== Sys2Proof/Machine/TapOps.lean ====
section
/-!
DEFINITION. Operations of the Tapestry planes: admission of spectra (R193 to R198), boundaries and closing (R199 to
R203), carried values (R201), mapping (R206) and density records (R208, R282).
-/

namespace Sys2Proof.Machine

/-- Plane p. -/
def State.plane (s : State) (p : Nat) : PlaneSt := Tab.get (fun _ => PlaneSt.init) s.tap.planes p

/-- Plane p replaced. -/
def State.setPlane (s : State) (p : Nat) (x : PlaneSt) : State :=
  { s with tap := { s.tap with planes := Tab.put (fun _ => PlaneSt.init) s.tap.planes p x } }

/-- TAP_PL_CFG.EN of plane p. -/
def State.planeOn (s : State) (p : Nat) : Bool := s.flag (R.TAP_PL_CFG p) F.TAP_PL_CFG_EN

/-- C of plane p (R192). -/
def State.planeCols (s : State) (p : Nat) : Nat := 16 * s.fget (R.TAP_PL_GEOM p) F.TAP_PL_GEOM_COLS16

/-- Y of plane p (R192). -/
def State.planeRows (s : State) (p : Nat) : Nat := 16 * s.fget (R.TAP_PL_GEOM p) F.TAP_PL_GEOM_ROWS16

/-- Plane p takes the stream of channel c (R193). -/
def State.planeTakes (s : State) (p c : Nat) : Bool := (s.rd (R.TAP_PL_SRC p (c / 32))).getLsbD (c % 32)

/-- The rate at which a plane absorbs increments (R196). -/
def State.planeRate (s : State) (p : Nat) : Nat :=
  if s.flag (R.TAP_PL_STATUS p) F.TAP_PL_STATUS_HALF_RATE then 32 else 64

/-- The value of a column from the codes of its bins: largest, smallest, or mean (R194). -/
def columnValue (combine b : Nat) (codes : List Nat) : Nat :=
  if combine = 0 then codes.foldl max 0
  else if combine = 1 then (match codes with
    | [] => 0
    | x :: t => t.foldl min x)
  else (roundConv ((codes.foldl (· + ·) 0 : Nat) : Int) b).toNat

/-- The row of a column value, none where it is not counted (R195). -/
def rowOf (base shift rows : Nat) (under past : Bool) (v : Nat) : Option Nat :=
  if v < base then (if under then none else some 0)
  else
    let y := (v - base) / 2 ^ shift
    if rows ≤ y then (if past then none else some (rows - 1)) else some y

/-- A cell's number. -/
def cellOf (j y : Nat) : Nat := 1024 * y + j

/-- The largest count (R197). -/
def maxCount : Nat := 0xFFFFFFFF

/-- The rows of a spectrum's columns on plane p (R194, R195). -/
def State.columnRows (s : State) (p : Nat) (codes : List Nat) : List (Nat × Option Nat) :=
  let b := s.fget (R.TAP_PL_GEOM p) F.TAP_PL_GEOM_BIN_EXP
  let first := s.fget (R.TAP_PL_FIRST p) F.TAP_PL_FIRST_FIRST
  let cfg := R.TAP_PL_CFG p
  (upTo (s.planeCols p)).map (fun j =>
    (j, rowOf (s.fget (R.TAP_PL_ROWMAP p) F.TAP_PL_ROWMAP_ROW_BASE) (s.fget (R.TAP_PL_ROWMAP p) F.TAP_PL_ROWMAP_ROW_SHIFT)
      (s.planeRows p) (s.flag cfg F.TAP_PL_CFG_UNDER) (s.flag cfg F.TAP_PL_CFG_OVER)
      (columnValue (s.fget cfg F.TAP_PL_CFG_COMBINE) b ((codes.drop (first + j * 2 ^ b)).take (2 ^ b)))))

/-- One increment: the bank and the frame's saturated increments (R197). -/
def addCell (bank : Tab Nat) (f : FrameCnt) (j y : Nat) : Tab Nat × FrameCnt :=
  let c := Tab.get (fun _ => 0) bank (cellOf j y)
  if maxCount ≤ c then (bank, { f with sat := f.sat + 1 })
  else (Tab.put (fun _ => 0) bank (cellOf j y) (c + 1), f)

/-- The beat in which column j of a spectrum is formed: its last bin has come, at two bins a beat (R123, R194). -/
def State.columnBeat (s : State) (p : Nat) (f : FormSpec) (j : Nat) : Nat :=
  f.firstBin + (s.fget (R.TAP_PL_FIRST p) F.TAP_PL_FIRST_FIRST
    + (j + 1) * 2 ^ s.fget (R.TAP_PL_GEOM p) F.TAP_PL_GEOM_BIN_EXP - 1) / 2

/-- Entries of a plane's queue that are taken: increments that wait in it, and those of admitted spectra still to be formed (R196). -/
def PlaneSt.queued (x : PlaneSt) : Nat :=
  x.forming.foldl (fun n f => if f.frame.isSome then n + f.rows.length else n) x.queue.length

/-- Column 0 of a spectrum is formed: it is admitted whole to the frame that is open, or dropped whole; the answer is what goes on
forming columns (R196, R198, R199). Flags are those of its SPECTRUM entry: TAINT, OVR, GAP, REDUCED, STEPPED from bit 0. -/
def State.planeAdmit (s : State) (p : Nat) (f : FormSpec) : State × Option FormSpec :=
  let x := s.plane p
  match x.frame with
  | none => (s, none)
  | some f0 =>
    let taint := nbit f.flags 0
    let f1 := if taint then { f0 with taint := f0.taint + 1 } else f0
    let c := s.planeCols p
    if taint && s.flag (R.TAP_PL_CFG p) F.TAP_PL_CFG_TAINT_SKIP then (s.setPlane p { x with frame := some f1 }, none)
    else if 16384 < x.queued + c then
      ((s.setPlane p { x with frame := some { f1 with drop := f1.drop + c } }).raise vTAP 2, none)
    else
      let f2 := { f1 with
        spectra := f1.spectra + 1,
        reduced := f1.reduced || nbit f.flags 3, gap := f1.gap || nbit f.flags 2, stepped := f1.stepped || nbit f.flags 4,
        tainted := f1.tainted || taint,
        first := some (f1.first.getD f.stamp), newest := some f.stamp }
      (s.setPlane p { x with frame := some f2 }, some { f with frame := some f0.number })

/-- A plane's frame of a number, open or closing, with its counts changed. -/
def PlaneSt.counted (x : PlaneSt) (n : Nat) (g : FrameCnt → FrameCnt) : PlaneSt :=
  match x.frame, x.closing with
  | some f, cl =>
    if f.number = n then { x with frame := some (g f) }
    else { x with closing := cl.map (fun cf => if cf.cnt.number = n then { cf with cnt := g cf.cnt } else cf) }
  | none, cl => { x with closing := cl.map (fun cf => if cf.cnt.number = n then { cf with cnt := g cf.cnt } else cf) }

/-- The columns of an admitted spectrum that are formed by now enter the queue; a value that is not counted is out of range (R195). -/
def State.formColumns (s : State) (p : Nat) (f : FormSpec) (n : Nat) : State :=
  let now := f.rows.takeWhile (fun e => decide (s.columnBeat p f e.1 ≤ s.beats))
  let rest := f.rows.drop now.length
  let x := s.plane p
  let y := x.counted n (fun c => { c with oor := c.oor + (now.filter (fun e => e.2.isNone)).length })
  s.setPlane p { y with
    queue := y.queue ++ now.filterMap (fun e => e.2.map (fun r => (n, e.1, r))),
    forming := if rest.isEmpty then y.forming else y.forming ++ [{ f with rows := rest }] }

/-- A spectrum that forms columns goes on to the present beat. -/
def State.formOne (s : State) (p : Nat) (f : FormSpec) : State :=
  match f.frame with
  | some n => s.formColumns p f n
  | none =>
    if s.columnBeat p f 0 ≤ s.beats then
      let r := s.planeAdmit p f
      match r.2 with
      | some g => r.1.formColumns p g (g.frame.getD 0)
      | none => r.1
    else
      let x := s.plane p
      s.setPlane p { x with forming := x.forming ++ [f] }

/-- Every spectrum in a plane goes on to the present beat. -/
def State.planeForm (s : State) (p : Nat) : State :=
  let x := s.plane p
  x.forming.foldl (fun y f => y.formOne p f) (s.setPlane p { x with forming := [] })

/-- A spectrum reaches plane p, from the beat its first bin left the Reed (R193). -/
def State.planeOffer (s : State) (p : Nat) (stamp : Int) (flags : Nat) (codes : List Nat) (firstBin : Nat) : State :=
  let x := s.plane p
  State.planeForm (s.setPlane p { x with forming := x.forming ++ [⟨firstBin, stamp, flags, none, s.columnRows p codes⟩] }) p

/-- An increment of the queue is added to the bank of its frame (R196, R197, R200). -/
def PlaneSt.absorb (x : PlaneSt) (e : Nat × Nat × Nat) : PlaneSt :=
  match x.closing with
  | some cf =>
    if cf.cnt.number = e.1 then
      let r := addCell x.other cf.cnt e.2.1 e.2.2
      { x with other := r.1, closing := some { cf with cnt := r.2 } }
    else
      match x.frame with
      | some f =>
        let r := addCell x.acc f e.2.1 e.2.2
        { x with acc := r.1, frame := some r.2 }
      | none => x
  | none =>
    match x.frame with
    | some f =>
      let r := addCell x.acc f e.2.1 e.2.2
      { x with acc := r.1, frame := some r.2 }
    | none => x

/-- Saturated increments of a plane's open and closing frames. -/
def PlaneSt.saturated (x : PlaneSt) : Nat :=
  (match x.frame with
    | some f => f.sat
    | none => 0) + (match x.closing with
    | some cf => cf.cnt.sat
    | none => 0)

/-- A plane absorbs up to 64 increments in a beat, or 32 (R196). -/
def State.planeAbsorb (s : State) (p : Nat) : State :=
  let x := s.plane p
  let n := s.planeRate p
  let y := (x.queue.take n).foldl PlaneSt.absorb { x with queue := x.queue.drop n }
  let s1 := s.setPlane p y
  if y.saturated = x.saturated then s1 else s1.raise vTAP 3

/-- A late-taint mark of a stream reaches the planes that take it: it counts in the open frame, whose cells it taints, and where the run's
last frame has closed it is only flagged (R198, R274; log entry 258). -/
def State.planesLate (s : State) (c : Nat) : State :=
  (upTo 16).foldl (fun x p =>
    let y := x.plane p
    if x.planeOn p && x.planeTakes p c then
      (x.setPlane p { y with frame := y.frame.map (fun f => { f with late := f.late + 1, tainted := true }) }).raise vTAP 4
    else x) s

/-- HALF_RATE follows THERMAL at a boundary of the plane (R196). -/
def State.planeThermal (s : State) (p : Nat) : State :=
  let a := R.TAP_PL_STATUS p
  let want := s.bit R.GLB_DEGRADE dgThermal
  if want == s.flag a F.TAP_PL_STATUS_HALF_RATE then s
  else if want then (s.fon a F.TAP_PL_STATUS_HALF_RATE).raise vTAP 5
  else (s.foff a F.TAP_PL_STATUS_HALF_RATE).raise vTAP 6

/-- The close that a boundary now orders for frame f of plane p: the settings are those of the boundary (R200, R201, R204). -/
def State.planeOrder (s : State) (p : Nat) (f : FrameCnt) (last : Bool) : ClosingFrame :=
  ⟨f, s.wt, last, (s.plane p).clearAsked, s.rd (R.TAP_PL_PERSIST p), s.rd (R.TAP_PL_MAP p), s.rd (R.TAP_PL_MAP_GAIN p)⟩

/-- The open frame of a plane gives its bank to its close: the banks change roles (R200). -/
def State.planeEnd (s : State) (p : Nat) (cf : ClosingFrame) : State :=
  let x := s.plane p
  s.setPlane p { x with
    acc := x.other
    other := x.acc
    closing := some cf
    frame := none
    stopped := none }

/-- A boundary of plane p: the next frame opens; during a sweep or before a close it is skipped (R199, R202). -/
def State.planeBoundary (s : State) (p : Nat) : State :=
  let x := s.plane p
  match x.frame with
  | none => s
  | some f =>
    if x.closing.isSome || x.sweep.isSome then
      (s.count (R.TAP_PL_SKIP_CNT p) 1).event vTAP 1 sevInfo p 0 0
    else
      let s1 := s.planeThermal p
      let s2 := s1.planeEnd p (s1.planeOrder p f false)
      s2.setPlane p { s2.plane p with
        clearAsked := false
        frame := some (FrameCnt.init (f.number + 1) s.wt (s2.flag (R.TAP_PL_STATUS p) F.TAP_PL_STATUS_HALF_RATE)) }

/-- Run start opens frame 0 of every enabled plane (R199). -/
def State.planesStart (s : State) : State :=
  (upTo 16).foldl (fun x p =>
    if x.planeOn p then
      let x1 := x.planeThermal p
      let y := x1.plane p
      (x1.setPlane p { y with
        frame := some { FrameCnt.init 0 x1.wt (x1.flag (R.TAP_PL_STATUS p) F.TAP_PL_STATUS_HALF_RATE) with
          tainted := y.carryTaint },
        stopped := none, forming := [], queue := [], carryTaint := false,
        nextBoundary := x1.beats + (x1.rd (R.TAP_PL_PERIOD p)).toNat }).fon (R.TAP_PL_STATUS p) F.TAP_PL_STATUS_OPEN
    else x) s

/-- Run stop is a boundary of every enabled plane; the last frame still takes what its Reeds deliver (R204, R205). -/
def State.planesStop (s : State) : State :=
  (upTo 16).foldl (fun x p =>
    match (x.plane p).frame with
    | some f =>
      let x1 := x.planeThermal p
      x1.setPlane p { x1.plane p with
        stopped := some (x1.planeOrder p f true)
        clearAsked := false }
    | none => x) s

/-- l2 of R206. -/
def log2Fix (c : Nat) : Nat :=
  let e := Nat.log2 c
  256 * e + (if 8 ≤ e then c / 2 ^ (e - 8) else c * 2 ^ (8 - e)) % 256

/-- The palette index of a count (R206). -/
def paletteIndex (map gain : Word) (c : Nat) : Nat :=
  if c = 0 then 0
  else if fieldOf map F.TAP_PL_MAP_LOG = 0 then min (1 + (c - 1) * gain.toNat / 65536) 4095
  else min (1 + log2Fix c * gain.toNat / 65536) 4095

/-- The gain that AUTO loads for the largest count (R206). -/
def autoGain (map gain : Word) (m : Nat) : Word :=
  let d := if fieldOf map F.TAP_PL_MAP_LOG = 0 then m - 1 else log2Fix m
  if d = 0 then gain else w32 ((4094 * 65536 + d - 1) / d)

/-- The close of a frame loads MAP_GAIN: AUTO is 1 and its formula gives a value (R206). -/
def autoLoads (map : Word) (m : Nat) : Bool :=
  decide (fieldOf map F.TAP_PL_MAP_AUTO = 1) && decide ((if fieldOf map F.TAP_PL_MAP_LOG = 0 then m - 1 else log2Fix m) ≠ 0)

/-- The carried value of a count (R201). -/
def carried (persist : Word) (clear last : Bool) (c : Nat) : Nat :=
  let mode := fieldOf persist F.TAP_PL_PERSIST_MODE
  let sh := clampNat 1 16 (fieldOf persist F.TAP_PL_PERSIST_SHIFT)
  if clear then 0
  else if last then c
  else if mode = 0 then 0
  else if mode = 1 then c
  else if mode = 2 then (if c = 0 then 0 else c - max (c / 2 ^ sh) 1)
  else c - fieldOf persist F.TAP_PL_PERSIST_SUB

/-- The cells of a bank that lie in C × Y of plane p, and those that do not (R192). -/
def State.planePart (s : State) (p : Nat) (inside : Bool) (b : Tab Nat) : Tab Nat :=
  b.filter (fun e => decide (e.1 % 1024 < s.planeCols p ∧ e.1 / 1024 < s.planeRows p) == inside)

/-- The largest count of a bank. -/
def bankMax (b : Tab Nat) : Nat := b.foldl (fun m e => max m e.2) 0

/-- The cells of a plane in sweep order. -/
def State.planeCells (s : State) (p : Nat) : List Nat :=
  (upTo (s.planeRows p)).foldl (fun xs y => xs ++ (upTo (s.planeCols p)).map (fun j => cellOf j y)) []

/-- The type header of a density record (R282). -/
def State.densityHeader (s : State) (p : Nat) (cf : ClosingFrame) : List Byte :=
  let f := cf.cnt
  let row := R.TAP_PL_ROWMAP p
  let b (x : Bool) (v : Nat) : Nat := if x then v else 0
  leBytes 1 p ++ leBytes 1 (s.fget (R.TAP_PL_CFG p) F.TAP_PL_CFG_REC_FMT)
    ++ leBytes 1 (b f.reduced 1 + b f.gap 2 + b f.stepped 4 + b f.half 8 + b cf.last 16 + b cf.clear 32)
    ++ leBytes 1 (s.fget (R.TAP_PL_GEOM p) F.TAP_PL_GEOM_BIN_EXP)
    ++ leBytes 2 (s.planeCols p) ++ leBytes 2 (s.planeRows p)
    ++ leBytes 2 (s.fget (R.TAP_PL_FIRST p) F.TAP_PL_FIRST_FIRST) ++ leBytes 2 (s.fget row F.TAP_PL_ROWMAP_ROW_BASE)
    ++ leBytes 1 (s.fget row F.TAP_PL_ROWMAP_ROW_SHIFT) ++ leBytes 3 0
    ++ leBytes 4 f.number ++ leBytes 4 0 ++ leBytes 8 f.opened ++ leBytes 8 cf.boundary
    ++ leBytes 8 (unsigned 64 ((f.first.getD 0) / 256)) ++ leBytes 8 (unsigned 64 ((f.newest.getD 0) / 256))
    ++ leBytes 4 f.spectra ++ leBytes 4 f.drop ++ leBytes 4 f.sat ++ leBytes 4 f.oor ++ leBytes 4 f.taint
    ++ leBytes 4 f.late

/-- The bytes of a cell in a density record's payload, with its count (R208). -/
def cellBytes (fmt : Nat) (cf : ClosingFrame) (c : Nat) : List Byte :=
  if fmt = 0 then leBytes 4 c else if fmt = 1 then leBytes 2 (min c 0xFFFF) else leBytes 2 (paletteIndex cf.map cf.gain c)

/-- The header values of the density record of a closed frame (R273, R274). -/
def State.densityIn (s : State) (p : Nat) (cf : ClosingFrame) (stream : Nat) : RecIn :=
  let f := cf.cnt
  { rtype := rtDensity, stream := stream, source := p, flags := 0,
    content := fun _ => (if f.tainted then fTaint else 0) + (if f.gap then fGap else 0)
      + (if f.reduced then fReduced else 0) + (if f.stepped then fStepped else 0)
      + (if f.late ≠ 0 then fLateTaint else 0),
    t := (f.opened : Int) * 256, endAt := fun _ => (cf.boundary : Int) * 256, rate := 0, close := clNormal,
    thLen := (s.densityHeader p cf).length }

/-- Plane p's number as a producer of records (R288). -/
def planeProducer (p : Nat) : Nat := producerNo rtDensity p

/-- The density record of a frame that closes begins, where EVERY asks for it and its stream is enabled: the plane waits for its first turn;
once ABORT was accepted the record is discarded (R208, R288, R289). -/
def State.densityBegin (s : State) (p : Nat) (cf : ClosingFrame) : State × Option SendSt :=
  let every := fieldOf cf.persist F.TAP_PL_PERSIST_EVERY
  let stream := s.fget (R.TAP_PL_CFG p) F.TAP_PL_CFG_STREAM
  if every = 0 ∨ (cf.cnt.number % every ≠ 0 ∧ cf.last = false) ∨ s.streamOn stream = false then (s, none)
  else if s.aborts rtDensity then (s.countAbort stream, none)
  else (s.enqueue (s.quillOf stream) [⟨planeProducer p, stream, 0, none⟩], some ⟨stream, 0, []⟩)

/-- The record path of plane p accepts the words of a record: its packet is the one open for writing (R202, R288). -/
def State.sendOpen (s : State) (p : Nat) (x : SendSt) : Bool :=
  match (s.quill (s.quillOf x.stream)).opened with
  | some o => decide (o.producer = planeProducer p) && decide (o.fired = x.frag)
  | none => false

/-- The open packet of a plane's record closes as its fragment (R272, R288). -/
def State.sendClose (s : State) (p : Nat) (cf : ClosingFrame) (x : SendSt) (piece : List Byte) (last : Bool) : State :=
  let k := s.quillOf x.stream
  let q := s.quill k
  let h := s.fragment (s.densityIn p cf x.stream) x.frag (x.frag * s.fragSize x.stream + piece.length) piece last
  s.setQuill k { q with
    packets := q.packets ++ [{ h with
      hdr := { h.hdr with seq := Tab.get (fun _ => 0) q.seqs (planeProducer p) }, closed := s.beats / 2 }],
    opened := none }

/-- A sweep pushes bytes of its record: a fragment that is complete is closed and the plane waits for its next turn (R272, R288). -/
def State.sendBytes (s : State) (p : Nat) (cf : ClosingFrame) (x : SendSt) (bytes : List Byte) : State × SendSt :=
  let k := s.quillOf x.stream
  let size := s.fragSize x.stream
  let piece := x.piece ++ bytes
  if piece.length < size then
    (s.setQuill k { s.quill k with opened := some ⟨planeProducer p, x.frag, 1 + (64 + piece.length + 31) / 32⟩ },
      { x with piece := piece })
  else
    ((s.sendClose p cf x (piece.take size) false).enqueue k [⟨planeProducer p, x.stream, x.frag + 1, none⟩],
      { x with frag := x.frag + 1, piece := piece.drop size })

/-- A sweep ends its record with the type header, in the open packet and, where that has no room for it, in one more (R272, R282). -/
def State.sendEnd (s : State) (p : Nat) (cf : ClosingFrame) (x : SendSt) : State :=
  let k := s.quillOf x.stream
  let size := s.fragSize x.stream
  let tail := x.piece ++ s.densityHeader p cf
  let s1 := s.sendClose p cf x (tail.take size) (decide (tail.length ≤ size))
  let more := s1.fragments (s1.densityIn p cf x.stream) (x.frag + 1) ((x.frag + 1) * size) (cutBody size (tail.drop size))
  (s1.unitEnd x.stream p rtDensity ((cf.boundary : Int) * 256)).enqueue k
    (if tail.length ≤ size then [] else more.map (fun h => ⟨planeProducer p, x.stream, 0, some h⟩))

/-- Every spectrum of a frame has formed its columns, and none of its increments is left in the queue (R200). -/
def PlaneSt.frameAbsorbed (x : PlaneSt) (n : Nat) : Bool :=
  x.forming.all (fun f => decide (f.frame ≠ some n)) && x.queue.all (fun e => decide (e.1 ≠ n))

/-- The close of a frame: the plane's registers are loaded, its record waits for a turn and the sweep begins; the gain that AUTO loads maps the next frame, the last of the run too (R200, R203,
R206). -/
def State.planeClose (s : State) (p : Nat) (cf : ClosingFrame) : State :=
  let x := s.plane p
  let f := cf.cnt
  let m := bankMax (s.planePart p true x.other)
  let gain := autoGain cf.map (s.rd (R.TAP_PL_MAP_GAIN p)) m
  let loads := autoLoads cf.map m
  let r := s.densityBegin p cf
  let s1 := r.1.setPlane p { x with
    closing := none, sweep := some ⟨cf, 0, [], r.2⟩,
    stopped := x.stopped.map (fun next => if loads then { next with gain := gain } else next) }
  let s2 := (((((((s1.wr (R.TAP_PL_FRAME_NO p) (w32 f.number)).wr (R.TAP_PL_SPECTRA p) (w32 f.spectra)).wr
    (R.TAP_PL_DROP p) (w32 f.drop)).wr (R.TAP_PL_SAT p) (w32 f.sat)).wr (R.TAP_PL_OOR p) (w32 f.oor)).wr
    (R.TAP_PL_TAINT p) (w32 (min 65535 f.taint + 65536 * min 65535 f.late))).wr (R.TAP_PL_MAX p) (w32 m)).setPair
    (R.TAP_PL_CLOSE_LO p) (R.TAP_PL_CLOSE_HI p) cf.boundary
  let s3 := if loads then s2.fload (R.TAP_PL_MAP_GAIN p) wholeWord gain.toNat else s2
  let s4 := if cf.clear ∧ x.clearAsked = false then
      (s3.foff (R.TAP_PL_STATUS p) F.TAP_PL_STATUS_CLEAR_PENDING).bitOff R.TAP_CTRL (16 + p)
    else s3
  let s5 := (s4.fon (R.TAP_PL_STATUS p) F.TAP_PL_STATUS_SWEEPING).fset (R.TAP_PL_STATUS p) F.TAP_PL_STATUS_OPEN
    (if cf.last then 0 else 1)
  let s6 := if f.drop = 0 then s5 else s5.log vTAP 2 sevWarning p 0 0
  s6.raise vTAP 0

/-- One cell of a sweep: its count is passed on, its carried value is added to the accumulating bank, and the cell is cleared (R200,
R201); the answer holds the saturated additions so far. -/
def sweepCell (a : PlaneSt × SweepSt × Nat) (k : Nat) : PlaneSt × SweepSt × Nat :=
  let (x, w, sat) := a
  let c := Tab.get (fun _ => 0) x.other k
  let v := carried w.cf.persist w.cf.clear w.cf.last c
  let old := Tab.get (fun _ => 0) x.acc k
  ({ x with
    acc := Tab.put (fun _ => 0) x.acc k (min maxCount (old + v)), other := Tab.put (fun _ => 0) x.other k 0 },
    { w with next := w.next + 1, taken := Tab.put (fun _ => 0) w.taken k c }, if maxCount < old + v then sat + 1 else sat)

/-- A plane's sweep stalls: the record that it sends cannot take words (R202). -/
def State.planeStalls (s : State) (p : Nat) (w : SweepSt) : Bool :=
  match w.send with
  | some x => !s.sendOpen p x
  | none => false

/-- A beat of a plane's sweep: 16 cells, or none while it stalls; their words go out with it (R200, R202). -/
def State.planeSweep (s : State) (p : Nat) : State :=
  let x := s.plane p
  match x.sweep with
  | none => s
  | some w =>
    if s.planeStalls p w then s
    else
      let c := s.planeCols p
      let cells := (((upTo 16).map (fun i => w.next + i)).filter (fun k => decide (k < c * s.planeRows p))).map
        (fun k => cellOf (k % c) (k / c))
      let (y, v, sat) := cells.foldl sweepCell (x, w, 0)
      let fmt := s.fget (R.TAP_PL_CFG p) F.TAP_PL_CFG_REC_FMT
      let bytes := cells.foldl (fun bs k => bs ++ cellBytes fmt w.cf (Tab.get (fun _ => 0) v.taken k)) []
      let r : State × Option SendSt := match w.send with
        | some z => if cells.isEmpty then (s, some z) else ((s.sendBytes p w.cf z bytes).1, some (s.sendBytes p w.cf z bytes).2)
        | none => (s, none)
      let taints := w.cf.cnt.tainted && cells.any (fun k =>
        decide (carried w.cf.persist w.cf.clear w.cf.last (Tab.get (fun _ => 0) v.taken k) ≠ 0))
      let s1 := r.1.setPlane p { y with
        sweep := some { v with send := r.2 }
        frame := y.frame.map (fun f => { f with sat := f.sat + sat, tainted := f.tainted || taints })
        carryTaint := y.frame.isNone && (y.carryTaint || taints) }
      if sat = 0 then s1 else s1.raise vTAP 3

/-- A beat passes for the planes: columns form, increments are absorbed, sweeps go on. -/
def State.tapBeat (s : State) : State :=
  (upTo 16).foldl (fun x p =>
    let y := x.plane p
    if y.forming.isEmpty && y.queue.isEmpty && y.sweep.isNone then x
    else ((x.planeForm p).planeAbsorb p).planeSweep p) s

/-- The sweep of a closed frame has ended: its image is complete and its record is pushed (R205, R207, R208). -/
def State.planeSwept (s : State) (p : Nat) (w : SweepSt) : State :=
  let x := s.plane p
  let cf := w.cf
  let image := (s.planeCells p).foldl (fun t k =>
    Tab.put (fun _ => 0) t k (paletteIndex cf.map cf.gain (Tab.get (fun _ => 0) w.taken k))) ([] : Tab Nat)
  let s1 := (s.setPlane p { x with sweep := none, image := image, imageFrame := some cf.cnt.number }).foff
    (R.TAP_PL_STATUS p) F.TAP_PL_STATUS_SWEEPING
  let s2 := match w.send with
    | some z => s1.sendEnd p cf z
    | none => s1
  if cf.last then
    s2.unitEnd (s2.fget (R.TAP_PL_CFG p) F.TAP_PL_CFG_STREAM) p rtDensity ((cf.boundary : Int) * 256)
  else s2

end Sys2Proof.Machine
end

