-- ==== Sys2Proof/Machine/Windows.lean ====
section
/-!
DEFINITION. The built-in windows of the Reeds (R111): cosines in fixed point and the rounded coefficients.
-/

namespace Sys2Proof.Machine

/-- π in units of 2^-80. -/
def piFix : Nat := 3797952473636338580787993

/-- The cosine series of an angle whose square is x2 (units of 2^-80): terms from number k on, the term before it given. -/
def cosSeries (x2 : Int) : Nat → Nat → Int → Int
  | 0, _, _ => 0
  | n + 1, k, term =>
    let next := -(term * x2 / 2 ^ 80) / ((2 * k + 1) * (2 * k + 2) : Nat)
    term + cosSeries x2 n (k + 1) next

/-- The cosine of k / n turns for k / n up to a quarter, in units of 2^-80. -/
def cosQuarter (k n : Nat) : Int :=
  let x : Int := (2 * piFix * k / n : Nat)
  cosSeries (x * x / 2 ^ 80) 24 0 (2 ^ 80)

/-- The cosine of k / n turns in units of 2^-80. -/
def cosTurn (k n : Nat) : Int :=
  let a := k % n
  let b := if n < 2 * a then n - a else a
  if 4 * b ≤ n then cosQuarter b n else -(cosQuarter (n - 2 * b) (2 * n))

/-- The coefficients a_m of a built-in window, in units of 10^-8 (R111). -/
def windowTerms (win : Nat) : List Nat :=
  match win with
  | 1 => [50000000, 50000000]
  | 2 => [54000000, 46000000]
  | 3 => [35875000, 48829000, 14128000, 1168000]
  | 4 => [21557895, 41663158, 27726316, 8357895, 694737]
  | _ => [100000000]

/-- Σ (−1)^m a_m cos(2πmi/n), in units of 10^-8 × 2^-80. -/
def windowSum (i n : Nat) : Nat → List Nat → Int
  | _, [] => 0
  | m, a :: t =>
    (if m % 2 = 0 then (a : Int) * cosTurn (m * i) n else -((a : Int) * cosTurn (m * i) n)) + windowSum i n (m + 1) t

/-- Coefficient i of a built-in window of length n: 18 bits unsigned with 17 fraction bits (R111). An exact value below
-1/2 unit has no such form, and is open, though not above 1.0 (R113). -/
def builtinCoef (win i n : Nat) : Nat :=
  let v := windowSum i n 0 (windowTerms win)
  let r := (v * 2 ^ 18 + 100000000 * 2 ^ 80) / (2 * 100000000 * 2 ^ 80)
  if r < 0 then Config.negativeCoef win i n % (2 ^ 17 + 1) else r.toNat

end Sys2Proof.Machine
end

