-- ==== Sys2Proof/Machine/Transform.lean ====
section
/-!
DEFINITION. What a Reed computes from the windowed inputs: the transform (R114, R116), the mantissas and the exponent of a spectrum (R114,
R115), and the power codes (R117, R133). The rounding inside the datapath is open within the bounds that the rules give (log entry 7).
-/

namespace Sys2Proof.Machine

/-! ### Power in 1/128 dB -/

/-- 1280 × log10(num / den) is at least q − 1/2, given num^2560 and den^2560. -/
def log10Reaches (num den : Nat) (q : Int) : Bool :=
  let e := 2 * q - 1
  if 0 ≤ e then decide (10 ^ e.toNat * den ≤ num) else decide (den ≤ num * 10 ^ (-e).toNat)

/-- The largest q of the next 2^k from q on that is still reached. -/
def log10Search (num den : Nat) : Nat → Int → Int
  | 0, q => q
  | k + 1, q =>
    let m : Int := q + (2 ^ k : Nat)
    if log10Reaches num den m then log10Search num den k m else log10Search num den k q

/-- 1280 × log10(num / den), rounded. -/
def log10Code (num den : Nat) : Int := log10Search (num ^ 2560) (den ^ 2560) 19 (-262144)

/-- round(128 × (P + 256)) for a sum of squared mantissas, their exponent, the form, and the sum of the window's coefficients in 2^-17: with
X = M × 2^(E − 10) and F = 8,192 × CG × N, halved for a real stream (R117, R133). -/
def powerCode (power : Nat) (e : Int) (complex : Bool) (wsum : Nat) : Int :=
  let x : Int := 2 * e - (if complex then 12 else 10)
  log10Code (power * 2 ^ x.toNat) (wsum * wsum * 2 ^ (-x).toNat) + 32768

/-- A code within `tol` units of the exact one, limited to 16 bits with the offset; no power at all gives the offset (R117, R133). -/
def limitCode (pofs exact : Int) (tol pick : Nat) : Nat :=
  (clampInt 0 65535 (exact + (pick % (2 * tol + 1) : Nat) - tol + pofs)).toNat

/-! ### The transform -/

/-- A complex value. -/
abbrev Cplx := Int × Int

/-- The product of a value with e^(−2πi k/n), the factor in units of 2^-80. -/
def twiddled (k n : Nat) (z : Cplx) : Cplx :=
  let c := cosTurn k n
  let d := cosTurn (4 * k + 3 * n) (4 * n)
  ((z.1 * c + z.2 * d) / 2 ^ 80, (z.2 * c - z.1 * d) / 2 ^ 80)

/-- Elements 0, 2, 4 … of a list. -/
def evens {α : Type} : List α → List α
  | [] => []
  | [x] => [x]
  | x :: _ :: t => x :: evens t

/-- The two halves of a transform from those of the even and the odd inputs. -/
def butterflies (n : Nat) (xs ys : List Cplx) : List Cplx :=
  let ts := (ys.zip (upTo ys.length)).map (fun e => twiddled e.2 n e.1)
  (xs.zip ts).map (fun e => (e.1.1 + e.2.1, e.1.2 + e.2.2)) ++ (xs.zip ts).map (fun e => (e.1.1 - e.2.1, e.1.2 - e.2.2))

/-- X_k = Σ x_n e^(−2πi nk/N), k = 0 to N − 1, for N = 2^m inputs (R114). -/
def dft : Nat → List Cplx → List Cplx
  | 0, xs => xs
  | m + 1, xs => butterflies (2 ^ (m + 1)) (dft m (evens xs)) (dft m (evens (xs.drop 1)))

/-- Fraction bits beyond the inputs' that the transform is computed with here. -/
def guardBits : Nat := 64

/-- The bins that a spectrum delivers, in order of position: N/2 of a real stream, the Nyquist bin left out, or N of a complex stream in ascending
frequency (R116); with guardBits further fraction bits, those beyond 2^-40 dropped. -/
def exactBins (complex : Bool) (inputs : List Cplx) : List Cplx :=
  let n := inputs.length
  let xs := (dft (Nat.log2 n) (inputs.map (fun z => (z.1 * 2 ^ guardBits, z.2 * 2 ^ guardBits)))).map (fun z =>
    (roundConv z.1 24 * 2 ^ 24, roundConv z.2 24 * 2 ^ 24))
  if complex then xs.drop (n / 2) ++ xs.take (n / 2) else xs.take (n / 2)

/-! ### Block floating point -/

/-- The largest magnitude of a part. -/
def largestPart (xs : List Cplx) : Nat := xs.foldl (fun m z => max m (max z.1.natAbs z.2.natAbs)) 0

/-- A magnitude with guardBits fraction bits in units of 2^e, rounded to a multiple of g. -/
def scaledTo (g : Nat) (e : Int) (v : Nat) : Nat :=
  let num := v * 2 ^ (-e).toNat
  let den := 2 ^ guardBits * 2 ^ e.toNat * g
  (2 * num + den) / (2 * den) * g

/-- E: the largest part lies in [2^22, 2^23) once it is rounded; 0 where every bin is 0 (R114). -/
def blockExponent (g largest : Nat) : Int :=
  if largest = 0 then 0
  else
    let e : Int := (Nat.log2 largest : Int) - guardBits - 22
    if scaledTo g e largest < 2 ^ 23 then e else e + 1

/-- How far a part may lie from its exact value, in 2^-40 of a mantissa unit, for the largest mantissa: an error of a bin of −130 dB of the largest,
−94 dB at 18 bits, shared by its two parts (R114, R115; log entry 7). -/
def partBound (reduced : Bool) (top : Nat) : Nat :=
  if reduced then top * 14109 * 2 ^ 40 / 10 ^ 9 else top * 2236 * 2 ^ 40 / 10 ^ 10

/-- A mantissa part: some multiple of g within the bound of the exact value; the largest stays in [2^22, 2^23) and the others below 2^23 (R114). -/
def mantissaPart (g top bound pick : Nat) (e v : Int) : Int :=
  let m : Int := v * 2 ^ (40 + (-e).toNat) / (2 ^ guardBits * 2 ^ e.toNat : Nat)
  let unit : Int := (g : Int) * 2 ^ 40
  let low := (m - bound + unit - 1) / unit
  let high := (m + bound) / unit
  let x := (low + (pick % ((high - low + 1).toNat) : Nat)) * g
  let y := clampInt (-(2 ^ 23 - g)) (2 ^ 23 - g) x
  if scaledTo g e v.natAbs = top then (if v < 0 then min y (-(2 ^ 22)) else max y (2 ^ 22)) else y

/-- The mantissas of a spectrum and their exponent (R114 to R116). -/
def spectrumOf (complex reduced : Bool) (inputs : List Cplx) : List Cplx × Int :=
  let xs := exactBins complex inputs
  let g := if reduced then 64 else 1
  let largest := largestPart xs
  let e := blockExponent g largest
  let top := scaledTo g e largest
  let bound := partBound reduced top
  let pick (i : Nat) : Nat := Config.fftPick complex reduced inputs i
  if largest = 0 then (xs.map (fun _ => (0, 0)), 0)
  else
    ((xs.zip (upTo xs.length)).map (fun b =>
      (mantissaPart g top bound (pick (2 * b.2)) e b.1.1, mantissaPart g top bound (pick (2 * b.2 + 1)) e b.1.2)), e)

end Sys2Proof.Machine
end

