-- ==== Sys2Proof/Machine/SpecOps.lean ====
section
/-!
DEFINITION. Operations of the Reeds: windows of a stream (R103 to R105, R111 to R113), discards (R120), the service of
a Reed (R115, R123), spectra and their consumers (R114 to R122), spectral condition units (R132 to R135), taint (R121).
-/

namespace Sys2Proof.Machine

/-- The stream of channel c. -/
def State.strm (s : State) (c : Nat) : StreamRt := Tab.get (fun _ => StreamRt.init) s.spec.streams c

/-- The stream of channel c replaced. -/
def State.setStrm (s : State) (c : Nat) (x : StreamRt) : State :=
  { s with spec := { s.spec with streams := Tab.put (fun _ => StreamRt.init) s.spec.streams c x } }

/-- SPC_CH_CFG of channel c. -/
def spcCfg (c : Nat) : Nat := R.SPC_CH_CFG (c / 8) (c % 8)

/-- N of a stream (R104). -/
def State.specN (s : State) (c : Nat) : Nat := 2 ^ s.fget (spcCfg c) F.SPC_CH_CFG_LEN_EXP

/-- The stream is complex: tap Z (R103). -/
def State.specZoom (s : State) (c : Nat) : Bool := s.flag (spcCfg c) F.SPC_CH_CFG_SRC

/-- The overlap code in use (R109). -/
def State.specOvl (s : State) (c : Nat) : Nat := s.fget (R.SPC_CH_STATUS (c / 8) (c % 8)) F.SPC_CH_STATUS_EFF_OVL

/-- H of a stream with the overlap in use (R104). -/
def State.specHop (s : State) (c : Nat) : Nat := s.specN c / 2 ^ s.specOvl c

/-- D of a channel's down-converter (R88). -/
def State.ddcD (s : State) (c : Nat) : Nat :=
  let a := R.CND_DDC_CFG (c / 8) (c % 8)
  2 ^ s.fget a F.CND_DDC_CFG_RC_EXP * (if s.flag a F.CND_DDC_CFG_RF then 4 else 2)

/-- Dz of a stream (R105). -/
def State.specDz (s : State) (c : Nat) : Nat := if s.specZoom c then s.ddcD c else 1

/-- The conditioner of channel c. -/
def State.cch (s : State) (c : Nat) : CondCh := Tab.get (fun _ => CondCh.init) s.cond.chans c

/-- The stride of the samples that tap A of a channel releases (R43). -/
def State.stride (s : State) (c : Nat) : Nat := (s.cch c).stride

/-- The gang width of a channel (R45). -/
def State.gangNow (s : State) (c : Nat) : Nat :=
  let g := if c % 8 < 4 then s.fget (R.LNK_CFG (c / 8)) F.LNK_CFG_GANG_LO
    else s.fget (R.LNK_CFG (c / 8)) F.LNK_CFG_GANG_HI
  if g = 2 then 4 else if g = 1 then 2 else 1

/-- Entry k of user table t of slice n (R112). -/
def State.tableEntry (s : State) (n t k : Nat) : Nat := Tab.get (fun _ => 0) s.spec.tables (16384 * (2 * n + t) + k)

/-- Coefficient i of the window of a stream (R111, R112). -/
def State.winCoef (s : State) (c i : Nat) : Nat :=
  let win := s.fget (spcCfg c) F.SPC_CH_CFG_WIN
  let n := s.specN c
  if win = 8 ∨ win = 9 then s.tableEntry (c / 8) (win - 8) (i * (16384 / n)) else builtinCoef win i n

/-- A windowed value: 24 bits with 10 fraction bits, and whether it saturated (R113). -/
def windowed (shift : Nat) (v : Int) (w : Nat) : Int × Bool :=
  let x := roundConv (v * w) shift
  let y := clampInt (-8388608) 8388607 x
  (y, decide (x ≠ y))

/-- The windowed inputs of a window, and whether a value saturated (R113). -/
def State.windowInputs (s : State) (c i : Nat) : List TapSamp → List (Int × Int) × Bool
  | [] => ([], false)
  | x :: t =>
    let w := s.winCoef c i
    let sh := if s.specZoom c then 17 else 9
    let a := windowed sh x.re w
    let b := windowed sh x.im w
    let r := s.windowInputs c (i + 1) t
    ((a.1, b.1) :: r.1, a.2 || b.2 || r.2)

/-- B of R123: the beats a Reed needs to load a window. -/
def State.specB (s : State) (c : Nat) : Nat := s.specN c * (if s.specZoom c then 2 else 1) / 4

/-- P of R123. -/
def State.specP (s : State) (c : Nat) : Nat := 3 * s.fget (spcCfg c) F.SPC_CH_CFG_LEN_EXP + 24

/-- The user table of a stream holds an uncorrectable error (R112). -/
def State.tableBad (s : State) (c : Nat) : Bool :=
  let win := s.fget (spcCfg c) F.SPC_CH_CFG_WIN
  (win == 8 || win == 9) && s.bit (R.SPC_STATUS (c / 8)) (4 + (win - 8))

/-- Windows of a stream are discarded: counted, flagged, logged; the next spectrum carries GAP (R120). The table of R487 names no content for the
entry. -/
def State.specSkip (s : State) (c count : Nat) : State :=
  if count = 0 then s
  else
    let x := s.strm c
    ((s.setStrm c { x with gapNext := true }).count (R.SPC_CH_SKIP_CNT (c / 8) (c % 8)) count).event
      (vSPC (c / 8)) 0 sevInfo (c % 8) 0 0

/-- The whole part of a quotient rounded up. -/
def ceilDivInt (a b : Int) : Int := (a + b - 1) / b

/-- A window is complete in a beat, and waits for its Reed (R105, R113, R119). -/
def State.specWindow (s : State) (c : Nat) (released : Nat) (xs : List TapSamp) : State :=
  match xs with
  | [] => s
  | x0 :: _ =>
    let x := s.strm c
    let hopPos : Int := (s.specHop c * s.specDz c : Nat)
    let j := ((x.start - x.n0.getD x.start) / hopPos).toNat
    let last := xs.foldl (fun _ y => y) x0
    let x1 := { x with endStamp := some last.stamp }
    if s.tableBad c then (s.setStrm c x1).specSkip c 1
    else
      let (ins, sat) := s.windowInputs c 0 xs
      let w : PendWin := ⟨released, false, 0, 0, j, x0.stamp,
        xs.foldl (fun m y => min m y.lo) x0.lo, xs.foldl (fun m y => max m y.hi) x0.hi,
        xs.any (fun y => y.taint), sat || xs.any (fun y => y.ovr || y.sat),
        s.bit R.GLB_DEGRADE dgThermal, 0, s.stride c, ins⟩
      s.setStrm c { x1 with pend := x1.pend ++ [w] }

/-- The Reed of a complete window takes it: after those complete before it, and in one beat those of lower channels (R123). -/
def State.takeWindow (s : State) (c : Nat) (w : PendWin) : State × PendWin :=
  let n := c / 8
  let r := s.specReed c w.index
  let reed := s.reed n r
  let b := s.specB c
  let load := max w.done reed.freeAt
  let lat := load - w.done + 2 * b + s.specP c
  (s.setReed n r { reed with freeAt := load + b }, { w with placed := true, loadAt := load, due := w.done + lat, latency := lat })

/-- The windows of a list that are complete by now are taken, oldest first. -/
def State.takeWindows (s : State) (c : Nat) : List PendWin → State × List PendWin
  | [] => (s, [])
  | w :: t =>
    let a := if !w.placed && decide (w.done ≤ s.beats) then s.takeWindow c w else (s, w)
    let b := a.1.takeWindows c t
    (b.1, a.2 :: b.2)

/-- A beat passes for the stream of a channel: windows complete in it are taken, and loading that starts in it sets its Reed's precision (R115,
R123). -/
def State.streamBeat (s : State) (c : Nat) : State :=
  let r := s.takeWindows c (s.strm c).pend
  let s1 := r.1.setStrm c { s.strm c with pend := r.2 }
  (r.2.filter (fun w => w.placed && decide (w.loadAt = s.beats))).foldl
    (fun x w => x.reedPrecision (c / 8) (x.specReed c w.index) w.reduced) s1

/-- A beat passes for the Reeds, the channels in ascending order (R123). -/
def State.specBeat (s : State) : State := (s.spec.streams.map (fun e => e.1)).foldl (fun x c => x.streamBeat c) s

/-- A position is missing at the source tap: the windows that have begun are discarded, and none begins until one can on the grid
(R105, R120; log entry 205). -/
def State.specLost (s : State) (c : Nat) : State :=
  let x := s.strm c
  let h := s.specHop c
  if !x.running then s
  else (s.setStrm c { x with running := false, restart := none, held := [] }).specSkip c ((x.held.length + h - 1) / h)

/-- A tap output reaches the stream of channel c (R105): the first window, a missing position, a restart on the grid,
a complete window. -/
def State.specSample (s : State) (c : Nat) (zoom : Bool) (released : Nat) (y : TapSamp) : State :=
  if !s.flag (spcCfg c) F.SPC_CH_CFG_EN || s.specZoom c != zoom || !s.flag (R.SPC_STATUS (c / 8)) F.SPC_STATUS_ENABLE
      || !s.analysed y.taken then s
  else
    let s0 := if y.brk then s.specLost c else s
    let x := s0.strm c
    let h := s.specHop c
    let n := s.specN c
    let dz := s.specDz c
    let step : Int := (s.stride c * dz : Nat)
    let hopPos : Int := (h * dz : Nat)
    -- the state of the windows before this sample: a first window, a break, or on as before
    let x1 : StreamRt := match x.n0 with
      | none => { x with n0 := some y.pos, running := true, start := y.pos, held := [] }
      | some n0 =>
        if y.brk then { x with restart := some (n0 + ceilDivInt (y.pos - n0) hopPos * hopPos) } else x
    let begins := !x1.running && (match x1.restart with
      | some g => decide (g ≤ y.pos)
      | none => false)
    let x2 : StreamRt := if begins then { x1 with running := true, restart := none, start := y.pos, held := [] } else x1
    if !x2.running then s0.setStrm c x2
    else
      let held := x2.held ++ [y]
      let s1 := s0.setStrm c { x2 with held := held }
      if n ≤ held.length then
        let s2 := s1.specWindow c released (held.take n)
        let z := s2.strm c
        s2.setStrm c { z with held := z.held.drop h, start := z.start + (h : Int) * step }
      else s1

/-! ### Spectral condition units -/

/-- Entry k of the mask memory of slice n (R133). -/
def State.maskEntry (s : State) (n k : Nat) : Word := Tab.get (fun _ => 0x0000FFFF#32) s.trd.masks (32768 * n + k)

/-- The sum of the window's coefficients of a stream, CG × N in 2^-17 (R111, R112, R117). -/
def State.windowSumOf (s : State) (c : Nat) : Nat := (upTo (s.specN c)).foldl (fun a i => a + s.winCoef c i) 0

/-- The code of a power, within tol units of the exact one (R117, R133). -/
def State.codeOf (s : State) (c power : Nat) (e : Int) (wsum tol : Nat) : Nat :=
  let pofs := signed 16 (s.fget (R.SPC_CH_POFS (c / 8) (c % 8)) F.SPC_CH_POFS_POFS)
  limitCode pofs (powerCode power e (s.specZoom c) wsum) tol (Config.codePick power e (s.specZoom c) wsum)

/-- The band power code of R133: no power at all lies below every code. -/
def State.bandCode (s : State) (c : Nat) (mags : List Nat) (e : Int) : Nat :=
  let power := mags.foldl (· + ·) 0
  if power = 0 then 0 else s.codeOf c power e (s.windowSumOf c) 2

/-- Whether a spectrum meets a unit's test, and whether it stops meeting it (R133). -/
def State.scTest (s : State) (n u c : Nat) (codes mags : List Nat) (e : Int) : Bool × Bool :=
  let kind := s.fget (R.STR_SC_CFG n u) F.STR_SC_CFG_KIND
  let first := s.fget (R.STR_SC_BAND n u) F.STR_SC_BAND_FIRST
  let last := s.fget (R.STR_SC_BAND n u) F.STR_SC_BAND_LAST
  let hi := s.fget (R.STR_SC_THR n u) F.STR_SC_THR_THR_HI
  let lo := s.fget (R.STR_SC_THR n u) F.STR_SC_THR_THR_LO
  let base := s.fget (R.STR_SC_MASK n u) F.STR_SC_MASK_BASE
  if kind = 3 then
    let out := (upTo (last + 1 - first)).any (fun i =>
      let m := s.maskEntry n (base + i)
      let l := codes.getD (first + i) 0
      decide (fieldOf m F.STR_MASK_DATA_UPPER < l) || decide (l < fieldOf m F.STR_MASK_DATA_LOWER))
    (out, !out)
  else
    let b := s.bandCode c ((mags.drop first).take (last + 1 - first)) e
    if kind = 1 then (decide (hi < b), decide (b < lo))
    else if kind = 2 then (decide (b < lo), decide (hi < b))
    else (false, false)

/-- A unit with STOP rises, its value reaching the Treadle in a beat: which of the units does so first shows as the beats pass (R135). -/
def State.scStop (s : State) (n u : Nat) (centre : Int) (due : Nat) : State :=
  if s.trd.maskRise.isSome then s else s.setTrd { s.trd with rises := s.trd.rises ++ [⟨due, 16 * n + u, centre⟩] }

/-- The first of some rises: the earliest, and of those in one beat that of the lowest unit (log entry 255). -/
def firstRise : List MaskRise → Option MaskRise
  | [] => none
  | x :: t => match firstRise t with
    | some y => if x.due < y.due ∨ (x.due = y.due ∧ x.unit < y.unit) then some x else some y
    | none => some x

/-- The first rise in the run of a unit with STOP has reached the Treadle: the unit latches the window centre (R135). -/
def State.riseDue (s : State) : State :=
  match firstRise s.trd.rises with
  | none => s
  | some r =>
    if s.beats < r.due then s
    else
      let n := r.unit / 16
      let u := r.unit % 16
      let s1 := ((s.setPair (R.STR_SC_VIOL_LO n u) (R.STR_SC_VIOL_HI n u) (unsigned 64 (r.centre / 256))).fon
        (R.STR_SC_STATUS n u) F.STR_SC_STATUS_VIOLATED).raise (vSTR n) 1
      s1.setTrd { s1.trd with maskRise := some (r.due, r.unit), rises := [] }

/-- One unit tests a spectrum of its stream (R134); the new value reaches the Treadle 12 beats after the bin at LAST
left the Reed. -/
def State.scUnit (s : State) (n u c index : Nat) (sflags : Nat) (centre : Int) (firstBin : Nat) (codes mags : List Nat)
    (e : Int) : State :=
  let cfg := R.STR_SC_CFG n u
  if !s.evaluates || !s.flag cfg F.STR_SC_CFG_EN || !s.flag (R.STR_SC_STATUS n u) F.STR_SC_STATUS_BOUND
      || decide (8 * n + s.fget cfg F.STR_SC_CFG_CH ≠ c) || decide (s.fget cfg F.STR_SC_CFG_KIND = 0)
      || (s.flag cfg F.STR_SC_CFG_TAINT_SKIP && nbit sflags 0) then s
  else
    let key := 16 * n + u
    let x := Tab.get (fun _ => ScSt.init) s.trd.scs key
    let (meets, stops) := s.scTest n u c codes mags e
    let before := if nbit sflags 2 then 0 else x.count
    let count := if meets then min 255 (before + 1) else 0
    let value := if x.value then !stops else decide (s.fget cfg F.STR_SC_CFG_CONSEC ≤ count) && meets
    let s1 := s.setTrd { s.trd with scs := Tab.put (fun _ => ScSt.init) s.trd.scs key ⟨count, value⟩ }
    let s2 := if meets then s1.count (R.STR_SC_CNT n u) 1 else s1
    let s3 := s2.fset (R.STR_SC_STATUS n u) F.STR_SC_STATUS_VALUE (if value then 1 else 0)
    let due := firstBin + s.fget (R.STR_SC_BAND n u) F.STR_SC_BAND_LAST / 2 + 12
    if value == x.value then s3
    else
      let chg : BusChg := if value then ⟨due, true, some centre, .spectrum c index, nbit sflags 0⟩
        else ⟨due, false, none, .plain, false⟩
      let s4 := s3.pushBus (192 + key) chg
      let s5 := if value && nbit sflags 0 then (s4.count (R.STR_TAINT_EVT_CNT n) 1).raise (vSTR n) 0 else s4
      if value && s.flag cfg F.STR_SC_CFG_STOP then s5.scStop n u centre due else s5

/-! ### Spectra -/

/-- The log-power codes of a spectrum's bins; a bin of no power has the offset (R117). -/
def State.logCodes (s : State) (c : Nat) (bins : List (Int × Int)) (e : Int) : List Nat :=
  let pofs := signed 16 (s.fget (R.SPC_CH_POFS (c / 8) (c % 8)) F.SPC_CH_POFS_POFS)
  let wsum := s.windowSumOf c
  bins.map (fun z =>
    let m := (z.1 * z.1 + z.2 * z.2).toNat
    if m = 0 then (clampInt 0 65535 pofs).toNat else s.codeOf c m e wsum 1)

/-- A spectrum joins the open SPECTRUM record of its stream; a full one, and one of another rate, is left to close (R33, R122, R281; log entry 209). -/
def State.specRecord (s : State) (c rate : Nat) (item : SpecItem) (lastBin : Nat) : State :=
  if s.fget (spcCfg c) F.SPC_CH_CFG_OUT_FMT = 0 then s
  else
    let recs := Tab.get (fun _ => []) s.recs.specs c
    let limit := s.fget (R.QUL_CH_CFG (c / 8) (c % 8)) F.QUL_CH_CFG_SPEC_BATCH + 1
    let fresh : SpecRec := ⟨rate, [item], s.beats, lastBin⟩
    let put (xs : List SpecRec) : State :=
      { s with recs := { s.recs with specs := Tab.put (fun _ => []) s.recs.specs c xs } }
    match recs.reverse with
    | [] => put [fresh]
    | r :: older =>
      if r.items.length < limit ∧ r.rate = rate then
        put (older.reverse ++ [{ r with items := r.items ++ [item], newest := lastBin }])
      else put (recs ++ [fresh])

/-- A spectrum leaves its Reed: its fields, its consumers, its counts (R114 to R123). The first after a discard carries GAP (R120). -/
def State.specDeliver (s : State) (c : Nat) (w : PendWin) : State :=
  let n := c / 8
  let l := c % 8
  let zoom := s.specZoom c
  let x := s.strm c
  let (bins, e) := spectrumOf zoom w.reduced w.inputs
  let codes := s.logCodes c bins e
  let mags := bins.map (fun z => (z.1 * z.1 + z.2 * z.2).toNat)
  let stepped := s.flag (R.SPC_CH_STATUS n l) F.SPC_CH_STATUS_STEPPED
  let b (x : Bool) (v : Nat) : Nat := if x then v else 0
  let sflags := b w.taint 1 + b w.ovr 2 + b x.gapNext 4 + b w.reduced 8 + b stepped 16
  let half : Int := (s.specN c / 2 * w.stride * s.specDz c * 256 / s.gangNow c : Nat)
  let centre := w.stamp + half
  let fmt := s.fget (spcCfg c) F.SPC_CH_CFG_OUT_FMT
  let first := s.fget (R.SPC_CH_BINS n l) F.SPC_CH_BINS_FIRST
  let cnt := s.fget (R.SPC_CH_BINS n l) F.SPC_CH_BINS_COUNT
  let cut {α : Type} (xs : List α) : List α := if cnt = 0 then xs.drop first else (xs.drop first).take cnt
  let item : SpecItem := ⟨w.index, e, sflags, w.stamp, if fmt % 2 = 1 then cut codes else [],
    if 2 ≤ fmt then cut bins else []⟩
  let lat := R.SPC_CH_LAT n l
  let s0 := s.setStrm c { x with gapNext := false }
  let s1 := (s0.count (R.SPC_CH_SPEC_CNT n l) 1).wr lat
    (w32 (w.latency + 65536 * max w.latency (s.fget lat F.SPC_CH_LAT_MAX)))
  let s2 := s1.fset (R.SPC_CH_STATUS n l) F.SPC_CH_STATUS_REDUCED (if w.reduced then 1 else 0)
  let s3 := (upTo 16).foldl (fun x u => x.scUnit n u c w.index sflags centre w.due codes mags e) s2
  let s4 := (upTo 16).foldl (fun x p => if x.planeOn p && x.planeTakes p c then x.planeOffer p w.stamp sflags codes w.due else x) s3
  s4.specRecord c (s4.rateOf c w.stride (s4.gangNow c) zoom) item (w.due + s.specB c - 1)

/-! ### Taint -/

/-- A late-taint mark of a spectrum goes to every consumer (R121, R147, R198). -/
def State.lateTaint (s : State) (c index : Nat) : State :=
  let n := c / 8
  let s1 := (s.count (R.SPC_LATE_TAINT_CNT n) 1).raise (vSPC n) 1
  let recs := (Tab.get (fun _ => []) s1.recs.specs c).map (fun (r : SpecRec) =>
    { r with items := r.items.map (fun i =>
        if i.index = index then { i with sflags := ((w32 i.sflags) ||| 33#32).toNat } else i) })
  let s2 := { s1 with recs := { s1.recs with specs := Tab.put (fun _ => []) s1.recs.specs c recs } }
  (s2.taintSpectrum c index).planesLate c

/-- A taint notice reaches the Reeds: windows that have not left are tainted, those that have are marked late (R121). -/
def State.taintReeds (s : State) (c : Nat) (w : Stretch) : State :=
  let x := s.strm c
  let y : StreamRt := { x with
    held := x.held.map (fun t => if w.meets t.lo t.hi then { t with taint := true } else t),
    pend := x.pend.map (fun t => if w.meets t.lo t.hi then { t with taint := true } else t) }
  let late := x.left.filter (fun t => w.meets t.lo t.hi)
  late.foldl (fun z t => z.lateTaint c t.index) (s.setStrm c y)

/-- The Reeds at run start: windows begin anew (R105); the latencies of the run before are 0. -/
def State.reedsStart (s : State) : State :=
  let s1 := { s with spec := { s.spec with streams := [], reeds := s.spec.reeds.map (fun e => (e.1, { e.2 with freeAt := 0 })) } }
  (upTo 192).foldl (fun x c => x.wr (R.SPC_CH_LAT (c / 8) (c % 8)) 0#32) s1

end Sys2Proof.Machine
end

