-- ==== Sys2Proof/Machine/Boundary.lean ====
section
/-!
DEFINITION. The run boundaries: what run start and run stop do to every block (R22, R26), a FATAL entry as STOP (R24),
and the end of STOPPING (R23).
-/

namespace Sys2Proof.Machine

/-- Stop reasons of GLB_RUN.STOP_REASON. -/
def stopSoftware : Nat := 0
def stopAbort : Nat := 1
def stopFault : Nat := 2
def stopMask : Nat := 3

/-- The STATUS registers, with their ENABLE fields, of the data-path blocks of slice n (R16). -/
def sliceEnables (n : Nat) : List (Nat × Fld) :=
  [(R.LNK_STATUS n, F.LNK_STATUS_ENABLE), (R.CND_STATUS n, F.CND_STATUS_ENABLE),
   (R.SPC_STATUS n, F.SPC_STATUS_ENABLE), (R.STR_STATUS n, F.STR_STATUS_ENABLE),
   (R.SHU_STATUS n, F.SHU_STATUS_ENABLE), (R.QUL_STATUS n, F.QUL_STATUS_ENABLE)]

/-- The STATUS registers, with their ENABLE fields, of the global data-path blocks (R16). -/
def globalEnables : List (Nat × Fld) :=
  [(R.TRD_STATUS, F.TRD_STATUS_ENABLE), (R.BOB_STATUS, F.BOB_STATUS_ENABLE), (R.TAP_STATUS, F.TAP_STATUS_ENABLE),
   (R.REC_STATUS, F.REC_STATUS_ENABLE), (R.SKN_STATUS, F.SKN_STATUS_ENABLE), (R.HNS_STATUS, F.HNS_STATUS_ENABLE),
   (R.STP_STATUS, F.STP_STATUS_ENABLE), (R.HFB_STATUS, F.HFB_STATUS_ENABLE)]

/-- Tap A delivers nothing on a channel whose conditioner's ENABLE is 0 (R102). -/
def State.tapsIdle (s : State) : State :=
  (s.cond.chans.map (fun e => e.1)).foldl (fun x c =>
    if x.flag (R.CND_STATUS (c / 8)) F.CND_STATUS_ENABLE then x
    else x.foff (R.CND_CH_STATUS (c / 8) (c % 8)) F.CND_CH_STATUS_DELIVERING) s

/-- Every data-path block's ENABLE cleared (R16, R17, R19), and with it a conditioner's READY (R101; log entry 253). -/
def State.disableBlocks (s : State) : State :=
  let s1 := globalEnables.foldl (fun x p => x.foff p.1 p.2) s
  State.tapsIdle ((upTo 24).foldl (fun x n =>
    ((sliceEnables n).foldl (fun y p => y.foff p.1 p.2) x).foff (R.CND_STATUS n) F.CND_STATUS_READY) s1)

/-- GLB_RUN.STATE takes a value, with STATE_CHANGE raised where it changes. -/
def State.setRunState (s : State) (k : Nat) : State :=
  if s.runState = k then s else (s.fset R.GLB_RUN F.GLB_RUN_STATE k).raise vGLB 0

/-- The frames that are not whole at run stop and whose samples a channel has taken (R22). -/
def State.partFrames (s : State) (c : Nat) : List InFlight :=
  (s.lanes.map (fun e => e.2.flight.filter (fun f => decide (s.beats < f.whole) && decide (f.chan = c)))).flatten

/-- Partial Linkai frames are discarded at run stop: of the samples that their frames have brought, none is kept, neither in the alignment store
nor in the capture tap (R22). -/
def State.framesStop (s : State) : State :=
  { s with
    cond := { s.cond with chans := s.cond.chans.map (fun e =>
      (e.1, { e.2 with
        store := e.2.store.filter (fun x => decide (x.whole ≤ s.beats)),
        capture := e.2.capture.filter (fun w => !(s.partFrames e.1).any (fun f => f.at_.meets w.samp.lo w.samp.hi)) })) },
    lanes := s.lanes.map (fun e => (e.1, { e.2 with flight := e.2.flight.map (fun f =>
      if s.beats < f.whole then { f with delivered := false, kept := 0 } else f) })) }

/-- What run stop does to the blocks (R22, R26): incomplete units are discarded, open side records close, a
measurement ends, and changes deferred to the boundary take effect. -/
def State.stopBlocks (s : State) : State :=
  ((((((s.framesStop.shedsStop.planesStop).sidesStop).statsStop).hfbStop).repairAll).retireAll)

/-- KEY_ID of each enabled stream's port at run stop, for the manifest (R423). -/
def State.keysAtStop (s : State) : State :=
  (upTo 256).foldl (fun x k =>
    if x.streamOn k then
      let y := Tab.get (fun _ => Session.none) x.brd.sessions (x.fget (R.REC_STREAM_CFG k) F.REC_STREAM_CFG_PORT)
      x.setStream k { x.stream k with keyAtStop := if y.valid then y.keyId else 0 }
    else x) s

/-- Run stop: the first beat of STOPPING, with its reason and warp time (R22). -/
def State.runStop (s : State) (reason : Nat) : State :=
  let s1 := (s.fset R.GLB_RUN F.GLB_RUN_STOP_REASON reason).setRunState rsStopping
  let s2 := { s1 with run := { s1.run with stopWt := s1.wt, stopBeat := s1.beats, aborting := decide (reason = stopAbort), manifest := 0 } }
  let s3 := s2.keysAtStop.raise vGLB 5
  let s4 := if reason = stopFault ∨ reason = stopMask then s3.emcyOnAll 0xFF10 7 0xFF else s3
  s4.stopBlocks.drivePins

/-- The device is IDLE: what waited for it happens at once, and the pins follow the run state (R140, R183, R184). -/
def State.restored (s : State) : State := s.repairAll.retireAll.drivePins

/-- STOP in ARMED, and the cancelling of an ARM: the blocks are disabled and the device is IDLE; no run took place, and a
pending start is cancelled (R17, R20, R21). -/
def State.disarm (s : State) : State :=
  let s1 := { s with run := { s.run with timedStart := false, startNext := false, armSince := none } }
  ((s1.foff R.GLB_RUN F.GLB_RUN_BUSY).disableBlocks.setRunState rsIdle).restored

/-- The stop that a FATAL entry, a mask or software asks for: in RUNNING to STOPPING, in ARMED to IDLE (R17, R24,
R135). Nothing elsewhere. -/
def State.stopFor (s : State) (reason : Nat) : State :=
  if s.runState = rsRunning then s.runStop reason
  else if s.runState = rsArmed then (s.fset R.GLB_RUN F.GLB_RUN_STOP_REASON reason).disarm
  else s

/-- A software STOP or ABORT was accepted in this beat (R24). -/
def State.softStopNow (s : State) : Option Nat :=
  match s.run.softStop with
  | some (c, b) => if b = s.beats then some c else none
  | none => none

/-- A stop that has begun gets reason FAULT, with its EMCY where its reason was another (R24, R395). -/
def State.stopFaulted (s : State) : State :=
  let s1 := s.fset R.GLB_RUN F.GLB_RUN_STOP_REASON stopFault
  let r := s.fget R.GLB_RUN F.GLB_RUN_STOP_REASON
  if r = stopFault ∨ r = stopMask then s1 else s1.emcyOnAll 0xFF10 7 0xFF

/-- A FATAL entry's effect (R24): EMCY 0x5000, and STOP with reason FAULT in ARMED or RUNNING. A software STOP or ABORT
accepted in the same beat made the one transition already: the reason becomes FAULT and STOP_COINCIDENT names the
command. -/
def State.fatalStop (s : State) : State :=
  let s1 := s.emcyOnAll 0x5000 7 0xFF
  match s1.softStopNow with
  | some c =>
    s1.stopFaulted.log vGLB ecStopCoincident sevWarning 0 c 0
  | none =>
    if s1.runState = rsRunning ∨ s1.runState = rsArmed then
      State.stopFor { s1 with run := { s1.run with fatalAt := some s1.beats } } stopFault
    else s1

/-- An event whose entry is FATAL: its bit raised, its entry written, and its stop (R24, R467). -/
def State.fatal (s : State) (vec b unit a0 a1 : Nat) : State := (s.event vec b sevFatal unit a0 a1).fatalStop

end Sys2Proof.Machine
end

