-- ==== Sys2Proof/Machine/Inflate.lean ====
section
/-!
DEFINITION. DEFLATE as the Skein engines and decompressors use it (R290 to R293): stored blocks, and a decoder of raw
DEFLATE streams that reports the codes of R293.
-/

namespace Sys2Proof.Machine

/-- A body as DEFLATE stored blocks of at most 65,535 bytes, the last with BFINAL (R290, R292); n bounds their number. -/
def storedBlocks : Nat → List Byte → List Byte
  | 0, _ => []
  | n + 1, body =>
    let piece := body.take 65535
    let rest := body.drop 65535
    leBytes 1 (if rest.isEmpty then 1 else 0) ++ leBytes 2 piece.length ++ leBytes 2 (65535 - piece.length) ++ piece
      ++ (if rest.isEmpty then [] else storedBlocks n rest)

/-- A decoder: the bits that remain, how many were taken, and the output, newest byte first; the largest distance met, and the types of the
blocks met; the literal, length and end symbols met and the distance symbols, and the code lengths of the dynamic blocks. -/
structure Inf where
  bits : List Bool
  used : Nat
  out : List Byte
  far : Nat
  kinds : List Nat
  syms : List Nat
  dsyms : List Nat
  codes : List (List Nat × List Nat)

/-- What decoding answers: it goes on, or it ended with a code of R293. -/
inductive InfRes (α : Type) where
  | ok (v : α) (s : Inf)
  | err (code : Nat) (s : Inf)

/-- The bits of bytes, bit 0 first. -/
def bitsOfBytes : List Byte → List Bool
  | [] => []
  | b :: t => (upTo 8).map (fun i => b.getLsbD i) ++ bitsOfBytes t

/-- n bits taken, the first the least significant; IN_SHORT where they run out. -/
def takeBits : Nat → Inf → InfRes Nat
  | 0, s => .ok 0 s
  | n + 1, s =>
    match s.bits with
    | [] => .err 7 s
    | b :: t =>
      match takeBits n { s with bits := t, used := s.used + 1 } with
      | .ok v s1 => .ok ((if b then 1 else 0) + 2 * v) s1
      | .err c s1 => .err c s1

/-- The number of codes of a length. -/
def codesOf (lens : List Nat) (k : Nat) : Nat := (lens.filter (fun x => x == k)).length

/-- The symbols of a length, in ascending order. -/
def symbolsOf (lens : List Nat) (k : Nat) : List Nat :=
  (upTo lens.length).filter (fun i => lens[i]? == some k)

/-- Codes left unused by a set of lengths, none where it is over-subscribed. -/
def codesLeft (lens : List Nat) : Option Nat :=
  (upTo 15).foldl (fun a k =>
    match a with
    | some left =>
      let n := codesOf lens (k + 1)
      if 2 * left < n then none else some (2 * left - n)
    | none => none) (some 1)

/-- A symbol of a canonical Huffman code: fuel lengths remain, code bits so far, first code of the present length. An unused
code is reported as BAD_SYMBOL. -/
def huffSymbol (lens : List Nat) : Nat → Nat → Nat → Nat → Inf → InfRes Nat
  | 0, _, _, _, s => .err 4 s
  | n + 1, len, code, first, s =>
    match s.bits with
    | [] => .err 7 s
    | b :: t =>
      let s1 := { s with bits := t, used := s.used + 1 }
      let c := 2 * code + (if b then 1 else 0)
      let f := 2 * first
      let k := codesOf lens (len + 1)
      if c < f + k then .ok ((symbolsOf lens (len + 1)).getD (c - f) 0) s1
      else huffSymbol lens n (len + 1) c (f + k) s1

/-- Base lengths and extra bits of symbols 257 to 285 (RFC 1951). -/
def lenBase : List Nat := [3, 4, 5, 6, 7, 8, 9, 10, 11, 13, 15, 17, 19, 23, 27, 31, 35, 43, 51, 59, 67, 83, 99, 115, 131,
  163, 195, 227, 258]
def lenExtra : List Nat := [0, 0, 0, 0, 0, 0, 0, 0, 1, 1, 1, 1, 2, 2, 2, 2, 3, 3, 3, 3, 4, 4, 4, 4, 5, 5, 5, 5, 0]

/-- Base distances and extra bits of symbols 0 to 29 (RFC 1951). -/
def distBase : List Nat := [1, 2, 3, 4, 5, 7, 9, 13, 17, 25, 33, 49, 65, 97, 129, 193, 257, 385, 513, 769, 1025, 1537,
  2049, 3073, 4097, 6145, 8193, 12289, 16385, 24577]
def distExtra : List Nat := [0, 0, 0, 0, 1, 1, 2, 2, 3, 3, 4, 4, 5, 5, 6, 6, 7, 7, 8, 8, 9, 9, 10, 10, 11, 11, 12, 12,
  13, 13]

/-- n bytes copied from a distance back; OUT_FULL at the limit. -/
def copyBack (dist limit : Nat) : Nat → Inf → InfRes Unit
  | 0, s => .ok () s
  | n + 1, s =>
    if limit ≤ s.out.length then .err 6 s
    else copyBack dist limit n { s with out := (s.out[dist - 1]?).getD 0#8 :: s.out }

/-- The symbols of a block up to its end. -/
def infCodes (lits dists : List Nat) (limit : Nat) : Nat → Inf → InfRes Unit
  | 0, s => .err 7 s
  | n + 1, s =>
    match huffSymbol lits 15 0 0 0 s with
    | .err c s1 => .err c s1
    | .ok sym s0 =>
      let s1 := { s0 with syms := sym :: s0.syms }
      if sym < 256 then
        if limit ≤ s1.out.length then .err 6 s1
        else infCodes lits dists limit n { s1 with out := BitVec.ofNat 8 sym :: s1.out }
      else if sym = 256 then .ok () s1
      else if 286 ≤ sym then .err 4 s1
      else
        match takeBits (lenExtra.getD (sym - 257) 0) s1 with
        | .err c s2 => .err c s2
        | .ok e s2 =>
          match huffSymbol dists 15 0 0 0 s2 with
          | .err c s3 => .err c s3
          | .ok d s3 =>
            if 30 ≤ d then .err 4 s3
            else
              match takeBits (distExtra.getD d 0) s3 with
              | .err c s4 => .err c s4
              | .ok f s4 =>
                let dist := distBase.getD d 1 + f
                if s4.out.length < dist then .err 5 s4
                else
                  match copyBack dist limit (lenBase.getD (sym - 257) 3 + e) { s4 with far := max s4.far dist, dsyms := d :: s4.dsyms } with
                  | .err c s5 => .err c s5
                  | .ok _ s5 => infCodes lits dists limit n s5

/-- n bytes of a stored block copied to the output. -/
def infStored (limit : Nat) : Nat → Inf → InfRes Unit
  | 0, s => .ok () s
  | n + 1, s =>
    if limit ≤ s.out.length then .err 6 s
    else
      match takeBits 8 s with
      | .err c s1 => .err c s1
      | .ok v s1 => infStored limit n { s1 with out := BitVec.ofNat 8 v :: s1.out }

/-- The code lengths of a dynamic block: n remain to be read in at most fuel symbols; newest first. -/
def dynLens (cl : List Nat) : Nat → Nat → List Nat → Inf → InfRes (List Nat)
  | 0, _, _, s => .err 3 s
  | fuel + 1, n, acc, s =>
    if n = 0 then .ok acc s
    else
      match huffSymbol cl 7 0 0 0 s with
      | .err c s1 => .err (if c = 4 then 3 else c) s1
      | .ok sym s1 =>
        if sym < 16 then dynLens cl fuel (n - 1) (sym :: acc) s1
        else
          if sym = 16 ∧ acc = [] then .err 3 s1
          else
          let (extra, base) := if sym = 16 then (2, 3) else if sym = 17 then (3, 3) else (7, 11)
          match takeBits extra s1 with
          | .err c s2 => .err c s2
          | .ok e s2 =>
            let k := base + e
            if n < k then .err 3 s2
            else
              let v := if sym = 16 then acc.headD 0 else 0
              dynLens cl fuel (n - k) (List.replicate k v ++ acc) s2

/-- The order of the code-length codes (RFC 1951). -/
def clOrder : List Nat := [16, 17, 18, 0, 8, 7, 9, 6, 10, 5, 11, 4, 12, 3, 13, 2, 14, 1, 15]

/-- n three-bit lengths. -/
def take3s : Nat → Inf → InfRes (List Nat)
  | 0, s => .ok [] s
  | n + 1, s =>
    match takeBits 3 s with
    | .err c s1 => .err c s1
    | .ok v s1 =>
      match take3s n s1 with
      | .err c s2 => .err c s2
      | .ok vs s2 => .ok (v :: vs) s2

/-- A set of distance lengths that a dynamic block may have: complete, empty, or one code of one bit (RFC 1951). -/
def distLensOk (lens : List Nat) : Bool :=
  match codesLeft lens with
  | some 0 => true
  | some _ => let used := lens.filter (fun x => x != 0); used == [] || used == [1]
  | none => false

/-- HLIT, HDIST and HCLEN of a dynamic block, as the numbers they stand for: each is tested as it comes (R293: BAD_CODES). -/
def dynCounts (s : Inf) : InfRes (Nat × Nat × Nat) :=
  match takeBits 5 s with
  | .err c s1 => .err c s1
  | .ok l s1 =>
    if 286 < l + 257 then .err 3 s1
    else
      match takeBits 5 s1 with
      | .err c s2 => .err c s2
      | .ok d s2 =>
        if 30 < d + 1 then .err 3 s2
        else
          match takeBits 4 s2 with
          | .err c s3 => .err c s3
          | .ok h s3 => .ok (l + 257, d + 1, h + 4) s3

/-- The two sets of lengths of a dynamic block (R293: BAD_CODES). -/
def dynHeader (s : Inf) : InfRes (List Nat × List Nat) :=
  match dynCounts s with
  | .err c s1 => .err c s1
  | .ok (hlit, hdist, hclen) s1 =>
    match take3s hclen s1 with
    | .err c s2 => .err c s2
    | .ok ls s2 =>
      let cl := (upTo 19).map (fun sym =>
        match clOrder.findIdx? (fun x => x == sym) with
        | some i => ls.getD i 0
        | none => 0)
      if codesLeft cl ≠ some 0 then .err 3 s2
      else
        match dynLens cl (hlit + hdist + 1) (hlit + hdist) [] s2 with
        | .err c s3 => .err c s3
        | .ok acc s3 =>
          let all := acc.reverse
          let lits := all.take hlit
          let dists := all.drop hlit
          if codesLeft lits ≠ some 0 ∨ distLensOk dists = false then .err 3 s3 else .ok (lits, dists) s3

/-- The lengths of the fixed codes (RFC 1951). -/
def fixedLits : List Nat :=
  List.replicate 144 8 ++ List.replicate 112 9 ++ List.replicate 24 7 ++ List.replicate 8 8
def fixedDists : List Nat := List.replicate 32 5

/-- One block: whether it was the last. -/
def infBlock (limit : Nat) (s : Inf) : InfRes Bool :=
  match takeBits 3 s with
  | .err c s1 => .err c s1
  | .ok h s0 =>
    let last := h % 2 == 1
    let s1 := { s0 with kinds := s0.kinds ++ [h / 2] }
    let fuel := s1.bits.length + 1
    let finish (r : InfRes Unit) : InfRes Bool := match r with
      | .ok _ s2 => .ok last s2
      | .err c s2 => .err c s2
    match h / 2 with
    | 0 =>
      let pad := (8 - s1.used % 8) % 8
      match takeBits (pad + 32) s1 with
      | .err c s2 => .err c s2
      | .ok v s2 =>
        let len := v / 2 ^ pad % 65536
        if v / 2 ^ pad / 65536 + len ≠ 65535 then .err 2 s2 else finish (infStored limit len s2)
    | 1 => finish (infCodes fixedLits fixedDists limit fuel s1)
    | 2 =>
      match dynHeader s1 with
      | .err c s2 => .err c s2
      | .ok ls s2 => finish (infCodes ls.1 ls.2 limit fuel { s2 with codes := ls :: s2.codes })
    | _ => .err 1 s1

/-- Blocks up to the last. -/
def infBlocks (limit : Nat) : Nat → Inf → InfRes Unit
  | 0, s => .err 7 s
  | n + 1, s =>
    match infBlock limit s with
    | .err c s1 => .err c s1
    | .ok true s1 => .ok () s1
    | .ok false s1 => infBlocks limit n s1

/-- What a decompressor makes of its source: error code, output, source bytes used (R293). -/
def inflate (limit : Nat) (src : List Byte) : Nat × List Byte × Nat :=
  let bits := bitsOfBytes src
  match infBlocks limit (bits.length + 1) ⟨bits, 0, [], 0, [], [], [], []⟩ with
  | .ok _ s =>
    let used := (s.used + 7) / 8
    (if used < src.length then 8 else 0, s.out.reverse, used)
  | .err c s => (c, s.out.reverse, (s.used + 7) / 8)

/-! ### What the engines' compressors may emit (R290, R291) -/

/-- Code lengths built from counts of symbols (R290): one that occurs has a code, no longer than that of one that occurs less often; one that does not
occur has none. -/
def lensFit (lens syms : List Nat) : Bool :=
  let cnt (a : Nat) : Nat := (syms.filter (fun x => x == a)).length
  let used := (upTo lens.length).filter (fun a => decide (cnt a ≠ 0))
  (upTo lens.length).all (fun a => decide (cnt a = 0) == decide (lens.getD a 0 = 0))
    && used.all (fun a => used.all (fun b => decide (cnt a ≤ cnt b) || decide (lens.getD a 0 ≤ lens.getD b 0)))

/-- These bytes are one complete raw DEFLATE stream of the body: blocks of one type alone, the codes of dynamic ones built from the
symbol counts, no distance above a limit, the last with BFINAL, padded with zero bits to a byte (R290). -/
def deflates (kind far : Nat) (body out : List Byte) : Bool :=
  let bits := bitsOfBytes out
  match infBlocks body.length (bits.length + 1) ⟨bits, 0, [], 0, [], [], [], []⟩ with
  | .ok _ s =>
    s.out.reverse == body && s.kinds.all (fun k => k == kind) && decide (s.far ≤ far) && decide (s.bits.length < 8)
      && s.bits.all (fun b => !b)
      && s.codes.all (fun c => lensFit c.1 s.syms && (s.dsyms.isEmpty || lensFit c.2 s.dsyms))
  | .err _ _ => false

/-- The first canonical code of a length (RFC 1951). -/
def firstCode (lens : List Nat) : Nat → Nat
  | 0 => 0
  | k + 1 => 2 * (firstCode lens k + (if k = 0 then 0 else codesOf lens k))

/-- The n low bits of a number, the most significant first. -/
def msbBits (n v : Nat) : List Bool := (upTo n).map (fun i => decide (v / 2 ^ (n - 1 - i) % 2 = 1))

/-- The n low bits of a number, the least significant first. -/
def lsbBits (n v : Nat) : List Bool := (upTo n).map (fun i => decide (v / 2 ^ i % 2 = 1))

/-- The canonical code of a symbol, as it stands in a block. -/
def codeBits (lens : List Nat) (sym : Nat) : List Bool :=
  let k := lens.getD sym 0
  msbBits k (firstCode lens k + ((symbolsOf lens k).filter (fun i => decide (i < sym))).length)

/-- Bits packed into bytes, bit 0 first, the last padded with zero bits. -/
def bytesOfBits : Nat → List Bool → List Byte
  | 0, _ => []
  | n + 1, bits =>
    if bits.isEmpty then []
    else BitVec.ofNat 8 ((bits.take 8).foldr (fun b v => (if b then 1 else 0) + 2 * v) 0) :: bytesOfBits n (bits.drop 8)

/-- The code lengths of n symbols in an even tree: ⌊log2 n⌋, one more for the rarer ones that have no room. -/
def evenLens (syms : List Nat) : List Nat :=
  let cnt (a : Nat) : Nat := (syms.filter (fun x => x == a)).length
  let used := (upTo 286).filter (fun a => decide (cnt a ≠ 0))
  let k := Nat.log2 used.length
  (upTo 286).map (fun a =>
    let before := used.filter (fun b => decide (cnt a < cnt b) || (decide (cnt a = cnt b) && decide (b < a)))
    if cnt a = 0 then 0 else if before.length < 2 ^ (k + 1) - used.length then k else k + 1)

/-- A body as one block of literals alone, with the fixed codes or with dynamic ones. -/
def literalBlock (kind : Nat) (body : List Byte) : List Byte :=
  let syms := body.map (fun b => b.toNat) ++ [256]
  let lens := if kind = 1 then fixedLits else evenLens syms
  let header := if kind = 1 then []
    else lsbBits 5 29 ++ lsbBits 5 0 ++ lsbBits 4 15
      ++ clOrder.foldl (fun b v => b ++ lsbBits 3 (if v < 16 then 4 else 0)) []
      ++ (lens ++ [0]).foldl (fun b v => b ++ msbBits 4 v) []
  let bits := [true] ++ lsbBits 2 kind ++ header ++ syms.foldl (fun b a => b ++ codeBits lens a) []
  bytesOfBits (bits.length / 8 + 1) bits

/-- The offset at which two byte strings first differ. -/
def firstDiff : List Byte → List Byte → Nat
  | x :: xs, y :: ys => if x = y then 1 + firstDiff xs ys else 0
  | _, _ => 0

/-- What an inline checker finds in an output against the body: nothing where it passes, else where it first differs and the code of R293, or
0xE for an output that decodes and differs (R291). -/
def checkOutput (body out : List Byte) : Option (Nat × Nat) :=
  let r := inflate (2 ^ 32) out
  if r.1 ≠ 0 then some (0, r.1)
  else if r.2.1 = body then none
  else some (firstDiff body r.2.1, 0xE)

end Sys2Proof.Machine
end

