-- ==== Sys2Proof/Machine/Skein.lean ====
section
/-!
DEFINITION. The commands of the Skein engines and of the decompressors (R290 to R293, R296).
-/

namespace Sys2Proof.Machine

/-- Engine k. -/
def State.engine (s : State) (k : Nat) : EngSt := Tab.get (fun _ => EngSt.init) s.recs.engines k

/-- Engine k replaced; BUSY shows whether it holds a fragment. -/
def State.setEngine (s : State) (k : Nat) (x : EngSt) : State :=
  State.fset { s with recs := { s.recs with engines := Tab.put (fun _ => EngSt.init) s.recs.engines k x } }
    (R.SKN_ENG_STATUS k) F.SKN_ENG_STATUS_BUSY (if x.held.isSome then 1 else 0)

/-- The oldest packet of record Quill k is popped, word by word; each word that fails its parity comes with poison, is counted and logged, and a
producer that waits for room may go on (R286, R289). The command says that some word fails, and how many do is free (log entry 259). -/
def State.quillPop (s : State) (k : Nat) (parity : Bool) (p : Packet) (rest : List Packet) : State :=
  let q := s.quill k
  let s1 := ((s.setQuill k { q with packets := rest }).quillRefill k).buildWaves
  if parity then
    (upTo (1 + s1.free % p.words)).foldl (fun x _ =>
      ((x.count (R.REC_Q_PAR_CNT k) 1).fon (R.REC_Q_STATUS k) F.REC_Q_STATUS_PARITY).event vREC 0 sevError k 0 0) s1.took
  else s1

/-- Bytes of the stored form of n bytes (R292). -/
def storedLen (n : Nat) : Nat := n + 5 * ((n + 65534) / 65535)

/-- A fragment body in the stored form (R290). -/
def storedForm (body : List Byte) : List Byte := storedBlocks (body.length / 65535 + 1) body

/-- The body that an engine emits for a class, and whether it is DEFLATE; poisoned data is not compressed, and a compressed form that is no
shorter than the bound gives way to the stored one (R290, R292). The bytes of a compressed form are free within R290; a form that is none is
never emitted (log entry 229). -/
def State.skeinForm (s : State) (cls : Nat) (poison : Bool) (body : List Byte) : List Byte × Bool :=
  let a := R.SKN_CLASS cls
  let mode := s.fget a F.SKN_CLASS_MODE
  if mode = 0 ∨ body.isEmpty = true then (body, false)
  else if mode = 1 ∨ poison = true then (storedForm body, true)
  else
    let window := s.fget a F.SKN_CLASS_WINDOW
    let free := Config.deflate mode (s.fget a F.SKN_CLASS_LEVEL) window body
    let far := 2 ^ (12 + window)
    let plain := literalBlock (mode - 1) body
    let c :=
      if deflates (mode - 1) far body free then free
      else if deflates (mode - 1) far body plain then plain
      else storedForm body
    (if c.length ≤ storedLen body.length then c else storedForm body, true)

/-- The UNIT, ARG0 and ARG1 of an entry on a failed verification (R291, R487). -/
def skeinUnit (k : Nat) (h : FragHdr) : Nat := k + 32 * h.stream
def skeinArg0 (at_ code : Nat) : Nat := (if code % 16 = 14 then at_ % 2 ^ 17 else 2 ^ 17 - 1) + 2 ^ 17 * (code % 16)
def skeinArg1 (h : FragHdr) : Nat := h.seq % 2 ^ 48 + 2 ^ 48 * (h.frag % 2 ^ 16)

/-- A verification failed: the fallback is counted, flagged and logged (R291). -/
def State.skeinFallback (s : State) (k : Nat) (h : FragHdr) (f : Nat × Nat) : State :=
  (s.count (R.SKN_FALLBACK_CNT k) 1).event vSKN 0 sevWarning (skeinUnit k h) (skeinArg0 f.1 f.2) (skeinArg1 h)

/-- The stored re-emission failed too: the fragment is withheld, its record counted as discarded by ABORT, and the engine has
failed (R291). -/
def State.skeinFail (s : State) (k : Nat) (h : FragHdr) (f : Nat × Nat) : State :=
  ((s.countAbort h.stream).fon (R.SKN_ENG_STATUS k) F.SKN_ENG_STATUS_FAILED).fatal vSKN 1 (skeinUnit k h)
    (skeinArg0 f.1 f.2) (skeinArg1 h)

/-- Body bytes taken and emitted are counted in 64-byte units (R296). -/
def State.skeinCount (s : State) (k raw wire : Nat) : State :=
  let x := s.engine k
  let a := x.rawRest + raw
  let b := x.wireRest + wire
  ((s.setEngine k { x with rawRest := a % 64, wireRest := b % 64 }).count (R.SKN_RAW_CNT k) (a / 64)).count
    (R.SKN_WIRE_CNT k) (b / 64)

/-- The flags that a packet's length slot gives its header (R274, R275, R288). -/
def Packet.slotFlags (p : Packet) : Nat := (w32 p.flags ||| w32 (1024 * p.close)).toNat

/-- MEM_ERR of a fragment: it, or one of its record before it, was poisoned; the engine remembers it up to the record's last fragment (R274,
R292). -/
def EngSt.notePoison (x : EngSt) (p : Packet) (poison : Bool) : EngSt × Bool :=
  let r := (p.hdr.stream, p.hdr.seq)
  let hit := poison || x.poisoned.contains r
  let rest := x.poisoned.filter (fun y => y != r)
  ({ x with poisoned := if hit && p.flags / fLast % 2 == 0 then rest ++ [r] else rest }, hit)

/-- A fragment leaves an engine's compressor: header fields of R275, flags of R274. -/
def State.skeinEmit (s : State) (k : Nat) (h : FragHdr) (raw : Nat) (out : List Byte) (deflated : Bool) (flags : Nat) : State :=
  let h1 : FragHdr := { h with
    rawLen := raw, wireLen := out.length, enc := (if deflated then 1 else 0),
    flags := ((w32 h.flags) ||| w32 flags).toNat }
  let s1 := s.skeinCount k raw out.length
  s1.setEngine k { s1.engine k with held := some ⟨h1, out, none, none⟩ }

/-- SKEIN_PACKET: an idle engine takes the oldest packet of its Quill, compresses it and verifies its output (R290 to R292). upset and again
are what an upset made of the output and of its stored re-emission. -/
def execSkeinPacket (engine : Fin 32) (upset again : Option (List (BitVec 8))) (parity : Bool) (s : State) :
    Host.Outcome State Fault Refusal :=
  let k := engine.val
  .next (
    match (s.quill k).packets with
    | [] => s
    | p :: rest =>
      if (s.engine k).held.isSome = true ∨ s.flag (R.SKN_ENG_STATUS k) F.SKN_ENG_STATUS_FAILED = true ∨ s.beats / 2 ≤ p.closed then s
      else
        let s1 := s.quillPop k parity p rest
        if p.abort then s1
        else
          let poison := p.poison || parity
          let s2 := if poison then s1.event vSKN 2 sevError k 0 0 else s1
          let note := (s2.engine k).notePoison p poison
          let s3 := s2.setEngine k note.1
          let flags := p.slotFlags + (if note.2 && p.slotFlags / fMemErr % 2 == 0 then fMemErr else 0)
          let form := s3.skeinForm p.hdr.cls poison p.body
          let out := if form.2 then upset.getD form.1 else form.1
          match (if form.2 then checkOutput p.body out else none) with
          | none => s3.skeinEmit k p.hdr p.body.length out form.2 flags
          | some f =>
            let s4 := s3.skeinFallback k p.hdr f
            let stored := again.getD (storedForm p.body)
            match checkOutput p.body stored with
            | some g => (s4.skeinCount k p.body.length 0).skeinFail k p.hdr g
            | none => s4.skeinEmit k p.hdr p.body.length stored true (flags + fStoredFallback))

/-! ### The decompressors -/

/-- The settings of a decompressor as its GO finds them. -/
def State.decSettings (s : State) (d : Nat) : DecSt :=
  ⟨s.pair (R.SKN_DEC_SRC_LO d) (R.SKN_DEC_SRC_HI d), (s.rd (R.SKN_DEC_SRC_LEN d)).toNat,
   s.pair (R.SKN_DEC_DST_LO d) (R.SKN_DEC_DST_HI d), (s.rd (R.SKN_DEC_DST_LEN d)).toNat,
   if s.flag (R.SKN_DEC_CTRL d) F.SKN_DEC_CTRL_USE_EXPECT then some (s.rd (R.SKN_DEC_EXPECT d)).toNat else none⟩

/-- Decompressor d replaced. -/
def State.setDec (s : State) (d : Nat) (x : Option DecSt) : State :=
  { s with recs := { s.recs with decs := Tab.put (fun _ => none) s.recs.decs d x } }

/-- A decompressor ends: its code, its counts, and DEC_DONE or DEC_ERR (R293). -/
def State.decEnd (s : State) (d code outLen used : Nat) : State :=
  let s1 := ((s.setDec d none).foff (R.SKN_DEC_CTRL d) F.SKN_DEC_CTRL_GO).foff (R.SKN_DEC_STATUS d) F.SKN_DEC_STATUS_BUSY
  let s2 := ((s1.fset (R.SKN_DEC_STATUS d) F.SKN_DEC_STATUS_ERR code).wr (R.SKN_DEC_OUT_LEN d) (w32 outLen)).wr
    (R.SKN_DEC_IN_USED d) (w32 used)
  s2.raise vSKN (if code = 0 then 4 + d else 8 + d)

/-- Two ranges of bytes share one. -/
def rangesMeet (a n b m : Nat) : Bool := decide (0 < n) && decide (0 < m) && decide (a < b + m) && decide (b < a + n)

/-- DEC_GO: refused while the decompressor is busy; overlapping ranges end it at once with OVERLAP; otherwise it starts
(R293). -/
def execDecGo (dec : Fin 4) (s : State) : Host.Outcome State Fault Refusal :=
  let d := dec.val
  .next (
    if s.flag (R.SKN_DEC_STATUS d) F.SKN_DEC_STATUS_BUSY then s.fon (R.SKN_DEC_STATUS d) F.SKN_DEC_STATUS_REFUSED
    else
      let x := s.decSettings d
      if rangesMeet x.src x.srcLen x.dst x.dstLen then s.decEnd d 12 0 0
      else ((s.setDec d (some x)).fon (R.SKN_DEC_CTRL d) F.SKN_DEC_CTRL_GO).fon (R.SKN_DEC_STATUS d) F.SKN_DEC_STATUS_BUSY)

/-- The decoding of a decompressor's source: code of R293, output, bytes used. A read that meets a hole or an error ends it only
where the decoding needs it, and so does a write. -/
def State.decode (s : State) (x : DecSt) (ue : Option Nat) : Nat × List Byte × Nat :=
  let m := s.reach x.src x.srcLen
  let bad := min (ue.getD m) ((s.lostAfter (x.src - 0x4000000000) m).getD m)
  let n := min m bad
  let w := s.reach x.dst x.dstLen
  let (code, out, used) := inflate (min w x.dstLen) (s.hbmLook (x.src - 0x4000000000) n)
  if code = 7 ∧ n < x.srcLen then (if bad < m then 10 else 9, out, used)
  else if code = 6 ∧ w < x.dstLen then (9, out, used)
  else if code = 0 ∧ used < x.srcLen then (8, out, used)
  else if code = 0 then
    (match x.expect with
    | some e => if e = out.length then 0 else 11
    | none => 0, out, used)
  else (code, out, used)

/-- The output of a decompressor is written. -/
def State.decWrite (s : State) (x : DecSt) (out : List Byte) : State :=
  if out.isEmpty then s else s.hbmFill (x.dst - 0x4000000000) out

/-- What a decompressor's reading does to the Bobbin: its stacks are reached (R186), and the burst that ended it is noted (R180, R181). -/
def State.decRead (s : State) (x : DecSt) (ue : Option Nat) (code used : Nat) : State :=
  let off := x.src - 0x4000000000
  let m := s.reach x.src x.srcLen
  let s1 := if m = 0 then s else s.hbmTouch off (max 1 used)
  if code = 10 then
    (match ue, s.lostAfter off m with
    | some d, some l => if l < d then s1.badBurstAt (off + l) 3 3 else s1.badRead (off + d) 3
    | some d, none => s1.badRead (off + d) 3
    | none, some l => s1.badBurstAt (off + l) 3 3
    | none, none => s1)
  else s1

/-- A hole that ended a decompressor is logged (R166). -/
def State.decHole (s : State) (x : DecSt) (code : Nat) : State :=
  if code = 9 then
    let a := x.src + s.reach x.src x.srcLen
    let b := x.dst + s.reach x.dst x.dstLen
    match hbmOffset (if s.reach x.src x.srcLen < x.srcLen then a else b) with
    | some off => s.holeAccess off
    | none => s
  else s

/-- DEC_STOP: a busy decompressor ends at once with STOPPED; how far it had come is open (R293). -/
def execDecStop (dec : Fin 4) (s : State) : Host.Outcome State Fault Refusal :=
  let d := dec.val
  .next (
    match Tab.get (fun _ => none) s.recs.decs d with
    | none => s
    | some x =>
      let r := s.decode x none
      let n := s.free % (r.2.1.length + 1)
      let used := s.took.free % (r.2.2 + 1)
      ((s.took.took.decWrite x (r.2.1.take n)).decEnd d 13 n used))

/-- DEC_DONE: decompression ends, with the output written so far (R293). -/
def execDecDone (dec : Fin 4) (ue : Option Nat) (s : State) : Host.Outcome State Fault Refusal :=
  let d := dec.val
  .next (
    match Tab.get (fun _ => none) s.recs.decs d with
    | none => s
    | some x =>
      let r := s.decode x ue
      (((s.decRead x ue r.1 r.2.2).decHole x r.1).decWrite x r.2.1).decEnd d r.1 r.2.1.length r.2.2)

end Sys2Proof.Machine
end

