-- ==== Sys2Proof/Machine/KeyOps.lean ====
section
/-!
DEFINITION. Sessions of the Harness ports: their run keys, and what destroying a key does (R405, R417, R418).
-/

namespace Sys2Proof.Machine

/-- The session of port p. -/
def State.session (s : State) (p : Nat) : Session := Tab.get (fun _ => Session.none) s.brd.sessions p

/-- The session of port p replaced, with what BRD_KEY_ID shows of it. -/
def State.setSession (s : State) (p : Nat) (x : Session) : State :=
  State.wr { s with brd := { s.brd with sessions := Tab.put (fun _ => Session.none) s.brd.sessions p x } } (R.BRD_KEY_ID p)
    (w32 (x.keyId % 256 + (if x.valid then 256 else 0)))

/-- The run key of port p is derived for the present run number (R418); a brownout aborts that with RETRY, and no key changes (R414). -/
def State.deriveRun (s : State) (p : Nat) : State :=
  let x := s.session p
  if x.valid && s.pwr.brownout.isSome then s.raise vBRD 3
  else if x.valid then s.setSession p { x with runKey := some (Config.runKey x.key s.runNumber, s.runNumber) } else s

/-- Engine k holds a fragment that was tagged under one of these keys. -/
def State.engineUnder (s : State) (keys : List Nat) (k : Nat) : Bool :=
  match (s.engine k).held with
  | some f => f.key.any (fun x => keys.contains x)
  | none => false

/-- The fragments in flight under destroyed keys are discarded; their records count as discarded by ABORT, each once
(R417). -/
def State.dropUnder (s : State) (keys : List Nat) : State :=
  let held := (upTo 32).filter (fun k => s.engineUnder keys k)
  let recs := held.foldl (fun (xs : List (Nat × Nat)) k => match (s.engine k).held with
    | some f => if xs.contains (f.hdr.stream, f.hdr.seq) then xs else xs ++ [(f.hdr.stream, f.hdr.seq)]
    | none => xs) []
  let s1 := held.foldl (fun x k => x.setEngine k { x.engine k with held := none, stalled := false }) s
  recs.foldl (fun x r => x.countAbort r.1) s1

/-- Key identifier, key and run key of a session that has a key of the run (R418). -/
def Session.keys (x : Session) (run : Nat) : Option (Nat × Nat × Nat) :=
  match x.runKey with
  | some k => if x.valid && k.2 == run then some (x.keyId, x.key, k.1) else Option.none
  | Option.none => Option.none

/-- The keys under which a fragment of port p is tagged in this beat: a session opened in the beat does not count yet (R417, R426). -/
def State.tagKeys (s : State) (p : Nat) : Option (Nat × Nat × Nat) :=
  match (s.session p).prior with
  | some (b, before) => if b = s.beats then before else (s.session p).keys s.runNumber
  | none => (s.session p).keys s.runNumber

/-- A fragment of port p was tagged under a key: where a newer one has taken its place, the old key stays until no fragment under it is in
flight (R417). -/
def State.keyUsed (s : State) (p key : Nat) : State :=
  let x := s.session p
  if x.key = key ∨ x.old.contains key = true then s else s.setSession p { x with old := x.old ++ [key] }

/-- The keys of port p are destroyed at once: no session exists, and KEY_ID goes on from its number (R405, R417). -/
def State.keysGone (s : State) (p : Nat) : State :=
  let x := s.session p
  if x.valid || !x.old.isEmpty then
    State.dropUnder (s.setSession p { x with valid := false, key := 0, runKey := none, old := [], prior := none }) (x.key :: x.old)
  else s

/-- RESULT codes of a Bridle command (R413). -/
def brOk : Nat := 0
def brBadSig : Nat := 1
def brBadFormat : Nat := 2
def brRollback : Nat := 3
def brRefused : Nat := 4
def brRetry : Nat := 5
def brNoKey : Nat := 6

/-- A Bridle command ends: RESULT, GO 0, CMD_DONE (R413). -/
def State.brdEnd (s : State) (result : Nat) : State :=
  ((s.fset R.BRD_CMD F.BRD_CMD_RESULT result).foff R.BRD_CMD F.BRD_CMD_GO).raise vBRD 0

/-- A reset of port p: its keys are destroyed, and a SESSION_OPEN for it that is in progress ends with NO_KEY (R405,
R426). -/
def State.portKeysReset (s : State) (p : Nat) : State :=
  let s1 := s.keysGone p
  if s1.flag R.BRD_CMD F.BRD_CMD_GO && s1.brd.cmdCode == 1
      && (Tab.get (fun _ => 0#8) s1.brd.buf 0).toNat == p then
    State.brdEnd (s1.wr R.BRD_OUT_LEN 0#32) brNoKey
  else s1

end Sys2Proof.Machine
end

