-- ==== Sys2Proof/Machine/HnsOps.lean ====
section
/-!
DEFINITION. Operations of the Harness ports: rings, stalls and losses (R302 to R308), the partner page (R300, R301), windows
(R313), MSI-X (R315).
-/

namespace Sys2Proof.Machine

/-- Harness port p. -/
def State.hport (s : State) (p : Nat) : PPort := Tab.get (fun _ => PPort.init) s.hns p

/-- Harness port p replaced. -/
def State.setHport (s : State) (p : Nat) (x : PPort) : State :=
  { s with hns := Tab.put (fun _ => PPort.init) s.hns p x }

/-- Ring r of port p. -/
def State.pring (s : State) (p r : Nat) : PRing := Tab.get (fun _ => PRing.init) (s.hport p).rings r

/-- Ring r of port p replaced. -/
def State.setPring (s : State) (p r : Nat) (x : PRing) : State :=
  let y := s.hport p
  s.setHport p { y with rings := Tab.put (fun _ => PRing.init) y.rings r x }

/-- A word of the partner page that is stored as the partner wrote it, by its offset; the vector control words of the MSI-X
table begin masked, as PCIe has it. -/
def pageReset (off : Nat) : Word := if 0x2000 ≤ off ∧ off < 0x2200 ∧ off % 16 = 12 then 1#32 else 0#32

/-- A stored word of port p's page. -/
def State.pageWord (s : State) (p off : Nat) : Word := Tab.get pageReset (s.hport p).page off

/-- A stored word of port p's page given a value. -/
def State.setPageWord (s : State) (p off : Nat) (v : Word) : State :=
  let y := s.hport p
  s.setHport p { y with page := Tab.put pageReset y.page off v }

/-- Offset of a ring's registers in the page. -/
def ringOff (r : Nat) : Nat := 0x100 + 0x40 * r

/-! ### The link -/

/-- The link of port p is up and the port is not held in reset: the partner can reach it. -/
def State.portOpen (s : State) (p : Nat) : Bool :=
  s.flag (R.HNS_PORT_STATUS p) F.HNS_PORT_STATUS_LINK_UP && !s.flag (R.HNS_PORT_STATUS p) F.HNS_PORT_STATUS_PERST

/-- The port writes (R299). -/
def State.portWriting (s : State) (p : Nat) : Bool :=
  s.portOpen p && s.flag (R.HNS_PORT_STATUS p) F.HNS_PORT_STATUS_BME

/-- An access that the port refuses (R301, R311; log entry 262). -/
def State.portRefuse (s : State) (p : Nat) : State := s.count (R.HNS_PORT_ERR_CNT p) 1

/-- The maximum payload of a port: 128 × 2^MPS bytes, at most 512 (R297). -/
def State.mps (s : State) (p : Nat) : Nat := min 512 (128 * 2 ^ s.fget (R.HNS_PORT_STATUS p) F.HNS_PORT_STATUS_MPS)

/-- The memory writes that bytes at an address take: each of at most a payload, none across a 4 KiB boundary (R299). -/
def writesOf (mps addr : Nat) (bytes : List Byte) : Nat → List (Nat × List Byte)
  | 0 => []
  | n + 1 =>
    if bytes.isEmpty then []
    else
      let k := min mps (4096 - addr % 4096)
      (addr % 2 ^ 64, bytes.take k) :: writesOf mps (addr + k) (bytes.drop k) n

/-- Memory writes go out on a port, in their order. -/
def State.sendWrites (s : State) (p : Nat) (ws : List (Nat × List Byte)) : State :=
  ws.foldl (fun x w => x.emit (.partnerWrite p w.1 w.2)) s

/-- Bytes written to partner memory (R299). -/
def State.partnerPut (s : State) (p addr : Nat) (bytes : List Byte) (n : Nat) : State :=
  s.sendWrites p (writesOf (s.mps p) addr bytes n)

/-- The maximum read request size of a port: 128 × 2^MRRS bytes, at most 4 KiB (R297). -/
def State.mrrs (s : State) (p : Nat) : Nat := min 4096 (128 * 2 ^ s.fget (R.HNS_PORT_STATUS p) F.HNS_PORT_STATUS_MRRS)

/-- The read requests for bytes at an address go out, each of at most the read request size (R299; log entry 260). -/
def State.partnerGet (s : State) (p addr len : Nat) : Nat → State
  | 0 => s
  | n + 1 =>
    if len = 0 then s
    else
      let k := min len (s.mrrs p)
      (s.emit (.partnerRead p (addr % 2 ^ 64) k)).partnerGet p (addr + k) (len - k) n

/-! ### Rings -/

/-- RING_CFG.EN. -/
def State.ringEn (s : State) (p r : Nat) : Bool := s.flag (R.HNS_RING_STATUS p r) F.HNS_RING_STATUS_EN

/-- WR, the notified count. -/
def State.ringWr (s : State) (p r : Nat) : Nat := s.pair (R.HNS_RING_WR_LO p r) (R.HNS_RING_WR_HI p r)

/-- RD, the consumed count. -/
def State.ringRd (s : State) (p r : Nat) : Nat := s.pair (R.HNS_RING_RD_LO p r) (R.HNS_RING_RD_HI p r)

/-- The size of a ring in bytes. -/
def State.ringSize (s : State) (p r : Nat) : Nat := 2 ^ s.fget (R.HNS_RING_STATUS p r) F.HNS_RING_STATUS_SIZE_EXP

/-- A notification falls due for whatever is unnotified (R304). -/
def State.ringDue (s : State) (p r : Nat) : State :=
  let x := s.pring p r
  if s.ringWr p r < x.written then s.setPring p r { x with due := true } else s

/-- A ring stalls: its episode is counted and flagged once, and unnotified entries make a notification due (R304, R305). -/
def State.ringStall (s : State) (p r : Nat) : State :=
  let a := R.HNS_RING_STATUS p r
  if s.flag a F.HNS_RING_STATUS_STALLED then s
  else
    let s1 := ((s.fon a F.HNS_RING_STATUS_STALLED).count (R.HNS_RING_STALL_CNT p r) 1).raise vHNS 14
    (s1.setPring p r { s1.pring p r with stallSince := true }).ringDue p r

/-- The port and the ring that a stream names. -/
def State.streamPort (s : State) (k : Nat) : Nat := s.fget (R.REC_STREAM_CFG k) F.REC_STREAM_CFG_PORT
def State.streamRing (s : State) (k : Nat) : Nat := s.fget (R.REC_STREAM_CFG k) F.REC_STREAM_CFG_RING

/-- The length of the ring entry of a fragment: header, body and trailer, filled to a multiple of 64 (R303). -/
def Fragment.entryLen (f : Fragment) : Nat := (64 + f.body.length + 16 + 63) / 64 * 64

/-- A ring takes an entry of a length now (R302, R305). -/
def State.ringTakes (s : State) (p r len : Nat) : Bool :=
  s.ringEn p r && s.portWriting p && decide ((s.pring p r).written + len ≤ s.ringRd p r + s.ringSize p r)

/-- A session with a run key exists for a port (R418, R419). -/
def State.portKey (s : State) (p : Nat) : Option Nat := ((s.session p).keys s.runNumber).map (fun k => k.2.2)

/-- The fragment that an engine holds for ring r of port p cannot go on. -/
def State.engineBlocked (s : State) (p r k : Nat) : Bool :=
  match (s.engine k).held with
  | none => false
  | some f =>
    let st := f.hdr.stream
    decide (s.streamPort st = p) && decide (s.streamRing st = r)
      && (!s.ringTakes p r f.entryLen
        || (f.trailer.isNone && s.flag (R.REC_STREAM_CFG st) F.REC_STREAM_CFG_AUTH && (s.portKey p).isNone))

/-- A stalled ring resumes once nothing blocks it (R305, R306). -/
def State.ringResume (s : State) (p r : Nat) : State :=
  if s.ringEn p r && s.portWriting p && (upTo 32).all (fun k => !s.engineBlocked p r k) then
    s.foff (R.HNS_RING_STATUS p r) F.HNS_RING_STATUS_STALLED
  else s

/-- Every ring of a port resumes where nothing blocks it. -/
def State.portResume (s : State) (p : Nat) : State := (upTo 16).foldl (fun x r => x.ringResume p r) s

/-- Distinct records among ring entries. -/
def entryRecords (es : List RingEntry) : List (Nat × Nat) :=
  es.foldl (fun xs e => if xs.contains (e.stream, e.seq) then xs else xs ++ [(e.stream, e.seq)]) []

/-- The record of an entry of ring r that port p has written only partly (R308): its engine, stream and sequence number. -/
def State.partEntry (s : State) (p r : Nat) : Option (Nat × Nat × Nat) :=
  match (s.hport p).entryEngine with
  | some e =>
    match (s.engine e).held with
    | some f => if s.streamPort f.hdr.stream = p ∧ s.streamRing f.hdr.stream = r then some (e, f.hdr.stream, f.hdr.seq) else none
    | none => none
  | none => none

/-- The entry that port p has written only partly is given up (R308; log entry 272). -/
def State.partDrop (s : State) (p e : Nat) : State :=
  let s1 := s.setHport p { s.hport p with entryEngine := none, entryTlps := 0 }
  s1.setEngine e { s1.engine e with held := none }

/-- The entries of a ring that no notification transmitted in full covers are lost, one that is only partly written too; the notification
that was due goes with them, and with it what a ring with EN 0 waited for (R302, R308). -/
def State.ringLoss (s : State) (p r : Nat) : State :=
  let x := s.pring p r
  let part := s.partEntry p r
  let n := x.open_.length + (if part.isSome then 1 else 0)
  let wr := x.sentWr
  let lostBytes := x.written - wr
  let s0 := match part with
    | some e => s.partDrop p e.1
    | none => s
  let s1 := (s0.setPring p r { x with
    written := wr, entries := x.entries - x.open_.length, open_ := [], due := false, out := none,
    lossSince := x.lossSince || decide (0 < n), lost := satAdd 0xFFFFFFFF x.lost n }).setPair
    (R.HNS_RING_WR_LO p r) (R.HNS_RING_WR_HI p r) wr
  let s2 := if s.ringEn p r then s1 else s1.foff (R.HNS_RING_STATUS p r) F.HNS_RING_STATUS_ACTIVE
  if n = 0 then s2
  else
    let s3 := ((s2.count (R.HNS_PORT_LOST_CNT p) n).fon (R.HNS_RING_STATUS p r) F.HNS_RING_STATUS_LOSS).event vHNS 15
      sevError (r + 16 * p) (min 0xFFFFFFFF lostBytes) wr
    let recs := entryRecords x.open_
    let all := match part with
      | some e => if recs.contains e.2 then recs else recs ++ [e.2]
      | none => recs
    all.foldl (fun y e => y.countAbort e.1) s3

/-- Every ring of a port loses what it had not notified. -/
def State.portLoss (s : State) (p : Nat) : State := (upTo 16).foldl (fun x r => x.ringLoss p r) s

/-- The port no longer writes: every ring that is set up stalls (R299, R305). -/
def State.portStall (s : State) (p : Nat) : State :=
  (upTo 16).foldl (fun x r => if x.ringEn p r then x.ringStall p r else x) s

/-- An enabled stream names a ring (R302). -/
def State.ringNamed (s : State) (p r : Nat) : Bool :=
  (upTo 256).any (fun k => s.streamOn k && s.streamPort k == p && s.streamRing k == r)

/-- A ring with EN 0 stalls while an enabled stream names it (R302, R305). -/
def State.ringIdle (s : State) (p r : Nat) : State :=
  if s.ringEn p r then s
  else if s.ringNamed p r then s.ringStall p r
  else s.foff (R.HNS_RING_STATUS p r) F.HNS_RING_STATUS_STALLED

/-- The rings of a port have gone back to EN 0: one that an enabled stream names is stalled, and where it was so before, goes on in the same
episode (R298, R305). -/
def State.ringsIdle (s before : State) (p : Nat) : State :=
  (upTo 16).foldl (fun x r =>
    if x.ringNamed p r && before.flag (R.HNS_RING_STATUS p r) F.HNS_RING_STATUS_STALLED then
      x.fon (R.HNS_RING_STATUS p r) F.HNS_RING_STATUS_STALLED
    else x.ringIdle p r) s

/-- The partner page of a port goes back to its reset values, and with it every ring and window; the rings that streams name stall; its keys are
destroyed (R298, R305, R308, R405). -/
def State.portPageReset (s : State) (p : Nat) : State :=
  let s1 := (upTo 16).foldl (fun x r =>
    ((((x.wr (R.HNS_RING_STATUS p r) 0#32).wr (R.HNS_RING_BASE_LO p r) 0#32).wr (R.HNS_RING_BASE_HI p r) 0#32).setPair
      (R.HNS_RING_WR_LO p r) (R.HNS_RING_WR_HI p r) 0).setPair (R.HNS_RING_RD_LO p r) (R.HNS_RING_RD_HI p r) 0)
    (s.portKeysReset p)
  let y := s1.hport p
  ((s1.setHport p { y with
    rings := [], page := [], latched := [], doorOver := false, pba := 0#32, msixMask := false }).ringsIdle s p).turnCalm (qnDoor p)

/-- The settings of HNS_PORT_CFG take effect (R298). -/
def State.portApply (s : State) (p : Nat) : State :=
  s.setHport p { s.hport p with cfg := s.rd (R.HNS_PORT_CFG p) }

/-- What a lost link does beside the loss of entries: LINK_DOWN, and FATAL with DOWN_STOPS in ARMED or RUNNING (R308). -/
def State.linkFell (s : State) (p : Nat) : State :=
  let stops := fieldOf (s.hport p).cfg F.HNS_PORT_CFG_DOWN_STOPS == 1
    && (s.runState == rsArmed || s.runState == rsRunning)
  if stops then s.fatal vHNS (4 + p) p 0 0 else s.raise vHNS (4 + p)

/-! ### The partner page -/

/-- A ring's register by its offset from the ring's first: read by the partner (R300). -/
def State.ringPageRead (s : State) (p r o : Nat) : Word :=
  let st := s.rd (R.HNS_RING_STATUS p r)
  let x := s.pring p r
  if o = 0x00 then s.rd (R.HNS_RING_BASE_LO p r)
  else if o = 0x04 then s.rd (R.HNS_RING_BASE_HI p r)
  else if o = 0x08 then
    w32 (fieldOf st F.HNS_RING_STATUS_EN + 2 * fieldOf st F.HNS_RING_STATUS_SIZE_EXP
      + 128 * fieldOf st F.HNS_RING_STATUS_NB_EXP + 65536 * fieldOf st F.HNS_RING_STATUS_HOLD)
  else if o = 0x1C then s.rd (R.HNS_RING_RD_HI p r)
  else if o = 0x20 then s.rd (R.HNS_RING_WR_LO p r)
  else if o = 0x24 then Tab.get (fun _ => 0#32) (s.hport p).latched (ringOff r + 0x20)
  else if o = 0x28 then w32 (st.toNat / 2 % 16 + (if x.cfgBad then 16 else 0))
  else if o = 0x2C then w32 x.lost
  else s.pageWord p (ringOff r + o)

/-- The offsets that the partner page lists (R300). -/
def pageListed (off : Nat) : Bool :=
  off % 4 == 0 && (
    [0x00, 0x04, 0x08, 0x10, 0x14, 0x20, 0x24].contains off
    || (decide (0x100 ≤ off) && decide (off < 0x500) && decide ((off - 0x100) % 0x40 ≤ 0x2C))
    || (decide (0x1000 ≤ off) && decide (off < 0x1100) && decide (off % 0x20 ≤ 0x0C))
    || (decide (0x2000 ≤ off) && decide (off < 0x2200))
    || off == 0x3000 || off == 0x3004)

/-- An access of the partner that R301 allows: 32 bits, or 64 bits at a multiple of 8, at offsets that the page lists. -/
def pageAccessOk (off size : Nat) : Bool :=
  (size == 4 && pageListed off) || (size == 8 && off % 8 == 0 && pageListed off && pageListed (off + 4))

/-- PP_STATE: the run state, and whether a stream names the port (R300). -/
def State.ppState (s : State) (p : Nat) : Word :=
  w32 (s.runState % 8 + (if (upTo 256).any (fun k => s.streamOn k && s.streamPort k == p) then 8 else 0))

/-- A word of the partner page as the partner reads it; one that the partner may only write has no stated value. -/
def State.pageRead (s : State) (p off : Nat) : Word :=
  if off = 0x00 then w32 (0x1932 + 65536 * p + 0x100000)
  else if off = 0x04 then s.ppState p
  else if off = 0x08 then s.rd R.GLB_RUN_NUMBER
  else if off = 0x10 then lo32 s.wt
  else if off = 0x14 then Tab.get (fun _ => 0#32) (s.hport p).latched 0x10
  else if off = 0x20 then w32 s.free
  else if off = 0x24 then (if (s.hport p).doorOver then 1#32 else 0#32)
  else if 0x100 ≤ off ∧ off < 0x500 then
    (if (off - 0x100) % 0x40 = 0x0C then w32 s.free else s.ringPageRead p ((off - 0x100) / 0x40) ((off - 0x100) % 0x40))
  else if off = 0x3000 then (s.hport p).pba
  else if off = 0x3004 then 0#32
  else s.pageWord p off

/-- A read of PP_WT_LO or RING_WR_LO latches the high word (R300, SH). -/
def State.pageLatch (s : State) (p off : Nat) : State :=
  let y := s.hport p
  let put (v : Word) : State := s.setHport p { y with latched := Tab.put (fun _ => 0#32) y.latched off v }
  if off = 0x10 then put (hi32 s.wt)
  else if 0x100 ≤ off ∧ off < 0x500 ∧ (off - 0x100) % 0x40 = 0x20 then
    put (s.rd (R.HNS_RING_WR_HI p ((off - 0x100) / 0x40)))
  else s

/-- A write of RING_CFG with EN 1 that R302 accepts. -/
def State.ringCfgOk (s : State) (p r : Nat) (v : Word) : Bool :=
  let size := v.toNat / 2 % 64
  let nb := v.toNat / 128 % 32
  decide (18 ≤ size) && decide (size ≤ 32) && decide (12 ≤ nb) && decide (nb ≤ 24) && decide (nb < size)
    && decide ((s.rd (R.HNS_RING_BASE_LO p r)).toNat % 4096 = 0)
    && decide ((s.pageWord p (ringOff r + 0x10)).toNat % 32 = 0)

/-- SIZE_EXP, NB_EXP and HOLD of a ring as RING_CFG gives them. -/
def State.ringFields (s : State) (p r : Nat) (v : Word) : State :=
  let a := R.HNS_RING_STATUS p r
  ((s.fset a F.HNS_RING_STATUS_SIZE_EXP (v.toNat / 2 % 64)).fset a F.HNS_RING_STATUS_NB_EXP (v.toNat / 128 % 32)).fset a
    F.HNS_RING_STATUS_HOLD (v.toNat / 65536)

/-- CFG_BAD of a ring is set (R302). -/
def State.ringBad (s : State) (p r : Nat) : State := s.setPring p r { s.pring p r with cfgBad := true }

/-- A ring begins: WR_W, WR and RD are 0 (R302). -/
def State.ringBegin (s : State) (p r : Nat) : State :=
  let x := s.pring p r
  let a := R.HNS_RING_STATUS p r
  let s1 := s.setPring p r { PRing.init with cfgBad := x.cfgBad }
  let s2 := (((s1.setPair (R.HNS_RING_WR_LO p r) (R.HNS_RING_WR_HI p r) 0).setPair (R.HNS_RING_RD_LO p r)
    (R.HNS_RING_RD_HI p r) 0).fon a F.HNS_RING_STATUS_EN).fon a F.HNS_RING_STATUS_ACTIVE
  let s3 := s2.setPageWord p (ringOff r + 0x18) 0#32
  if s3.portWriting p then s3.ringResume p r else s3.ringStall p r

/-- A write of RING_CFG; a ring with EN 0 that a stream names stalls (R302). -/
def State.ringCfgWrite (s : State) (p r : Nat) (v : Word) : State :=
  let a := R.HNS_RING_STATUS p r
  let en := v.getLsbD 0
  if s.ringEn p r then
    let kept := decide (v.toNat / 2 % 64 = s.fget a F.HNS_RING_STATUS_SIZE_EXP)
      && decide (v.toNat / 128 % 32 = s.fget a F.HNS_RING_STATUS_NB_EXP)
    let s1 := s.fset a F.HNS_RING_STATUS_HOLD (v.toNat / 65536)
    let s2 := if kept then s1 else s1.ringBad p r
    if en then s2
    else
      let s3 := (s2.foff a F.HNS_RING_STATUS_EN).ringDue p r
      let s4 := if s3.ringNamed p r then s3.ringStall p r else s3
      if (s4.pring p r).due then s4 else s4.foff a F.HNS_RING_STATUS_ACTIVE
  else
    let s1 := s.ringFields p r v
    if en then (if s1.ringCfgOk p r v then s1.ringBegin p r else s1.ringBad p r) else s1

/-- A write of RING_RD_HI makes the 64-bit RD take effect, or is refused (R306). -/
def State.ringRdWrite (s : State) (p r : Nat) (hi : Word) : State :=
  let v := (s.pageWord p (ringOff r + 0x18)).toNat + 2 ^ 32 * hi.toNat
  if v % 64 = 0 ∧ s.ringRd p r ≤ v ∧ v ≤ s.ringWr p r then
    (s.setPair (R.HNS_RING_RD_LO p r) (R.HNS_RING_RD_HI p r) v).ringResume p r
  else
    ((s.setPageWord p (ringOff r + 0x18) (s.rd (R.HNS_RING_RD_LO p r))).fon (R.HNS_RING_STATUS p r)
      F.HNS_RING_STATUS_RD_BAD).event vHNS 13 sevWarning (r + 16 * p) 0 0

/-- A doorbell word is pushed to software, or refused at full (R287, R314). -/
def State.doorbell (s : State) (p : Nat) (v : Half) : State :=
  let y := s.hport p
  let len := y.door.length
  if len < 8 then
    let s1 := (s.setHport p { y with door := y.door ++ [v] }).turnPush (qnDoor p) len
    if s.fillsQuill (qnDoor p) len then s1.raise vHNS (8 + p) else s1
  else s.turnWait (qnDoor p) len (.half v)

/-- A doorbell word was refused (R314). -/
def State.doorRefusal (s : State) (p : Nat) : State :=
  (s.setHport p { s.hport p with doorOver := true }).raise vHNS 12

/-- MSI-X vector v of a port goes out, or is pending while it or the function is masked or the port does not write (R315). -/
def State.msixOne (s : State) (p v : Nat) : State :=
  let y := s.hport p
  if (s.pageWord p (0x2000 + 16 * v + 12)).getLsbD 0 || y.msixMask || !s.portWriting p then
    s.setHport p { y with pba := setBitW y.pba v }
  else (s.setHport p { y with pba := clrBitW y.pba v }).emit (.msix p v)

/-- Pending MSI-X vectors that may go out do. -/
def State.msixFlush (s : State) (p : Nat) : State :=
  (upTo 32).foldl (fun x v => if (x.hport p).pba.getLsbD v then x.msixOne p v else x) s

/-- A notification falls due at once, on a ring that is set up (R304). -/
def State.notifyNow (s : State) (p r : Nat) : State :=
  if s.flag (R.HNS_RING_STATUS p r) F.HNS_RING_STATUS_ACTIVE then s.setPring p r { s.pring p r with due := true } else s

/-- A ring's register written by the partner (R300 to R302, R304, R306). -/
def State.ringPageWrite (s : State) (p r o : Nat) (v : Word) : State :=
  let locked (a : Nat) : State := if s.ringEn p r then s.ringBad p r else s.wr a v
  if o = 0x00 then locked (R.HNS_RING_BASE_LO p r)
  else if o = 0x04 then locked (R.HNS_RING_BASE_HI p r)
  else if o = 0x08 then s.ringCfgWrite p r v
  else if o = 0x0C then (if v.getLsbD 0 then s.notifyNow p r else s)
  else if o = 0x10 ∨ o = 0x14 then
    (if s.ringEn p r then s.ringBad p r else s.setPageWord p (ringOff r + o) v)
  else if o = 0x18 then s.setPageWord p (ringOff r + o) v
  else if o = 0x1C then s.ringRdWrite p r v
  else if o = 0x28 then
    let a := R.HNS_RING_STATUS p r
    let s1 := if v.getLsbD 2 then s.foff a F.HNS_RING_STATUS_RD_BAD else s
    let s2 := if v.getLsbD 3 then s1.foff a F.HNS_RING_STATUS_LOSS else s1
    if v.getLsbD 4 then s2.setPring p r { s2.pring p r with cfgBad := false } else s2
  else s

/-- A word of the partner page written by the partner; a write to a read-only field is discarded (R300, R301). -/
def State.pageWrite (s : State) (p off : Nat) (v : Word) : State :=
  if off = 0x20 then s.doorbell p (v.setWidth 16)
  else if off = 0x24 then
    (if v.getLsbD 0 then s.setHport p { s.hport p with doorOver := false } else s)
  else if 0x100 ≤ off ∧ off < 0x500 then s.ringPageWrite p ((off - 0x100) / 0x40) ((off - 0x100) % 0x40) v
  else if 0x1000 ≤ off ∧ off < 0x1100 then
    s.setPageWord p off (if off % 0x20 = 0x0C then v &&& 3#32 else v)
  else if 0x2000 ≤ off ∧ off < 0x2200 then (s.setPageWord p off v).msixFlush p
  else s

/-! ### Windows -/

/-- Port, window and offset of a Spindle address of a partner window (R313). -/
def windowOf (addr : Nat) : Option (Nat × Nat × Nat) :=
  let top := addr / 2 ^ 56
  let w := addr / 2 ^ 48 % 256
  if 0xC0 ≤ top ∧ top < 0xC4 ∧ w < 8 then some (top - 0xC0, w, addr % 2 ^ 48) else none

/-- The partner bus address of n bytes at offset o of a window, where the window allows the access (R313). -/
def State.windowBus (s : State) (p w o n : Nat) (write : Bool) : Option Nat :=
  let a := 0x1000 + 0x20 * w
  let base := (s.pageWord p a).toNat + 2 ^ 32 * (s.pageWord p (a + 4)).toNat
  if o + n ≤ 4096 * (s.pageWord p (a + 8)).toNat ∧ (s.pageWord p (a + 12)).getLsbD (if write then 1 else 0) = true then
    some (base + o)
  else none

end Sys2Proof.Machine
end

