-- ==== Sys2Proof/Machine/CondOps.lean ====
section
/-!
DEFINITION. Operations on channels and alignment stores that the Linkai ports and the conditioners share: gangs (R9,
R45), strides (R43), grid positions (R76), late and early samples (R79), taint notices (R83).
-/

namespace Sys2Proof.Machine

/-- The conditioner of channel c replaced. -/
def State.setCch (s : State) (c : Nat) (x : CondCh) : State :=
  { s with cond := { s.cond with chans := Tab.put (fun _ => CondCh.init) s.cond.chans c x } }

/-- Port p. -/
def State.port (s : State) (p : Nat) : PortSt := Tab.get (fun _ => PortSt.init) s.ports p

/-- Port p replaced. -/
def State.setPort (s : State) (p : Nat) (x : PortSt) : State :=
  { s with ports := Tab.put (fun _ => PortSt.init) s.ports p x }

/-- Lane l of port p. -/
def State.lane (s : State) (p l : Nat) : LaneSt := Tab.get (fun _ => LaneSt.init) s.lanes (8 * p + l)

/-- Lane l of port p replaced. -/
def State.setLane (s : State) (p l : Nat) (x : LaneSt) : State :=
  { s with lanes := Tab.put (fun _ => LaneSt.init) s.lanes (8 * p + l) x }

/-- The gang code of lanes 0 to 3, or 4 to 7, of a port as LNK_CFG sets it: 0 ×1, 1 ×2, 2 ×4 (R45). -/
def State.gangCode (s : State) (p l : Nat) : Nat :=
  if l < 4 then s.fget (R.LNK_CFG p) F.LNK_CFG_GANG_LO else s.fget (R.LNK_CFG p) F.LNK_CFG_GANG_HI

/-- The width of a gang code. -/
def gangWidth (code : Nat) : Nat := if code = 1 then 2 else if code = 2 then 4 else 1

/-- The lowest lane of the gang that holds lane l, for a width (R45). -/
def gangBase (width l : Nat) : Nat := l / width * width

/-- The channel that lane l of port p feeds: 8n + b for its gang's lowest lane b (R9, R45). -/
def State.laneChannel (s : State) (p l : Nat) : Nat := 8 * p + gangBase (gangWidth (s.gangCode p l)) l

/-- The gang width of a channel. -/
def State.chanGang (s : State) (c : Nat) : Nat := gangWidth (s.gangCode (c / 8) (c % 8))

/-- Channel c is a channel of a gang other than its lowest (R45, R80). -/
def State.gangHigh (s : State) (c : Nat) : Bool := gangBase (s.chanGang c) (c % 8) != c % 8

/-- The stride of a speed: Canter 1, Trot 2, Walk 4 (R43). -/
def strideOf (speed : Nat) : Nat := if speed = 2 then 1 else if speed = 1 then 2 else 4

/-- The current speed of port p. -/
def State.speed (s : State) (p : Nat) : Nat := s.fget (R.LNK_STATUS p) F.LNK_STATUS_SPEED

/-- The placement offset P of port p in 1/256 beat: ⌊P⌋ in the PLACE pair, two's complement, and FRAC (R47). -/
def State.place (s : State) (p : Nat) : Int :=
  signed 64 (s.pair (R.LNK_PLACE_LO p) (R.LNK_PLACE_HI p)) * 256
    + (s.fget (R.LNK_PLACE_AUX p) F.LNK_PLACE_AUX_FRAC : Int)

/-- Port p's placement set to a value in 1/256 beat (R47, R50). -/
def State.setPlace (s : State) (p : Nat) (x : Int) : State :=
  ((s.setPair (R.LNK_PLACE_LO p) (R.LNK_PLACE_HI p) (unsigned 64 (x / 256))).fset
    (R.LNK_PLACE_AUX p) F.LNK_PLACE_AUX_FRAC (x % 256).toNat)

/-- The warp time, in 1/256 beat, of extended index i on a port with placement P and gang width G (R47). -/
def sampleStamp (place : Int) (g i : Nat) : Int := place + (i * 256 / g : Nat)

/-- The grid position of extended index i: i + G × ⌊P⌋ (R76). -/
def gridPos (place : Int) (g i : Nat) : Int := (i : Int) + g * (place / 256)

/-- A sample put into a store in the order of its stamps. -/
def placeSamp (x : Samp) : List Samp → List Samp
  | [] => [x]
  | y :: t => if x.stamp < y.stamp then x :: y :: t else y :: placeSamp x t

/-- Λ in beats (R77). -/
def State.lambda (s : State) (c : Nat) : Nat := s.fget (R.CND_LAMBDA (c / 8)) F.CND_LAMBDA_LAMBDA

/-- A sample comes to the alignment store of its channel: 0 stored, 1 late, 2 early. The first late or early one after one that was delivered, or
after alignment, raises its event and writes an entry (R79); R487 gives the entry no warp time. -/
def State.sampleCame (s : State) (c kind : Nat) : State :=
  let n := c / 8
  let l := c % 8
  let a := R.CND_CH_STATUS n l
  let x := s.cch c
  let s1 := ((s.setCch c { x with missed := decide (kind ≠ 0) }).fset a F.CND_CH_STATUS_LATE (if kind = 1 then 1 else 0)).fset
    a F.CND_CH_STATUS_EARLY (if kind = 2 then 1 else 0)
  if kind = 0 ∨ x.missed = true then s1 else s1.event (vCND n) kind sevError l 0 0

/-- The samples of a channel that come to its store in this beat. -/
def State.samplesCome (s : State) (c : Nat) : State :=
  let x := s.cch c
  (x.arrivals.filter (fun e => decide (e.1 ≤ s.beats))).foldl (fun y e => y.sampleCame c e.2)
    (s.setCch c { x with arrivals := x.arrivals.filter (fun e => decide (s.beats < e.1)) })

/-- Beats from the pin to the alignment store (R77). -/
def pinToStore : Nat := 16

/-- The beats after its lane frame's first header bit reached the pin in which sample k of the frame comes to the store: k × s / G, and 16
more, s being the port's speed (R77, R488). -/
def State.arrival (s : State) (c k : Nat) : Nat := k * strideOf (s.speed (c / 8)) / s.chanGang c + pinToStore

/-- A sample that reaches the store in the beat arr of warp time after its release beat is late (R79). -/
def State.isLate (s : State) (c arr : Nat) (x : Samp) : Bool := decide (x.stamp / 256 + s.lambda c < arr)

/-- One that would wait more than 480 beats is early (R79). -/
def State.isEarly (s : State) (c arr : Nat) (x : Samp) : Bool := decide ((arr : Int) + 480 < x.stamp / 256 + s.lambda c)

/-- What becomes of sample k of a lane frame: 0 stored until ⌊t⌋ + Λ, 1 missing as late, 2 missing as early (R78, R79). -/
def State.fateOf (s : State) (c k : Nat) (x : Samp) : Nat :=
  let arr := s.wt + s.arrival c k
  if s.isLate c arr x then 1 else if s.isEarly c arr x then 2 else 0

/-- Sample k of a lane frame is on its way to the alignment store of its channel. -/
def State.storeSample (s : State) (c k : Nat) (x : Samp) : State :=
  let ch := s.cch c
  let kind := s.fateOf c k x
  let alike := match ch.arrivals.getLast? with
    | some e => decide (e.2 = kind)
    | none => false
  s.setCch c { ch with
    store := if kind = 0 then placeSamp x ch.store else ch.store,
    arrivals := if alike then ch.arrivals else ch.arrivals ++ [(s.beats + s.arrival c k, kind)] }

/-- The samples of a lane frame, from number k on, are on their way to the store. -/
def State.storeSamples (s : State) (c k : Nat) : List Samp → State
  | [] => s
  | x :: t => (s.storeSample c k x).storeSamples c (k + 1) t

/-- How many of them the store takes. -/
def State.keptSamples (s : State) (c k : Nat) : List Samp → Nat
  | [] => 0
  | x :: t => (if s.fateOf c k x = 0 then 1 else 0) + s.keptSamples c (k + 1) t

/-- A channel whose port has aligned: the next late or early sample is the first again (R79). -/
def State.sampleFresh (s : State) (c : Nat) : State := s.setCch c { s.cch c with missed := false }

/-- The conditioner of a channel marks the samples of a failed frame: those in the store, the spans of later outputs, and the capture words
that wait (R82, R98). -/
def CondCh.taintRange (x : CondCh) (w : Stretch) : CondCh :=
  { x with
    store := x.store.map (fun y => if w.meets (y.pos - x.shift) (y.pos - x.shift) then { y with taint := true } else y),
    marks := x.marks ++ [⟨w, 2⟩],
    capture := x.capture.map (fun y =>
      if w.meets y.samp.lo y.samp.hi then { y with samp := { y.samp with taint := true } } else y) }

/-- The stamp in 1/256 beat as a beat count of 64 bits. -/
def beatOf (x : Int) : Nat := unsigned 64 (x / 256)

/-- A distance in beats after another, unsigned and saturating (R487). -/
def distBeats (a b : Int) : Nat := if b < a then 0 else min 0xFFFFFFFF ((b / 256 - a / 256).toNat)

/-- ARM lets the conditioners of a slice become ready: Λ − a(p) of its port is at most 480 beats (R79). -/
def State.armWaitOk (s : State) (n : Nat) : Bool :=
  !(s.run.armSince.isSome && s.cond.lambdaSet) || decide (s.fget (R.CND_ARRIVAL n) F.CND_ARRIVAL_WAIT ≤ 480)

/-- A slice's conditioners follow R101: READY while every enabled channel has its port ALIGNED and has delivered at tap M
and, where it is on, at tap Z. A slice without an enabled channel, or whose ENABLE is 0, is not ready (log entry 253). -/
def State.condReady (s : State) (n : Nat) : State :=
  let ls := (upTo 8).filter (fun l => s.flag (R.CND_CH_CFG n l) F.CND_CH_CFG_EN)
  let ready := s.flag (R.CND_STATUS n) F.CND_STATUS_ENABLE && s.flag (R.LNK_STATUS n) F.LNK_STATUS_ALIGNED
    && s.armWaitOk n && !ls.isEmpty && ls.all (fun l =>
      let x := s.cch (8 * n + l)
      x.readyM && (x.readyZ || !s.flag (R.CND_DDC_CFG n l) F.CND_DDC_CFG_EN))
  if ready && !s.flag (R.CND_STATUS n) F.CND_STATUS_READY then
    (s.fon (R.CND_STATUS n) F.CND_STATUS_READY).raise (vCND n) 0
  else if ready then s else s.foff (R.CND_STATUS n) F.CND_STATUS_READY

end Sys2Proof.Machine
end

