-- ==== Sys2Proof/Machine/EgOps.lean ====
section
/-!
DEFINITION. Enable-gated writes (R7, R372): the gate of a block, and what a write that is not stored leaves.
-/

namespace Sys2Proof.Machine

/-- The STATUS register of the block with a vector. -/
def statusReg (v : Nat) : Nat := blockBase v + (if v = 0 ∨ (16 ≤ v ∧ v < 208 ∧ v % 8 = 0) then 8 else 0)

/-- The bit of CFG_REJECT in a block's STATUS register. -/
def rejectBit (v : Nat) : Nat :=
  if 16 ≤ v ∧ v < 208 then
    (if v % 8 = 0 then 17 else if v % 8 = 1 ∨ v % 8 = 2 then 2 else 1)
  else if v = vBOB ∨ v = vTAP then 2
  else if v = vPNL then 3
  else if v = vGLB ∨ v = vWRP ∨ v = vMON ∨ v = vPWR ∨ v = vPDK ∨ v = vERL then 0
  else 1

/-- The vectors of the data-path blocks (R16). -/
def dataPath (v : Nat) : Bool :=
  (decide (16 ≤ v) && decide (v < 208)) || [vSTP, vHFB, vTRD, vBOB, vTAP, vREC, vSKN, vHNS].contains v

/-- The block's ENABLE is 1 (R16). -/
def State.blockOn (s : State) (v : Nat) : Bool := s.bit (statusReg v) (if 16 ≤ v ∧ v < 208 ∧ v % 8 = 0 then 10 else 0)

/-- The EG fields of the block are locked: its ENABLE is 1, or the run is stopping, in which those of every data-path block are
locked (R7, R16). -/
def State.egNow (s : State) (v : Nat) : Bool := s.blockOn v || (dataPath v && s.runState == rsStopping)

/-- The EG fields of the block are not written: they are locked now, or were when the beat began (R372). -/
def State.egShut (s : State) (v : Nat) : Bool := s.egNow v || State.egNow { s with regs := s.tick.regs0 } v

/-- An EG write that is not stored: CFG_REJECT of the block, and its entry (R372, R487). -/
def State.egReject (s : State) (v : Nat) (src : Src) (addr : Nat) : State :=
  (s.bitOn (statusReg v) (rejectBit v)).log v ecCfgReject sevWarning 0 (srcCode src) addr

/-- An EG write that is stored while the device is CONFIGURED makes the configuration dirty (R372). -/
def State.egStored (s : State) : State :=
  if s.runState = rsConfigured then s.fon R.GLB_STATUS F.GLB_STATUS_CFG_DIRTY else s

end Sys2Proof.Machine
end

