-- ==== Sys2Proof/Machine/CondUnit.lean ====
section
/-!
DEFINITION. The stages of a channel's conditioner (R81 to R101): correction, rank filter, down-converter, suppression,
and the delivery of each tap to its consumers; the acceptance of capture words by the Bobbin (R168 to R172).
-/

namespace Sys2Proof.Machine

/-- A value limited to w bits, and whether that altered it (R84). -/
def satTo (w : Nat) (x : Int) : Int × Bool :=
  let y := clampInt (-(2 ^ (w - 1))) (2 ^ (w - 1) - 1) x
  (y, decide (y ≠ x))

/-- CND_CH_CFG of channel c. -/
def cndCfg (c : Nat) : Nat := R.CND_CH_CFG (c / 8) (c % 8)

/-- CND_DDC_CFG of channel c. -/
def ddcCfg (c : Nat) : Nat := R.CND_DDC_CFG (c / 8) (c % 8)

/-- The rank filter of channel c is on. -/
def State.rankOn (s : State) (c : Nat) : Bool :=
  s.fget (cndCfg c) F.CND_CH_CFG_RANK_MODE == 1 || s.fget (cndCfg c) F.CND_CH_CFG_RANK_MODE == 2

/-- h of the rank window: (W − 1) / 2 with W = 2 × RANK_W + 3 (R81, R87). -/
def State.rankH (s : State) (c : Nat) : Nat := s.fget (cndCfg c) F.CND_CH_CFG_RANK_W + 1

/-- h while the filter is on, else 0. -/
def State.rankReach (s : State) (c : Nat) : Nat := if s.rankOn c then s.rankH c else 0

/-- R_c of channel c (R88). -/
def State.ddcRc (s : State) (c : Nat) : Nat := 2 ^ s.fget (ddcCfg c) F.CND_DDC_CFG_RC_EXP

/-- T of channel c. -/
def State.ddcTaps (s : State) (c : Nat) : Nat := s.fget (ddcCfg c) F.CND_DDC_CFG_TAPS

/-- The down-converter of channel c is on. -/
def State.ddcOn (s : State) (c : Nat) : Bool := s.flag (ddcCfg c) F.CND_DDC_CFG_EN

/-- 2 × Δg, in input samples (R93). -/
def State.ddcReach (s : State) (c : Nat) : Nat := 5 * (s.ddcRc c - 1) + (s.ddcTaps c - 1) * s.ddcRc c

/-- A flag's stretch of inputs meets a span (R98). -/
def CondCh.marked (x : CondCh) (kind : Nat) (lo hi : Int) : Bool :=
  x.marks.any (fun m => decide (m.kind = kind) && m.at_.meets lo hi)

/-- A flag of one input kept for later spans. -/
def CondCh.mark (x : CondCh) (on : Bool) (kind : Nat) (p : Int) : CondCh :=
  if on then { x with marks := x.marks ++ [⟨.one p, kind⟩] } else x

/-- A saturation counts once for its output sample, and raises SAT (R84). -/
def State.countSaturation (s : State) (c : Nat) (sat : Bool) : State :=
  if sat then (s.count (R.CND_SAT_CNT (c / 8) (c % 8)) 1).raise (vCND (c / 8)) 3 else s

/-! ### Suppression -/

/-- SETTLING shows suppressed outputs (R99). -/
def State.settling (s : State) (c : Nat) : State :=
  let x := s.cch c
  s.fset (R.CND_CH_STATUS (c / 8) (c % 8)) F.CND_CH_STATUS_SETTLING (if x.supM.isSome || x.supZ.isSome then 1 else 0)

/-- The stretch of suppressed outputs grown by those stamped from a to b. -/
def growStretch (r : Option (Int × Int)) (a b : Int) : Option (Int × Int) :=
  match r with
  | some (first, _) => some (first, b)
  | none => some (a, b)

/-- Outputs of tap M, or Z, are suppressed: their number, and the stamps of the first and the last (R99). -/
def State.suppressMany (s : State) (c : Nat) (zoom : Bool) (n : Nat) (a b : Int) : State :=
  let x := s.cch c
  let y : CondCh := if zoom then { x with supZ := growStretch x.supZ a b, brkZ := true }
    else { x with supM := growStretch x.supM a b, brkM := true }
  (((s.setCch c y).count (R.CND_SUPPRESS_CNT (c / 8) (c % 8)) n).raise (vCND (c / 8)) 4).settling c

/-- An output of tap M, or Z, is suppressed (R99). -/
def State.suppress (s : State) (c : Nat) (zoom : Bool) (stamp : Int) : State := s.suppressMany c zoom 1 stamp stamp

/-- Delivery resumes at tap M, or Z: the entry of the outputs suppressed before it (R99, R487), and readiness (R101). -/
def State.resumed (s : State) (c : Nat) (zoom : Bool) : State :=
  let x := s.cch c
  let r := if zoom then x.supZ else x.supM
  let y : CondCh := if zoom then { x with supZ := none, brkZ := false, readyZ := true }
    else { x with supM := none, brkM := false, readyM := true }
  let s1 := (s.setCch c y).settling c
  let s2 := match r with
    | some (a, b) => s1.log (vCND (c / 8)) 4 sevInfo (c % 8) (distBeats a b) (beatOf a)
    | none => s1
  if (if zoom then x.readyZ else x.readyM) then s2 else s2.condReady (c / 8)

/-! ### Delivery -/

/-- The period of a ring's positions, 1/256 beat (R172). -/
def State.ringPeriod (s : State) (c : Nat) : Nat :=
  256 * s.stride c * (if s.capZoom c then s.ddcD c else 1) / s.chanGang c

/-- A capture word goes on its way to the ring, 660 beats behind its source tap (R82). -/
def State.toCapture (s : State) (c : Nat) (zoom : Bool) (released : Nat) (y : TapSamp) : State :=
  if s.capZoom c != zoom then s
  else
    let x := s.cch c
    s.setCch c { x with capture := x.capture ++ [⟨released + 660, zoom, s.ringPeriod c, y⟩] }

/-- An output of tap M reaches its consumers. -/
def State.deliverM (s : State) (c released : Nat) (y : TapSamp) : State :=
  let z := { y with brk := y.brk || (s.cch c).brkM }
  ((((s.resumed c false).primSample c 1 released z).specSample c false released z).toCapture c false released z)

/-- An output of tap Z reaches its consumers. -/
def State.deliverZ (s : State) (c released : Nat) (y : TapSamp) : State :=
  let z := { y with brk := y.brk || (s.cch c).brkZ }
  ((((s.resumed c true).primSample c 2 released z).specSample c true released z).toCapture c true released z)

/-! ### The down-converter -/

/-- The NCO's phase for a grid position, in 2^-48 turns (R89). -/
def State.ncoPhase (s : State) (c : Nat) (pos : Int) : Nat :=
  let n := c / 8
  let l := c % 8
  let freq := (s.rd (R.CND_NCO_FREQ_LO n l)).toNat + 2 ^ 32 * s.fget (R.CND_NCO_FREQ_HI n l) F.CND_NCO_FREQ_HI_FREQ
  let start : Nat := 2 ^ 32 * s.fget (R.CND_NCO_PHASE n l) F.CND_NCO_PHASE_PHASE
  unsigned 48 (Int.ofNat start + Int.ofNat freq * pos)

/-- The nearest 18-bit value with 17 fraction bits to the cosine of k / 2^20 turns (R89). -/
def ncoExact (k : Nat) : Int := (2 * cosTurn k (2 ^ 20) + 2 ^ 63) / 2 ^ 64

/-- A deviation of an open value that the spec bounds: none, one up or one down. -/
def oneOff (n : Nat) : Int := (n % 3 : Nat) - 1

/-- The cosine and sine that a table of deviations gives for the upper 20 bits of the phase: the nearest value or a neighbour (R89; log entry
7). -/
def ncoEntry (t : Nat → Nat) (p : Nat) : Int × Int :=
  (clampInt (-131072) 131071 (ncoExact p + oneOff (t (2 * p))),
    clampInt (-131072) 131071 (ncoExact (p + 3 * 2 ^ 18) + oneOff (t (2 * p + 1))))

/-- Component m of the NCO's output over one period of 2^k samples from the phase o, times 2^k, with 97 fraction bits. -/
def ncoBin (t : Nat → Nat) (k o m : Nat) : Int × Int :=
  (upTo (2 ^ k)).foldl (fun a j =>
    let z := ncoEntry t ((o + j * 2 ^ (48 - k)) % 2 ^ 48 / 2 ^ 28)
    let c := cosTurn (m * j) (2 ^ k)
    let d := cosTurn (m * j * 4 + 3 * 2 ^ k) (4 * 2 ^ k)
    (a.1 + z.1 * c + z.2 * d, a.2 + z.2 * c - z.1 * d)) (0, 0)

/-- No spur of a table is above −110 dBFS: at every frequency but the tone's own, whatever the period and the phase (R89). Stated over the
phase's 48 bits, and not meant to be run. -/
def ncoClean (t : Nat → Nat) : Bool :=
  decide (∀ k < 49, ∀ o < 2 ^ (48 - k), ∀ m < 2 ^ k, m % 2 ^ k ≠ 1 % 2 ^ k →
    ((ncoBin t k o m).1 ^ 2 + (ncoBin t k o m).2 ^ 2) * 10 ^ 11 ≤ (2 ^ (k + 97)) ^ 2)

/-- The NCO's table: the free one, which has no spur above the bound; the nearest values where it had one. -/
def ncoTable : Nat → Nat := if ncoClean Config.ncoPick then Config.ncoPick else fun _ => 1

/-- The mixer: I and Q, 24 bits with 10 fraction bits (R90). -/
def State.mix (s : State) (c : Nat) (pos y : Int) : Int × Int :=
  let z := ncoEntry ncoTable (s.ncoPhase c pos / 2 ^ 28)
  (roundConv (y * z.1) 9, roundConv (-y * z.2) 9)

/-- 79-bit wrapping arithmetic of the CIC (R91). -/
def wrap79 (x : Int) : Int := signed 79 (unsigned 79 x)

/-- The five integrators take an input: their new values, and the last one's output. -/
def integrate : List Int → Int → List Int × Int
  | [], x => ([], x)
  | a :: t, x =>
    let v := wrap79 (a + x)
    let r := integrate t v
    (v :: r.1, r.2)

/-- The five combs of differential delay 1 take an input: their new memories, and the last one's output. -/
def combs : List Int → Int → List Int × Int
  | [], x => ([], x)
  | a :: t, x =>
    let r := combs t (wrap79 (x - a))
    (x :: r.1, r.2)

/-- Coefficient k of set m of slice n (R95). -/
def State.coefWord (s : State) (n m k : Nat) : Nat := Tab.get (fun _ => 0) s.cond.coef ((4 * n + m) * 256 + k)

/-- One component of the FIR: Σ h_k u_(m−k) in 48 bits, rounded, scaled by 2^GAIN and saturated (R92). -/
def firOut (gain : Nat) (hs us : List Int) : Int × Bool :=
  let acc := signed 48 (unsigned 48 ((hs.zip us).foldl (fun a p => a + p.1 * p.2) 0))
  let a := satTo 24 (roundConv acc 17)
  let b := satTo 24 (a.1 * 2 ^ gain)
  (b.1, a.2 || b.2)

/-- The CIC takes a mixed sample; its output where one is due (R91). -/
def State.cicStep (s : State) (c : Nat) (k : Int) (x : CondCh) (z : Int × Int) : CondCh × Option (Int × Int) :=
  let e := s.fget (ddcCfg c) F.CND_DDC_CFG_RC_EXP
  if e = 0 then (x, some z)
  else
    let i := integrate x.integI z.1
    let q := integrate x.integQ z.2
    let y := { x with integI := i.1, integQ := q.1 }
    if k % (s.ddcRc c : Int) = (s.ddcRc c : Int) - 1 then
      let ci := combs x.combI i.2
      let cq := combs x.combQ q.2
      ({ y with combI := ci.1, combQ := cq.1 }, some (roundConv ci.2 (5 * e), roundConv cq.2 (5 * e)))
    else (y, none)

/-- A coefficient set that a channel uses holds an uncorrectable error (R97). -/
def State.setBad (s : State) (c : Nat) : Bool :=
  s.bit (R.CND_STATUS (c / 8)) (4 + s.fget (ddcCfg c) F.CND_DDC_CFG_COEF_SET)

/-- The beat in which an output of tap Z leaves, from the stamp of the newest tap A input (R81). -/
def State.zRelease (s : State) (c : Nat) (newest : Int) : Nat :=
  let out : Int := newest / 256 + (s.lambda c : Int) + 15 + (if s.rankOn c then 4 else 0)
  s.beats + (out - (s.wt : Int)).toNat

/-- An input of the down-converter, delivered at tap M or not: its stamp and position, whether every position of its span
is present, the stamp of the newest tap A input (R89 to R93, R97, R99). Where the stride does not divide a grid position n, n / s is its floor
(log entry 253). -/
def State.tapZ (s : State) (c : Nat) (y : TapSamp) (given full : Bool) (newest : Int) : State :=
  if !s.ddcOn c then s
  else
    let st := s.stride c
    let k := y.pos / (st : Int)
    let d := s.ddcD c
    let x := s.cch c
    let z := s.mix c y.pos y.re
    let x1 := if given then
        (match s.cicStep c k x z with
        | (w, some u) => { w with fir := (u :: w.fir).take (s.ddcTaps c) }
        | (w, none) => w)
      else x
    let s1 := s.setCch c x1
    let stamp := y.stamp - ((s.ddcReach c * st * 128 / s.chanGang c : Nat) : Int)
    if k % (d : Int) ≠ (d : Int) - 1 then s1
    else if !given || !full then s1.suppress c true stamp
    else if s.setBad c then
      let s2 := s1.setCch c { x1 with brkZ := true }
      let s3 := if s.specZoom c then s2.specLost c else s2
      if s.fget (R.STR_PRIM_CFG (c / 8) (c % 8)) F.STR_PRIM_CFG_TAP = 2 then s3.primLost c (s.zRelease c newest) else s3
    else
      let m := s.fget (ddcCfg c) F.CND_DDC_CFG_COEF_SET
      let hs := (upTo (s.ddcTaps c)).map (fun i => signed 18 (s.coefWord (c / 8) m i))
      let g := s.fget (ddcCfg c) F.CND_DDC_CFG_GAIN
      let i := firOut g hs (x1.fir.map (fun u => u.1))
      let q := firOut g hs (x1.fir.map (fun u => u.2))
      let sat := i.2 || q.2
      let lo := y.lo - ((s.ddcReach c * st : Nat) : Int)
      let hi := y.hi
      (s1.countSaturation c sat).deliverZ c (s.zRelease c newest)
        ⟨stamp, y.pos, lo, hi, i.1, q.1, x1.marked 0 lo hi, sat || x1.marked 1 lo hi, x1.marked 2 lo hi, false,
          y.taken - (y.stamp - stamp)⟩

/-! ### The rank filter -/

/-- A value put into a list in ascending order. -/
def insertAsc (v : Int) : List Int → List Int
  | [] => [v]
  | a :: t => if v ≤ a then v :: a :: t else a :: insertAsc v t

/-- The k-th smallest value, k from 1 (R87). -/
def kthSmallest (k : Nat) (xs : List Int) : Int := (xs.foldl (fun a v => insertAsc v a) []).getD (k - 1) 0

/-- The output of the rank filter for a full window, newest first, and whether SPIKE replaced the centre (R87). -/
def State.rankValue (s : State) (c : Nat) (win : List Int) (centre : Int) : Int × Bool :=
  if s.fget (cndCfg c) F.CND_CH_CFG_RANK_MODE = 1 then (kthSmallest (s.fget (cndCfg c) F.CND_CH_CFG_RANK_K) win, false)
  else
    let med := kthSmallest (s.rankH c + 1) win
    if (s.fget (R.CND_RANK_THR (c / 8) (c % 8)) F.CND_RANK_THR_THR : Int) < (centre - med).natAbs then (med, true)
    else (centre, false)

/-- The centre sample of a rank window is met: its output delivered, or suppressed where the window is not full
(R87, R99). -/
def State.rankCentre (s : State) (c : Nat) (centre : TapSamp) (win : List TapSamp) (full deep : Bool) (newest : Int) :
    State :=
  if !full then ((s.suppress c false centre.stamp).tapZ c centre false false newest)
  else
    let h := s.rankH c
    let st := s.stride c
    let v := s.rankValue c (win.map (fun w => w.re)) centre.re
    let lo := centre.lo - ((h * st : Nat) : Int)
    let hi := centre.hi + ((h * st : Nat) : Int)
    let x := s.cch c
    let y : TapSamp := ⟨centre.stamp, centre.pos, lo, hi, v.1, 0, x.marked 0 lo hi, x.marked 1 lo hi, x.marked 2 lo hi,
      false, centre.taken⟩
    let at_ : Int := (newest - (h * st * 256 / s.chanGang c : Nat)) / 256
    let wait : Int := at_ + s.lambda c + 7 + ((h * st + s.chanGang c - 1) / s.chanGang c : Nat) - s.wt
    let s1 := if v.2 then s.count (R.CND_SPIKE_CNT (c / 8) (c % 8)) 1 else s
    (s1.deliverM c (s.beats + wait.toNat) y).tapZ c y true deep newest

/-- Centres whose windows reach into a run of missing positions: suppressed, oldest first (R99, R100). -/
def State.rankLost (s : State) (c : Nat) : List TapSamp → State
  | [] => s
  | w :: t => (s.rankLost c t).rankCentre c w [] false false w.stamp

/-- The conditioner after a missing position: the windows it breaks are suppressed, and its histories begin anew
(R99). -/
def State.tapBreak (s : State) (c : Nat) : State :=
  let x := s.cch c
  let s1 := if s.rankOn c then s.rankLost c (x.window.take (s.rankH c)) else s
  let y := s1.cch c
  s1.setCch c { y with
    contig := 0, window := [], integI := five, integQ := five, combI := five, combQ := five, fir := [],
    brkM := true, brkZ := true }

/-! ### Missing positions -/

/-- Outputs of tap Z due at the n positions after p are suppressed, t being the stamp of position p (R93, R99). -/
def State.loseZ (s : State) (c : Nat) (p t : Int) (n : Nat) : State :=
  let st := s.stride c
  let d : Int := s.ddcD c
  let k := p / (st : Int)
  let due := ((k + n + 1) / d - (k + 1) / d).toNat
  let stampOf (q : Int) : Int :=
    t + (q - k) * ((256 * st / s.chanGang c : Nat) : Int) - ((s.ddcReach c * st * 128 / s.chanGang c : Nat) : Int)
  if !s.ddcOn c || decide (due = 0) then s
  else s.suppressMany c true due (stampOf (((k + 1) / d + 1) * d - 1)) (stampOf ((k + n + 1) / d * d - 1))

/-- The beat in which the tap that a primitive unit of channel c watches would release an output for a sample stamped t (R81). -/
def State.primBase (s : State) (c : Nat) (t : Int) : Nat :=
  let tap := s.fget (R.STR_PRIM_CFG (c / 8) (c % 8)) F.STR_PRIM_CFG_TAP
  let wait : Int := if tap = 0 then 3 else if tap = 1 then (if s.rankOn c then 7 else 3) else if s.rankOn c then 19 else 15
  ((s.beats : Int) + (t / 256 + s.lambda c + wait - s.wt)).toNat

/-- The first position of a run is missing at tap A: the histories begin anew, nothing is delivered, and what works on samples in
a row learns of it (R99, R102, R105, R128). -/
def State.missBegins (s : State) (c : Nat) : State :=
  (((s.tapBreak c).foff (R.CND_CH_STATUS (c / 8) (c % 8)) F.CND_CH_STATUS_DELIVERING).primLost c
    (s.primBase c ((s.cch c).lastT + ((256 * s.stride c / s.chanGang c : Nat) : Int)))).specLost c

/-- The n positions after the latest one are missing at tap A. An output of tap Z that is due in the run counts as suppressed where
its span reaches an input before the run (R99, R100; log entry 204). -/
def State.missRun (s : State) (c n : Nat) : State :=
  let x := s.cch c
  match x.last with
  | none => s
  | some p =>
    let st := s.stride c
    let s1 := if x.miss = 0 then s.missBegins c else s
    let s2 := s1.loseZ c p x.lastT (min n (s.ddcReach c + s.rankReach c - x.miss))
    s2.setCch c { s2.cch c with
      last := some (p + ((n * st : Nat) : Int)), lastT := x.lastT + ((n * (256 * st / s.chanGang c) : Nat) : Int), miss := x.miss + n }

/-- A run of missing positions has ended: outputs of tap Z due in it whose span reaches an input after it count as suppressed. -/
def State.missEnds (s : State) (c : Nat) : State :=
  let x := s.cch c
  let h := s.rankReach c
  let n := min h (x.miss - (s.ddcReach c + h))
  let st := s.stride c
  match x.last with
  | none => s
  | some p => s.loseZ c (p - ((n * st : Nat) : Int)) (x.lastT - ((n * (256 * st / s.chanGang c) : Nat) : Int)) n

/-- The positions of channel c whose release beat has passed without a sample are missing; one that waits in the store is not. What
a run can still suppress is known once it is as long as a span. -/
def State.missDue (s : State) (c : Nat) : State :=
  let x := s.cch c
  let due : Int := (x.lastT + ((256 * s.stride c / s.chanGang c : Nat) : Int)) / 256 + s.lambda c
  if x.last.isSome && s.flag (cndCfg c) F.CND_CH_CFG_EN && s.flag (R.CND_STATUS (c / 8)) F.CND_STATUS_ENABLE
      && decide (x.miss ≤ s.ddcReach c + s.rankReach c) && decide (due < (s.wt : Int))
      && (match x.store with
        | y :: _ => decide (some (y.pos - (s.stride c : Int)) ≠ x.last)
        | [] => true) then
    s.missRun c 1
  else s

/-- A beat passes for the conditioners: samples come to their stores, and at most a gang's width of positions falls due in it. -/
def State.condBeat (s : State) : State :=
  (s.cond.chans.map (fun e => e.1)).foldl (fun x c => (upTo (x.chanGang c)).foldl (fun y _ => y.missDue c) (x.samplesCome c)) s

/-! ### Tap A and tap C -/

/-- OFFSET and GAIN for a sample taken at this time: those of before the load for one taken before run start (R86). -/
def State.calFor (s : State) (c : Nat) (taken : Int) : Int × Nat :=
  let n := c / 8
  let l := c % 8
  let now : Int × Nat :=
    (signed 16 (s.fget (R.CND_OFFSET n l) F.CND_OFFSET_OFFSET), s.fget (R.CND_GAIN n l) F.CND_GAIN_GAIN)
  if taken / 256 < (s.run.startBeat : Int) then (s.cch c).prior.getD now else now

/-- The corrected value of a sample and whether R85 saturated it; any value while a breach makes the conditioner's results undefined (R1). -/
def State.correct (s : State) (c : Nat) (code taken : Int) : Int × Bool :=
  let k := s.calFor c taken
  if s.breach.contains (vCND (c / 8)) then (signed 16 s.free, false)
  else satTo 16 (roundConv ((4 * code + k.1) * (k.2 : Int)) 16)

/-- The STRIDE code of a stride. -/
def strideCode (st : Nat) : Nat := if st = 4 then 2 else if st = 2 then 1 else 0

/-- A released sample goes through the conditioner of its channel (R81 to R99), at the stride it was taken at. -/
def State.condition (s0 : State) (c : Nat) (x : Samp) : State :=
  let n := c / 8
  let l := c % 8
  let st := x.stride
  let s := s0.setCch c { s0.cch c with stride := st }
  let ch0 := s.cch c
  let lost : Nat := match ch0.last with
    | some p => ((x.pos - p) / (st : Int) - 1).toNat
    | none => 0
  let brk := decide (ch0.last ≠ some (x.pos - (st : Int))) || decide (ch0.miss ≠ 0)
  let s1 := if !brk then s
    else if lost ≠ 0 then (s.missRun c lost).missEnds c
    else if ch0.miss = 0 then s.tapBreak c
    else s.missEnds c
  let s2 := (s1.fset (R.CND_CH_STATUS n l) F.CND_CH_STATUS_STRIDE (strideCode st)).fon
    (R.CND_CH_STATUS n l) F.CND_CH_STATUS_DELIVERING
  let s3 := if x.ovr then s2.count (R.CND_OVR_CNT n l) 1 else s2
  let v := s3.correct c x.code (s.takenAt x.stamp)
  let s4 := (if s3.breach.contains (vCND n) then s3.took else s3).countSaturation c v.2
  let ch := s4.cch c
  let reach := s.ddcReach c + 2 * s.rankReach c + 2
  let own := x.pos - ch.shift
  let keep : Int := own - ((reach * st : Nat) : Int)
  let k := ch.contig + 1
  let y : TapSamp := ⟨x.stamp, x.pos, own, own, v.1, 0, x.ovr, v.2, x.taint, brk, s.takenAt x.stamp⟩
  let h := s.rankH c
  let ch1 : CondCh := { ch with
    last := some x.pos, lastT := x.stamp, contig := k, miss := 0,
    window := if s.rankOn c then (y :: ch.window).take (2 * h + 1) else [],
    marks := ch.marks.filter (fun m => decide (keep ≤ m.at_.last)) }
  let ch2 := ((ch1.mark x.ovr 0 own).mark v.2 1 own).mark x.taint 2 own
  let s5 := (s4.setCch c ch2).primSample c 0 (s4.beats + 3) y
  let deep := decide (s.ddcReach c + 2 * s.rankReach c + 1 ≤ k)
  if s.rankOn c then
    match ch2.window[h]? with
    | some centre => s5.rankCentre c centre ch2.window (decide (2 * h + 1 ≤ k)) deep x.stamp
    | none => s5
  else (s5.deliverM c (s5.beats + 3) y).tapZ c y true deep x.stamp

/-! ### The capture tap -/

/-- A capture word's bits: 14 sample bits, then the OR of overrange and saturation, then taint (R85, R94, R98). -/
def captureWord (v : Int) (k : Nat) (y : TapSamp) : Nat :=
  let code := clampInt (-8192) 8191 (roundConv v k)
  4 * unsigned 14 code + (if y.ovr || y.sat then 2 else 0) + (if y.taint then 1 else 0)

/-- The bytes of a capture position (R94, R167). -/
def captureBytes (zoom : Bool) (y : TapSamp) : List Byte :=
  if zoom then leBytes 2 (captureWord y.re 10 y) ++ leBytes 2 (captureWord y.im 10 y) else leBytes 2 (captureWord y.re 2 y)

/-- The oldest position that a spilling shed's open record has not read on a channel (R171). -/
def State.spillClaim (s : State) (c : Nat) : Option Nat :=
  s.recs.waves.foldl (fun a w =>
    if w.spill then w.chans.foldl (fun b x =>
      if x.ch = c ∧ x.qc.isSome ∧ x.next < x.stop then some (match b with
        | some p => min p x.next
        | none => x.next) else b) a
    else a) none

/-- A spilling shed's record is cut, for the ring of channel c: it keeps of every channel the positions up to the last one written on all of them (R278). -/
def State.spillCut (s : State) (c : Nat) (w : WaveRec) : WaveRec :=
  let held (x : WaveChan) : Nat := if x.qc.isSome then (s.ring x.ch).next - x.first else 0
  let n := match w.chans with
    | [] => 0
    | x :: t => t.foldl (fun m y => min m (held y)) (held x)
  WaveRec.truncate { w with chans := w.chans.map (fun x => { x with past := x.past || decide (x.ch = c) }) } clOverrun
    (fun x => if x.qc.isSome then x.first + n else (s.ring x.ch).next)

/-- A ring stops accepting for a spilling shed: the word is discarded and the shed's record closes with OVERRUN at what
was written (R155, R171). -/
def State.spillStop (s : State) (c : Nat) : State :=
  let a := R.BOB_RING_STATUS c
  let s1 := ((s.fon a F.BOB_RING_STATUS_STOPPED).fon a F.BOB_RING_STATUS_SPILL_STOP).raise vBOB 3
  let s2 := (s1.count (R.BOB_RING_LOST c) 1).setRing c { s1.ring c with brk := true }
  let ks := (s2.recs.waves.filter (fun w => w.spill && w.cause.isNone && w.chans.any (fun x => decide (x.ch = c)))).map
    (fun w => w.shed)
  ks.foldl (fun x k =>
    let y := x.mapWaves (fun w => if w.shed = k ∧ w.spill ∧ w.cause = none then x.spillCut c w else w)
    if y.shedState k = shPost then y.shedPosted k else y) s2

/-- A directory entry is added; beyond 256 the oldest is replaced, and positions before the oldest that remains stop being
held (R172). -/
def State.dirAdd (s : State) (c : Nat) (e : DirEntry) : State :=
  let x := s.ring c
  if x.dir.length < 256 then s.setRing c { x with dir := x.dir ++ [e] }
  else
    let d := x.dir.drop 1 ++ [e]
    let f := match d with
      | a :: _ => a.first
      | [] => 0
    (s.setRing c { x with dir := d, floor := max x.floor f }).count (R.BOB_RING_DIR_DROP c) 1

/-- Records that waited for a position stamped at or after their trigger time have their trigger position (R153). -/
def State.fixWaiting (s : State) (c p : Nat) (stamp : Int) : State :=
  s.mapWaves (fun w => { w with chans := w.chans.map (fun x =>
    if x.ch = c ∧ x.qc = none ∧ w.t ≤ stamp then s.fixQc w.shed x p else x) })

/-- The write buffer of a ring holds four units: when a word of a fifth comes, the oldest has been written, since capture is never held
back (R29, R169; log entry 211). -/
def State.ringMakeRoom (s : State) (c : Nat) : State :=
  if s.unitRoom c + 768 < (s.ring c).buf.length then s.ringCommit c (s.unitRoom c) else s

/-- A word begins a new directory entry of its ring: the first, after missing positions, a changed stride or a warp-time step (R172). -/
def State.ringFresh (s : State) (c : Nat) (w : CapWord) : Bool :=
  let x := s.ring c
  x.dir.isEmpty || x.brk || w.samp.brk || decide (w.samp.stamp ≠ x.lastStamp + (w.per : Int))

/-- Accepting a word would release a position from being held: one that its place overwrites, or one before the second directory entry where the
word replaces the oldest (R170, R171, R172). -/
def State.ringReleases (s : State) (c p : Nat) (w : CapWord) : Bool :=
  let x := s.ring c
  let b := s.posBytes c
  decide (p + (s.ringBytes c / b - 65536 / b) ≤ x.next)
    || (s.ringFresh c w && decide (256 ≤ x.dir.length) && (match x.dir with
      | _ :: e :: _ => decide (p < e.first)
      | _ => true))

/-- The Bobbin accepts a word as the next position of its ring; a later word of a unit that was written partly repeats
the merge (R168, R169, R172). -/
def State.ringAccept (s : State) (c : Nat) (w : CapWord) : State :=
  let x := s.ring c
  let y := w.samp
  let per := w.per
  let s1 := if s.ringFresh c w then s.dirAdd c ⟨x.next, y.stamp, per⟩ else s
  let z := s1.ring c
  let opens := z.buf.isEmpty || decide ((z.done * s.posBytes c + z.buf.length) % 256 = 0)
  let s2 := s1.setRing c { z with
    next := z.next + 1, buf := z.buf ++ captureBytes w.zoom y, brk := false, lastStamp := y.stamp,
    since := if opens then z.since ++ [s.beats] else z.since, live := true }
  let s3 := (s2.foff (R.BOB_RING_STATUS c) F.BOB_RING_STATUS_STOPPED).fset (R.BOB_RING_STATUS c)
    F.BOB_RING_STATUS_MERGING 1
  let s4 := ((s3.fixWaiting c z.next y.stamp).buildWaves).buildRaw c
  if (s4.ring c).done * s4.posBytes c % 256 = 0 then s4.ringMakeRoom c else s4.ringFlush c

/-- The last word of the run has reached the ring of channel c (R22, R158, R169, R280): its partial unit is written, its
open RAW record closes, and a spilling shed's record ends there. -/
def State.chanDrain (s : State) (c : Nat) : State :=
  let s1 := (s.ringFlush c).rawClose c clStopped
  let last := (s1.ring c).next
  let s2 := s1.mapWaves (fun w =>
    if w.spill && (w.cause.isNone || w.cause == some clStopped) && w.chans.any (fun x => decide (x.ch = c)) then
      { w with
        cause := some clStopped,
        chans := w.chans.map (fun x =>
          if x.ch = c then { x with qc := some (x.qc.getD last), stop := (if x.qc.isSome then min x.stop last else x.next) }
          else x) }
    else w)
  (s2.foff (R.BOB_RING_STATUS c) F.BOB_RING_STATUS_ACTIVE).buildWaves

/-- The spill record that a ring stopped for has not closed (R155, R171). -/
def State.spillOpen (s : State) (c : Nat) : Bool :=
  s.flag (R.BOB_RING_STATUS c) F.BOB_RING_STATUS_STOPPED
    && s.recs.waves.any (fun w => w.spill && w.cause.isSome && w.chans.any (fun x => decide (x.ch = c)))

/-- A capture word leaves the capture tap (R82, R168, R171): only a word stamped in the run takes a position. A ring that has stopped
discards every later word until its record has closed. -/
def State.captureOut (s : State) (c : Nat) (w : CapWord) : State :=
  if !s.ringOn c || !s.flag R.BOB_STATUS F.BOB_STATUS_ENABLE then s
  else if !s.captured w.samp.taken then s
  else if s.spillOpen c then (s.count (R.BOB_RING_LOST c) 1).setRing c { s.ring c with brk := true }
  else
    match s.spillClaim c with
    | some p => if s.ringReleases c p w then s.spillStop c else s.ringAccept c w
    | none => s.ringAccept c w

end Sys2Proof.Machine
end

