-- ==== Sys2Proof/Machine/Taint.lean ====
section
/-!
DEFINITION. The taint notice of a failed frame and what each consumer does with it (R83, R121, R147, R148).
-/

namespace Sys2Proof.Machine

/-- A failed frame of a channel: the positions of its samples. The conditioner marks what it holds and counts the
tainted samples (R83); the notice reaches the slice trigger front end (R147) and the Reeds (R121). -/
def State.taintNotice (s : State) (c count : Nat) (w : Stretch) : State :=
  let n := c / 8
  let s1 := s.setCch c ((s.cch c).taintRange w)
  let s2 := (s1.count (R.CND_TAINT_CNT n (c % 8)) count).raise (vCND n) 5
  (s2.taintSamples c w).taintReeds c w

end Sys2Proof.Machine
end

