-- ==== Sys2Proof/Machine/LinkOps.lean ====
section
/-!
DEFINITION. Operations of a Linkai port: its state and power, messages (R53 to R58), bring-up (R59 to R63, R489),
steps, recoveries and failures (R64 to R66), gaps (R67).
-/

namespace Sys2Proof.Machine

/-- The outcome of a meaning. -/
abbrev Result := Host.Outcome State Fault Refusal

/-- Port states (R59). -/
def lsDown : Nat := 0
def lsRetStart : Nat := 1
def lsWaitConv : Nat := 2
def lsAdapt : Nat := 3
def lsLock : Nat := 4
def lsCap : Nat := 5
def lsVerify : Nat := 6
def lsStep : Nat := 7
def lsAlign : Nat := 8
def lsActive : Nat := 9
def lsPrbs : Nat := 10
def lsSleep : Nat := 11
def lsFailed : Nat := 12

/-- LNK_STATUS.STATE of port p. -/
def State.lnkState (s : State) (p : Nat) : Nat := s.fget (R.LNK_STATUS p) F.LNK_STATUS_STATE

/-- LNK_STATUS.ENABLE of port p. -/
def State.lnkEnabled (s : State) (p : Nat) : Bool := s.flag (R.LNK_STATUS p) F.LNK_STATUS_ENABLE

/-- Lanes in use. -/
def State.lnkLanes (s : State) (p : Nat) : List Nat :=
  (upTo 8).filter (fun l => (s.rd (R.LNK_CFG p)).getLsbD l)

/-- The converter is version 1 (R71). -/
def State.lnkV1 (s : State) (p : Nat) : Bool := s.fget (R.LNK_STATUS p) F.LNK_STATUS_VERSION == 1

/-- A command is ignored, with CMD_REFUSED (R63, R69, R71, R74). -/
def State.lnkRefuse (s : State) (p : Nat) : State := s.raise (vLNK p) 13

/-! ### PRBS (R72, R73) and the port's state -/

/-- Port p changes state within the time of a STEP (R62). -/
def State.lnkKeep (s : State) (p st : Nat) : State := s.fset (R.LNK_STATUS p) F.LNK_STATUS_STATE st

/-- The return generator of port p runs: GEN_EN, in state PRBS, ENABLE 0 (R73). -/
def State.retPrbsOn (s : State) (p : Nat) : Bool :=
  s.lnkState p == lsPrbs && !s.lnkEnabled p && s.flag (R.LNK_RET_PRBS p) F.LNK_RET_PRBS_GEN_EN

/-- What the return lane carries is shown where its generator has started, changed or stopped (R72, R73). -/
def State.retPrbsShow (s : State) (p : Nat) (was : Bool) : State :=
  let on := s.retPrbsOn p
  if on || was then
    s.emit (.retPrbs p on (s.fget (R.LNK_RET_PRBS p) F.LNK_RET_PRBS_PATTERN) (s.flag (R.LNK_RET_PRBS p) F.LNK_RET_PRBS_INVERT))
  else s

/-- A checker begins anew: no lock, nothing seen. -/
def State.prbsReset (s : State) (p l : Nat) : State :=
  let x := s.lane p l
  (s.setLane p l { x with prbs := { x.prbs with hist := 0, seen := 0, good := 0, wrong := 0 } }).foff
    (R.LNK_LANE_STATUS p l) F.LNK_LANE_STATUS_PRBS_LOCK

/-- The near-end generator of a lane starts from ones: its loop is closed, or its pattern changes (R72, R73). -/
def State.prbsReseed (s : State) (p l : Nat) : State :=
  let x := s.lane p l
  s.setLane p l { x with prbs := { x.prbs with gen := 2 ^ 31 - 1 } }

/-- A port that was in PRBS leaves it: no checker holds a lock, and the return generator stops (R73). -/
def State.prbsLeave (s : State) (p : Nat) : State :=
  if s.lnkState p = lsPrbs then
    let was := s.retPrbsOn p
    let s1 := (upTo 8).foldl (fun x l => x.prbsReset p l) (s.lnkKeep p lsDown)
    s1.retPrbsShow p was
  else s

/-- Port p changes state; the time of its phase starts again. A port that leaves PRBS has no checker in lock. -/
def State.lnkGo (s0 : State) (p st : Nat) : State :=
  let s := if st = lsPrbs then s0 else s0.prbsLeave p
  (s.setPort p { s.port p with since := s.beats }).lnkKeep p st

/-- A frame whose result is outstanding when its lane loses its locks: the result still counts and taints (R11, R42). -/
def InFlight.aged (f : InFlight) : InFlight := { f with stale := true }

/-- Every lane of port p loses its locks, its counts and its prediction, as at a change of speed or a new attempt. -/
def State.lnkUnlock (s : State) (p : Nat) : State :=
  (upTo 8).foldl (fun x l =>
    let a := x.lane p l
    (((x.setLane p l { a with
        winBlocks := 0, winBad := 0, goodHdrs := 0, badMarks := 0, goodMarks := 0, clean := 0, pred := none, live := false,
        fails := 0, failSince := x.beats, misRun := 0, flight := a.flight.map InFlight.aged }).foff
      (R.LNK_LANE_STATUS p l) F.LNK_LANE_STATUS_BLOCK_LOCK).foff
      (R.LNK_LANE_STATUS p l) F.LNK_LANE_STATUS_FRAME_LOCK)) s

/-- The counts of clean and of failed frames start anew. -/
def State.lnkRecount (s : State) (p : Nat) : State :=
  (upTo 8).foldl (fun x l => x.setLane p l { x.lane p l with clean := 0, fails := 0, failSince := x.beats }) s

/-- VERIFY begins: it counts frames taken from now on (R60). -/
def State.lnkVerify (s : State) (p : Nat) : State := (s.lnkRecount p).lnkGo p lsVerify

/-! ### Messages -/

/-- MSG_BUSY while a message of the device or of software is outstanding or waiting (R57). -/
def State.lnkBusySync (s : State) (p : Nat) : State :=
  let x := s.port p
  s.fset (R.LNK_STATUS p) F.LNK_STATUS_MSG_BUSY
    (if x.outstanding.isSome || !x.devQueue.isEmpty || x.software.isSome then 1 else 0)

/-- A message of the device's own sequences joins its queue (R57). -/
def State.lnkQueue (s : State) (p mtype payload : Nat) : State :=
  let x := s.port p
  (s.setPort p { x with devQueue := x.devQueue ++ [⟨mtype, payload, 0, false, 0, 0⟩] }).lnkBusySync p

/-- The 16 bytes of a message: TYPE, TAG, PAYLOAD and its CRC-32 (R53). -/
def messageBytes (mtype tag payload : Nat) : List Byte :=
  let b := leBytes 1 mtype ++ leBytes 1 tag ++ leBytes 10 payload
  b ++ leBytes 4 (crc32 b).toNat

/-- The payload of SET_SPEED with N = 16 (R54, R60). -/
def setSpeedPayload (speed lo hi : Nat) : Nat := speed + 4 * lo + 16 * hi + 64 * 16

/-- A SET_SPEED is queued and the port is in STEP until the switch (R60, R64). -/
def State.lnkSetSpeed (s : State) (p speed lo hi : Nat) : State :=
  let x := s.port p
  ((s.setPort p { x with wantSpeed := speed, wantLo := lo, wantHi := hi, lockFor := .verify }).lnkGo p lsStep).lnkQueue
    p 2 (setSpeedPayload speed lo hi)

/-- The commands that put the return lane to sleep have ended (R75). -/
def State.lnkRetDone (s : State) (p : Nat) : State :=
  (s.foff (R.LNK_CTRL p) F.LNK_CTRL_RET_DOZE).foff (R.LNK_CTRL p) F.LNK_CTRL_RET_OFF

/-- A new attempt, or a failure, ends the exchange that is under way. The messages of the bring-up and of forward sleep are dropped
with their commands; an outstanding message of software waits again, with its tag (R57); the return lane's own sleep is asked for again
once the converter listens (R69). -/
def State.lnkFlushMsgs (s : State) (p : Nat) : State :=
  let x := s.port p
  let own := (x.outstanding.toList.filter (fun (m : LinkMsg) => !m.software)) ++ x.devQueue
  let keep := if s.flag (R.LNK_CTRL p) F.LNK_CTRL_DROP then [] else own.filter (fun (m : LinkMsg) => decide (m.mtype = 9))
  let sw := match x.outstanding with
    | some m => if m.software then some m else x.software
    | none => x.software
  let s1 := s.setPort p { x with devQueue := keep.map (fun (m : LinkMsg) => { m with tag := 0 }), outstanding := none, software := sw }
  let s2 := if s.flag (R.LNK_CTRL p) F.LNK_CTRL_DROP then s1.lnkRetDone p else s1
  (((s2.foff (R.LNK_CTRL p) F.LNK_CTRL_FWD_DOZE).foff (R.LNK_CTRL p) F.LNK_CTRL_FWD_OFF).foff (R.LNK_CTRL p)
    F.LNK_CTRL_DROP).lnkBusySync p

/-! ### Gaps -/

/-- Delivery stops; the gap begins with the position after the latest one delivered (R67). Tap A goes on with the samples that are stored. -/
def State.lnkStopDelivery (s : State) (p : Nat) : State :=
  let x := s.port p
  let g : Option Int := match x.gap, x.lastStamp with
    | some t, _ => some t
    | none, some t => if s.lnkEnabled p then some (t + (x.lastStep : Int)) else none
    | none, none => none
  s.setPort p { x with delivering := false, gap := g }

/-- Delivery resumes with a sample, its channel's positions the given step apart: a gap that was open ends with its entry and count (R67,
R487). -/
def State.lnkResume (s : State) (p : Nat) (first : Int) (step : Nat) : State :=
  let x := s.port p
  let s1 := s.setPort p { x with delivering := true, gap := none }
  match x.gap with
  | none => s1
  | some t =>
    let lastMiss : Int := first - (step : Int)
    let s2 := (s1.log (vLNK p) ecGapEnd sevWarning 0 (distBeats t lastMiss) (beatOf t)).count (R.LNK_GAP_CNT p) 1
    { s2 with dict := { s2.dict with gaps := (s2.dict.gaps + 1) % 2 ^ 32 } }

/-! ### Bring-up -/

/-- The return lane starts its 64 idle blocks (R62, R69). -/
def State.lnkRetStart (s : State) (p : Nat) : State :=
  (((s.setPort p { s.port p with offSince := none }).foff (R.LNK_CTRL p) F.LNK_CTRL_RET_WAKE).fset (R.LNK_STATUS p)
    F.LNK_STATUS_RET_PWR 0).lnkGo p lsRetStart

/-- A bring-up attempt starts in DOWN: at once in RET_START where the return lane has been OFF for 10 µs, else the
lane is held OFF first (R489). -/
def State.lnkAttempt (s : State) (p attempt : Nat) : State :=
  let s1 := ((s.lnkFlushMsgs p).lnkUnlock p).lnkStopDelivery p
  let x := s1.port p
  let off := match x.offSince with
    | some b => b
    | none => s1.beats
  let s2 := s1.setPort p { x with
    attempt := attempt, waiting := none, lockFor := .cap, fallback := false,
    layoutLo := 0, layoutHi := 0, layoutDone := false, stepping := false, indexReady := false, caps := [],
    offSince := some off, alignOnly := false, target := 0 }
  let s3 := ((s2.foff (R.LNK_STATUS p) F.LNK_STATUS_PORT_FAIL).foff (R.LNK_STATUS p) F.LNK_STATUS_SPEED).fset
    (R.LNK_STATUS p) F.LNK_STATUS_RET_PWR 2
  let s4 := (s3.foff (R.LNK_STATUS p) F.LNK_STATUS_ALIGNED).condReady p
  if off + 10 * beatsPerUs ≤ s4.beats then s4.lnkRetStart p else s4.lnkGo p lsDown

/-- A full bring-up of port p, its first attempt (R60, R61). -/
def State.lnkBringup (s : State) (p : Nat) (recovery diag : Bool) : State :=
  let x := s.port p
  (s.setPort p { x with recovery := recovery, diag := diag }).lnkAttempt p 1

/-- The LNK_CTRL bits of commands that a bring-up or a failure ends. -/
def State.lnkCtrlDone (s : State) (p : Nat) : State :=
  (s.foff (R.LNK_CTRL p) F.LNK_CTRL_BRINGUP).foff (R.LNK_CTRL p) F.LNK_CTRL_FWD_WAKE

/-- The port enters state PRBS (R73): a bring-up that is under way ends. -/
def State.lnkPrbs (s : State) (p : Nat) : State :=
  let s1 := s.setPort p { s.port p with attempt := 0, waiting := none }
  ((s1.lnkCtrlDone p).lnkGo p lsPrbs).retPrbsShow p false

/-- The port enters FAILED, with NEG_FAIL naming the phase; FATAL where FAIL_STOPS is 1 and the failure is of a
run-time step or recovery, after ARM has completed (R61, R65). -/
def State.lnkFail (s : State) (p : Nat) (runTime : Bool) : State :=
  let phase := s.lnkState p
  let s1 := (((s.lnkFlushMsgs p).lnkStopDelivery p).lnkGo p lsFailed).fon (R.LNK_STATUS p) F.LNK_STATUS_PORT_FAIL
  let s2 := (s1.setPort p { s1.port p with attempt := 0, stepping := false, recovery := false, waiting := none }).lnkCtrlDone p
  if runTime && s2.flag (R.LNK_CFG p) F.LNK_CFG_FAIL_STOPS && s2.run.armSince.isNone then s2.fatal (vLNK p) 1 0 phase 0
  else s2.event (vLNK p) 1 sevError 0 phase 0

/-- A bring-up attempt fails: the third enters FAILED, an earlier one waits 100 µs (R61). -/
def State.lnkAttemptFail (s : State) (p : Nat) : State :=
  let x := s.port p
  if 3 ≤ x.attempt then s.lnkFail p x.recovery
  else
    let s1 := s.log (vLNK p) ecAttemptFail sevWarning 0 (s.lnkState p + 16 * x.attempt) 0
    let s2 := (s1.lnkFlushMsgs p).lnkStopDelivery p
    ((s2.setPort p { s2.port p with waiting := some s2.beats, offSince := some s2.beats }).fset
      (R.LNK_STATUS p) F.LNK_STATUS_RET_PWR 2).lnkGo p lsDown

/-- The speed a bring-up aims at (R60, R66). -/
def State.lnkTarget (s : State) (p : Nat) : Nat :=
  let x := s.port p
  let cap0 := Tab.get (fun _ => 0) x.caps 0
  let t := min (s.fget (R.LNK_CFG p) F.LNK_CFG_MAX_SPEED) (min (cap0 / 16 % 4) (if cap0 % 16 = 1 then 1 else 2))
  if x.recovery then min t x.cap else t

/-- A gang code is among the widths of CAP0 [8:6] (R58, R61). -/
def gangOffered (cap0 code : Nat) : Bool := decide (cap0 / 2 ^ (6 + code) % 2 = 1)

/-- CAP has ended: the capability words are shown, the cases that fail at once are met, the target is computed, and a
layout other than ×1 is set before VERIFY at Walk (R58, R60, R61). -/
def State.lnkAfterCap (s : State) (p : Nat) : State :=
  let x := s.port p
  let cap (k : Nat) : Nat := Tab.get (fun _ => 0) x.caps k
  let s1 := (upTo 4).foldl (fun y w => y.wr (R.LNK_CAP p w) (w32 (cap (2 * w) + 65536 * cap (2 * w + 1)))) s
  let s2 := s1.fset (R.LNK_STATUS p) F.LNK_STATUS_VERSION (cap 0 % 16)
  let lo := s2.fget (R.LNK_CFG p) F.LNK_CFG_GANG_LO
  let hi := s2.fget (R.LNK_CFG p) F.LNK_CFG_GANG_HI
  let v1 := decide (cap 0 % 16 = 1)
  let bad := !(gangOffered (cap 0) lo) || !(gangOffered (cap 0) hi)
    || (v1 && !s2.flag (R.LNK_CFG p) F.LNK_CFG_V1_ALLOW)
    || (s2.flag (R.LNK_CFG p) F.LNK_CFG_INDEX_MODE && !v1 && decide (cap 0 / 1024 % 2 = 0))
  if bad then s2.lnkFail p x.recovery
  else
    let s3 := s2.setPort p { s2.port p with target := s2.lnkTarget p }
    if lo ≠ 0 ∨ hi ≠ 0 then s3.lnkSetSpeed p 0 lo hi
    else s3.lnkVerify p

/-- The speed that VERIFY settled on: ALIGN follows, after INDEX_LOAD where INDEX_MODE asks for it; a speed below
MIN_SPEED fails the attempt (R60 to R62, R71). -/
def State.lnkSettle (s : State) (p : Nat) : State :=
  if s.speed p < s.fget (R.LNK_CFG p) F.LNK_CFG_MIN_SPEED then s.lnkAttemptFail p
  else
    let load := s.flag (R.LNK_CFG p) F.LNK_CFG_INDEX_MODE && !s.lnkV1 p
    let s1 := (s.setPort p { s.port p with indexReady := !load }).lnkGo p lsAlign
    if load then s1.lnkQueue p 3 (s1.pair (R.LNK_INDEX_LOAD_LO p) (R.LNK_INDEX_LOAD_HI p) % 2 ^ 48) else s1

/-- Clean frames that VERIFY asks for: 4,096 at the target speed, else 1,024 (R60, R64). -/
def State.lnkVerifyCount (s : State) (p : Nat) : Nat :=
  let x := s.port p
  if x.stepping || x.fallback then 1024 else if s.speed p = x.target then 4096 else 1024

/-- A run-time step of one speed: SET_SPEED with the layout in force; the degradation and the gap begin (R31, R64). -/
def State.lnkStepDown (s : State) (p : Nat) : State :=
  let x := s.port p
  let s1 := (s.setPort p { x with stepping := true }).lnkStopDelivery p
  let s2 := (s1.raise (vLNK p) 7).degradeOn dgLinkStep p
  s2.lnkSetSpeed p (s.speed p - 1) x.layoutLo x.layoutHi

/-- A speed fails VERIFY: a run-time step steps again or fails; Walk fails the attempt; another speed falls back one
(R60, R64, R65). -/
def State.lnkVerifyFail (s : State) (p : Nat) : State :=
  let x := s.port p
  if x.stepping then
    if s.fget (R.LNK_CFG p) F.LNK_CFG_MIN_SPEED < s.speed p then s.lnkStepDown p else s.lnkFail p true
  else if s.speed p = 0 then s.lnkAttemptFail p
  else (s.setPort p { x with fallback := true }).lnkSetSpeed p (s.speed p - 1) x.layoutLo x.layoutHi

/-! ### Conditions while ENABLE is 1 -/

/-- Recovery: a full bring-up that climbs no higher than the speed held; without AUTO_RECOVER the port fails (R66).
During another recovery, or outside ENABLE, only the flags are set (R68). -/
def State.lnkRecover (s : State) (p : Nat) : State :=
  let x := s.port p
  if !s.lnkEnabled p || x.recovery || s.lnkState p == lsFailed then s
  else if x.attempt ≠ 0 ∧ s.run.armSince.isSome then s
  else if s.flag (R.LNK_CFG p) F.LNK_CFG_AUTO_RECOVER then
    let s1 := s.lnkStopDelivery p
    (s1.setPort p { s1.port p with cap := s.speed p, oldPlace := some (s.place p) }).lnkBringup p true false
  else s.lnkFail p true

/-- Signal on a lane, and the forwarded clock of its port, remain (R64). -/
def State.lnkHears (s : State) (p l : Nat) : Bool :=
  s.flag (R.LNK_LANE_STATUS p l) F.LNK_LANE_STATUS_SIGNAL && !(s.port p).clkLost

/-- A step condition: block or frame lock lost while signal and clock remain, or CRC excess (R64, R65, R68). A lock lost while they do not
remain is a case for recovery (R66). -/
def State.lnkStepCondition (s : State) (p : Nat) (crc hears : Bool) : State :=
  let x := s.port p
  if !s.lnkEnabled p || x.recovery || x.stepping || s.lnkState p != lsActive then s
  else if !crc && !hears then s.lnkRecover p
  else if s.flag (R.LNK_CFG p) F.LNK_CFG_STEP_EN then
    if s.fget (R.LNK_CFG p) F.LNK_CFG_MIN_SPEED < s.speed p then s.lnkStepDown p else s.lnkFail p true
  else if crc then s
  else s.lnkRecover p

/-- ALIGN_LOST (R48, R51): flagged, and a recovery. -/
def State.lnkAlignLost (s : State) (p : Nat) : State :=
  (((s.raise (vLNK p) 8).foff (R.LNK_STATUS p) F.LNK_STATUS_ALIGNED).condReady p).lnkRecover p

/-! ### ARM -/

/-- ARM's part for a port in use: a port that is ACTIVE at its target, or in DOZE, with ALIGNED set runs WAKE if
needed and ALIGN only; any other runs a full bring-up (R63, R70). An exchange of the port's own that is under way, a SLEEP among them, ends
with ENABLE 0 (R69). No gap is open before the first sample of a run is delivered. -/
def State.lnkArm (s0 : State) (p : Nat) : State :=
  let s := (upTo 8).foldl (fun y l =>
    (((y.setCch (8 * p + l) { y.cch (8 * p + l) with arrivals := [], missed := false }).foff (R.CND_CH_STATUS p l)
      F.CND_CH_STATUS_LATE).foff (R.CND_CH_STATUS p l) F.CND_CH_STATUS_EARLY))
    (s0.setPort p { s0.port p with delivering := false, lastStamp := none, gap := none, alignedArm := false })
  let f := s.lnkFlushMsgs p
  let aligned := s.flag (R.LNK_STATUS p) F.LNK_STATUS_ALIGNED
  if (s.lnkLanes p).isEmpty then s
  else if s.lnkState p = lsActive ∧ aligned ∧ s.speed p = s.lnkTarget p then
    (f.setPort p { f.port p with indexReady := true, alignOnly := true, attempt := 1, diag := false, recovery := false }).lnkGo p lsAlign
  else if s.fget (R.LNK_STATUS p) F.LNK_STATUS_FWD_PWR = 1 ∧ aligned then
    (f.setPort p { f.port p with indexReady := true, alignOnly := true, attempt := 1, diag := false, recovery := false }).lnkQueue p 5 0
  else s.lnkBringup p false false

end Sys2Proof.Machine
end

