-- ==== Sys2Proof/Machine/Conditioner.lean ====
section
/-!
DEFINITION. The commands of the conditioners (R78 to R101).
-/

namespace Sys2Proof.Machine

/-- TAP_A_RELEASE: the oldest sample in the channel's alignment store whose beat ⌊t⌋ + Λ has come leaves tap A and goes
through the conditioner (R78 to R99); the signal statistics count it (R437). A channel whose EN is 0 conditions nothing (R102). -/
def execTapARelease (channel : Fin 192) (s : State) : Result :=
  let c := channel.val
  let x := s.cch c
  .next (
    match x.store with
    | [] => s
    | y :: rest =>
      if (s.wt : Int) < y.stamp / 256 + s.lambda c then s
      else
        let s1 := s.setCch c { x with store := rest }
        if s.flag (cndCfg c) F.CND_CH_CFG_EN then
          (if s1.runState = rsRunning ∧ s1.analysed (s1.takenAt y.stamp) = true ∧ y.taint = false ∧ y.ovr = false then
              s1.statsCount c y.code
            else s1).condition c y
        else s1)

/-- CAPTURE_RELEASE: the oldest word of the channel's capture tap, 660 beats after its source tap released it, is written
into its ring with its final taint bit (R82, R168 to R172). -/
def execCaptureRelease (channel : Fin 192) (s : State) : Result :=
  let c := channel.val
  let x := s.cch c
  .next (
    match x.capture with
    | [] => s
    | w :: rest => if s.beats < w.due then s else (s.setCch c { x with capture := rest }).captureOut c w)

/-- COEF_SCRUB: a word of a coefficient set is read with an error, corrected or not (R97). -/
def execCoefScrub (slice : Fin 24) (set : Fin 4) (word : Fin 256) (ue : Bool) (s : State) : Result :=
  let n := slice.val
  .next (
    if ue then
      let s1 := (s.bitOn (R.CND_STATUS n) (4 + set.val)).event (vCND n) 7 sevError set.val 0
        (blockBase (vCND n) + 0x1000 + 0x400 * set.val + 4 * word.val)
      { s1 with cond := { s1.cond with rewritten := Tab.put (fun _ => 0) s1.cond.rewritten (4 * n + set.val) 0 } }
    else (s.count (R.CND_COEF_CE_CNT n) 1).raise (vCND n) 6)

/-- The taps of the channels of a slice that use a set: the number of words of a set that are used. -/
def State.setTaps (s : State) (n m : Nat) : Nat :=
  (upTo 8).foldl (fun t l =>
    let a := R.CND_DDC_CFG n l
    if s.flag a F.CND_DDC_CFG_EN && s.fget a F.CND_DDC_CFG_COEF_SET == m then max t (s.fget a F.CND_DDC_CFG_TAPS) else t) 0

/-- Bits [31:18] of a coefficient must be written 0: a breach of R95, for which no outcome is stated (R1). -/
def State.coefBreach (s : State) (n : Nat) (value : BitVec 32) : State :=
  if 2 ^ 18 ≤ value.toNat then s.breached (vCND n) else s

/-- The address of a word of the coefficient window (R95). -/
def coefAddr (n m k : Nat) : Nat := blockBase (vCND n) + 0x1000 + 0x400 * m + 4 * k

/-- Word k of set m of slice n is written under the EG rule; once every word of a bad set has been rewritten, word T − 1 last, SET_BAD clears
(R95 to R97, R372). -/
def State.coefPut (s0 : State) (src : Src) (n m k : Nat) (value : Word) : State :=
  let s := s0.coefBreach n value
  let v := value.toNat % 2 ^ 18
  if s.egShut (vCND n) then (if v = s.coefWord n m k then s else s.egReject (vCND n) src (coefAddr n m k))
  else
    let s1 := if v = s.coefWord n m k then s else
      State.egStored { s with cond := { s.cond with
        coef := Tab.put (fun _ => 0) s.cond.coef ((4 * n + m) * 256 + k) v } }
    if s.bit (R.CND_STATUS n) (4 + m) then
      let old := Tab.get (fun _ => 0) s1.cond.rewritten (4 * n + m)
      let mask := if old / 2 ^ k % 2 = 1 then old else old + 2 ^ k
      let t := let u := s.setTaps n m
        if u = 0 then 256 else u
      let s2 := { s1 with cond := { s1.cond with rewritten := Tab.put (fun _ => 0) s1.cond.rewritten (4 * n + m) mask } }
      if k + 1 = t ∧ mask % 2 ^ t + 1 = 2 ^ t then s2.bitOff (R.CND_STATUS n) (4 + m) else s2
    else s1

end Sys2Proof.Machine
end

