-- ==== Sys2Proof/Machine/PnlOps.lean ====
section
/-!
DEFINITION. Operations of the display engine: timing (R215 to R217), link training (R212), palette (R219, R220), layers
and composition (R221 to R223), commits and flips (R225 to R228).
-/

namespace Sys2Proof.Machine

/-- Output o. -/
def State.output (s : State) (o : Nat) : OutputSt := Tab.get (fun _ => OutputSt.init) s.pnl.outputs o

/-- Output o replaced. -/
def State.setOutput (s : State) (o : Nat) (x : OutputSt) : State :=
  { s with pnl := { s.pnl with outputs := Tab.put (fun _ => OutputSt.init) s.pnl.outputs o x } }

/-- PNL_CFG.MODE is INDEPENDENT (R216). -/
def State.independent (s : State) : Bool := s.flag R.PNL_CFG F.PNL_CFG_MODE

/-! ### Timing -/

/-- The active size of a timing register. -/
def activeOf (w : Word) : Nat := fieldOf w F.PNL_HACT_ACT

/-- The total of a timing register. -/
def totalOf (w : Word) : Nat := fieldOf w F.PNL_HACT_TOTAL

/-- One direction of an output's timing fits within its total and its limit (R215). -/
def timingFits (act sync : Word) (limit : Nat) : Bool :=
  decide (activeOf act ≤ limit)
    && decide (activeOf act + fieldOf sync F.PNL_HSYNC_START + fieldOf sync F.PNL_HSYNC_WIDTH ≤ totalOf act)

/-- The clock, timing and link settings of an output are within R215's limits; o gives the link, t the timing. -/
def State.outputFits (s : State) (o t : Nat) : Bool :=
  let k := s.fget (R.PNL_PCLK t) F.PNL_PCLK_KHZ
  decide (25000 ≤ k) && decide (k ≤ 200000) && timingFits (s.rd (R.PNL_HACT t)) (s.rd (R.PNL_HSYNC t)) 1920
    && timingFits (s.rd (R.PNL_VACT t)) (s.rd (R.PNL_VSYNC t)) 1200
    && decide (s.fget (R.PNL_LINK o) F.PNL_LINK_LANES ≠ 3)

/-- The outputs that ENABLE starts, each with the output whose timing it uses (R216). -/
def State.usedOutputs (s : State) : List (Nat × Nat) :=
  ((upTo 2).filter (fun o => nbit (s.fget R.PNL_CFG F.PNL_CFG_OUT_EN) o)).map (fun o =>
    (o, if s.independent then o else 0))

/-- The current line of an output: lines counted from 0 at the first active line, reckoned at the nominal beat from the
latest blank (R217). -/
def State.currentLine (s : State) (o : Nat) : Nat :=
  let x := s.output o
  let total := totalOf (s.rd (R.PNL_VACT o))
  let n := s.since x.lineBeat * s.fget (R.PNL_PCLK o) F.PNL_PCLK_KHZ / (beatsPerMs * totalOf (s.rd (R.PNL_HACT o)))
  let line := x.lineBase + n
  let blank := activeOf (s.rd (R.PNL_VACT o))
  if x.lineBase < blank then min line (blank - 1)
  else if line < total then line
  else min (line - total) (blank - 1)

/-- PNL_OSTATUS as read: its current line is that of the beat; in LOCKED mode output 0's timing drives both outputs (R216). -/
def State.ostatus (s : State) (o : Nat) : Word :=
  let t := if s.independent then o else 0
  let used := s.independent || decide (o = 0) || nbit (s.fget R.PNL_CFG F.PNL_CFG_OUT_EN) 1
  setField (s.rd (R.PNL_OSTATUS o)) F.PNL_OSTATUS_LINE (if (s.output t).running && used then s.currentLine t else 0)

/-! ### Link training -/

/-- Kbit/s of a lane at a rate code (R211). -/
def laneRate (r : Nat) : Nat := if r = 0 then 1620000 else if r = 1 then 2700000 else if r = 2 then 5400000 else 8100000

/-- Kbit/s that output o's mode needs (R212). -/
def State.modeRate (s : State) (o : Nat) : Nat :=
  let t := if s.independent then o else 0
  s.fget (R.PNL_PCLK t) F.PNL_PCLK_KHZ * 3 * (if s.flag (R.PNL_LINK o) F.PNL_LINK_BPC then 10 else 8)

/-- A combination of rate and lanes offers the bandwidth the mode needs (R212). -/
def State.offers (s : State) (o : Nat) (c : Nat × Nat) : Bool :=
  decide (s.modeRate o * 1000 ≤ c.2 * laneRate c.1 * 776)

/-- The combinations that training tries: the configured rate and each lower one, then the same with half the lanes, and
so on, without those that do not offer the bandwidth (R212). -/
def State.linkCombos (s : State) (o : Nat) : List (Nat × Nat) :=
  let r := s.fget (R.PNL_LINK o) F.PNL_LINK_RATE
  let code := s.fget (R.PNL_LINK o) F.PNL_LINK_LANES
  let lanes := if code = 0 then [1] else if code = 1 then [2, 1] else if code = 2 then [4, 2, 1] else []
  (lanes.foldl (fun xs n => xs ++ (upTo (r + 1)).map (fun i => (r - i, n))) []).filter (fun c => s.offers o c)

/-- Training of an output is over, and with it the command that started it (R7, R229). -/
def State.trainEnd (s : State) (o : Nat) : State :=
  (s.setOutput o { s.output o with training := none }).bitOff R.PNL_CTRL (5 + o)

/-- Training has no combination left: TRAIN_FAIL and its entry (R212). -/
def State.trainFail (s : State) (o : Nat) : State :=
  (s.trainEnd o).event vPNL (9 + o) sevWarning o 0 0

/-- An AUX transaction goes out on output o (R213). A request whose code has bit 0 clear is a write and carries its
bytes. -/
def State.auxSend (s : State) (o : Nat) : State :=
  let c := R.PNL_AUX_CTRL o
  let cmd := s.fget c F.PNL_AUX_CTRL_CMD
  let n := s.fget c F.PNL_AUX_CTRL_LEN + 1
  let data := (upTo 4).foldl (fun bs j => bs ++ leBytes 4 (s.rd (R.PNL_AUX_DATA o j)).toNat) []
  (s.setOutput o { s.output o with auxBusy := true, auxWaits := false }).emit
    (.auxRequest o cmd (s.fget (R.PNL_AUX_ADDR o) F.PNL_AUX_ADDR_ADDR) n (if cmd % 2 = 0 then data.take n else []))

/-- A transaction that waited for training goes out (R213). -/
def State.auxRelease (s : State) (o : Nat) : State :=
  if (s.output o).auxWaits && (s.output o).training.isNone then s.auxSend o else s

/-- Link training of an output starts (R212). -/
def State.train (s : State) (o : Nat) : State :=
  let s1 := s.foff (R.PNL_OSTATUS o) F.PNL_OSTATUS_TRAINED
  match s1.linkCombos o with
  | [] => (s1.trainFail o).auxRelease o
  | cs => s1.setOutput o { s1.output o with training := some cs }

/-! ### Palette -/

/-- An entry of the palette window written: to the pending copy, or after the copy in progress (R219, R220). Entry 4,096
of the window ignores writes. -/
def State.palWrite (s : State) (i v : Nat) : State :=
  if i = 4096 then s
  else if s.pnl.palCopy then { s with pnl := { s.pnl with palWaiting := s.pnl.palWaiting ++ [(i, v % 2 ^ 30)] } }
  else { s with pnl := { s.pnl with palPending := Tab.put (fun _ => 0) s.pnl.palPending i (v % 2 ^ 30) } }

/-- An entry of the palette window read: the pending copy; entry 4,096 reads 0. -/
def State.palRead (s : State) (i : Nat) : Nat :=
  if i = 4096 then 0 else Tab.get (fun _ => 0) s.pnl.palPending i

/-! ### Stores -/

/-- A pixel's number in the scan stores (R218). -/
def pixelNo (store x y : Nat) : Nat := 2 ^ 23 * store + 3840 * y + x

/-- A pixel as stored. -/
def State.pixel (s : State) (store x y : Nat) : Nat := Tab.get (fun _ => 0) s.pnl.stores (pixelNo store x y)

/-- The colour scanned for a pixel (R218, R219): the overlay entry of its code, else the palette entry of its index; one
with an uncorrectable error shows palette entry 0. -/
def State.colour (s : State) (store x y : Nat) : Nat :=
  let v := if s.pnl.badPixels.contains (pixelNo store x y) then 0 else s.pixel store x y
  Tab.get (fun _ => 0) s.pnl.palActive (if v / 4096 = 0 then v % 4096 else 4096 + v / 4096)

/-- A colour component as sent (R219). -/
def sentComponent (tenBit : Bool) (c : Nat) : Nat := if tenBit then c else min (roundConv (c : Int) 2).toNat 255

/-! ### Snapshots -/

/-- The pending registers of the display (R225). -/
def State.snapshot (s : State) : Snapshot :=
  { layers := (upTo 8).map (fun k =>
      ⟨s.rd (R.PNL_LAYER_CFG k), s.rd (R.PNL_LAYER_POS k), s.rd (R.PNL_LAYER_SIZE k),
        s.pair (R.PNL_LAYER_BASE_LO k) (R.PNL_LAYER_BASE_HI k), s.rd (R.PNL_LAYER_STRIDE k)⟩),
    bg := s.rd R.PNL_BG,
    rects := (upTo 4).map (fun i => ⟨s.rd (R.PNL_CRC_RECT0 i), s.rd (R.PNL_CRC_RECT1 i), s.rd (R.PNL_CRC_EXPECT i)⟩) }

/-- Layer k of a snapshot. -/
def Snapshot.layer (x : Snapshot) (k : Nat) : LayerSet := (x.layers[k]?).getD ⟨0#32, 0#32, 0#32, 0, 0#32⟩

/-- The kind of layer k on output o: 0 where the layer belongs to the other output (R221). -/
def State.layerKind (s : State) (x : Snapshot) (o k : Nat) : Nat :=
  let l := x.layer k
  if s.independent && decide (fieldOf l.cfg F.PNL_LAYER_CFG_OUT ≠ o) then 0 else fieldOf l.cfg F.PNL_LAYER_CFG_KIND

/-- The slots of layer k of an output. -/
def OutputSt.slot (x : OutputSt) (k : Nat) : SlotSt := Tab.get (fun _ => ⟨none, none⟩) x.slots k

/-- The slots of layer k replaced. -/
def OutputSt.setSlot (x : OutputSt) (k : Nat) (y : SlotSt) : OutputSt :=
  { x with slots := Tab.put (fun _ => ⟨none, none⟩) x.slots k y }

/-- Cells of the plane that a layer shows: C and Y. -/
def State.layerPlane (s : State) (l : LayerSet) : Nat × Nat :=
  let p := fieldOf l.cfg F.PNL_LAYER_CFG_PLANE
  (s.planeCols p, s.planeRows p)

/-- HBM bytes at an address; outside the HBM range, in a hole and in a lost unit the layer's pixel is open. -/
def State.word16At (s : State) (addr : Nat) : Nat :=
  match hbmOffset addr with
  | some off => if (s.hbmUnit off).isNone || s.unitLost off then s.free % 65536 else leNat (s.hbmLook off 2)
  | none => s.free % 65536

/-- Reads or writes of n bytes in each of some rows of an image reach the Bobbin: its stacks (R186), and at the first place that meets a hole
or, in a read, a lost unit, its entry (R166, R180, R181; log entry 212). -/
def State.imageReach (s : State) (reads : Bool) (rows : List (Nat × Nat)) : State :=
  let inside := rows.filter (fun e => (hbmOffset e.1).isSome)
  let s1 := inside.foldl (fun x e => x.hbmTouch (e.1 - 0x4000000000) e.2) s
  let s2 := match inside.find? (fun e => decide (s.reach e.1 e.2 < e.2)) with
    | some e => s1.holeAccess (e.1 - 0x4000000000 + s.reach e.1 e.2)
    | none => s1
  match inside.find? (fun e => reads && (s.lostAfter (e.1 - 0x4000000000) e.2).isSome) with
  | some e => s2.badBurstAt (e.1 - 0x4000000000 + (s.lostAfter (e.1 - 0x4000000000) e.2).getD 0) 3 3
  | none => s2

/-- The swept indices of plane p go to a slot of every PLANE layer that shows it: the first slot that is not read and
does not hold the newest complete image (R223). -/
def State.displaySwept (s : State) (p : Nat) : State :=
  (upTo 2).foldl (fun x o => (upTo 8).foldl (fun y k =>
    let out := y.output o
    let l := out.snap.layer k
    if out.running && decide (y.layerKind out.snap o k = 2)
        && decide (fieldOf l.cfg F.PNL_LAYER_CFG_PLANE = p) then
      let sl := out.slot k
      match (upTo 3).find? (fun i => decide (sl.newest ≠ some i) && decide (sl.reading ≠ some i)) with
      | some i =>
        let bytes := (y.planeCells p).foldl (fun bs c => bs ++ leBytes 2 (Tab.get (fun _ => 0) (y.plane p).image c)) []
        let addr := l.base / 2 * 2 + i * (y.planeCols p * y.planeRows p * 2)
        let y1 := match hbmOffset addr with
          | some off => (y.hbmFill off bytes).imageReach false [(addr, bytes.length)]
          | none => y
        y1.setOutput o (out.setSlot k { sl with newest := some i })
      | none => y
    else y) x) s

/-! ### Composition -/

/-- The pixel that layer k gives at a place of output o's area, none where it does not cover it or is transparent
(R221, R222). -/
def State.layerPixel (s : State) (out : OutputSt) (o k x y : Nat) : Option Nat :=
  let l := out.snap.layer k
  let kind := s.layerKind out.snap o k
  let px := fieldOf l.pos F.PNL_LAYER_POS_X
  let py := fieldOf l.pos F.PNL_LAYER_POS_Y
  let sx := fieldOf l.cfg F.PNL_LAYER_CFG_SX + 1
  let sy := fieldOf l.cfg F.PNL_LAYER_CFG_SY + 1
  let (c, r) := s.layerPlane l
  let w := if kind = 2 then c * sx else fieldOf l.size F.PNL_LAYER_SIZE_W
  let h := if kind = 2 then r * sy else fieldOf l.size F.PNL_LAYER_SIZE_H
  let key := fieldOf l.cfg F.PNL_LAYER_CFG_KEY = 1
  if kind = 0 ∨ x < px ∨ px + w ≤ x ∨ y < py ∨ py + h ≤ y then none
  else if kind = 1 then
    let v := s.word16At (l.base / 2 * 2 + (y - py) * l.stride.toNat + (x - px) * 2)
    if key ∧ v = 0 then none else some v
  else if kind = 3 then
    let v := l.stride.toNat % 65536
    if key ∧ v = 0 then none else some v
  else
    match (out.slot k).reading with
    | none => none
    | some i =>
      let v := s.word16At (l.base / 2 * 2 + i * (c * r * 2) + ((h - 1 - (y - py)) / sy * c + (x - px) / sx) * 2) % 4096
      if key ∧ v = 0 then none else some (v + 4096 * fieldOf l.cfg F.PNL_LAYER_CFG_OVL)

/-- The rows of HBM that composing layer k of output o reads: address and bytes, clipped to the output's area (R221, R223, R224). -/
def State.layerRows (s : State) (out : OutputSt) (o k : Nat) : List (Nat × Nat) :=
  let l := out.snap.layer k
  let kind := s.layerKind out.snap o k
  let base := l.base / 2 * 2
  let area := if s.independent then 1920 else 3840
  let w := min (fieldOf l.size F.PNL_LAYER_SIZE_W) (area - fieldOf l.pos F.PNL_LAYER_POS_X)
  let h := min (fieldOf l.size F.PNL_LAYER_SIZE_H) (1200 - fieldOf l.pos F.PNL_LAYER_POS_Y)
  let (c, r) := s.layerPlane l
  if kind = 1 ∧ w ≠ 0 then (upTo h).map (fun y => (base + y * l.stride.toNat, 2 * w))
  else if kind = 2 ∧ c * r ≠ 0 then
    (match (out.slot k).reading with
    | some i => [(base + i * (c * r * 2), c * r * 2)]
    | none => [])
  else []

/-- Composing a frame of output o reads its layers from HBM (R224). -/
def State.layersReach (s : State) (o : Nat) : State :=
  let out := s.output o
  (upTo 8).foldl (fun x k => x.imageReach true (x.layerRows out o k)) s

/-- The composed pixel: the highest layer that gives one, else the background (R222). -/
def State.composedPixel (s : State) (out : OutputSt) (o x y : Nat) : Nat :=
  ((upTo 8).foldl (fun best k => match s.layerPixel out o k x y with
    | some v => some v
    | none => best) none).getD (out.snap.bg.toNat % 65536)

/-- Width of the area that output o composes, and its first column in the store (R216, R218). -/
def State.outputArea (s : State) (o : Nat) : Nat × Nat := if s.independent then (1920, 1920 * o) else (3840, 0)

/-- The frame of output o written to the back store (R218, R222). -/
def State.composeFrame (s : State) (o : Nat) : State :=
  let out := s.output o
  let (width, left) := s.outputArea o
  let back := 1 - out.front
  let stores := (upTo 1200).foldl (fun t y => (upTo width).foldl (fun u x =>
    Tab.put (fun _ => 0) u (pixelNo back (left + x) y) (s.composedPixel out o x y)) t) s.pnl.stores
  let bad := s.pnl.badPixels.filter (fun n =>
    !(decide (n / 2 ^ 23 = back) && decide (left ≤ n % 2 ^ 23 % 3840) && decide (n % 2 ^ 23 % 3840 < left + width)))
  { s with pnl := { s.pnl with stores := stores, badPixels := bad } }

/-- Composition of the next frame of output o begins: its PLANE layers read their newest complete images (R223,
R226). -/
def State.composeBegin (s : State) (o : Nat) : State :=
  let out := s.output o
  let out1 := (upTo 8).foldl (fun (x : OutputSt) k =>
    let sl := x.slot k
    x.setSlot k { sl with reading := sl.newest }) out
  s.setOutput o { out1 with composing := ((s.rd (R.PNL_FRAME o)).toNat + 1) % 2 ^ 32, composed := false }

/-! ### Rectangle checks -/

/-- The CRC of a rectangle over the stored pixels of the frame that flips (R228). -/
def State.rectCrc (s : State) (o : Nat) (r : RectSet) : Nat :=
  let (width, left) := s.outputArea o
  let front := (s.output o).front
  let x0 := fieldOf r.corner0 F.PNL_CRC_RECT0_X0
  let y0 := fieldOf r.corner0 F.PNL_CRC_RECT0_Y0
  let x1 := min (fieldOf r.corner1 F.PNL_CRC_RECT1_X1) (width - 1)
  let y1 := min (fieldOf r.corner1 F.PNL_CRC_RECT1_Y1) 1199
  (crc32 ((upTo (y1 + 1 - y0)).foldl (fun bs j => (upTo (x1 + 1 - x0)).foldl (fun cs i =>
    cs ++ leBytes 2 (s.pixel front (left + x0 + i) (y0 + j))) bs) [])).toNat

/-- Rectangle i at the flip of a frame: its value loaded, and a mismatch reported (R228). -/
def State.rectCheck (s : State) (o i : Nat) : State :=
  match ((s.output o).snap.rects)[i]? with
  | none => s
  | some r =>
    if fieldOf r.corner1 F.PNL_CRC_RECT1_X1 < fieldOf r.corner0 F.PNL_CRC_RECT0_X0
        ∨ (s.independent = true ∧ fieldOf r.corner0 F.PNL_CRC_RECT0_OUT ≠ o) then s
    else
      let v := s.rectCrc o r
      let s1 := s.wr (R.PNL_CRC_VALUE i) (w32 v)
      if fieldOf r.corner0 F.PNL_CRC_RECT0_CHECK = 1 ∧ v ≠ r.expected.toNat then
        s1.event vPNL 13 sevWarning i 0 0
      else s1

/-! ### Commits and flips -/

/-- COMMIT_PENDING of output o. -/
def pendingField (o : Nat) : Fld := if o = 0 then F.PNL_STATUS_COMMIT_PENDING else F.PNL_STATUS_COMMIT_PENDING1

/-- A commit for output o takes effect (R225). -/
def State.commitFor (s : State) (o : Nat) : State :=
  let out := s.output o
  let line := s.currentLine o
  let blank := activeOf (s.rd (R.PNL_VACT o))
  let late := out.running && decide (blank ≤ line + 2) && decide (line < blank)
  let s1 := if out.commit.isSome then (s.count R.PNL_COMMIT_REPL_CNT 1).raise vPNL 4 else s
  (s1.setOutput o { out with commit := some ⟨s.snapshot, decide (s.pnl.palAt = some s.beats), s.beats, late⟩ }).fon
    R.PNL_STATUS (pendingField o)

/-- PAL of the commits taken in this beat (R220). -/
def State.commitPal (s : State) : State :=
  let s1 := { s with pnl := { s.pnl with palAt := some s.beats } }
  (upTo 2).foldl (fun x o =>
    let out := x.output o
    match out.commit with
    | some c => if c.at_ = x.beats then x.setOutput o { out with commit := some { c with pal := true } } else x
    | none => x) s1

/-- What a latch leaves of layer k: RETIRE where its BASE or KIND changes or it is taken from the output, and its slots where they change
(R223, R227). -/
def State.latchLayer (s : State) (o k : Nat) (old new : Snapshot) : State :=
  let a := old.layer k
  let b := new.layer k
  let ka := s.layerKind old o k
  let kb := s.layerKind new o k
  let mine (l : LayerSet) : Bool := !s.independent || decide (fieldOf l.cfg F.PNL_LAYER_CFG_OUT = o)
  let moved := decide (a.base ≠ b.base) || decide (fieldOf a.cfg F.PNL_LAYER_CFG_KIND ≠ fieldOf b.cfg F.PNL_LAYER_CFG_KIND)
    || decide (ka ≠ kb)
  let s1 := if (mine a || mine b) && moved then s.wr (R.PNL_LAYER_RETIRE k) (s.rd (R.PNL_FRAME o)) else s
  if kb = 2 ∧ (ka ≠ 2 ∨ a.base ≠ b.base ∨ fieldOf a.cfg F.PNL_LAYER_CFG_PLANE ≠ fieldOf b.cfg F.PNL_LAYER_CFG_PLANE) then
    s1.setOutput o ((s1.output o).setSlot k ⟨none, none⟩)
  else s1

/-- The pending commit of output o is latched (R226 item 2, R227). -/
def State.latch (s : State) (o : Nat) (c : PendCommit) : State :=
  let old := (s.output o).snap
  let s1 := (upTo 8).foldl (fun x k => x.latchLayer o k old c.snap) s
  (s1.setOutput o { s1.output o with snap := c.snap, snapPal := c.pal, commit := none }).foff R.PNL_STATUS (pendingField o)

/-- The flip record (R226, R282). -/
def State.flipRecord (s : State) (o : Nat) (latched copied : Bool) : State :=
  if s.flag R.PNL_CFG F.PNL_CFG_FLIP_REC then
    let b (x : Bool) (v : Nat) : Nat := if x then v else 0
    let th := leBytes 1 o ++ leBytes 1 (b latched 1 + b copied 2 + b (!s.independent) 4) ++ leBytes 2 0
      ++ leBytes 4 (s.rd (R.PNL_FRAME o)).toNat ++ leBytes 8 s.wt ++ leBytes 4 (s.rd (R.PNL_LATE_CNT o)).toNat
      ++ leBytes 4 0
    s.pushRecord
      { rtype := rtFlip, stream := s.fget R.PNL_CFG F.PNL_CFG_STREAM, source := o, flags := 0,
        content := fun _ => 0, t := (s.wt : Int) * 256 + s.nowFrac, endAt := fun _ => (s.wt : Int) * 256 + s.nowFrac,
        rate := 0, close := clNormal, thLen := 24 } th
  else s

/-- The flip of output o: the back store becomes the front; its number, time, checks, latch, record, and the next
composition (R220, R226 to R228). -/
def State.flip (s : State) (o : Nat) : State :=
  let out := s.output o
  let s1 := ((s.setOutput o { out with front := 1 - out.front, snapPal := false }).wr (R.PNL_FRAME o)
    (w32 out.composing)).setPair (R.PNL_FLIP_WT_LO o) (R.PNL_FLIP_WT_HI o) s.wt
  let s2 := (upTo 4).foldl (fun x i => x.rectCheck o i) (s1.raise vPNL o)
  let s3 := if out.snapPal then { s2 with pnl := { s2.pnl with palCopy := true } } else s2
  let ready := match out.commit with
    | some c => !c.late
    | none => false
  let s4 := match out.commit with
    | some c => if c.late then s3 else s3.latch o c
    | none => s3
  (s4.flipRecord o ready out.snapPal).composeBegin o

/-- A commit taken at or after the deadline is in time for the next blank (R225). -/
def State.commitAges (s : State) (o : Nat) : State :=
  let out := s.output o
  s.setOutput o { out with commit := out.commit.map (fun c => { c with late := false }) }

/-- The planes whose frames follow the blank of output o (R199, R217). -/
def State.planesBlank (s : State) (o : Nat) : State :=
  (upTo 16).foldl (fun x p =>
    let src := x.fget (R.TAP_PL_CFG p) F.TAP_PL_CFG_FSRC
    if x.runState = rsRunning ∧ x.planeOn p = true ∧ (src = 1 + o ∨ (x.independent = false ∧ (src = 1 ∨ src = 2))) then
      x.planeBoundary p
    else x) s

/-- Output o stops: its main link idles and its composition ends. -/
def State.outputStop (s : State) (o : Nat) : State :=
  let s1 := s.setOutput o { s.output o with running := false, stopAsked := false, composed := false }
  if (upTo 2).any (fun i => (s1.output i).running) then s1
  else (s1.foff R.PNL_STATUS F.PNL_STATUS_ENABLE).bitOff R.PNL_CTRL 1

end Sys2Proof.Machine
end

