-- ==== Sys2Proof/Machine/Tapestry.lean ====
section
/-!
DEFINITION. The commands of the Tapestry (R192 to R210).
-/

namespace Sys2Proof.Machine

/-- FRAME_PERIOD: a PERIOD boundary of a plane with FSRC 0 (R199). -/
def execFramePeriod (plane : Fin 16) (s : State) : Result :=
  let p := plane.val
  .next (
    if s.runState = rsRunning ∧ s.planeOn p = true ∧ s.fget (R.TAP_PL_CFG p) F.TAP_PL_CFG_FSRC = 0
        ∧ (s.plane p).nextBoundary ≤ s.beats then
      (s.setPlane p { s.plane p with
        nextBoundary := (s.plane p).nextBoundary + (s.rd (R.TAP_PL_PERIOD p)).toNat }).planeBoundary p
    else s)

/-- TAP_FRAME: a boundary for each plane with FSRC 3 whose bit is written as 1 (R199). -/
def execTapFrame (value : BitVec 16) (s : State) : Result :=
  .next ((upTo 16).foldl (fun x p =>
    if value.getLsbD p ∧ x.runState = rsRunning ∧ x.planeOn p = true ∧ x.fget (R.TAP_PL_CFG p) F.TAP_PL_CFG_FSRC = 3 then
      x.planeBoundary p
    else x) s)

/-- TAP_CLEAR: each plane whose bit is written as 1 clears at its first close at or after its next boundary (R204). -/
def execTapClear (value : BitVec 16) (s : State) : Result :=
  .next ((upTo 16).foldl (fun x p =>
    if value.getLsbD p then
      ((x.setPlane p { x.plane p with clearAsked := true }).fon (R.TAP_PL_STATUS p) F.TAP_PL_STATUS_CLEAR_PENDING).bitOn
        R.TAP_CTRL (16 + p)
    else x) s)

/-- Every sample of channel c taken before run stop has gone through its conditioner and its capture tap (R22, R82). -/
def State.chanDone (s : State) (c : Nat) : Bool :=
  let x := s.cch c
  x.store.all (fun y => decide ((s.run.stopBeat : Int) ≤ s.takenAt y.stamp / 256))
    && x.capture.all (fun w => decide ((s.run.stopBeat : Int) ≤ w.samp.taken / 256))

/-- Every spectrum of the run has left the Reeds of channel c. -/
def State.streamDone (s : State) (c : Nat) : Bool :=
  !s.flag (spcCfg c) F.SPC_CH_CFG_EN || (s.runState == rsStopping && (s.strm c).pend.isEmpty)

/-- FRAME_CLOSE: the increments of a frame that a boundary ended are absorbed, the banks change roles, the plane's registers
are loaded and the sweep begins. In STOPPING the last frame ends, at run stop's boundary, once every spectrum of the run
has been taken (R200, R203, R205). -/
def execFrameClose (plane : Fin 16) (s : State) : Result :=
  let p := plane.val
  let x := s.plane p
  .next (
    match x.closing with
    | some cf => if x.frameAbsorbed cf.cnt.number then s.planeClose p cf else s
    | none =>
      match x.stopped, x.frame with
      | some cf, some f =>
        if x.sweep = none ∧ x.queue = [] ∧ x.forming = [] ∧ (upTo 192).all (fun c => !s.planeTakes p c || s.streamDone c) then
          let last := { cf with cnt := f }
          (s.planeEnd p last).planeClose p last
        else s
      | _, _ => s)

/-- SWEEP_DONE: every cell of a closed frame has been swept; its image is complete and its record ends, once its path takes the
last words (R200 to R202, R208). -/
def execSweepDone (plane : Fin 16) (s : State) : Result :=
  let p := plane.val
  .next (
    match (s.plane p).sweep with
    | some w => if s.planeCols p * s.planeRows p ≤ w.next ∧ s.planeStalls p w = false then (s.planeSwept p w).displaySwept p else s
    | none => s)

/-- Every enabled plane has finished zeroing: TAP_STATUS.READY (R205). -/
def State.tapReady (s : State) : State :=
  s.fset R.TAP_STATUS F.TAP_STATUS_READY
    (if (upTo 16).all (fun p => !s.planeOn p || (s.plane p).zeroUntil.isNone) then 1 else 0)

/-- PLANE_ZERO_DONE: both banks of a plane are zero, and the plane is ready (R205). -/
def execPlaneZeroDone (plane : Fin 16) (s : State) : Result :=
  let p := plane.val
  .next (
    match (s.plane p).zeroUntil with
    | some _ => (s.setPlane p { s.plane p with acc := [], other := [], zeroUntil := none, carryTaint := false }).tapReady
    | none => s)

end Sys2Proof.Machine
end

