-- ==== Sys2Proof/Machine/Records.lean ====
section
/-!
DEFINITION. The commands of the record builder (R278 to R285).
-/

namespace Sys2Proof.Machine

/-- The stream side of a shed record is begun: it waits for its turn, at which it takes its sequence number, and from which the builder
reads for it (R270, R278, R288). -/
def State.waveBegin (s : State) (w : WaveRec) : State := (s.waveAsk w).buildWaves

/-- A shed record that waits to be opened: 1,024 beats have passed since its firing, and its Shuttle parts have ended
(R252, R255, R278). -/
def WaveRec.mayOpen (w : WaveRec) (k beats : Nat) : Bool :=
  decide (w.shed = k) && w.seq.isNone && decide (w.fired + 1024 ≤ beats) && w.partsLeft.isEmpty && !w.vetoed

/-- WAVEFORM_OPEN: the oldest record of the shed that may be opened, and does not wait for its turn already, is begun (R270, R278). -/
def execWaveformOpen (shed : Fin 64) (s : State) : Host.Outcome State Fault Refusal :=
  .next (
    match s.recs.waves.find? (fun w => w.mayOpen shed.val s.beats && !s.waveWaits w) with
    | some w => s.waveBegin w
    | none => s)

/-! ### SPECTRUM records -/

/-- The open SPECTRUM records of channel c, oldest first. -/
def State.specRecs (s : State) (c : Nat) : List SpecRec := Tab.get (fun _ => []) s.recs.specs c

/-- The open SPECTRUM records of channel c replaced. -/
def State.setSpecRecs (s : State) (c : Nat) (xs : List SpecRec) : State :=
  { s with recs := { s.recs with specs := Tab.put (fun _ => []) s.recs.specs c xs } }

/-- The oldest open SPECTRUM record of a channel closes. -/
def State.specCloseOldest (s : State) (c close : Nat) : State :=
  match s.specRecs c with
  | [] => s
  | r :: rest => (s.setSpecRecs c rest).specClose c close r

/-- A channel's oldest SPECTRUM record has had 512 beats since the last bin of its newest spectrum (R281). -/
def State.specSettled (s : State) (c : Nat) : Bool :=
  match s.specRecs c with
  | [] => false
  | r :: _ => decide (r.newest + 512 ≤ s.beats)

/-- SPECTRUM_RECORD_TIMEOUT: the oldest spectrum of a record has waited 1,048,576 beats (R281). -/
def execSpectrumRecordTimeout (channel : Fin 192) (s : State) : Host.Outcome State Fault Refusal :=
  let c := channel.val
  .next (
    match s.specRecs c with
    | [] => s
    | r :: _ =>
      if r.oldest + 1048576 ≤ s.beats ∧ s.specSettled c = true then s.specCloseOldest c clHold else s)

/-- SPECTRUM_RECORD_CLOSE: a full record closes, and in STOPPING every record does, 512 beats after its newest spectrum
(R281). -/
def execSpectrumRecordClose (channel : Fin 192) (s : State) : Host.Outcome State Fault Refusal :=
  let c := channel.val
  .next (
    match s.specRecs c with
    | [] => s
    | r :: _ =>
      if s.specSettled c = false then s
      else if s.fget (R.QUL_CH_CFG (c / 8) (c % 8)) F.QUL_CH_CFG_SPEC_BATCH + 1 ≤ r.items.length then
        s.specCloseOldest c clNormal
      else if s.runState = rsStopping ∧ s.streamDone c = true then s.specCloseOldest c clStopped
      else s)

/-! ### Side records -/

/-- A side source, or one Hoofbeat input of source 3, may take an entry: EN is 1 in the settings in force (R283), and no record would
follow its stream's run-end marker in the run, but the MANIFEST record (R284, R423). -/
def State.sideOpen (s : State) (i unit : Nat) : Bool :=
  let x := s.side (sideKey i unit)
  let cfg := if x.gathered.isEmpty then s.rd (R.REC_SIDE_CFG i) else x.cfg
  fieldOf cfg F.REC_SIDE_CFG_EN == 1 && (decide (i = 4) || !s.streamEnded (fieldOf cfg F.REC_SIDE_CFG_STREAM))

/-- A stamp taken in a brownout of its bank that is popped while it lasts is noted: the first and the last such stamp, and their
number (R358, R460). -/
def State.noteSuspect (s : State) (input wt taken : Nat) : State :=
  let b := input / 8
  if (Tab.get (fun _ => none) s.pwr.vio b).any (fun t => decide (t.2 ≤ taken)) then
    let x := Tab.get (fun _ => (0, 0, 0)) s.pwr.suspects b
    { s with pwr := { s.pwr with
        suspects := Tab.put (fun _ => (0, 0, 0)) s.pwr.suspects b (if x.2.2 = 0 then wt else x.1, wt, x.2.2 + 1) } }
  else s

/-- An entry was popped of the Quill with a key, which held len: an entry that found it full in this cycle takes the slot; a stamp that
does clears DROP_BEFORE (R287, R357). -/
def State.sidePopped (s : State) (key len : Nat) : State :=
  let r := s.turnPop (qnSide key) len
  match r.2 with
  | some (.entry e) =>
    let x := r.1.side key
    let s1 := r.1.setSide key { x with quill := x.quill ++ [e] }
    if 8 ≤ key then s1.setHfbIn (key - 8) { s1.hfbIn (key - 8) with dropBefore := false } else s1
  | _ => r.1

/-- SIDE_ENTRY: the oldest entry of a side Quill, or of a stamp Quill, joins the record of its source; a word whose parity
fails comes with poison (R283, R286). -/
def execSideEntry (source : Fin 5) (unit : Fin 32) (parity : Bool) (s : State) : Host.Outcome State Fault Refusal :=
  let i := source.val
  let key := sideKey i unit.val
  let x := s.side key
  .next (
    match x.quill with
    | [] => s
    | e :: rest =>
      if s.sideOpen i unit.val && s.popValid (qnSide key) x.quill.length then
        let s1 := (s.setSide key { x with quill := rest, memErr := if parity then some (x.memErr.getD x.gathered.length) else x.memErr }).sidePopped key x.quill.length
        let s2 := if parity then s1.event vREC 0 sevError key 0 0 else s1
        let s3 := if i = 3 then s2.noteSuspect unit.val e.wt e.taken else s2
        s3.sideGather i unit.val e
      else s)

/-- SIDE_RECORD_HOLD: the oldest entry of an open side record has waited HOLD × 1,024 beats (R283). -/
def execSideRecordHold (source : Fin 5) (unit : Fin 32) (s : State) : Host.Outcome State Fault Refusal :=
  let i := source.val
  let x := s.side (sideKey i unit.val)
  .next (
    if x.gathered.isEmpty = false ∧ x.since + 1024 * max 1 (fieldOf x.cfg F.REC_SIDE_CFG_HOLD) ≤ s.beats then
      s.sideClose i unit.val clHold
    else s)

/-! ### RUN_END -/

/-- The channels whose raw records or sheds put their samples on stream k. -/
def State.rawChans (s : State) (k : Nat) : List Nat :=
  (upTo 192).filter (fun c =>
    s.flag (R.QUL_CH_CFG (c / 8) (c % 8)) F.QUL_CH_CFG_RAW_EN && !s.gangHigh c
      && s.fget (R.QUL_CH_CFG (c / 8) (c % 8)) F.QUL_CH_CFG_RAW_STREAM == k)

/-- The channels whose spectra go out on stream k. -/
def State.specChans (s : State) (k : Nat) : List Nat :=
  (upTo 192).filter (fun c => s.flag (spcCfg c) F.SPC_CH_CFG_EN
    && s.fget (spcCfg c) F.SPC_CH_CFG_OUT_FMT != 0 && s.specStream c == k)

/-- The planes that name stream k. -/
def State.recPlanes (s : State) (k : Nat) : List Nat :=
  (upTo 16).filter (fun p => s.planeOn p && s.fget (R.TAP_PL_CFG p) F.TAP_PL_CFG_STREAM == k)

/-- The plane emits records: EVERY is not 0 (R208). -/
def State.planeRecs (s : State) (p : Nat) : Bool := fieldOf (s.rd (R.TAP_PL_PERSIST p)) F.TAP_PL_PERSIST_EVERY != 0

/-- The sheds that cut some channel and put records on stream k. -/
def State.recSheds (s : State) (k : Nat) : List Nat :=
  (upTo 64).filter (fun d => !(s.shedChans d).isEmpty && s.fget (R.TRD_SHED_CFG d) F.TRD_SHED_CFG_STREAM == k)

/-- The side sources that put records on stream k: source and input. -/
def State.recSides (s : State) (k : Nat) : List (Nat × Nat) :=
  ([0, 1, 2, 4].map (fun i => (i, 0)) ++ (upTo 32).map (fun u => (3, u))).filter (fun p =>
    s.flag (R.REC_SIDE_CFG p.1) F.REC_SIDE_CFG_EN && s.fget (R.REC_SIDE_CFG p.1) F.REC_SIDE_CFG_STREAM == k
      && (p.1 != 3 || (s.flag (R.HFB_IN_CFG p.2) F.HFB_IN_CFG_EN && s.flag (R.HFB_IN_CFG p.2) F.HFB_IN_CFG_REC)))

/-- The producing units of stream k as it is configured: source number and record type (R269, R284). -/
def State.producers (s : State) (k : Nat) : List (Nat × Nat) :=
  (s.recSheds k).map (fun d => (d, rtWaveform)) ++ (s.rawChans k).map (fun c => (c, rtRaw))
    ++ (s.specChans k).map (fun c => (c, rtSpectrum)) ++ ((s.recPlanes k).filter s.planeRecs).map (fun p => (p, rtDensity))
    ++ (if s.flag R.PNL_CFG F.PNL_CFG_FLIP_REC && s.fget R.PNL_CFG F.PNL_CFG_STREAM == k then
          ((upTo 2).filter (fun o => (s.rd R.PNL_CFG).getLsbD (1 + o))).map (fun o => (o, rtFlip)) else [])
    ++ (s.recSides k).map (fun p => (if p.1 = 3 then p.2 else 0, sideType p.1))

/-- The run-end entries of stream k: its producing units, then the others that completed something (R284); that of a spectral stream holds the last
sample of its last complete window (R105). -/
def State.runEnds (s : State) (k : Nat) : List UnitEnd :=
  let ends := (s.stream k).ends
  let known := s.producers k
  let fixed := known.map (fun p =>
    match ends.find? (fun e => decide (e.source = p.1) && decide (e.rtype = p.2)) with
    | some e => e
    | none => ⟨p.1, p.2, 2 ^ 64 - 1, 0⟩)
  let all := fixed ++ ends.filter (fun e => !known.contains (e.source, e.rtype))
  all.map (fun e =>
    match (s.strm e.source).endStamp with
    | some t => if e.rtype = rtSpectrum then { e with wt := unsigned 64 (t / 256), frac := (t % 256).toNat } else e
    | none => e)

/-- The 16 bytes of a run-end entry (R284). -/
def UnitEnd.bytes (e : UnitEnd) : List Byte :=
  leBytes 2 e.source ++ leBytes 1 e.frac ++ leBytes 1 e.rtype ++ leBytes 4 0 ++ leBytes 8 e.wt

/-- The body of the RUN_END record of stream k (R284). -/
def State.runEndBody (s : State) (k : Nat) : List Byte :=
  let q := s.stream k
  let es := s.runEnds k
  es.foldl (fun b e => b ++ e.bytes) [] ++ leBytes 8 q.sent ++ leBytes 4 q.vetoed ++ leBytes 4 q.discStop
    ++ leBytes 4 q.discAbort ++ leBytes 4 q.sideRefused ++ leBytes 1 (s.fget R.GLB_RUN F.GLB_RUN_STOP_REASON)
    ++ leBytes 3 0 ++ leBytes 4 es.length

/-- Side source i, or one input of source 3, has still entries for records on stream k: those it gathers under the settings in force, and those of
its Quill that the next record takes under the settings that are written (R283, R284). -/
def State.sideBusy (s : State) (k i unit : Nat) : Bool :=
  let x := s.side (sideKey i unit)
  let names (cfg : Word) : Bool := fieldOf cfg F.REC_SIDE_CFG_EN == 1 && fieldOf cfg F.REC_SIDE_CFG_STREAM == k
  (!x.gathered.isEmpty && names x.cfg) || (!x.quill.isEmpty && names (s.rd (R.REC_SIDE_CFG i)))

/-- Every record of the run on stream k has been pushed or discarded (R284). -/
def State.streamIdle (s : State) (k : Nat) : Bool :=
  (s.recs.waves.all (fun w => decide (w.stream ≠ k)))
    && (s.rawChans k).all (fun c => s.chanDone c && (Tab.get (fun _ => none) s.recs.raws c).isNone
      && decide ((s.ring c).done ≤ Tab.get (fun _ => 0) s.recs.rawNext c))
    && (s.specChans k).all (fun c => s.streamDone c && (s.specRecs c).isEmpty)
    && (s.recPlanes k).all (fun p => (s.plane p).closing.isNone && (s.plane p).sweep.isNone && (s.plane p).stopped.isNone)
    && ([0, 1, 2, 4].map (fun i => (i, 0)) ++ (upTo 32).map (fun u => (3, u))).all (fun p => !s.sideBusy k p.1 p.2)
    && (match s.recs.user with
      | some u => decide (u.stream ≠ k)
      | none => true)
    && (s.quill (s.quillOf k)).waiting.all (fun w => decide (w.stream ≠ k))

/-- The channels whose last sample of the run has gone through the conditioner are drained (R22, R169). -/
def State.drainAll (s : State) : State :=
  (upTo 192).foldl (fun x c =>
    if x.ringOn c && x.chanDone c && x.flag (R.BOB_RING_STATUS c) F.BOB_RING_STATUS_ACTIVE then (x.chanDrain c).buildRaw c else x) s

/-- The RUN_END record of stream k is pushed; RUN_END_DONE once every enabled stream has sent its own (R284). -/
def State.runEndPush (s : State) (k : Nat) : State :=
  let seq := (s.stream k).seq
  let t : Int := (s.run.stopWt : Int) * 256
  let body := s.runEndBody k
  let keep := (s.stream k).ends
  let s1 := s.pushRecord
    { rtype := rtRunEnd, stream := k, source := 0xFFFF, flags := 0, content := fun _ => 0, t := t,
      endAt := fun _ => t, rate := 0, close := clNormal, thLen := 32 } body
  let s2 := s1.setStream k { s1.stream k with runEnd := true, runEndSeq := seq, ends := keep }
  if (upTo 256).all (fun j => !s2.streamOn j || (s2.stream j).runEnd) then s2.raise vREC 3 else s2

/-- RUN_END_EMIT: in STOPPING, once every other record of the run on the stream has been pushed or discarded, its RUN_END
record is (R284). -/
def execRunEndEmit (stream : Fin 256) (s : State) : Host.Outcome State Fault Refusal :=
  let k := stream.val
  .next (
    if s.runState = rsStopping ∧ s.streamOn k = true ∧ (s.stream k).runEnd = false then
      let s1 := s.drainAll
      if s1.streamIdle k then s1.runEndPush k else s1
    else s)

/-! ### USER records -/

/-- USER_GO: the USER command of the registers begins; while one is under way GO has no effect. A LEN outside 1 to 65,536 has
no stated length (R285). -/
def execUserGo (s : State) : Host.Outcome State Fault Refusal :=
  .next (
    if s.flag R.REC_USER_CTRL F.REC_USER_CTRL_GO then s.again R.REC_USER_CTRL 8
    else
      let n := fieldOf (s.rd R.REC_USER_LEN) ⟨0, 17⟩
      let ok := decide (1 ≤ n) && decide (n ≤ 65536)
      let u : UserCopy := ⟨s.wt, s.nowFrac, s.fget R.REC_USER_CTRL F.REC_USER_CTRL_STREAM,
        s.fget R.REC_USER_CTRL F.REC_USER_CTRL_SOURCE, s.pair R.REC_USER_ADDR_LO R.REC_USER_ADDR_HI,
        if ok then n else 1 + s.free % 65536, (s.rd R.REC_USER_TAG).toNat⟩
      let s1 := (if ok then s else s.took).fon R.REC_USER_CTRL F.REC_USER_CTRL_GO
      { s1 with recs := { s1.recs with user := some u } })

/-- The HBM offset of a range of n bytes that lies in HBM and in no hole (R166). -/
def State.hbmRange (s : State) (addr n : Nat) : Option Nat :=
  match hbmOffset addr with
  | none => none
  | some off =>
    if off + n ≤ hbmBytes ∧ (upTo ((off % 256 + n + 255) / 256)).all (fun i => (s.hbmUnit (off / 256 * 256 + 256 * i)).isSome) = true
    then some off else none

/-- Each 16-bit word of the uncorrectable bursts of a payload replaced by 0x0001 (R180); off is the payload's HBM offset. -/
def spoilBursts (off : Nat) (bad : List Nat) (data : List Byte) : List Byte :=
  (upTo data.length).map (fun i =>
    if bad.contains ((off + i) / 32 - off / 32) then (if (off + i) % 2 = 0 then 0x01#8 else 0x00#8) else data.getD i 0#8)

/-- USER_COPY_DONE: the copy ends; RESULT shows how, and the record is sent where nothing was wrong (R285). -/
def execUserCopyDone (bad : List Nat) (s : State) : Host.Outcome State Fault Refusal :=
  .next (
    match s.recs.user with
    | none => s
    | some u =>
      let s1 := (State.foff { s with recs := { s.recs with user := none } } R.REC_USER_CTRL F.REC_USER_CTRL_GO)
      if s1.streamOn u.stream = false then (s1.fset R.REC_USER_CTRL F.REC_USER_CTRL_RESULT 1).raise vREC 2
      else
        match s1.hbmRange u.addr u.len with
        | none =>
          let s2 := match hbmOffset u.addr with
            | some off => if off + s1.reach u.addr u.len < hbmBytes then s1.holeAccess (off + s1.reach u.addr u.len) else s1
            | none => s1
          (s2.fset R.REC_USER_CTRL F.REC_USER_CTRL_RESULT 2).raise vREC 2
        | some off =>
          let lost := (upTo ((off % 32 + u.len + 31) / 32)).filter (fun i => s1.unitLost (off / 32 * 32 + 32 * i))
          let data := spoilBursts off (bad ++ lost) (s1.hbmLook off u.len)
          let s1b := lost.foldl (fun x i => x.badBurstAt (off / 32 * 32 + 32 * i) 2 3)
            (bad.foldl (fun x i => x.badRead (off / 32 * 32 + 32 * i) 2) (s1.hbmTouch off u.len))
          let t : Int := (u.wt : Int) * 256 + u.frac
          let s2 := s1b.pushRecord
            { rtype := rtUser, stream := u.stream, source := u.source, flags := 0,
              content := fun n => if (bad ++ lost).any (fun i => decide (32 * i < n + off % 32)) then fMemErr else 0, t := t, endAt := fun _ => t, rate := 0,
              close := clNormal, thLen := 8 } (data ++ leBytes 4 u.tag ++ leBytes 4 0)
          (s2.fset R.REC_USER_CTRL F.REC_USER_CTRL_RESULT 0).raise vREC 2)

/-- Q_MAX_READ: a read returns the largest depth since the last read and clears it (R294). -/
def execQMaxRead (quill : Fin 32) (tag : Nat) (s : State) : Host.Outcome State Fault Refusal :=
  let a := R.REC_Q_MAX quill.val
  .next ((s.wr a 0#32).emit (.completion tag .ok [(s.rd a).toNat]))

end Sys2Proof.Machine
end

