-- ==== Sys2Proof/Machine/ShuOps.lean ====
section
/-!
DEFINITION. Operations of a Shuttle core: its registers and memories (R230 to R238), its arithmetic (R240 to R243), what
consecutive instructions see of each other (R244, R245), parts and verdicts (R252 to R257), interrupts (R260 to R262),
faults and halts (R264, R265).
-/

namespace Sys2Proof.Machine

/-- The core of slice n. -/
def State.core (s : State) (n : Nat) : CoreSt := Tab.get (fun _ => CoreSt.init) s.shu n

/-- The core of slice n replaced. -/
def State.setCore (s : State) (n : Nat) (c : CoreSt) : State :=
  { s with shu := Tab.put (fun _ => CoreSt.init) s.shu n c }

/-- SHU_STATUS.HALTED of core n. -/
def State.coreHalted (s : State) (n : Nat) : Bool := s.flag (R.SHU_STATUS n) F.SHU_STATUS_HALTED

/-- SHU_STATUS.WAITING of core n. -/
def State.coreWaiting (s : State) (n : Nat) : Bool := s.flag (R.SHU_STATUS n) F.SHU_STATUS_WAITING

/-! ### Instruction fields (R246) -/

/-- Bits hi to lo of an instruction word. -/
def bitsOf (w : Word) (hi lo : Nat) : Nat := w.toNat / 2 ^ lo % 2 ^ (hi + 1 - lo)

def opOf (w : Word) : Nat := bitsOf w 31 26
def fD (w : Word) : Nat := bitsOf w 25 22
def fS (w : Word) : Nat := bitsOf w 21 18
def fT (w : Word) : Nat := bitsOf w 17 14
def fImm (w : Word) : Nat := bitsOf w 15 0
def fX (w : Word) : Nat := bitsOf w 25 20
def fXD (w : Word) : Nat := bitsOf w 19 16
def fAC (w : Word) : Nat := bitsOf w 25 25
def fAS (w : Word) : Nat := bitsOf w 24 21
def fAT (w : Word) : Nat := bitsOf w 20 17

/-- The bits that must be 0 in an instruction of an opcode (R246, R247), as a mask. An offset that a mode does not use is
checked with the mode. -/
def zeroMask (op : Nat) : Nat :=
  match op with
  | 0x00 | 0x01 | 0x02 | 0x2B | 0x31 => 0x3FFFFFF
  | 0x03 => 0x3FFFF00
  | 0x04 => 0x3FFFF
  | 0x05 => 0x3F0000
  | 0x06 => 0x3FFF
  | 0x07 | 0x08 | 0x09 | 0x0A | 0x0C | 0x0D | 0x0E | 0x15 | 0x16 => 0x3FFF
  | 0x0B | 0x0F => 0x30000
  | 0x10 | 0x11 => 0x3FFE0
  | 0x12 => 0x3C03FFF
  | 0x13 => 0x3C30000
  | 0x14 => 0x3FFFF
  | 0x19 => 0xFFFF
  | 0x1A => 0xF0000
  | 0x1B => 0xFFFF
  | 0x1C | 0x1D | 0x1E => 0x1FFFF
  | 0x1F => 0x7FFF
  | 0x20 => 0xFFFFF
  | 0x21 | 0x24 => 0x1FFFFFF
  | 0x22 => 0x1FFFE0
  | 0x23 => 0x1FFFFC0
  | 0x25 | 0x26 | 0x27 => 0x1FFFFF
  | 0x28 | 0x29 => 0x3FC000
  | 0x2A => 0x3FFFFF
  | 0x2D => 0xFF0
  | 0x2E | 0x2F => 0x3FFFF8
  | 0x30 => 0x3FFFF
  | _ => 0

/-- An instruction has a 1 in a bit that must be 0. -/
def badBits (w : Word) : Bool := w &&& w32 (zeroMask (opOf w)) != 0#32

/-! ### Registers -/

/-- Register i of a list of registers. -/
def regAt (xs : List Half) (i : Nat) : Half := (xs[i]?).getD 0#16

/-- Register Dd. -/
def CoreSt.dr (c : CoreSt) (i : Nat) : Half := regAt c.d i

/-- Register Dd written. -/
def CoreSt.setD (c : CoreSt) (i : Nat) (v : Half) : CoreSt := { c with d := c.d.set i v }

/-- ACk as a signed 40-bit value. -/
def CoreSt.ac (c : CoreSt) (k : Nat) : Int := if k = 0 then c.ac0 else c.ac1

/-- ACk written. -/
def CoreSt.setAc (c : CoreSt) (k : Nat) (v : Int) : CoreSt := if k = 0 then { c with ac0 := v } else { c with ac1 := v }

/-- Bit n of SR. -/
def CoreSt.sb (c : CoreSt) (n : Nat) : Bool := c.sr.getLsbD n

/-- A half-word with bit n given a value. -/
def bitTo (w : Half) (n : Nat) (v : Bool) : Half :=
  if v then w ||| BitVec.ofNat 16 (2 ^ n) else w &&& ~~~(BitVec.ofNat 16 (2 ^ n))

/-- Bit n of SR given a value. -/
def CoreSt.setSb (c : CoreSt) (n : Nat) (v : Bool) : CoreSt := { c with sr := bitTo c.sr n v }

/-- Z and N of a result. -/
def CoreSt.zn (c : CoreSt) (v : Half) : CoreSt := (c.setSb 0 (v == 0#16)).setSb 1 v.msb

/-- Z, N, C and V of a result. -/
def CoreSt.zncv (c : CoreSt) (v : Half) (carry past : Bool) : CoreSt := ((c.zn v).setSb 2 carry).setSb 3 past

/-- The bits of SR that a write sets: BANK and bit 11 keep (R236). -/
def CoreSt.writeSr (c : CoreSt) (v : Half) : CoreSt := { c with sr := (v &&& 0xF3FF#16) ||| (c.sr &&& 0x0400#16) }

/-- A condition on flags, none for a reserved code (R248). -/
def condOf (sr : Half) (code : Nat) : Option Bool :=
  let z := sr.getLsbD 0
  let n := sr.getLsbD 1
  let v := sr.getLsbD 3
  match code with
  | 0 => some true
  | 1 => some z
  | 2 => some !z
  | 3 => some (n != v)
  | 4 => some (n == v)
  | 5 => some (!z && n == v)
  | 6 => some (z || n != v)
  | 7 => some (sr.getLsbD 2)
  | 8 => some !(sr.getLsbD 2)
  | 9 => some v
  | 10 => some !v
  | 11 => some (sr.getLsbD 4)
  | 12 => some (sr.getLsbD 5)
  | _ => none

/-- The value of an extended register, none for an index that is not readable (R235): the latest write counts, seen
already by address formation or not. -/
def CoreSt.extRead (c : CoreSt) (x : Nat) : Option Half :=
  let now (v : Half) : Half := c.late.foldl (fun a w => if w.x = x then w.value else a) v
  if x < 8 then some (now (regAt c.a x))
  else if x < 16 then some (now (regAt c.m (x - 8)))
  else if x < 24 then some (now (regAt c.l (x - 16)))
  else if x < 32 then some (now (regAt c.b (x - 24)))
  else if x = 32 then some c.sr
  else if x = 33 then some (now c.page)
  else if x = 34 then some c.tick
  else if x = 35 then some (BitVec.ofNat 16 c.ipc)
  else if x = 36 then some (BitVec.ofNat 16 ((c.loops.head?.map (fun e => e.count)).getD 0))
  else if x = 37 then some (BitVec.ofNat 16 c.calls.length)
  else if x = 38 then some (BitVec.ofNat 16 c.ipend)
  else none

/-- A write to a register that address formation reads reaches it. -/
def CoreSt.land (c : CoreSt) (x : Nat) (v : Half) : CoreSt :=
  if x < 8 then { c with a := c.a.set x v }
  else if x < 16 then { c with m := c.m.set (x - 8) v }
  else if x < 24 then { c with l := c.l.set (x - 16) v }
  else if x < 32 then { c with b := c.b.set (x - 24) v }
  else { c with page := v }

/-- Writes that are due reach their registers; over an address register that the same instruction modified, the value is
open (R244; log entry 14). -/
def CoreSt.age (c : CoreSt) (open_ : Half) : CoreSt :=
  let due := c.late.filter (fun w => decide (w.left ≤ 1))
  let rest := (c.late.filter (fun w => decide (1 < w.left))).map (fun w => { w with left := w.left - 1 })
  due.foldl (fun x w => x.land w.x (if c.modded.contains w.x then open_ else w.value)) { c with late := rest, modded := [] }

/-- After a stall, an interrupt entry, a step or a halt the next instruction sees every earlier result (R245). -/
def CoreSt.settle (c : CoreSt) : CoreSt :=
  let c1 := c.late.foldl (fun x w => x.land w.x w.value) c
  { c1 with late := [], modded := [], srBefore := c1.sr, dBefore := c1.d, stBefore := none }

/-- A write of an extended register, none where it is refused (R235, R244). now: the present beat. -/
def CoreSt.extWrite (c : CoreSt) (x : Nat) (v : Half) (now : Nat) : Option CoreSt :=
  if x < 32 then some { c with late := c.late ++ [⟨x, v, 3⟩] }
  else if x = 32 then some (c.writeSr v)
  else if x = 33 then some { c with late := c.late ++ [⟨33, v &&& 3#16, 3⟩] }
  else if x = 34 then some { c with tick := v, tickBeat := now }
  else none

/-! ### Addresses and memory -/

/-- k low bits of a number, reversed. -/
def bitRev : Nat → Nat → Nat
  | 0, _ => 0
  | k + 1, v => v % 2 * 2 ^ k + bitRev k (v / 2)

/-- The circular update of address register i (R238). -/
def CoreSt.circ (c : CoreSt) (i : Nat) : Half :=
  let a := regAt c.a i
  let b := regAt c.b i
  let l := (regAt c.l i).toNat
  let m := regAt c.m i
  if l = 0 then a + m
  else BitVec.ofInt 16 ((b.toNat : Int) + ((a.toNat : Int) - (b.toNat : Int) + m.toInt) % (l : Int))

/-- The bit-reversed update of address register i (R238). -/
def CoreSt.rev (c : CoreSt) (i : Nat) : Half :=
  let b := regAt c.b i
  let l := (regAt c.l i).toNat
  let k := Nat.log2 (if l = 0 then 2 ^ 15 else l)
  let o := (regAt c.a i - b).toNat % 2 ^ k
  b + BitVec.ofNat 16 (bitRev k ((bitRev k o + bitRev k ((regAt c.m i).toNat % 2 ^ k)) % 2 ^ k))

/-- The value of address register i after mode 1 to 6 (R237). -/
def CoreSt.postMod (c : CoreSt) (mode i : Nat) (off : Half) : Half :=
  let a := regAt c.a i
  match mode with
  | 1 => a + 1#16
  | 2 => a - 1#16
  | 3 => a + regAt c.m i
  | 4 => c.circ i
  | 5 => c.rev i
  | 6 => a + off
  | _ => a

/-- The address of a memory operand, and the core after its post-modification (R237). -/
def CoreSt.address (c : CoreSt) (mode i : Nat) (off : Half) : Half × CoreSt :=
  let addr := if mode = 0 then regAt c.a i + off else if mode = 7 then off else regAt c.a i
  if mode = 0 ∨ mode = 7 then (addr, c)
  else (addr, { c with a := c.a.set i (c.postMod mode i off), modded := i :: c.modded })

/-- The mode of a MACM or MACSQ operand (R237). -/
def shortMode (m : Nat) : Nat := if m = 0 then 1 else m + 2

/-- The word that an address reads (R231): a store of the instruction just before is not seen (R244). -/
def CoreSt.load (c : CoreSt) (addr : Half) : Half :=
  if addr.msb then Tab.get (fun _ => 0#16) c.buf (32768 * c.page.toNat + (addr.toNat - 32768))
  else
    match c.stBefore with
    | some (w, v) => if w = addr.toNat then v else Tab.get (fun _ => 0#16) c.data addr.toNat
    | none => Tab.get (fun _ => 0#16) c.data addr.toNat

/-- A word stored to data memory (R231, R244). -/
def CoreSt.store (c : CoreSt) (addr : Nat) (v : Half) : CoreSt :=
  { c with
    data := Tab.put (fun _ => 0#16) c.data addr v,
    dataBad := c.dataBad.filter (fun x => decide (x ≠ addr)),
    stBefore := some (addr, Tab.get (fun _ => 0#16) c.data addr) }

/-- The word at an address holds an uncorrectable error (R267). -/
def CoreSt.badWord (c : CoreSt) (addr : Half) : Bool := !addr.msb && c.dataBad.contains addr.toNat

/-! ### Arithmetic -/

/-- A value held to 16 signed bits. -/
def sat16 (v : Int) : Int := clampInt (-32768) 32767 v

/-- The result of an accumulator operation from its exact value (R241). -/
def CoreSt.accum (c : CoreSt) (k : Nat) (v : Int) : CoreSt :=
  if -(2 ^ 39) ≤ v ∧ v < 2 ^ 39 then c.setAc k v
  else
    let r := if c.sb (6 + k) then (if v < 0 then -(2 ^ 39) else 2 ^ 39 - 1) else signed 40 (unsigned 40 v)
    (c.setAc k r).setSb (4 + k) true

/-- The product of two registers (R240). -/
def CoreSt.product (c : CoreSt) (x y : Half) : Int := (if c.sb 8 then 2 else 1) * (x.toInt * y.toInt)

/-- An arithmetic shift, positive left: result, last bit shifted out, overflow (R243). -/
def ashOf (v : Half) (k : Int) : Half × Bool × Bool :=
  if 0 ≤ k then
    let n := k.toNat
    let r := v <<< n
    (r, decide (0 < n) && v.getLsbD (16 - n), decide (r.toInt ≠ v.toInt * 2 ^ n))
  else
    let n := (-k).toNat
    (v.sshiftRight n, if n ≤ 16 then v.getLsbD (n - 1) else v.msb, false)

/-- A logical shift, positive left: result, last bit shifted out (R243). -/
def lshOf (v : Half) (k : Int) : Half × Bool :=
  if 0 ≤ k then (v <<< k.toNat, decide (0 < k) && v.getLsbD (16 - k.toNat))
  else (v >>> (-k).toNat, v.getLsbD ((-k).toNat - 1))

/-! ### Parts and verdicts (R252 to R257) -/

/-- A part becomes the one that the core holds: its descriptor is readable (R252, R260). -/
def State.partOffer (s : State) (n : Nat) (p : Part) : State :=
  let c := s.core n
  ((s.setCore n { c with
      held := some { p with since := s.beats }, descAt := 0, queued := none,
      ipend := c.ipend / 2 * 2 + 1 }).fon (R.SHU_STATUS n) F.SHU_STATUS_PART_HELD).count (R.SHU_PART_CNT n) 1

/-- Slice n's part of a record ends: with a feature block, without one, or with a veto; a record that a core vetoed is
discarded once every slice has ended its part (R255). -/
def State.waveEndPart (s : State) (n shed fired : Nat) (feat : Option (List Half)) (noFeature veto : Bool) : State :=
  let mine (w : WaveRec) : Bool := decide (w.shed = shed) && decide (w.fired = fired)
  let s1 := s.mapWaves (fun w =>
    if mine w then
      { w with
        partsLeft := w.partsLeft.filter (fun k => decide (k ≠ n)),
        feats := (match feat with
          | some f => w.feats.filter (fun e => decide (e.1 < n)) ++ [(n, f)] ++ w.feats.filter (fun e => decide (n < e.1))
          | none => w.feats),
        noFeature := w.noFeature || noFeature, vetoed := w.vetoed || veto }
    else w)
  let gone (w : WaveRec) : Bool := mine w && w.vetoed && w.partsLeft.isEmpty
  let s2 := { s1 with recs := { s1.recs with waves := s1.recs.waves.filter (fun w => !gone w) } }
  (s1.recs.waves.filter gone).foldl (fun x w => x.countVeto w.stream) s2

/-- The part that core n holds ends, and the next one is offered (R252). -/
def State.partEnd (s : State) (n : Nat) (feat : Option (List Half)) (noFeature veto : Bool) : State :=
  let c := s.core n
  match c.held with
  | none => s
  | some p =>
    let s1 := (s.setCore n { c with held := none, descAt := 0, queued := none }).foff (R.SHU_STATUS n) F.SHU_STATUS_PART_HELD
    let s2 := s1.waveEndPart n p.shed p.fired feat noFeature veto
    match c.queued with
    | some q => s2.partOffer n q
    | none => s2

/-- A verdict given while no part is held (R254). -/
def State.verdictStale (s : State) (n : Nat) : State := (s.count (R.SHU_STALE_CNT n) 1).raise (vSHU n) 5

/-- A part of the slice goes on without a feature block, for a core that is halted (R257). -/
def State.partBypass (s : State) (n shed fired : Nat) : State :=
  ((s.waveEndPart n shed fired none true false).count (R.SHU_BYPASS_CNT n) 1).raise (vSHU n) 4

/-- The parts that a halted core has go on (R257). -/
def State.partsBypass (s : State) (n : Nat) : State :=
  let c := s.core n
  let s1 := (s.setCore n { c with held := none, queued := none, descAt := 0 }).foff (R.SHU_STATUS n) F.SHU_STATUS_PART_HELD
  let s2 := match c.held with
    | some p => s1.partBypass n p.shed p.fired
    | none => s1
  match c.queued with
  | some p => s2.partBypass n p.shed p.fired
  | none => s2

/-! ### Halting and faults -/

/-- Core n halts at its program counter (R257, R265). -/
def State.coreHalt (s : State) (n : Nat) : State :=
  let c := s.core n
  let s1 := s.setCore n { c.settle with haltAsked := false, stepping := false }
  let s2 := ((s1.fon (R.SHU_STATUS n) F.SHU_STATUS_HALTED).foff (R.SHU_STATUS n) F.SHU_STATUS_WAITING).wr (R.SHU_PC n) (w32 c.pc)
  let s3 := (s2.bitOff (R.SHU_CTRL n) 1).bitOff (R.SHU_CTRL n) 2
  (s3.raise (vSHU n) 0).partsBypass n

/-- Core n restarts at SHU_PC (R265). -/
def State.coreRun (s : State) (n : Nat) : State :=
  (s.foff (R.SHU_STATUS n) F.SHU_STATUS_HALTED).foff (R.SHU_STATUS n) F.SHU_STATUS_FAULTED

/-- Core n halts itself, by HALT or a fault: where RUN was written in the same beat it restarts at once (R266). -/
def State.coreStop (s : State) (n : Nat) : State :=
  let s1 := s.coreHalt n
  if (s.core n).runBeat = some s.beats then s1.coreRun n else s1

/-- Fault causes (R264). -/
def fcIllegal : Nat := 1
def fcStack : Nat := 2
def fcLoopStack : Nat := 3
def fcLoopEnd : Nat := 4
def fcPort : Nat := 5
def fcVerdict : Nat := 6
def fcBreak : Nat := 7
def fcEcc : Nat := 8
def fcWindow : Nat := 9

/-- A fault stops core n at its program counter (R264, R487). CODE is that of a TRAP, and open for another fault. -/
def State.coreFault (s : State) (n cause : Nat) (code : Option Nat) : State :=
  let pc := (s.core n).pc
  let w := w32 (cause + 2 ^ 8 * (code.getD s.free % 256) + 2 ^ 16 * pc)
  let s1 := (s.took.wr (R.SHU_FAULT n) w).fon (R.SHU_STATUS n) F.SHU_STATUS_FAULTED
  (s1.event (vSHU n) 1 sevError 0 0 pc).coreStop n

/-! ### Running -/

/-- The main and shadow copies change places (R261). -/
def CoreSt.swapBank (c : CoreSt) : CoreSt :=
  { c with
    d := c.d.take 8 ++ c.sd, sd := c.d.drop 8,
    a := c.a.take 4 ++ c.sa, sa := c.a.drop 4,
    m := c.m.take 4 ++ c.sm, sm := c.m.drop 4,
    ac1 := c.sac1, sac1 := c.ac1,
    sr := (c.sr &&& 0xFFF0#16) ||| BitVec.ofNat 16 (c.sflags % 16), sflags := c.sr.toNat % 16 }

/-- RETI ends: the main bank returns. A write that address formation does not see yet stays so, but for one to a register of the shadow bank,
which ends there; the flags and D8 to D15 that an instruction before left are those of the main bank (R244, R245, R262). -/
def CoreSt.unbank (c : CoreSt) : CoreSt :=
  let banked (w : LateWrite) : Bool := decide (w.x / 4 = 1) || decide (w.x / 4 = 3)
  let c1 := (c.late.filter banked).foldl (fun x w => x.land w.x w.value) c
  let c2 := { c1 with
    late := c.late.filter (fun w => !banked w), dBefore := c.dBefore.take 8 ++ c.sd,
    srBefore := (c.srBefore &&& 0xFFF0#16) ||| BitVec.ofNat 16 (c.sflags % 16) }
  (c2.swapBank).setSb 10 false

/-- What an interrupt handler must leave as it found it: both stacks, A0 to A3 and AC0 (R262). -/
def CoreSt.lent (c : CoreSt) : Lent := ⟨c.calls, c.loops, (upTo 4).map (fun x => (c.extRead x).getD 0#16), c.ac0⟩

/-- What a body of an instruction answers: the state, the cycles it took, and where the next instruction is if the body
says; or a fault with its cause and code. -/
inductive ShuRes where
  | done (s : State) (cycles : Nat) (next : Option Nat)
  | fault (s : State) (cause : Nat) (code : Option Nat)

/-- The program counter after an instruction that ends loop bodies: the innermost loop passes again or is popped, and the
loop outside it follows (R249). -/
def loopNext (pc : Nat) : List LoopEnt → Nat × List LoopEnt
  | [] => ((pc + 1) % 16384, [])
  | e :: t =>
    if e.last = pc then
      (if 1 < e.count then (e.start, { e with count := e.count - 1 } :: t) else loopNext pc t)
    else ((pc + 1) % 16384, e :: t)

/-- What follows an instruction at address pc: where the next one is, what it sees, and the halt of HALT or of a single
step (R244, R245, R249, R250, R262, R265). old is the core before the instruction; to, where its body says the next one
is. -/
def State.coreNext (s : State) (n op cycles : Nat) (dest : Option Nat) (old : CoreSt) : State :=
  let c := s.core n
  let aged := c.age (BitVec.ofNat 16 s.free)
  let seen := { aged with srBefore := old.sr, dBefore := old.d, stBefore := if op = 0x18 then c.stBefore else none }
  let c1 := if 1 < cycles then seen.settle else seen
  let line := match dest with
    | some t => (t, c1.loops)
    | none => loopNext old.pc c1.loops
  let c2 := match old.delay with
    | none => { c1 with pc := line.1, loops := line.2 }
    | some .notTaken => { c1 with pc := line.1, loops := line.2, delay := none }
    | some (.jump t) => { c1 with pc := t, delay := none }
    | some .reti => { c1.unbank with pc := c1.ipc, delay := none, found := none }
  let s1 := ((s.setCore n c2).took.wr (R.SHU_PC n) (w32 old.pc)).count (R.SHU_CYCLE_CNT n) cycles
  let kept := match c.found with
    | some x => decide (x = c.lent)
    | none => true
  let s2 := if old.delay = some .reti then
      (if kept then s1 else s1.breached (vSHU n)).foff (R.SHU_STATUS n) F.SHU_STATUS_IN_HANDLER
    else s1
  if op == 0x01 then s2.coreStop n else if old.stepping then s2.coreHalt n else s2

/-- An opcode that must not stand in a delay slot (R250). -/
def isBranch (op : Nat) : Bool := decide (0x28 ≤ op) && decide (op ≤ 0x2B)

/-- An opcode that must not stand at the end of a loop body (R249). -/
def badAtEnd (op : Nat) : Bool := (isBranch op) || [0x2C, 0x2D, 0x01, 0x03, 0x02].contains op

/-- Core n executes an instruction: nothing where it does not run or the word at its program counter has another opcode;
a fault that the word alone decides (R246, R249, R250, R264 to R267); else the body. -/
def State.shuRun (s : State) (n : Nat) (isOp : Nat → Bool) (ecc : Ecc) (body : State → Word → ShuRes) : State :=
  let c := s.core n
  let w := Tab.get (fun _ => 0#32) c.prog c.pc
  let op := opOf w
  let brk := s.rd (R.SHU_BREAK n)
  if s.coreHalted n || s.coreWaiting n || !isOp op then s
  else
    let s0 := if ecc = .corrected then (s.count (R.SHU_MEM_CE_CNT n) 1).raise (vSHU n) 6 else s
    if fieldOf brk F.SHU_BREAK_EN = 1 ∧ fieldOf brk F.SHU_BREAK_ADDR = c.pc then s0.coreFault n fcBreak none
    else if ecc = .program ∨ c.progBad.contains c.pc = true then
      State.coreFault (s0.setCore n { c with progBad := c.pc :: c.progBad.filter (fun x => decide (x ≠ c.pc)) }) n fcEcc none
    else if badBits w || (isBranch op && c.delay.isSome) then s0.coreFault n fcIllegal none
    else if badAtEnd op && (c.loops.head?.map (fun e => e.last)) == some c.pc then s0.coreFault n fcLoopEnd none
    else
      match body s0 w with
      | .done t cycles dest => t.coreNext n op cycles dest c
      | .fault t cause code => t.coreFault n cause code

/-- A body that changes the core alone, in one cycle. -/
def onCore (n : Nat) (f : CoreSt → Word → CoreSt) : State → Word → ShuRes :=
  fun s w => .done (s.setCore n (f (s.core n) w)) 1 none

/-- The opcode is one value. -/
def isOp (k : Nat) : Nat → Bool := fun op => op == k

/-- A memory operand's data word cannot be read: an uncorrectable error in it (R267). -/
def CoreSt.dataFault (c : CoreSt) (ecc : Ecc) (addrs : List Half) : Option CoreSt :=
  let hit := addrs.filter (fun a => c.badWord a)
  match hit, ecc with
  | [], .data =>
    (addrs.find? (fun a => !a.msb)).map (fun a => { c with dataBad := a.toNat :: c.dataBad })
  | [], _ => none
  | _ :: _, _ => some c

end Sys2Proof.Machine
end

