-- ==== Sys2Proof/Machine/AbortOps.lean ====
section
/-!
DEFINITION. What ABORT discards (R23, R258, R289): every record that is not in partner memory, each counted once for its
stream. A run-end marker that is discarded is emitted again, since R289 has it count what was lost.
-/

namespace Sys2Proof.Machine

/-- The headers of the fragments that the engines hold. -/
def State.heldFragments (s : State) : List FragHdr :=
  (upTo 32).foldl (fun hs k => match (s.engine k).held with
    | some f => hs ++ [f.hdr]
    | none => hs) []

/-- The records of which packets wait for Quill k: those that have their number, and those that have none yet (R270). A record whose first
fragment waits has none. -/
def QuillSt.awaited (q : QuillSt) : List (Nat × Nat) × List Nat :=
  let r := q.waiting.foldl (fun (a : List Nat × List (Nat × Nat) × List Nat) w =>
    match w.packet with
    | none => a
    | some p =>
      if p.hdr.rtype = rtRunEnd then a
      else if p.hdr.frag = 0 then (w.producer :: a.1, a.2.1, a.2.2 ++ [w.stream])
      else if a.1.contains w.producer then a
      else (a.1, a.2.1 ++ [(w.stream, Tab.get (fun _ => 0) q.seqs w.producer)], a.2.2)) ([], [], [])
  r.2

/-- The numbered records whose fragments ABORT takes out of Quills and engines, each once: stream and sequence number. -/
def State.abortNumbered (s : State) : List (Nat × Nat) :=
  let hdrs := (upTo 32).foldl (fun hs k => hs ++ ((s.quill k).packets.filter (fun p => !p.abort)).map (fun p => p.hdr)) [] ++ s.heldFragments
  let ids := (hdrs.filter (fun h => h.rtype ≠ rtRunEnd)).map (fun h => (h.stream, h.seq))
  (ids ++ (upTo 32).foldl (fun xs k => xs ++ (s.quill k).awaited.1) []).foldl
    (fun xs p => if xs.contains p then xs else xs ++ [p]) []

/-- The streams of the density records that sweeps send, none of whose fragments is in a Quill or an engine (R202). -/
def State.abortSweeps (s : State) (numbered : List (Nat × Nat)) : List Nat :=
  (upTo 16).filterMap (fun p => match (s.plane p).sweep with
    | some w => w.send.bind (fun x =>
        let q := s.quill (s.quillOf x.stream)
        if (x.frag ≠ 0 ∨ s.sendOpen p x = true) ∧ (x.stream, Tab.get (fun _ => 0) q.seqs (planeProducer p)) ∈ numbered then none
        else some x.stream)
    | none => none)

/-- The streams of the other records that ABORT discards, one entry a record: those that wait for their number, and the open ones that have no
fragment in a Quill or an engine. -/
def State.abortOpen (s : State) (numbered : List (Nat × Nat)) : List Nat :=
  let waves := s.recs.waves.filter (fun w => match w.seq with
    | some q => !numbered.contains (w.stream, q)
    | none => true)
  (upTo 32).foldl (fun xs k => xs ++ (s.quill k).awaited.2) []
    ++ waves.map (fun w => w.stream)
    ++ s.abortSweeps numbered
    ++ (s.recs.raws.filter (fun e => match e.2 with
        | some r => !r.data.isEmpty
        | none => false)).map (fun e => s.fget (R.QUL_CH_CFG (e.1 / 8) (e.1 % 8)) F.QUL_CH_CFG_RAW_STREAM)
    ++ s.recs.specs.foldl (fun xs e => xs ++ (e.2.filter (fun r => !r.items.isEmpty)).map (fun _ => s.specStream e.1)) []
    ++ (match s.recs.user with
      | some u => if s.streamOn u.stream then [u.stream] else []
      | none => [])

/-- The streams whose run-end marker is in a Quill or an engine: numbered, and not yet numbered. -/
def State.markersHeld (s : State) : List Nat × List Nat :=
  let hdrs := (upTo 32).foldl (fun hs k => hs ++ (s.quill k).packets.map (fun p => p.hdr)) [] ++ s.heldFragments
  ((hdrs.filter (fun h => h.rtype = rtRunEnd)).map (fun h => h.stream),
    (upTo 32).foldl (fun xs k => xs ++ ((s.quill k).waiting.filter (fun w => decide (w.producer / 65536 = rtRunEnd))).map
      (fun w => w.stream)) [])

/-- A stream's run-end marker was discarded: the stream emits it again, with the counts of what ABORT discarded (R23, R289). -/
def State.markerAgain (s : State) (k : Nat) (numbered : Bool) : State :=
  let q := s.stream k
  let s1 := s.setStream k { q with runEnd := false, seq := if numbered then q.runEndSeq else q.seq, sent := if numbered then q.sent - 1 else q.sent }
  if numbered then s1.wr (R.REC_STREAM_REC_CNT k) (s1.rd (R.REC_STREAM_REC_CNT k) - 1#32) else s1

/-- Record Quill k is emptied (R289). -/
def State.quillEmpty (s : State) (k : Nat) : State :=
  let q := s.quill k
  if q.packets.isEmpty && q.waiting.isEmpty && q.opened.isNone then s
  else s.setQuill k { q with packets := [], opened := none, waiting := [] }

/-- Engine k discards what it holds. -/
def State.engineEmpty (s : State) (k : Nat) : State :=
  let x := s.engine k
  if x.held.isSome || !x.poisoned.isEmpty then s.setEngine k { x with held := none, stalled := false, poisoned := [] } else s

/-- The parts that core n holds are discarded, and a verdict on them is stale (R258). -/
def State.partsDiscard (s : State) (n : Nat) : State :=
  let c := s.core n
  if c.held.isSome || c.queued.isSome then
    (s.setCore n { c with held := none, queued := none, descAt := 0 }).foff (R.SHU_STATUS n) F.SHU_STATUS_PART_HELD
  else s

/-- A plane's sweep makes no record any more (R289). -/
def State.sweepSilent (s : State) (p : Nat) : State :=
  match (s.plane p).sweep with
  | some w => if w.send.isSome then s.setPlane p { s.plane p with sweep := some { w with send := none } } else s
  | none => s

/-- ABORT's discarding: REC_STATUS.FLUSHING shows it until STOPPING ends (R23, R289, R294). -/
def State.abortDiscard (s : State) : State :=
  let numbered := s.abortNumbered
  let lost := numbered.map (fun p => p.1) ++ s.abortOpen numbered
  let s1 := { s with recs := { s.recs with waves := [], raws := [], specs := [], user := none } }
  let s2 := (s1.foff R.REC_USER_CTRL F.REC_USER_CTRL_GO).fon R.REC_STATUS F.REC_STATUS_FLUSHING
  let s3 := (upTo 32).foldl (fun x k => (x.quillEmpty k).engineEmpty k) s2
  let s3b := (upTo 16).foldl (fun x p => x.sweepSilent p) s3
  let s3c := (upTo 4).foldl (fun x p =>
    if (x.hport p).entryEngine.isSome then x.setHport p { x.hport p with entryEngine := none, entryTlps := 0 } else x) s3b
  let s4 := (upTo 24).foldl (fun x n => x.partsDiscard n) s3c
  let again := s.markersHeld
  let s5 := lost.foldl (fun x k => x.countAbort k) s4
  let s6 := again.2.foldl (fun x k => x.markerAgain k false) (again.1.foldl (fun x k => x.markerAgain k true) s5)
  { s6 with run := { s6.run with aborting := true } }

end Sys2Proof.Machine
end

