-- ==== Sys2Proof/Machine/ClkOps.lean ====
section
/-!
DEFINITION. Operations of the clock unit and of warp time: relocks (R334 to R336), holdover (R337 to R342), steps of warp
time (R50, R76, R351).
-/

namespace Sys2Proof.Machine

/-- Bits of STP_INT_STATUS. -/
def siLock : Nat := 0
def siUnlock : Nat := 1
def siHoldOn : Nat := 2
def siHoldOff : Nat := 3
def siRefFail : Nat := 4
def siSnap : Nat := 5
def siSyncRefused : Nat := 6
def siCmdRefused : Nat := 7

/-- Bits of WRP_INT_STATUS. -/
def wiStep : Nat := 0
def wiSync : Nat := 1
def wiMismatch : Nat := 2
def wiRefused : Nat := 3

/-- Kinds of step (R351). -/
def wkSync : Nat := 0
def wkLoad : Nat := 1
def wkSnap : Nat := 2
def wkRelock : Nat := 3

/-- The clock unit's state changed. -/
def State.setClk (s : State) (x : ClkSt) : State := { s with clk := x }

/-! ### Steps of warp time -/

/-- What every step writes (R351): the registers, the interrupt, the log entry, the journal entry, a directory break on every
ring, and WARP_STEP for the next stamp of every Hoofbeat input. BEFORE and AFTER in 1/256 beat. -/
def State.stepMarks (s : State) (kind before after : Nat) : State :=
  let s1 := (s.setPair R.WRP_STEP_BEFORE_LO R.WRP_STEP_BEFORE_HI (before / 256)).setPair R.WRP_STEP_AFTER_LO
    R.WRP_STEP_AFTER_HI (after / 256)
  let s2 := (s1.wr R.WRP_STEP_INFO (w32 (before % 256 + 256 * (after % 256) + 65536 * kind))).count R.WRP_STEP_CNT 1
  let s3 := (s2.raise vWRP wiStep).logAt (after / 256) (after % 256) vWRP wiStep sevWarning 0 (before % 256 + 256 * kind)
    (before / 256)
  let s4 := s3.journal ⟨after / 256, after % 256, 5, 0x40, 0, before / 256, after / 256⟩
  let s5 := (upTo 192).foldl (fun x c => if x.ringOn c then x.setRing c { x.ring c with brk := true } else x) s4
  (upTo 32).foldl (fun x i => x.setHfbIn i { x.hfbIn i with warpStep := true }) s5

/-- The samples of a channel that tap A has not yet released are restamped, and the positions that follow from theirs move
with them (R76): a step of d in 1/256 beat, of dp grid positions. -/
def CondCh.restamp (x : CondCh) (d dp : Int) : CondCh :=
  { x with
    store := x.store.map (fun y => { y with stamp := y.stamp + d, pos := y.pos + dp }),
    shift := x.shift + dp, last := x.last.map (fun n => n + dp), lastT := x.lastT + d }

/-- The grid of a stream's windows moves with the positions of its samples. -/
def StreamRt.moveGrid (x : StreamRt) (dp : Int) : StreamRt :=
  { x with n0 := x.n0.map (fun n => n + dp), start := x.start + dp, restart := x.restart.map (fun n => n + dp) }

/-- Port p follows a step of d in 1/256 beat: its placement, and its channels' samples (R50, R76). -/
def State.portStep (s : State) (p : Nat) (d : Int) : State :=
  let old := s.place p
  let s1 := s.setPlace p (old + d)
  let x := s1.port p
  let s2 := s1.setPort p { x with
    lastStamp := x.lastStamp.map (fun t => t + d), gap := x.gap.map (fun t => t + d),
    oldPlace := x.oldPlace.map (fun t => t + d) }
  (upTo 8).foldl (fun y l =>
    let c := 8 * p + l
    let dp : Int := (y.chanGang c : Int) * ((old + d) / 256 - old / 256)
    (y.setCch c ((y.cch c).restamp d dp)).setStrm c ((y.strm c).moveGrid dp)) s2

/-- Warp time steps: the present beat has the warp time AFTER, 1/256 beat (R50, R76, R351). -/
def State.warpStep (s : State) (kind after : Nat) : State :=
  let before := s.wt256
  let d : Int := (after : Int) - (before : Int)
  let s1 := { s with now := BitVec.ofNat 64 (after / 256), nowFrac := after % 256 }
  let s2 := (upTo 24).foldl (fun x p => x.portStep p d) s1
  s2.stepMarks kind before after

/-! ### The root's frequency -/

/-- The root follows REFIN at x parts per 10^9 of STP_REF_NOM from this beat on; what lies more than 16 ms back is kept only where it
still held then (R337). -/
def State.rootAt (s : State) (x : Int) : State :=
  let recent := s.clk.freqs.takeWhile (fun e => decide (s.beats < e.1 + 16 * beatsPerMs))
  s.setClk { s.clk with freqs := (s.beats, x) :: s.clk.freqs.take (recent.length + 1) }

/-- The sum over the beats from lo to hi of a frequency that each measurement, latest first, holds from its beat on; the earliest holds
before it too. -/
def freqSum (lo : Nat) : Nat → List (Nat × Int) → Int
  | _, [] => 0
  | hi, [(_, x)] => ((hi - lo : Nat) : Int) * x
  | hi, (b, x) :: rest => let m := max lo (min b hi); ((hi - m : Nat) : Int) * x + freqSum lo m rest

/-- The frequency at which holdover freezes: the mean of the last 16 ms within 20 parts per 10^9, or, where it begins again out of
slewing, the present frequency, which lies within 10 ppm of the reference's (R337, R340, R342; log entry 265). -/
def State.holdFreq (s : State) (slewing : Bool) : Int :=
  if slewing then signed 32 (s.rd R.STP_REF_PPB).toNat + (s.free % 20001 : Nat) - 10000
  else
    let span := 16 * beatsPerMs
    freqSum s.beats (s.beats + span) (s.clk.freqs.map (fun e => (e.1 + span, e.2))) / span + (s.free % 41 : Nat) - 20

/-- The frequency window of R332 for an offset from STP_REF_NOM: the nominal frequency within its range, and the offset within the
tolerance that the latest relock took (R360). In holdover the window is centred on the holdover frequency (R339). -/
def State.refWindow (s : State) (ppb : Int) : Bool :=
  let nom := (s.rd R.STP_REF_NOM).toNat % 2 ^ 26
  let centre := if s.flag R.STP_STATUS F.STP_STATUS_HOLDOVER then s.clk.holdPpb else 0
  decide (38000000 ≤ nom) && decide (nom ≤ 42000000)
    && decide ((ppb - centre).natAbs * 1000000 ≤ (max 1 s.clk.refTol * (1000000000 + centre)).toNat)

/-- A measured offset of REFIN is shown (R332), and the root that is locked to REFIN follows it. -/
def State.refMeasured (s : State) (ppb : Int) : State :=
  let s1 := s.wr R.STP_REF_PPB (w32 (unsigned 32 ppb))
  if s1.flag R.STP_STATUS F.STP_STATUS_ON_REFIN && s1.flag R.STP_STATUS F.STP_STATUS_LOCKED then s1.rootAt ppb else s1

/-! ### Relocks -/

/-- An event whose entry sets no INT_STATUS bit and has no code in R467: its code is open. -/
def State.logOpen (s : State) (vec sev unit a0 a1 : Nat) : State := s.took.log vec (s.free % 256) sev unit a0 a1

/-- Holdover ends (R337, R340). -/
def State.holdoverEnd (s : State) : State :=
  let s1 := (s.foff R.STP_STATUS F.STP_STATUS_SLEWING).setClk { s.clk with snap := none }
  if s1.flag R.STP_STATUS F.STP_STATUS_HOLDOVER then
    (((s1.foff R.STP_STATUS F.STP_STATUS_HOLDOVER).foff R.STP_STATUS F.STP_STATUS_REF_FREQ_BAD).raise vSTP
      siHoldOff).emcyOffAll 0xFF20 0xFF
  else s1

/-- Every port loses ALIGNED (R50, R336). -/
def State.unalign (s : State) : State :=
  (upTo 24).foldl (fun x p =>
    if x.flag (R.LNK_STATUS p) F.LNK_STATUS_ALIGNED then (x.foff (R.LNK_STATUS p) F.LNK_STATUS_ALIGNED).condReady p else x) s

/-- A stack goes into self-refresh for a relock (R335, step 1). -/
def State.relockStack (s : State) (k : Nat) : State :=
  if s.srState k = srRefresh ∨ s.srState k = srSwitch then s else s.srGo k srRefresh

/-- STP_PHASE at lock: an error that the spec bounds, below 20 ps, and does not give (R333, R340). -/
def State.lockPhase (s : State) : State :=
  let e : Int := (s.free % 13 : Nat) - 6
  (s.took.fset R.STP_PHASE ⟨0, 16⟩ (unsigned 16 e))

/-- The root is locked: LOCKED and LOCK, the phase error shown, and on REFIN the frequency that it follows from now on (R333, R337, R340). -/
def State.rootLocked (s : State) : State :=
  let s1 := ((s.fon R.STP_STATUS F.STP_STATUS_LOCKED).raise vSTP siLock).lockPhase
  if s1.flag R.STP_STATUS F.STP_STATUS_ON_REFIN then s1.rootAt (signed 32 (s1.rd R.STP_REF_PPB).toNat) else s1

/-- The root cannot wait for REFIN any more, or may not: it goes to the crystal with REF_FAIL (R334). -/
def State.refFail (s : State) : State := (s.fon R.STP_STATUS F.STP_STATUS_REF_FAIL).raise vSTP siRefFail

/-- A relock starts (R334, R335): to the crystal, or to REFIN, for which it waits where it is not qualified. -/
def State.relockStart (s : State) (refin : Bool) : State :=
  let s1 := ((s.holdoverEnd.relockStack 0).relockStack 1).applyXtal
  let s2 := ((s1.foff R.STP_STATUS F.STP_STATUS_LOCKED).fon R.STP_STATUS F.STP_STATUS_RELOCKING).foff R.STP_STATUS
    F.STP_STATUS_ON_REFIN
  let wait := refin && !s2.flag R.STP_STATUS F.STP_STATUS_REF_QUAL
  (s2.setClk { s2.clk with
    stage := if wait then 1 else 2, since := s2.beats, toRefin := refin, stopWt := s2.wt256, phases := [],
    refTol := s2.fget R.STP_CFG F.STP_CFG_REF_TOL }).unalign

/-- The Bobbin's stacks leave self-refresh after a relock (R335, step 6). -/
def State.relockExit (s : State) (k : Nat) : State := if s.srState k = srRefresh then s.srGo k srExiting else s

/-- The clocks start again: warp time goes on without a step, and the relock's discontinuity is written (R335, R336). -/
def State.relockEnd (s : State) : State :=
  let s1 := (((s.relockExit 0).relockExit 1).foff R.STP_STATUS F.STP_STATUS_RELOCKING).foff R.STP_CTRL F.STP_CTRL_RELOCK
  (s1.setClk { s1.clk with stage := 0 }).stepMarks wkRelock s.clk.stopWt s.wt256

/-- The clocks restart after a snap: warp time steps by −e, and holdover ends (R341). -/
def State.snapEnd (s : State) (e : Int) : State :=
  let s1 := s.warpStep wkSnap (unsigned 72 ((s.wt256 : Int) - e))
  let s2 := (s1.setClk { s1.clk with snap := none, phases := [] }).raise vSTP siSnap
  let s3 := s2.fset R.STP_PHASE ⟨0, 16⟩ 0
  if s3.flag R.STP_STATUS F.STP_STATUS_REF_QUAL then
    (((s3.fon R.STP_STATUS F.STP_STATUS_LOCKED).raise vSTP siLock).rootAt (signed 32 (s3.rd R.STP_REF_PPB).toNat)).holdoverEnd
  else s3

end Sys2Proof.Machine
end

