-- ==== Sys2Proof/Machine/Hoofbeat.lean ====
section
/-!
DEFINITION. The commands of the Hoofbeat inputs (R352 to R359).
-/

namespace Sys2Proof.Machine

/-- Bits of HFB_INT_STATUS. -/
def hiDrop : Nat := 0
def hiUnlock : Nat := 1
def hiCalDone : Nat := 2
def hiSuspect : Nat := 3

/-- HFB_STATUS.READY: every enabled input's DLL is locked (R353). -/
def State.hfbReady (s : State) : State :=
  s.fset R.HFB_STATUS F.HFB_STATUS_READY
    (if (upTo 32).all (fun i => !s.hfbOn i || s.bit R.HFB_DLL_LOCK i) then 1 else 0)

/-- Entries that a stamp Quill holds at most (R357). -/
def stampDepth : Nat := 4096

/-- Fraction of a tap code, 1/65,536 beat: the table's, or the centre of equal bins without one (R354). -/
def tapFraction (table : List Nat) (tap : Nat) : Nat := table.getD tap (256 * tap + 128)

/-- HFB_CAL_DATA: the fraction of the code that HFB_CAL_ADDR addresses, in the latest table (R354, R362). -/
def State.calData (s : State) : Word :=
  w32 (tapFraction (s.hfbIn (s.fget R.HFB_CAL_ADDR F.HFB_CAL_ADDR_INPUT)).table (s.fget R.HFB_CAL_ADDR F.HFB_CAL_ADDR_CODE))

/-- Input edges that one edge of an input stands for (R352, R355). -/
def State.hfbWeight (s : State) (i : Nat) : Nat :=
  let c := R.HFB_IN_CFG i
  if s.flag c F.HFB_IN_CFG_PS_EN then 2 ^ s.fget c F.HFB_IN_CFG_PS else 1

/-- The fraction of an edge, 1/256 beat, and whether it is coarse: out of lock it is 0, uncalibrated it comes from equal bins
(R353, R354). -/
def State.hfbFraction (s : State) (i tap : Nat) : Nat × Bool :=
  let t := (s.hfbIn i).inForce
  if s.bit R.HFB_DLL_LOCK i then (tapFraction t tap / 256, t.isEmpty) else (0, true)

/-- The 16 bytes of a stamp (R356). -/
def stampBytes (t : Int) (input flags div edge : Nat) : List Byte :=
  leBytes 8 (unsigned 64 (t / 256)) ++ leBytes 1 (t % 256).toNat ++ leBytes 1 input ++ leBytes 1 flags ++ leBytes 1 div
    ++ leBytes 4 edge

/-- A stamp is pushed into its input's stamp Quill, or refused at full (R357). -/
def State.stampPush (s : State) (i : Nat) (e : SideEntry) : State :=
  let key := 8 + i
  let x := s.side key
  let len := x.quill.length
  if len < stampDepth then
    ((s.setSide key { x with quill := x.quill ++ [e] }).turnPush (qnSide key) len).setHfbIn i { s.hfbIn i with dropBefore := false }
  else s.turnWait (qnSide key) len (.entry e)

/-- A stamp of input i was refused: it is counted, and the input's next stamp says so (R357). -/
def State.stampRefusal (s : State) (i : Nat) : State :=
  let s1 := ((s.sideRefused 3 (8 + i)).count (R.REC_SIDE_DROP 3) 1).bitOn R.REC_SIDE_STATUS 3
  ((((s1.setHfbIn i { s1.hfbIn i with dropBefore := true }).count (R.HFB_DROP_CNT i) 1).raise vHFB hiDrop).raise vREC 1)

/-- The time of an edge, 1/256 beat: the beat it arrives in and the calibrated fraction, less the board delay; out of lock the stamp has
fraction 0 (R353; log entry 267). -/
def State.stampTime (s : State) (i frac : Nat) : Int :=
  let t : Int := (s.wt256 : Int) + frac - signed 16 (s.fget (R.HFB_DLY i) F.HFB_DLY_DLY)
  if s.bit R.HFB_DLL_LOCK i then t else t / 256 * 256

/-- An edge that is stamped: its entry, and its trigger event (R353, R356, R359). -/
def State.stamp (s : State) (i : Nat) (falling : Bool) (tap : Nat) : State :=
  let c := R.HFB_IN_CFG i
  let x := s.hfbIn i
  let (frac, coarse) := s.hfbFraction i tap
  let t := s.stampTime i frac
  let ps := s.flag c F.HFB_IN_CFG_PS_EN
  let flags := (if falling then 1 else 0) + (if coarse then 4 else 0) + (if ps then 8 else 0)
    + (if x.dropBefore then 16 else 0) + (if x.deadBefore then 32 else 0) + (if x.warpStep then 64 else 0)
  let s1 := (s.setHfbIn i { x with lastAt := some (s.beats * 256 + frac), deadBefore := false, warpStep := false }).count
    (R.HFB_STAMP_CNT i) 1
  let s2 := if s.flag c F.HFB_IN_CFG_REC then
      s1.stampPush i ⟨unsigned 64 (t / 256), (t % 256).toNat, i,
        stampBytes t i flags (if ps then s.fget c F.HFB_IN_CFG_PS else 0) (s.rd (R.HFB_EDGE_CNT i)).toNat, s.beats⟩
    else s1
  if s.flag c F.HFB_IN_CFG_EVT then s2.pulseBus (576 + i) (s.beats + 8) t .plain false else s2

/-- An edge, or an output of the prescaler, counts; then come decimation and the dead time (R355). -/
def State.hfbTake (s : State) (i : Nat) (falling : Bool) (tap : Nat) : State :=
  let s1 := s.count (R.HFB_EDGE_CNT i) (s.hfbWeight i)
  let x := s1.hfbIn i
  if x.skipped + 1 < 2 ^ s.fget (R.HFB_IN_CFG i) F.HFB_IN_CFG_DECIM then s1.setHfbIn i { x with skipped := x.skipped + 1 }
  else
    let s2 := s1.setHfbIn i { x with skipped := 0 }
    let now := s.beats * 256 + (s.hfbFraction i tap).1
    let dead := match x.lastAt with
      | some b => decide (now < b + 4 * 256)
      | none => false
    if dead then (s2.setHfbIn i { s2.hfbIn i with deadBefore := true }).count (R.HFB_DEAD_CNT i) 1
    else s2.stamp i falling tap

/-- HFB_EDGE: an edge arrives on an input in use. A prescaler lets every 2^PS-th edge through; while a relock holds
CCLK stopped no edge is seen (R335, R352 to R359; log entry 266). -/
def execHfbEdge (input : Fin 32) (falling : Bool) (tap : Fin 256) (s : State) : Host.Outcome State Fault Refusal :=
  let i := input.val
  let c := R.HFB_IN_CFG i
  let edge := s.fget c F.HFB_IN_CFG_EDGE
  let picked := decide (edge = 2) || decide (edge = if falling then 1 else 0)
  .next (
    let x := s.hfbIn i
    if s.bankLost (i / 8) = true ∨ s.hfbOn i = false ∨ s.flag R.HFB_STATUS F.HFB_STATUS_ENABLE = false ∨ s.runState ≠ rsRunning
        ∨ picked = false ∨ s.clk.stage ≠ 0 then s
    else if x.scaled + 1 < s.hfbWeight i then s.setHfbIn i { x with scaled := x.scaled + 1 }
    else (s.setHfbIn i { x with scaled := 0 }).hfbTake i falling tap.val)

/-- HFB_DLL_LOCK: an input's DLL holds its delay line at one beat (R353). -/
def execHfbDllLock (input : Fin 32) (s : State) : Host.Outcome State Fault Refusal :=
  .next (s.bitOn R.HFB_DLL_LOCK input.val).hfbReady

/-- DLL_UNLOCK: an input's DLL loses lock (R353, R362). -/
def execDllUnlock (input : Fin 32) (s : State) : Host.Outcome State Fault Refusal :=
  .next (
    if s.bit R.HFB_DLL_LOCK input.val then ((s.bitOff R.HFB_DLL_LOCK input.val).raise vHFB hiUnlock).hfbReady else s)

/-- HFB_CAL: calibration starts, or in ARMED, RUNNING and STOPPING is deferred to the next run stop (R354). -/
def execHfbCal (s : State) : Host.Outcome State Fault Refusal :=
  .next (
    if s.flag R.HFB_STATUS F.HFB_STATUS_CALIBRATING then s.again R.HFB_CTRL 0
    else
      let s1 := s.fon R.HFB_CTRL F.HFB_CTRL_CAL
      if s1.atRest then s1.hfbCalStart else s1.fon R.HFB_STATUS F.HFB_STATUS_CAL_PENDING)

/-- The tables of a calibration are loaded, input by input; one that is not whole leaves its input as it was. -/
def State.loadTables (s : State) : List Nat → List (List (BitVec 16)) → State
  | i :: is, t :: ts =>
    let s1 := if t.length = 256 then
        (s.setHfbIn i { s.hfbIn i with table := t.map (fun v => v.toNat) }).bitOn R.HFB_CAL_VALID i
      else s
    s1.loadTables is ts
  | _, _ => s

/-- HFB_CAL_DONE: the tables are complete; they take effect at the next run start (R354). -/
def execHfbCalDone (tables : List (List (BitVec 16))) (s : State) : Host.Outcome State Fault Refusal :=
  .next (
    if s.flag R.HFB_STATUS F.HFB_STATUS_CALIBRATING then
      let s1 := s.loadTables s.hfb.calibrating tables
      let s2 := ((s1.foff R.HFB_STATUS F.HFB_STATUS_CALIBRATING).foff R.HFB_CTRL F.HFB_CTRL_CAL).raise vHFB hiCalDone
      { s2 with hfb := { s2.hfb with calibrating := [] } }
    else s)

/-- Run start of Hoofbeat: tables in force, counts and the prescalers begin anew (R354, R355). -/
def State.hfbStart (s : State) : State :=
  (upTo 32).foldl (fun x i =>
    let y := x.hfbIn i
    (x.setHfbIn i { y with inForce := y.table, scaled := 0, skipped := 0, lastAt := none }).wr (R.HFB_EDGE_CNT i) 0#32) s

end Sys2Proof.Machine
end

