-- ==== Sys2Proof/Machine/Bobbin.lean ====
section
/-!
DEFINITION. The commands of the Bobbin (R163 to R191).
-/

namespace Sys2Proof.Machine

/-- PARTIAL_UNIT_FLUSH: a ring's unit that has held words without filling for 65,536 beats is written partly (R169). -/
def execPartialUnitFlush (channel : Fin 192) (s : State) : Host.Outcome State Fault Refusal :=
  let c := channel.val
  .next (
    if (s.ring c).buf.isEmpty = false ∧ (s.ring c).since.headD s.beats + 65536 ≤ s.beats ∧ (s.ring c).buf.length < s.unitRoom c then
      s.ringFlush c
    else s)

/-- UNIT_COMMIT: a full unit of a ring's write buffer has been written to HBM and its positions are committed (R169). -/
def execUnitCommit (channel : Fin 192) (s : State) : Host.Outcome State Fault Refusal :=
  let c := channel.val
  .next (if s.unitRoom c ≤ (s.ring c).buf.length then s.ringCommit c (s.unitRoom c) else s)

/-- LOOKUP_GO: a lookup of the channel and warp time in its registers starts; while one is under way GO is ignored (R173,
R490). -/
def execLookupGo (s : State) : Host.Outcome State Fault Refusal :=
  .next (
    if s.flag R.BOB_LOOKUP_CTRL F.BOB_LOOKUP_CTRL_GO then s.again R.BOB_LOOKUP_CTRL 16
    else
      let t : Int := (s.pair R.BOB_LOOKUP_WT_LO R.BOB_LOOKUP_WT_HI : Nat) * 256
        + s.fget R.BOB_LOOKUP_CTRL F.BOB_LOOKUP_CTRL_FRAC
      let s1 := s.fon R.BOB_LOOKUP_CTRL F.BOB_LOOKUP_CTRL_GO
      { s1 with bob := { s1.bob with lookup := some ⟨s.fget R.BOB_LOOKUP_CTRL F.BOB_LOOKUP_CTRL_CH, t⟩ } })

/-- The result of a lookup: code and position (R173, R490); with NO_RING the spec gives no position. -/
def State.lookupResult (s : State) (c : Nat) (t : Int) : Nat × Nat :=
  let x := s.ring c
  match x.dir with
  | [] => (4, s.free % 2 ^ 64)
  | e0 :: _ =>
    if !s.ringOn c || decide (192 ≤ c) then (4, s.free % 2 ^ 64)
    else if e0.first ≠ 0 ∧ t < e0.stamp then (2, e0.first)
    else
      match dirFind t x.next x.dir with
      | none => (3, x.next)
      | some p => if p < s.heldFrom c then (2, p) else if p < x.done then (0, p) else (1, p)

/-- LOOKUP_DONE: the position and the result of the lookup under way are loaded, and GO returns to 0 (R173). -/
def execLookupDone (s : State) : Host.Outcome State Fault Refusal :=
  .next (
    match s.bob.lookup with
    | none => s
    | some l =>
      let r := s.lookupResult l.ch l.time
      let s1 := (((s.foff R.BOB_LOOKUP_CTRL F.BOB_LOOKUP_CTRL_GO).setPair R.BOB_LOOKUP_POS_LO R.BOB_LOOKUP_POS_HI r.2).fset
        R.BOB_LOOKUP_STATUS F.BOB_LOOKUP_STATUS_RESULT r.1).took
      { s1 with bob := { s1.bob with lookup := none } })

/-- HBM_REQUEST: a request of up to one 256-byte unit enters its bank queue in its class, or meets a hole, which a Hitch
request is answered for with BUS_ERR (R166, R175, R176, R186). -/
def execHbmRequest (who : Requester) (write : Bool) (offset : BitVec 36) (len : Nat) (id : Nat)
    (data : List (Option (BitVec 8))) (s : State) : Host.Outcome State Fault Refusal :=
  let r := s.hbmEnter who write offset.toNat len id data
  .next (if !r.2 ∧ who = .hitch then r.1.hbmBusErr id write offset.toNat else r.1)

/-- The outcome of an access: 0 without error, 1 corrected, 2 uncorrectable, 3 its command and 4 its write data failed parity
three times (R179 to R181); and a read of a lost unit is uncorrectable. -/
def State.accessKind (s : State) (q : Nat) (r : HbmReq) (outcome : Nat) : Option Nat :=
  if r.write then none
  else if (s.pc q).lost.contains r.unit then some 3
  else if outcome = 2 then some 0
  else if outcome = 3 then some 1
  else if outcome = 4 then some 2
  else none

/-- The HBM offset of a burst of a request: the first, or as many bursts further as the request has. -/
def HbmReq.burstAt (r : HbmReq) (burst : Nat) : Nat :=
  let n := (r.off % 32 + r.len + 31) / 32
  r.off / 32 * 32 + 32 * (burst % max 1 n)

/-- A write of a request is over: its bytes are stored, or its unit is lost (R181), unless a later write to its unit has
had them stored already (R176). A row that has been written back is a repair
candidate at its next uncorrectable burst (R183). -/
def State.writeDone (s : State) (q : Nat) (r : HbmReq) (outcome : Nat) : State :=
  if outcome = 3 ∨ outcome = 4 then
    (s.loseUnit q r.unit).took.log vBOB (s.free % 256) sevError q 0 (0x4000000000 + r.off)
  else
    let s1 := if r.early.isSome then s else s.hbmStore r.off r.data
    let x := s1.pc q
    let key := 48 * unitRow r.unit + unitBank r.unit
    if r.who = .writeBack then
      s1.setPc q { x with rows := Tab.put (fun _ => 0) x.rows key (max 1 (Tab.get (fun _ => 0) x.rows key)) }
    else if r.data.length = 256 ∧ r.data.all Option.isSome = true then
      s1.setPc q { x with lost := x.lost.filter (fun w => w ≠ r.unit) }
    else s1

/-- An access to HBM is over: what the requester gets, and what the device notes (R177, R179 to R182). A Hitch write whose third attempt
failed is answered with OK, as R181 names no other answer (log entry 256). -/
def State.accessDone (s0 : State) (q : Nat) (r : HbmReq) (burst outcome : Nat) : State :=
  let s := if outcome = 1 ∧ r.write = false then
      ((s0.correctedBurst q).hbmEnter .writeBack true r.off r.len r.id []).1
    else s0
  match s.accessKind q r outcome with
  | some kind =>
    let at_ := r.burstAt burst
    let s1 := s.badBurst q r.unit at_ (s.classNow r) kind
    match r.who with
    | .hitch => s1.hbmBusErr r.id false r.off
    | .builder => s1.builderBurst r.id at_
    | .window => s1.builderBurst r.id at_
    | _ => s1
  | none =>
    if r.write then
      let s1 := s.writeDone q r outcome
      if r.who = .hitch then s1.hbmAnswer r.id .ok [] else s1
    else if r.who = .hitch then
      let lat := min 65535 (s.beats - r.since)
      let s1 := if s.hostBase ≤ r.off then
          (s.fset R.BOB_HOST_LAT F.BOB_HOST_LAT_LATEST lat).fset R.BOB_HOST_LAT F.BOB_HOST_LAT_LARGEST
            (max lat (s.fget R.BOB_HOST_LAT F.BOB_HOST_LAT_LARGEST))
        else s
      s1.hbmAnswer r.id .ok (words32 (r.early.getD (s.hbmRead r.off r.len)))
    else s

/-- REFRESH_DUE: a bank owes one more refresh; every one owed is issued, but while the bank's queue holds requests of class 1
to 3 up to 8 are postponed and only a ninth is issued (R178). A stack in self-refresh refreshes itself. -/
def execRefreshDue (pc : Fin 64) (bank : Fin 48) (s : State) : Host.Outcome State Fault Refusal :=
  let q := pc.val
  let b := bank.val
  let x := s.pc q
  let owed := Tab.get (fun _ => 0) x.owed b
  let busy := x.queue.any (fun r => decide (r.unit % 48 = b) && decide (s.classNow r ≤ 3))
  .next (
    if s.srState (q / 32) = srRefresh ∨ s.srState (q / 32) = srSwitch then s
    else if busy = true ∧ owed + 1 ≤ 8 then s.setPc q { x with owed := Tab.put (fun _ => 0) x.owed b (owed + 1) }
    else if busy = true then s.emit (.hbmCommand q 0 b)
    else (upTo (owed + 1)).foldl (fun y _ => y.emit (.hbmCommand q 0 b))
      (s.setPc q { x with owed := Tab.put (fun _ => 0) x.owed b 0 }))

/-- RFM_THRESHOLD: a bank's count of activations has reached the threshold of its stack; RFMpb is issued (R178). -/
def execRfmThreshold (pc : Fin 64) (bank : Fin 48) (s : State) : Host.Outcome State Fault Refusal :=
  let q := pc.val
  let x := s.pc q
  .next ((s.setPc q { x with acts := Tab.put (fun _ => 0) x.acts bank.val 0 }).emit (.hbmCommand q 1 bank.val))

/-- TEMP_POLL: a stack's temperature is shown; at HOT_C its refresh rate doubles, 3 °C below it returns; its
catastrophic-temperature flag is FATAL (R178). -/
def execTempPoll (stack : Fin 2) (temp : BitVec 8) (catastrophic : Bool) (s : State) : Host.Outcome State Fault Refusal :=
  let k := stack.val
  let a := R.BOB_SR_STATUS k
  let t := signed 8 temp.toNat
  let hot : Int := s.fget R.BOB_CFG F.BOB_CFG_HOT_C
  let s1 := s.fset a F.BOB_SR_STATUS_TEMP temp.toNat
  let s2 := if hot ≤ t ∧ s1.flag a F.BOB_SR_STATUS_HOT = false then (s1.fon a F.BOB_SR_STATUS_HOT).raise vBOB 9
    else if t ≤ hot - 3 then s1.foff a F.BOB_SR_STATUS_HOT else s1
  .next (
    if catastrophic then State.fatalStop ((s2.log vBOB (s2.free % 256) sevFatal k 0 0).took) else s2)

/-- PATROL_SCRUB: the next unit is read in class 4: of the host partition, and of the capture region only in IDLE or
CONFIGURED; HOURS 0 stops the scrub (R182). -/
def execPatrolScrub (s : State) : Host.Outcome State Fault Refusal :=
  let host := s.hostBytes / 256
  let total := hbmBytes / 256
  let u := if s.bob.patrol < host ∨ (s.bob.patrol < total ∧ s.atRest = true) then s.bob.patrol else 0
  let off := if u < host then s.hostBase + 256 * u else 256 * (u - host)
  .next (
    if s.fget R.BOB_SCRUB_CFG F.BOB_SCRUB_CFG_HOURS = 0 then s
    else
      let s1 := { s with bob := { s.bob with patrol := u + 1 } }
      match s.hbmUnit off with
      | none => s1
      | some _ => (s1.hbmEnter .scrub false off 256 0 []).1)

/-- PC_PENDING_SET: pseudo-channels 0 to 31, or 32 to 63, whose bits are written as 1 become pending for retirement
(R184). -/
def execPcPendingSet (high : Bool) (value : BitVec 32) (s : State) : Host.Outcome State Fault Refusal :=
  .next ((upTo 32).foldl (fun x i => if value.getLsbD i then x.pendPc (i + if high then 32 else 0) else x) s)

/-- SR_ENTER: entry of a stack into self-refresh is requested (R186). -/
def execSrEnter (stack : Fin 2) (s : State) : Host.Outcome State Fault Refusal :=
  let k := stack.val
  .next (
    if s.srState k = srActive then (s.fon (R.BOB_SR_CTRL k) F.BOB_SR_CTRL_SR_ENTER).srGo k srPending else s)

/-- SR_EXIT: the stack exits once the minimum residency is kept (R186). Written before SRE it stays wanted for the entry that follows
(log entry 257). -/
def execSrExit (stack : Fin 2) (s : State) : Host.Outcome State Fault Refusal :=
  let k := stack.val
  .next (
    if s.srState k = srActive then s
    else (s.fon (R.BOB_SR_CTRL k) F.BOB_SR_CTRL_SR_EXIT).setStack k { s.stack k with exitWanted := true })

/-- FREQ_GO: a change to FSEL through self-refresh; refused in ARMED, RUNNING and STOPPING, and for FSEL 3 (R188,
R191); in self-refresh it waits for the next entry (log entry 257). -/
def execFreqGo (stack : Fin 2) (s : State) : Host.Outcome State Fault Refusal :=
  let k := stack.val
  let f := s.fget (R.BOB_SR_CFG k) F.BOB_SR_CFG_FSEL
  .next (
    if s.atRest = false ∨ f = 3 then s.raise vBOB 8
    else
      let s1 := (s.fon (R.BOB_SR_CTRL k) F.BOB_SR_CTRL_FREQ_GO).setStack k { s.stack k with freqWanted := some f }
      if s1.srState k = srActive then s1.srGo k srPending else s1)

/-- SR_IDLE_EXPIRE: a stack with AUTO has had no request for IDLE_BEATS beats (R186). -/
def execSrIdleExpire (stack : Fin 2) (s : State) : Host.Outcome State Fault Refusal :=
  let k := stack.val
  let idle := max 1 (s.fget (R.BOB_SR_CFG k) F.BOB_SR_CFG_IDLE_BEATS)
  .next (
    if s.flag (R.BOB_SR_CFG k) F.BOB_SR_CFG_AUTO = true ∧ s.srState k = srActive
        ∧ (s.stack k).idleSince + idle ≤ s.beats then s.srGo k srPending else s)

/-- Every bank queue of a stack is empty. -/
def State.stackIdle (s : State) (k : Nat) : Bool := (upTo 32).all (fun i => (s.pc (32 * k + i)).queue.isEmpty)

/-- SR_ENTERING: with its queues empty and no shed armed, a stack whose entry is pending closes its rows (R186). -/
def execSrEntering (stack : Fin 2) (s : State) : Host.Outcome State Fault Refusal :=
  let k := stack.val
  let wants := decide (s.srState k = srPending) || (decide (s.srState k = srActive) && (s.stack k).freqWanted.isSome)
  .next (
    if wants = true ∧ s.stackIdle k = true ∧ (upTo 64).all (fun j => !s.shedArmed j) = true then s.srGo k srEntering else s)

/-- SRE_ISSUE: SRE is issued; an entry that carries a frequency change goes on to the change (R187, R188). -/
def execSreIssue (stack : Fin 2) (s : State) : Host.Outcome State Fault Refusal :=
  let k := stack.val
  .next (
    if s.srState k = srEntering then
      ((s.srGo k (if (s.stack k).freqWanted.isSome then srSwitch else srRefresh)).foff (R.BOB_SR_CTRL k)
        F.BOB_SR_CTRL_SR_ENTER).raise vBOB 6
    else s)

/-- SR_RESIDENCY_END: 96 beats after SRE, a wanted exit issues SRX; during a relock the stacks stay in self-refresh (R187,
R335). -/
def execSrResidencyEnd (stack : Fin 2) (s : State) : Host.Outcome State Fault Refusal :=
  let k := stack.val
  .next (
    if s.srState k = srRefresh ∧ (s.stack k).since + 96 ≤ s.beats ∧ (s.stack k).exitWanted = true
        ∧ s.clk.stage = 0 then s.srGo k srExiting
    else s)

/-- FREQ_SWITCH_DONE: the stack's clock is the one FREQ_GO named, and it exits, at the earliest 96 beats after SRE (R187, R188). -/
def execFreqSwitchDone (stack : Fin 2) (s : State) : Host.Outcome State Fault Refusal :=
  let k := stack.val
  let x := s.stack k
  .next (
    match x.freqWanted with
    | some f =>
      if s.srState k = srSwitch then
        let s1 := (s.setStack k { x with freqWanted := none, exitWanted := true }).fset (R.BOB_SR_STATUS k) F.BOB_SR_STATUS_FCUR f
        if x.since + 96 ≤ s.beats then s1.srGo k srExiting else s1.srShow k srRefresh
      else s
    | none => s)

/-- A stack that holds part of an enabled ring is brought to FSEL 0 for the run that an ARM prepares (R188). -/
def State.stackSpeed (s : State) (k : Nat) : State :=
  if s.run.armSince.isSome && s.stackUsed k && !s.stackFull k && s.srState k == srActive then
    (s.setStack k { s.stack k with freqWanted := some 0 }).srGo k srPending
  else s

/-- SR_EXIT_DONE: 480 beats after SRX the stack is ACTIVE again (R187); where an ARM waits for it, at FSEL 0 (R188). -/
def execSrExitDone (stack : Fin 2) (s : State) : Host.Outcome State Fault Refusal :=
  let k := stack.val
  .next (
    if s.srState k = srExiting ∧ (s.stack k).since + 480 ≤ s.beats then
      ((((s.setStack k { s.stack k with exitWanted := false, idleSince := s.beats }).srGo k srActive).srCtrlDone k).raise
        vBOB 7).stackSpeed k
    else s)

end Sys2Proof.Machine
end

