-- ==== Sys2Proof/Machine/Calibration.lean ====
section
/-!
DEFINITION. The commands of Farrier (R433 to R437).
-/

namespace Sys2Proof.Machine

/-- FAR_PROG: the staged record is checked and the lowest free slot programmed; ignored while a programming is under way that does not end in this beat;
during a VSTBY brownout it waits until that ends (R433, R459). -/
def execFarProg (s : State) : Host.Outcome State Fault Refusal :=
  .next (
    if s.flag R.FAR_STATUS F.FAR_STATUS_BUSY = true ∧ s.flag R.FAR_CTRL F.FAR_CTRL_PROG = true then s.again R.FAR_CTRL 0
    else if s.flag R.FAR_STATUS F.FAR_STATUS_BUSY then s.raise vFAR 5
    else if s.pwr.brownout.isSome then s.fon R.FAR_CTRL F.FAR_CTRL_PROG
    else s.farProg)

/-- FAR_PROG_DONE: programming and read-back end. What the slot read back is given where it differs from the record, which
voids the slot (R433, R434). -/
def execFarProgDone (readback : Option (List (BitVec 8))) (s : State) : Host.Outcome State Fault Refusal :=
  .next (
    match s.far.prog with
    | none => s
    | some p =>
      let s1 := State.foff { s with far := { s.far with prog := none } } R.FAR_STATUS F.FAR_STATUS_BUSY
      match readback with
      | none =>
        let s2 := (s1.farWritten p.slot p.bytes).farResult frOk p.slot
        (match p.auto with
          | some _ => s2.raise vFAR 3
          | none => (s2.raise vFAR 0).foff R.FAR_CTRL F.FAR_CTRL_PROG).farNext
      | some bs =>
        let r := (bs ++ List.replicate 256 0#8).take 256
        ((s1.setSlot p.slot (r.take 3 ++ [0xFF#8] ++ r.drop 4)).showStore.farFailed p frVerifyFail).farNext)

/-- STATS_GO: a signal-statistics calibration is requested for the next run start (R437). -/
def execStatsGo (s : State) : Host.Outcome State Fault Refusal :=
  .next ((s.fon R.FAR_CTRL F.FAR_CTRL_STATS_GO).fon R.FAR_STATUS F.FAR_STATUS_STATS_PENDING)

/-- STATS_CANCEL: a pending or active measurement ends and loads nothing (R437). -/
def execStatsCancel (s : State) : Host.Outcome State Fault Refusal :=
  let s1 := (s.foff R.FAR_CTRL F.FAR_CTRL_STATS_GO).foff R.FAR_STATUS F.FAR_STATUS_STATS_PENDING
  let s2 := s1.foff R.FAR_STATUS F.FAR_STATUS_STATS_ACTIVE
  .next { s2 with far := { s2.far with stats := [] } }

/-- STATS_COUNT_DONE: a channel has counted 2^WINDOW samples that carry neither taint nor overrange, and counts no more
(R437). -/
def execStatsCountDone (channel : Fin 192) (s : State) : Host.Outcome State Fault Refusal :=
  .next (
    match Tab.get (fun _ => none) s.far.stats channel.val with
    | none => s
    | some x =>
      if 2 ^ fieldOf s.far.statsCfg F.FAR_STATS_CFG_WINDOW ≤ x.n then
        { s with far := { s.far with stats := Tab.put (fun _ => none) s.far.stats channel.val (some { x with done := true }) } }
      else s)

/-- STATS_APPLY: an OK result of a measurement with APPLY 1 is written into the channel's CND_OFFSET and CND_GAIN once the
conditioner's ENABLE is 0; each write is journalled as the hardware's, and one that changes a value ends a sealed configuration (R411,
R421, R437). -/
def execStatsApply (channel : Fin 192) (s : State) : Host.Outcome State Fault Refusal :=
  let c := channel.val
  let off := R.CND_OFFSET (c / 8) (c % 8)
  let gain := R.CND_GAIN (c / 8) (c % 8)
  let o := s.fget (R.FAR_STATS_RES0 c) F.FAR_STATS_RES0_OFFSET
  let g := s.fget (R.FAR_STATS_RES0 c) F.FAR_STATS_RES0_GAIN_LO
    + 65536 * s.fget (R.FAR_STATS_RES1 c) F.FAR_STATS_RES1_GAIN_HI
  .next (
    if s.far.toApply.contains c ∧ s.flag (R.CND_STATUS (c / 8)) F.CND_STATUS_ENABLE = false then
      let s1 := (s.fset off F.CND_OFFSET_OFFSET o).fset gain F.CND_GAIN_GAIN g
      let s2 := (s1.journal (s1.jentry 2 0x40 0 off (s1.rd off).toNat)).journal
        (s1.jentry 2 0x40 0 gain (s1.rd gain).toNat)
      let same := decide (s1.rd off = s.rd off) && decide (s1.rd gain = s.rd gain)
      { s2 with
        brd := { s2.brd with sealed := s2.brd.sealed && same }
        far := { s2.far with toApply := s2.far.toApply.filter (fun k => k ≠ c) } }
    else s)

end Sys2Proof.Machine
end

