-- ==== Sys2Proof/Machine/Clocks.lean ====
section
/-!
DEFINITION. The commands of the clock unit and of warp time (R332 to R351).
-/

namespace Sys2Proof.Machine

/-! ### Relocks -/

/-- RELOCK: accepted in IDLE and CONFIGURED, elsewhere ignored with CMD_REFUSED; while a relock is under way it has no further
effect (R334). -/
def execRelock (s : State) : Host.Outcome State Fault Refusal :=
  .next (
    if !s.atRest then s.raise vSTP siCmdRefused
    else if s.clk.stage ≠ 0 then s.again R.STP_CTRL 0
    else (s.fon R.STP_CTRL F.STP_CTRL_RELOCK).relockStart (s.flag R.STP_CFG F.STP_CFG_REF_SEL))

/-- CYCLE_SLIP: a forced relock; in ARMED, RUNNING and STOPPING its entry is FATAL and it issues ABORT in the same beat; in
holdover it goes to the crystal with REF_FAIL (R24, R334, R342). -/
def execCycleSlip (s : State) : Host.Outcome State Fault Refusal :=
  .next (
    if s.clk.stage ≠ 0 then s
    else
      let held := s.flag R.STP_STATUS F.STP_STATUS_HOLDOVER
      let s1 := if s.atRest then s.raise vSTP siUnlock else s.fatal vSTP siUnlock 0 0 0
      let s2 := if s1.runState = rsStopping then
          s1.stopFaulted.abortDiscard
        else s1
      let s3 := if held then s2.refFail else s2
      s3.relockStart (!held && s3.flag R.STP_CFG F.STP_CFG_REF_SEL))

/-- REFIN_QUALIFY_TIMEOUT: REFIN has not qualified within 10 ms, and the relock goes to the crystal (R334). -/
def execRefinQualifyTimeout (s : State) : Host.Outcome State Fault Refusal :=
  .next (
    if s.clk.stage = 1 ∧ s.clk.since + 10 * beatsPerMs ≤ s.beats then
      (s.setClk { s.clk with stage := 2, since := s.beats, toRefin := false }).refFail
    else s)

/-- RELOCK_LOCK_DETECT: the retuned root is locked, and lock is held from now on (R333, R335). -/
def execRelockLockDetect (s : State) : Host.Outcome State Fault Refusal :=
  .next (
    if s.clk.stage = 2 then
      let s1 := s.fset R.STP_STATUS F.STP_STATUS_ON_REFIN (if s.clk.toRefin then 1 else 0)
      let s2 := if s.clk.toRefin then s1.foff R.STP_STATUS F.STP_STATUS_REF_FAIL else s1
      (s2.setClk { s2.clk with stage := 3, since := s2.beats, freqs := [] }).rootLocked
    else s)

/-- RELOCK_RESTART: lock has held for 4,096 reference cycles, and the clocks start together (R335, R336). -/
def execRelockRestart (s : State) : Host.Outcome State Fault Refusal :=
  .next (if s.clk.stage = 3 ∧ s.clk.since + 4096 * 30 ≤ s.beats then s.relockEnd else s)

/-! ### The reference -/

/-- Holdover begins, or begins again out of slewing: LOCKED clears, the frequency freezes, and the warning is written (R337, R342). -/
def State.holdoverStart (s : State) : State :=
  let held := s.flag R.STP_STATUS F.STP_STATUS_HOLDOVER
  let f := s.holdFreq (s.flag R.STP_STATUS F.STP_STATUS_SLEWING)
  let s1 := ((s.took.foff R.STP_STATUS F.STP_STATUS_SLEWING).foff R.STP_STATUS F.STP_STATUS_LOCKED).fon R.STP_STATUS
    F.STP_STATUS_HOLDOVER
  let s2 := (s1.setClk { s1.clk with holdSince := s1.beats, holdLogged := false, holdPpb := f, freqs := [(s1.beats, f)] }).event vSTP
    siHoldOn sevWarning 0 0 0
  if held then s2 else s2.emcyOnAll 0xFF20 7 0xFF

/-- REFIN is lost: the root holds over where it is locked to REFIN; a relock to REFIN waits for it again; slewing ends with a new holdover
(R332, R337, R342). -/
def State.refinGone (s : State) : State :=
  let s1 := s.foff R.STP_STATUS F.STP_STATUS_REF_QUAL
  if s1.clk.stage = 2 ∧ s1.clk.toRefin = true then s1.setClk { s1.clk with stage := 1, since := s1.beats }
  else if (s1.clk.stage = 0 ∨ s1.clk.stage = 3) ∧ s1.flag R.STP_STATUS F.STP_STATUS_ON_REFIN = true
      ∧ (s1.flag R.STP_STATUS F.STP_STATUS_HOLDOVER = false ∨ s1.flag R.STP_STATUS F.STP_STATUS_SLEWING = true) then s1.holdoverStart
  else s1

/-- REFIN_LOST: an edge is missing, or a 1 ms window measured an offset. One within the window is only shown; one outside it loses
REFIN (R332). -/
def execRefinLost (ppb : Option Int) (s : State) : Host.Outcome State Fault Refusal :=
  .next (
    match ppb with
    | none => s.refinGone
    | some x => if s.refWindow x then s.refMeasured x else (s.wr R.STP_REF_PPB (w32 (unsigned 32 x))).refinGone)

/-- HOLDOVER_LIMIT: holdover has lasted longer than STP_HOLD_LIMIT seconds, which is logged once; with HOLD_STOPS in ARMED and
RUNNING as FATAL (R24, R338). -/
def execHoldoverLimit (s : State) : Host.Outcome State Fault Refusal :=
  let limit := (s.rd R.STP_HOLD_LIMIT).toNat % 2 ^ 16
  .next (
    if s.flag R.STP_STATUS F.STP_STATUS_HOLDOVER = true ∧ limit ≠ 0 ∧ s.clk.holdLogged = false
        ∧ s.clk.holdSince + limit * 1000 * beatsPerMs < s.beats then
      let s1 := s.setClk { s.clk with holdLogged := true }
      if s1.flag R.STP_CFG F.STP_CFG_HOLD_STOPS = true ∧ (s1.runState = rsArmed ∨ s1.runState = rsRunning) then
        (s1.logOpen vSTP sevFatal 0 0 0).fatalStop
      else s1.logOpen vSTP sevError 0 0 0
    else s)

/-- The phase error of the first qualified edge taken in the range −15 < e ≤ 15 beats, 1/256 beat (R340). -/
def phaseIn (e : Int) : Int := (e + 3839) % 7680 - 3839

/-- A reference that returned in holdover lies outside the window round the holdover frequency: REF_FREQ_BAD and the warning, and
holdover goes on (R339). -/
def State.refFreqBad (s : State) : State := (s.fon R.STP_STATUS F.STP_STATUS_REF_FREQ_BAD).logOpen vSTP sevWarning 0 0 0

/-- Recovery from holdover begins with the phase error e: the root slews, or the clocks stop for a snap (R340, R341). -/
def State.recover (s : State) (e : Int) : State :=
  let s1 := s.fset R.STP_PHASE ⟨0, 16⟩ (unsigned 16 e)
  if s1.flag R.STP_CFG F.STP_CFG_RECOVER then s1.setClk { s1.clk with snap := some e, phases := [] }
  else s1.fon R.STP_STATUS F.STP_STATUS_SLEWING

/-- A 1 ms window without a missing edge ends with an offset outside the frequency window: the offset is shown, and in holdover a
reference that was not qualified is bad (R332, R339). -/
def State.refOutside (s : State) (ppb : Int) : State :=
  let s1 := s.wr R.STP_REF_PPB (w32 (unsigned 32 ppb))
  if s1.flag R.STP_STATUS F.STP_STATUS_HOLDOVER && !s1.flag R.STP_STATUS F.STP_STATUS_REF_QUAL then s1.refFreqBad else s1

/-- REFIN_QUALIFIED: the reference has passed its 1 ms: a relock that waits for it goes on, and in holdover the root slews to it
or the clocks stop for a snap (R332, R334, R339 to R341). -/
def execRefinQualified (ppb error : Int) (s : State) : Host.Outcome State Fault Refusal :=
  .next (
    if s.refWindow ppb = false then s.refOutside ppb
    else
      let s2 := (s.refMeasured ppb).fon R.STP_STATUS F.STP_STATUS_REF_QUAL
      if s2.clk.stage = 1 then s2.setClk { s2.clk with stage := 2, since := s2.beats }
      else if s2.flag R.STP_STATUS F.STP_STATUS_HOLDOVER = true ∧ s2.clk.snap = none ∧ s2.flag R.STP_STATUS F.STP_STATUS_SLEWING = false then
        s2.recover (phaseIn error)
      else s2)

/-- SNAP_RESTART: the clocks restart aligned to the reference (R341). -/
def execSnapRestart (s : State) : Host.Outcome State Fault Refusal :=
  .next (
    match s.clk.snap with
    | some e => s.snapEnd e
    | none => s)

/-- SLEW_DONE: the phase error has fallen below 20 ps: the root is locked and holdover ends (R340). -/
def execSlewDone (s : State) : Host.Outcome State Fault Refusal :=
  .next (
    if s.flag R.STP_STATUS F.STP_STATUS_SLEWING then
      s.rootLocked.holdoverEnd
    else s)

/-- REF_FREQ_BAD: the 1 ms window of a reference that returned in holdover ends outside the window round the holdover frequency; an offset
inside it is only shown (R332, R339). -/
def execRefFreqBad (ppb : Int) (s : State) : Host.Outcome State Fault Refusal :=
  .next (if s.refWindow ppb then s.refMeasured ppb else s.refOutside ppb)

/-! ### SYNC_IN -/

/-- The root cycles of a period of output i: DIV, where 0 means 4,096 (R343). -/
def State.outDiv (s : State) (i : Nat) : Nat :=
  let d := s.fget (R.STP_OUT_CFG i) F.STP_OUT_CFG_DIV
  if d = 0 then 4096 else d

/-- The outputs that take part in SYNC: driven, in DIV mode, with SYNC_EN, and set up correctly (R347). -/
def State.syncOuts (s : State) : List Nat :=
  (upTo 8).filter (fun i =>
    s.flag (R.STP_OUT_CFG i) F.STP_OUT_CFG_EN && !s.flag (R.STP_OUT_CFG i) F.STP_OUT_CFG_MODE
      && s.flag (R.STP_OUT_CFG i) F.STP_OUT_CFG_SYNC_EN && !s.bit R.STP_OUT_STATUS (16 + i))

/-- What output i carries: held low; the root divided, with its period, half of it high, and the place of its rising edges after phase 0,
both in 1/8 root cycle; or a frequency in Hz, with the depth below and above it of the triangle that spreads it at 31.5 kHz, in
0.05 % (R343, R344). -/
inductive ClkOut where
  | low
  | divided (period rise : Nat)
  | synth (hz below above : Nat)
  deriving DecidableEq, Repr

/-- The rising edges of a DIV output after phase 0, in 1/8 root cycle: a COARSE above DIV − 1 acts as DIV − 1 (R343, R360). -/
def State.clkRise (s : State) (i : Nat) : Nat :=
  8 * min (s.fget (R.STP_OUT_PHASE i) F.STP_OUT_PHASE_COARSE) (s.outDiv i - 1) + s.fget (R.STP_OUT_PHASE i) F.STP_OUT_PHASE_FINE

/-- The outputs are stopped at their low phase: in a relock, for a snap, and those that a SYNC will restart, from 8 beats before W (R335,
R341, R347). -/
def State.outStopped (s : State) (i : Nat) : Bool :=
  decide (s.clk.stage ≠ 0) || s.clk.snap.isSome
    || (s.atRest && s.syncOuts.contains i && s.clk.syncs.any (fun w => decide (w.divAct = 2) && decide (w.beat ≤ s.beats + 8)))

/-- The spread of a SYNTH output: down by DEPTH × 0.1 %, or by DEPTH × 0.05 % to both sides; no rule says what SPREAD 3 does (R344). -/
def State.outSpread (s : State) (i : Nat) : Nat × Nat :=
  let depth := s.fget (R.STP_OUT_CFG i) F.STP_OUT_CFG_DEPTH
  match s.fget (R.STP_OUT_CFG i) F.STP_OUT_CFG_SPREAD with
  | 0 => (0, 0)
  | 1 => (2 * depth, 0)
  | 2 => (depth, depth)
  | _ => Config.outSpread depth

/-- The frequency of a SYNTH output, to within 1 ppm; no rule says what a setting outside 10 MHz to 800 MHz gives (R344). -/
def State.outHz (s : State) (i : Nat) : Nat :=
  let f := (s.rd (R.STP_OUT_FREQ i)).toNat
  if 10000000 ≤ f ∧ f ≤ 800000000 then f else Config.outFreq f

/-- What output i carries in this beat: nothing while it is off, set up wrongly or stopped (R335, R341, R343 to R345, R347; log entry
264). -/
def State.clkOut (s : State) (i : Nat) : ClkOut :=
  if !s.flag (R.STP_OUT_CFG i) F.STP_OUT_CFG_EN || s.bit R.STP_OUT_STATUS (16 + i) || s.outStopped i then .low
  else if s.flag (R.STP_OUT_CFG i) F.STP_OUT_CFG_MODE then .synth (s.outHz i) (s.outSpread i).1 (s.outSpread i).2
  else .divided (8 * s.outDiv i) (s.clkRise i)

/-- The level of output i at an eighth of a root cycle, 0 to 63, of this beat; none where no phase to the beat is
defined (R343 to R345, R347; log entry 264). -/
def State.outLevel (s : State) (i eighth : Nat) : Option Bool :=
  match s.clkOut i, Tab.get (fun _ => none) s.clk.phases i with
  | .low, _ => some false
  | .divided period rise, some b =>
    let t := (s.beats - b) * 64 + eighth
    some (decide (rise ≤ t) && decide ((t - rise) % period < period / 2))
  | _, _ => none

/-- CHECK of an output: its phase against the one that APPLY at this beat would give; the phase of an output that no SYNC
has set is open (R345, R347). -/
def State.checkOut (s : State) (i : Nat) : State :=
  match Tab.get (fun _ => none) s.clk.phases i with
  | some b =>
    if (s.beats - b) * 8 % s.outDiv i = 0 then s.bitOff R.STP_OUT_STATUS (8 + i) else s.bitOn R.STP_OUT_STATUS (8 + i)
  | none => if s.free % 2 = 0 then s.took.bitOff R.STP_OUT_STATUS (8 + i) else s.took.bitOn R.STP_OUT_STATUS (8 + i)

/-- APPLY of an output: its divider restarts at phase 0 in this beat (R347). -/
def State.applyOut (s : State) (i : Nat) : State :=
  (s.bitOff R.STP_OUT_STATUS i).setClk { s.clk with phases := Tab.put (fun _ => none) s.clk.phases i (some s.beats) }

/-- A refused SYNC action (R348). -/
def State.syncRefuse (s : State) : State := s.event vSTP siSyncRefused sevWarning 0 0 0

/-- The action on the output dividers (R347, R348): 0 none, 2 APPLY, else CHECK. -/
def State.syncDiv (s : State) (act : Nat) : State :=
  let outs := s.syncOuts
  if act = 0 then s
  else if act = 2 ∧ s.atRest = true then
    (outs.foldl (fun x i => x.applyOut i) s).unalign
  else outs.foldl (fun x i => x.checkOut i) (if act = 2 then s.syncRefuse else s)

/-- The action on warp time (R347, R348). -/
def State.syncWarp (s : State) (act : Nat) : State :=
  let p := s.pair R.WRP_PRELOAD_LO R.WRP_PRELOAD_HI
  if act = 0 then s
  else if act = 2 ∧ (s.atRest = true ∨ s.flag R.WRP_CFG F.WRP_CFG_RUN_STEP = true) then s.warpStep wkSync (p * 256)
  else
    let s1 := if act = 2 then s.syncRefuse else s
    let d := unsigned 64 ((p : Int) - s.wt)
    let s2 := s1.setPair R.WRP_SYNC_DIFF_LO R.WRP_SYNC_DIFF_HI d
    if d = 0 then s2 else s2.raise vWRP wiMismatch

/-- SYNC_EVENT: SYNC_IN is sampled high after two lows; its action beat lies LAT reference cycles ahead, and with ONESHOT only
an armed event acts (R346, R347). -/
def execSyncEvent (s : State) : Host.Outcome State Fault Refusal :=
  let lat := max 4 (s.fget R.STP_SYNC_CFG F.STP_SYNC_CFG_LAT)
  let acts := !s.flag R.STP_SYNC_CFG F.STP_SYNC_CFG_ONESHOT || s.flag R.STP_CTRL F.STP_CTRL_SYNC_ARM
  let w : SyncWait := ⟨s.beats + 30 * lat, if acts then s.fget R.STP_SYNC_CFG F.STP_SYNC_CFG_DIV_ACT else 0,
    if acts then s.fget R.STP_SYNC_CFG F.STP_SYNC_CFG_WRP_ACT else 0⟩
  .next (
    if s.bankLost 4 then s
    else (s.foff R.STP_CTRL F.STP_CTRL_SYNC_ARM).setClk { s.clk with syncs := s.clk.syncs ++ [w] })

/-- SYNC_ACTION: beat W of the oldest sync event; a snap of the same beat comes first (R342, R347, R348). -/
def execSyncAction (s : State) : Host.Outcome State Fault Refusal :=
  .next (
    match s.clk.syncs with
    | [] => s
    | w :: rest =>
      if s.beats < w.beat then s
      else
        let s0 := s.setClk { s.clk with syncs := rest }
        let s1 := match s0.clk.snap with
          | some e => s0.snapEnd e
          | none => s0
        let s2 := (s1.setPair R.WRP_SYNC_WT_LO R.WRP_SYNC_WT_HI s1.wt).raise vWRP wiSync
        (s2.syncDiv w.divAct).syncWarp w.wrpAct)

/-- SYNC_ARM: the next sync event acts (R347). -/
def execSyncArm (s : State) : Host.Outcome State Fault Refusal := .next (s.fon R.STP_CTRL F.STP_CTRL_SYNC_ARM)

/-! ### LOAD -/

/-- A sync event that gives warp time to a beat (R350). -/
def State.syncTakes (s : State) (b : Nat) : Bool := s.clk.syncs.any (fun w => decide (w.beat = b) && decide (w.wrpAct = 2))

/-- WARP_LOAD: takes WRP_PRELOAD for the beat two beats later; refused while another LOAD waits on past this
beat, in a run without RUN_STEP, and in favour of a SYNC action (R350, R373). -/
def execWarpLoad (s : State) : Host.Outcome State Fault Refusal :=
  .next (
    if (s.atRest = false ∧ s.flag R.WRP_CFG F.WRP_CFG_RUN_STEP = false) ∨ s.syncTakes (s.beats + 2) = true then s.raise vWRP wiRefused
    else if s.clk.load.isSome then s.again R.WRP_CTRL 0
    else
      (s.fon R.WRP_CTRL F.WRP_CTRL_LOAD).setClk
        { s.clk with load := some (s.pair R.WRP_PRELOAD_LO R.WRP_PRELOAD_HI, s.beats + 2) })

/-- WARP_LOAD_APPLY: the target beat of an accepted LOAD takes its value (R350, R351). -/
def execWarpLoadApply (s : State) : Host.Outcome State Fault Refusal :=
  .next (
    match s.clk.load with
    | none => s
    | some (v, b) =>
      if s.beats < b then s
      else (((s.setClk { s.clk with load := none }).foff R.WRP_CTRL F.WRP_CTRL_LOAD).warpStep wkLoad (v * 256)))

end Sys2Proof.Machine
end

