-- ==== Sys2Proof/Machine/Display.lean ====
section
/-!
DEFINITION. The commands of the display (R211 to R229).
-/

namespace Sys2Proof.Machine

/-- PNL_ENABLE: the outputs with OUT_EN set start, or the command is refused with CFG_BAD and an entry (R215, R216). -/
def execPnlEnable (s : State) : Result :=
  .next (
    if s.flag R.PNL_STATUS F.PNL_STATUS_ENABLE then s
    else if s.usedOutputs.all (fun u => s.outputFits u.1 u.2) then
      let s1 := s.fon R.PNL_STATUS F.PNL_STATUS_ENABLE
      let started := if s.independent then s.usedOutputs.map (fun u => u.1) else if s.usedOutputs.isEmpty then [] else [0]
      started.foldl (fun x o =>
        (x.setOutput o { x.output o with running := true, stopAsked := false, lineBeat := x.beats, lineBase := 0 }).composeBegin o) s1
    else
      ((s.fon R.PNL_STATUS F.PNL_STATUS_CFG_BAD).log vPNL (s.free % 256) (s.free / 256 % 3) 0 0 0).took)

/-- PNL_DISABLE: each output stops at its next blank (R215). -/
def execPnlDisable (s : State) : Result :=
  .next (
    if (upTo 2).any (fun o => (s.output o).running) then
      ((upTo 2).foldl (fun x o =>
        if (x.output o).running then x.setOutput o { x.output o with stopAsked := true } else x) s).bitOn R.PNL_CTRL 1
    else s.foff R.PNL_STATUS F.PNL_STATUS_ENABLE)

/-- COMMIT: a snapshot for output 0 or the panel (R225). -/
def execCommit (s : State) : Result := .next (s.commitFor 0)

/-- COMMIT1: a snapshot for output 1, in INDEPENDENT mode (R225). -/
def execCommit1 (s : State) : Result := .next (if s.independent then s.commitFor 1 else s)

/-- PAL: the commit of this beat copies the palette at its flip (R220). -/
def execPal (s : State) : Result := .next s.commitPal

/-- TRAIN0: link training of DP0 (R212). -/
def execTrain0 (s : State) : Result := .next ((s.bitOn R.PNL_CTRL 5).train 0)

/-- TRAIN1: link training of DP1 (R212). -/
def execTrain1 (s : State) : Result := .next ((s.bitOn R.PNL_CTRL 6).train 1)

/-- TRAIN_DONE: after a number of combinations that failed the next one trained, or none remains (R212, R213). -/
def execTrainDone (output : Fin 2) (fails : Nat) (s : State) : Result :=
  let o := output.val
  .next (
    match (s.output o).training with
    | none => s
    | some cs =>
      match cs[fails]? with
      | some (rate, lanes) =>
        let a := R.PNL_OSTATUS o
        let s1 := s.trainEnd o
        ((((s1.fon a F.PNL_OSTATUS_TRAINED).fset a F.PNL_OSTATUS_RATE rate).fset a F.PNL_OSTATUS_LANES lanes).foff a
          F.PNL_OSTATUS_LINK_LOST).auxRelease o
      | none => (s.trainFail o).auxRelease o)

/-- VBLANK: a vertical blank of an output that runs (R199, R217, R225, R226). -/
def execVblank (output : Fin 2) (s : State) : Result :=
  let o := output.val
  let out := s.output o
  .next (
    if out.running then
      let s1 := s.count (R.PNL_VBLANK_CNT o) 1
      let s2 := s1.setOutput o { out with lineBeat := s.beats, lineBase := activeOf (s.rd (R.PNL_VACT o)) }
      let s3 := if out.composed then s2.flip o else (s2.count (R.PNL_LATE_CNT o) 1).raise vPNL (2 + o)
      let s4 := (s3.commitAges o).planesBlank o
      if out.stopAsked then s4.outputStop o else s4
    else s)

/-- COMPOSE_DONE: the frame in composition is in the back store; composition pauses during a relock (R221 to R224, R335). -/
def execComposeDone (output : Fin 2) (s : State) : Result :=
  let o := output.val
  .next (
    if (s.output o).running = true ∧ (s.output o).composed = false ∧ s.clk.stage = 0 then
      let s1 := (s.composeFrame o).layersReach o
      let out := s1.output o
      let out1 := (upTo 8).foldl (fun (x : OutputSt) k => x.setSlot k { x.slot k with reading := none }) out
      State.took (s1.setOutput o { out1 with composed := true })
    else s)

/-- HPD_PLUG: a plug; with AUTO_TRAIN it starts link training (R212, R214). -/
def execHpdPlug (output : Fin 2) (s : State) : Result :=
  let o := output.val
  let s1 := (s.fon (R.PNL_OSTATUS o) F.PNL_OSTATUS_HPD).raise vPNL (5 + o)
  .next (if s1.flag (R.PNL_LINK o) F.PNL_LINK_AUTO_TRAIN then s1.train o else s1)

/-- HPD_UNPLUG: an unplug; of a trained output it loses the link (R214). -/
def execHpdUnplug (output : Fin 2) (s : State) : Result :=
  let o := output.val
  let a := R.PNL_OSTATUS o
  let s1 := (s.foff a F.PNL_OSTATUS_HPD).raise vPNL (5 + o)
  .next (if s.flag a F.PNL_OSTATUS_TRAINED then (s1.foff a F.PNL_OSTATUS_TRAINED).fon a F.PNL_OSTATUS_LINK_LOST else s1)

/-- IRQ_HPD: a short HPD pulse (R214). -/
def execIrqHpd (output : Fin 2) (s : State) : Result := .next (s.raise vPNL (7 + output.val))

/-- AUX_GO: an AUX transaction starts, or waits for the end of link training (R213). -/
def execAuxGo (output : Fin 2) (s : State) : Result :=
  let o := output.val
  let out := s.output o
  .next (
    if out.auxBusy || out.auxWaits then s.again (R.PNL_AUX_CTRL o) 8
    else
      let s1 := s.fon (R.PNL_AUX_CTRL o) F.PNL_AUX_CTRL_GO
      if out.training.isSome then s1.setOutput o { out with auxWaits := true } else s1.auxSend o)

/-- AUX_DONE: the sink replies; a DEFER is answered by sending the transaction again, up to 7 times, and any other reply ends it with its
RESULT; a read that was acknowledged leaves its bytes (R213). -/
def execAuxDone (output : Fin 2) (reply : Fin 4) (bytes : List (BitVec 8)) (s : State) : Result :=
  let o := output.val
  let c := R.PNL_AUX_CTRL o
  .next (
    if (s.output o).auxBusy = true ∧ reply.val = 2 ∧ (s.output o).auxDefers < 7 then
      State.auxSend (s.setOutput o { s.output o with auxDefers := (s.output o).auxDefers + 1 }) o
    else if (s.output o).auxBusy then
      let s1 := s.setOutput o { s.output o with auxBusy := false, auxDefers := 0 }
      let n := min (s.fget c F.PNL_AUX_CTRL_LEN + 1) bytes.length
      let old := (upTo 4).foldl (fun bs j => bs ++ leBytes 4 (s.rd (R.PNL_AUX_DATA o j)).toNat) []
      let new := bytes.take n ++ old.drop n
      let s2 := if reply.val = 0 ∧ s.fget c F.PNL_AUX_CTRL_CMD % 2 = 1 then
          (upTo 4).foldl (fun x j => x.wr (R.PNL_AUX_DATA o j) (w32 (leNat ((new.drop (4 * j)).take 4)))) s1
        else s1
      (((s2.fset c F.PNL_AUX_CTRL_RESULT reply.val).foff c F.PNL_AUX_CTRL_GO)).raise vPNL (11 + o)
    else s)

/-- SCAN_STORE_ECC: scan-out reads a word with an ECC error (R218). -/
def execScanStoreEcc (output : Fin 2) (x : Fin 1920) (y : Fin 1200) (uncorrectable : Bool) (s : State) : Result :=
  let o := output.val
  let out := s.output (if s.independent then o else 0)
  .next (
    if uncorrectable then
      let n := pixelNo out.front (1920 * o + x.val) y.val
      (State.event { s with pnl := { s.pnl with
          badPixels := if s.pnl.badPixels.contains n then s.pnl.badPixels else s.pnl.badPixels ++ [n] } }
        vPNL 14 sevWarning o 0 0)
    else s.count R.PNL_ECC_CE_CNT 1)

end Sys2Proof.Machine
end

