-- ==== Sys2Proof/Machine/ShuWindow.lean ====
section
/-!
DEFINITION. The windows on the Shuttle cores' memories (R233, R267), as software and Spindle reach them.
-/

namespace Sys2Proof.Machine

/-- Core and offset of a 32-bit word in the Shuttle memory windows; none for the addresses that answer with a bus error
(R233). -/
def shuWordOf (addr : Nat) : Option (Nat × Nat) :=
  if 0x1000000 ≤ addr ∧ addr < 0x1000000 + 24 * 0x80000 ∧ (addr - 0x1000000) % 0x80000 < 0x20000 ∧ addr % 4 = 0 then
    some ((addr - 0x1000000) / 0x80000, (addr - 0x1000000) % 0x80000)
  else none

/-- A word of a core's memories as the window shows it (R233). -/
def CoreSt.winRead (c : CoreSt) (off : Nat) : Word :=
  if off < 0x10000 then Tab.get (fun _ => 0#32) c.prog (off / 4)
  else
    let w := (off - 0x10000) / 4
    w32 ((Tab.get (fun _ => 0#16) c.data (2 * w)).toNat + 2 ^ 16 * (Tab.get (fun _ => 0#16) c.data (2 * w + 1)).toNat)

/-- The word holds an uncorrectable error (R267). -/
def CoreSt.winBad (c : CoreSt) (off : Nat) : Bool :=
  if off < 0x10000 then c.progBad.contains (off / 4)
  else c.dataBad.contains ((off - 0x10000) / 2) || c.dataBad.contains ((off - 0x10000) / 2 + 1)

/-- The word is found to hold an uncorrectable error (R267). -/
def CoreSt.winSpoil (c : CoreSt) (off : Nat) : CoreSt :=
  if c.winBad off then c
  else if off < 0x10000 then { c with progBad := off / 4 :: c.progBad }
  else { c with dataBad := (off - 0x10000) / 2 :: c.dataBad }

/-- A software read of a word of core n's memories: what the ECC finds is corrected and counted, or is an error that the read answers with
BUS_ERR and logs (R267). -/
def State.winCheck (s : State) (n off a : Nat) (ecc : Ecc) : State × Bool :=
  let s1 := if ecc = .corrected then (s.count (R.SHU_MEM_CE_CNT n) 1).raise (vSHU n) 6
    else if ecc = .program ∨ ecc = .data then s.setCore n ((s.core n).winSpoil off)
    else s
  if (s1.core n).winBad off then (s1.took.log (vSHU n) (s1.free % 256) sevError 0 0 a, true) else (s1, false)

/-- A word written through the window; it clears an error of the word (R267). -/
def CoreSt.winWrite (c : CoreSt) (off : Nat) (v : Word) : CoreSt :=
  if off < 0x10000 then
    { c with prog := Tab.put (fun _ => 0#32) c.prog (off / 4) v, progBad := c.progBad.filter (fun x => decide (x ≠ off / 4)) }
  else
    let w := (off - 0x10000) / 2
    { c with
      data := Tab.put (fun _ => 0#16) (Tab.put (fun _ => 0#16) c.data w (v.setWidth 16)) (w + 1) ((v >>> 16).setWidth 16),
      dataBad := c.dataBad.filter (fun x => decide (x ≠ w) && decide (x ≠ w + 1)) }

/-- n words of a core's memories read from an offset, each as 4 bytes. -/
def CoreSt.winBytes (c : CoreSt) (off : Nat) : Nat → List Byte
  | 0 => []
  | n + 1 => leBytes 4 (c.winRead off).toNat ++ c.winBytes (off + 4) n

/-- Words written into a core's memories from an offset. -/
def CoreSt.winPut (c : CoreSt) (off : Nat) : List Byte → CoreSt
  | a :: b :: d :: e :: t => (c.winWrite off (w32 (leNat [a, b, d, e]))).winPut (off + 4) t
  | _ => c

/-- Power domain n is on. -/
def State.domainOn (s : State) (n : Nat) : Bool := s.bit R.PWR_DOM_STATE n

end Sys2Proof.Machine
end

