-- ==== Sys2Proof/Machine/SpnOps.lean ====
section
/-!
DEFINITION. Operations of Spindle: channel states (R317, R318), fetching (R316, R319), memory as its channels reach it (R316,
R320, R321), faults (R327), pausing (R328).
-/

namespace Sys2Proof.Machine

/-- Channel states (R317). -/
def spIdle : Nat := 0
def spRunning : Nat := 1
def spWaiting : Nat := 2
def spEndWait : Nat := 3
def spPaused : Nat := 4
def spHalted : Nat := 5
def spError : Nat := 6

/-- Channel k. -/
def State.spch (s : State) (k : Nat) : SpnCh := Tab.get (fun _ => SpnCh.init) s.spn k

/-- Channel k replaced. -/
def State.setSpch (s : State) (k : Nat) (x : SpnCh) : State := { s with spn := Tab.put (fun _ => SpnCh.init) s.spn k x }

/-- SPN_CH_STATUS.STATE of channel k. -/
def State.spnState (s : State) (k : Nat) : Nat := s.fget (R.SPN_CH_STATUS k) F.SPN_CH_STATUS_STATE

/-- Channel k is active (R317). -/
def State.spnActive (s : State) (k : Nat) : Bool := decide (1 ≤ s.spnState k) && decide (s.spnState k ≤ 4)

/-- LEN of a MOVE. -/
def SpnIns.len (i : SpnIns) : Nat := i.w0 / 2 ^ 32

/-- SPN_CH_STATUS and SPN_STATUS.ACTIVE as the channel's state has them (R318, R331). -/
def State.spnShow (s : State) (k : Nat) : State :=
  let x := s.spch k
  let st := s.spnState k
  let a := R.SPN_CH_STATUS k
  let b (v : Bool) : Nat := if v then 1 else 0
  let stopped := decide (st = spHalted) || decide (st = spError)
  let remain := match x.work with
    | some (.move i done) => if stopped then min (2 ^ 24 - 1) ((i.len - done) / 256) else 0
    | _ => 0
  let s1 := (((s.fset a F.SPN_CH_STATUS_LOOP0 (b x.loop0.isSome)).fset a F.SPN_CH_STATUS_LOOP1 (b x.loop1.isSome)).fset a
    F.SPN_CH_STATUS_KEPT (b (decide (st = spError) || (decide (st = spHalted) && x.work.isSome)))).fset a
    F.SPN_CH_STATUS_REMAIN remain
  let s2 := ((s1.fset (R.SPN_CH_CTRL k) F.SPN_CH_CTRL_HALT (b x.haltAsked)).fset (R.SPN_CH_CTRL k) F.SPN_CH_CTRL_STOP
    (b x.stopAsked))
  s2.fset R.SPN_STATUS F.SPN_STATUS_ACTIVE (b ((upTo 64).any (fun j => s2.spnActive j)))

/-- Channel k goes into a state, with its hidden part as given. -/
def State.spnGo (s : State) (k st : Nat) (x : SpnCh) : State :=
  ((s.setSpch k x).fset (R.SPN_CH_STATUS k) F.SPN_CH_STATUS_STATE st).spnShow k

/-- SPN_CH_PC. -/
def State.spnPc (s : State) (k : Nat) : Nat := s.pair (R.SPN_CH_PC_LO k) (R.SPN_CH_PC_HI k)

/-- SPN_CH_PC given a value. -/
def State.setSpnPc (s : State) (k v : Nat) : State := s.setPair (R.SPN_CH_PC_LO k) (R.SPN_CH_PC_HI k) (v % 2 ^ 64)

/-- The registers in which bit k of a channel flag lies. -/
def chanReg (lo hi k : Nat) : Nat := if k < 32 then lo else hi

/-- A fault stops channel k in ERROR, or with a STOP pending in IDLE; its code, direction and address (R327, R329). -/
def State.spnFault (s : State) (k code dir addr : Nat) : State :=
  let x := s.spch k
  let info := code + 16 * dir + 256 * (s.spnPc k / 32 % 2 ^ 24)
  let flags := chanReg R.SPN_ERR_STATUS_LO R.SPN_ERR_STATUS_HI k
  let s1 := ((s.setPair (R.SPN_CH_ERR_ADDR_LO k) (R.SPN_CH_ERR_ADDR_HI k) (addr % 2 ^ 64)).wr (R.SPN_CH_ERR_INFO k) (w32 info)).bitOn
    flags (k % 32)
  let s2 := (if s.bit flags (k % 32) then s1 else s1.raise vSPN 1).log vSPN 1 sevError k 0 (addr % 2 ^ 64)
  if x.stopAsked then
    s2.spnGo k spIdle { x with work := none, haltAsked := false, stopAsked := false, quiesce := none, pcWritten := false }
  else s2.spnGo k spError { x with haltAsked := false, quiesce := none, pcWritten := false }

/-- Fault codes (R327). -/
def sfInstr : Nat := 1
def sfAlign : Nat := 2
def sfBus : Nat := 3
def sfWindow : Nat := 4
def sfPartner : Nat := 5
def sfMem : Nat := 6
def sfDomain : Nat := 7
def sfTimeout : Nat := 8

/-- Something happens to channel k that may stop it with a fault. In the beat in which HALT stopped it at once, the fault counts and
nothing else does (R329). -/
def State.spnBeside (s : State) (k : Nat) (f : State → State) : State :=
  match (s.spch k).halted with
  | some (b, st) =>
    if b = s.beats ∧ s.spnState k = spHalted then
      let t := f (s.spnGo k st (s.spch k))
      if t.spnState k = spError then t else s
    else f s
  | none => f s

/-- The latest POKE of channel k waits for a Hitch write to HBM that came before it and is not done: a command that names no requester for any, a
register write for none, since it came after those of its own requester (R325, R378; log entry 236). -/
def State.pokeHeld (s : State) (k : Nat) : Bool :=
  match (s.spch k).poked with
  | some b => !(s.spch k).pokeFree
    && s.bob.pcs.any (fun e => e.2.queue.any (fun r => r.who == .hitch && r.write && decide (r.since ≤ b)))
  | none => false

/-- A pending poke has taken effect. -/
def State.pokeDone (s : State) (k : Nat) : State :=
  State.foff (s.setSpch k { s.spch k with poked := none }) (R.SPN_CH_CTRL k) F.SPN_CH_CTRL_POKE

/-- A poke of channel k is pending and may take effect (R325). -/
def State.pokeReady (s : State) (k : Nat) : Bool := s.flag (R.SPN_CH_CTRL k) F.SPN_CH_CTRL_POKE && !s.pokeHeld k

/-- A channel parked on END whose pending poke may take effect fetches that word again (R325). -/
def State.pokeOne (s : State) (k : Nat) : State :=
  if s.spnState k = spEndWait ∧ s.pokeReady k = true then
    let t := s.pokeDone k
    t.spnGo k spRunning { t.spch k with work := none }
  else s

/-- POKE is written, by a register write or by a command that names no requester; not in the beat of a STOP (R325, R329). -/
def State.pokeWrite (s : State) (k : Nat) (free : Bool) : State :=
  let x := s.spch k
  if x.stopped = some s.beats then s
  else ((s.setSpch k { x with poked := some s.beats, pokeFree := free }).fon (R.SPN_CH_CTRL k) F.SPN_CH_CTRL_POKE).pokeOne k

/-- Every channel whose poke waited for a write that is done now. -/
def State.pokesServe (s : State) : State := (upTo 64).foldl (fun x k => x.pokeOne k) s

/-! ### Boundaries -/

/-- Channel k is at a boundary with its instruction as given: a STOP, a HALT or a power-down that waits takes effect, else it
goes on running (R318, R328). -/
def State.spnBoundary (s : State) (k : Nat) (w : Option SpnWork) : State :=
  let x := { s.spch k with work := w, asked := s.beats }
  if x.stopAsked then s.spnGo k spIdle { x with work := none, stopAsked := false, haltAsked := false, pcWritten := false, quiesce := none }
  else if x.haltAsked then s.spnGo k spHalted { x with haltAsked := false, pcWritten := false, quiesce := none }
  else
    match x.quiesce with
    | some (_, d) => (s.spnGo k spPaused { x with quiesce := none, pausedIn := some (spRunning, d) }).raise vSPN 2
    | none => s.spnGo k spRunning x

/-- The instruction of channel k is over; the next one follows it in memory. -/
def State.spnNext (s : State) (k : Nat) : State := (s.setSpnPc k (s.spnPc k + 32)).spnBoundary k none

/-! ### Fetching -/

/-- Numbers of 64 bits from bytes. -/
def words64 : Nat → List Byte → List Nat
  | 0, _ => []
  | n + 1, bs => leNat (bs.take 8) :: words64 n (bs.drop 8)

/-- The instruction at the channel's address: W0 to W3, or a fault code (R316, R319, R327). -/
def State.spnFetch (s : State) (k : Nat) (ue : Bool) : Except Nat (List Nat) :=
  let pc := s.spnPc k
  if pc % 32 ≠ 0 then .error sfAlign
  else if s.reach pc 32 ≠ 32 then .error sfBus
  else if ue || (s.lostAfter (pc - 0x4000000000) 32).isSome then .error sfMem
  else .ok (words64 4 (s.hbmLook (pc - 0x4000000000) 32))

/-- A hole that a bus error met is logged (R166). -/
def State.spnHole (s : State) (addr : Nat) : State :=
  match hbmOffset addr with
  | some off => if (s.hbmUnit off).isNone then s.holeAccess off else s
  | none => s

/-- The bits of W0 that an opcode assigns (R319). -/
def spnMask0 (op : Nat) : BitVec 64 :=
  if op = 1 then 0xFFFFFFFF0000003F#64
  else if op = 2 then 0xFFFFFFFF0000001F#64
  else if op = 3 then 0xFFFFFFFFFFFFFF3F#64
  else if op = 4 then 0x0000FF3F000000FF#64
  else 0x0F#64

/-- A bit that R319 does not assign is not 0. -/
def spnReserved (w0 w1 w2 w3 : Nat) : Bool :=
  let op := w0 % 16
  let bit (n : Nat) : Bool := w0 / 2 ^ n % 2 == 1
  let mode := w0 / 16 % 4
  let w1Free := (op == 1 && !bit 4) || (op == 3 && (mode == 0 || mode == 2)) || op == 4 || op == 5
  let w2Free := (op == 1 && !bit 5) || (op == 3 && mode == 2) || op == 4
  ((BitVec.ofNat 64 w0 &&& ~~~(spnMask0 op)) != 0#64)
    || (!w1Free && (if op = 2 then decide (2 ^ 32 ≤ w1) else w1 != 0)) || (!w2Free && w2 != 0) || w3 != 0

/-- A fetch that failed stops its channel (R166, R180, R327). -/
def State.spnFetchFault (s : State) (k : Nat) (ue : Bool) (c : Nat) : State :=
  let pc := s.spnPc k
  (if c = sfBus then s.spnHole (pc + s.reach pc 32)
    else if c = sfMem then s.readReach pc 32 (if ue then some 0 else none) else s).spnFault k c 0 pc

/-- A channel that is ready for its next instruction fetches it, and does what a meaning says where its opcode is the one
given; a reserved bit that is not 0 faults (R319). -/
def State.spnRun (s : State) (k : Nat) (isMine : Nat → Bool) (ue : Bool) (body : State → SpnIns → State) : State :=
  s.spnBeside k (fun t =>
    if t.spnState k ≠ spRunning ∨ (t.spch k).work.isSome = true then t
    else
      let pc := t.spnPc k
      match t.spnFetch k ue with
      | .error c => t.spnFetchFault k ue c
      | .ok [w0, w1, w2, w3] =>
        let s1 := t.readReach pc 32 none
        if !isMine (w0 % 16) then t
        else if spnReserved w0 w1 w2 w3 then s1.spnFault k sfInstr 0 pc
        else body s1 ⟨w0, w1, w2⟩
      | .ok _ => t)

/-! ### Turns on a port (R303, R326) -/

/-- The next of these numbers, in ascending order, after the last one that had its turn, with wrap-around. -/
def nextAfter (last : Nat) (xs : List Nat) : Option Nat :=
  match xs.find? (fun x => decide (last < x)) with
  | some x => some x
  | none => xs.head?

/-- The tagged fragment of engine e that goes out on port p, where its ring takes it. -/
def State.entryAt (s : State) (p e : Nat) : Option Fragment :=
  match (s.engine e).held with
  | some f =>
    if f.trailer.isSome && s.streamPort f.hdr.stream == p && s.ringTakes p (s.streamRing f.hdr.stream) f.entryLen then some f else none
  | none => none

/-- The engine whose entry port p takes next: the one whose entry is partly written, else round robin (R303). -/
def State.entryTurn (s : State) (p : Nat) : Option Nat :=
  match (s.hport p).entryEngine.filter (fun e => (s.entryAt p e).isSome) with
  | some e => some e
  | none => nextAfter (s.hport p).lastEngine ((upTo 32).filter (fun e => (s.entryAt p e).isSome))

/-- The bytes of a fragment's ring entry (R303). -/
def Fragment.entry (f : Fragment) (trailer : List Byte) : List Byte :=
  let b := f.hdr.bytes ++ f.body ++ trailer
  b ++ List.replicate (f.entryLen - b.length) 0#8

/-- The memory writes of bytes put into a ring from a count upward, wrapping at its end (R299, R303). -/
def State.ringWrites (s : State) (p r at_ : Nat) (bytes : List Byte) : List (Nat × List Byte) :=
  let size := s.ringSize p r
  let base := s.pair (R.HNS_RING_BASE_LO p r) (R.HNS_RING_BASE_HI p r)
  let o := at_ % size
  let head := bytes.take (size - o)
  writesOf (s.mps p) (base + o) head (head.length + 1)
    ++ writesOf (s.mps p) base (bytes.drop head.length) (bytes.length + 1)

/-- The memory writes of a fragment's ring entry. -/
def State.entryWrites (s : State) (p : Nat) (f : Fragment) (trailer : List Byte) : List (Nat × List Byte) :=
  let r := s.streamRing f.hdr.stream
  s.ringWrites p r (s.pring p r).written (f.entry trailer)

/-- Port p writes what is left of the entry of engine k. -/
def State.entryRest (s : State) (p k : Nat) (f : Fragment) (trailer : List Byte) : State :=
  let x := s.hport p
  State.setHport (s.sendWrites p ((s.entryWrites p f trailer).drop x.entryTlps)) p
    { x with lastEngine := k, entryEngine := none, entryTlps := 0, spinLast := false }

/-- Two parties' memory writes in turn until those of the first are out, the second first where theirs is the next; and how many of the second
went (R326). -/
def altWrites (second : Bool) : List (Nat × List Byte) → List (Nat × List Byte) → List (Nat × List Byte) × Nat
  | [], _ => ([], 0)
  | x :: xs, y :: ys =>
    if second then
      let r := altWrites true xs ys
      (y :: x :: r.1, r.2 + 1)
    else
      let r := altWrites true xs (y :: ys)
      (x :: r.1, r.2)
  | xs, [] => (xs, 0)

/-- The entry whose turn it is on port p, and its memory writes that have not gone. -/
def State.entryLeft (s : State) (p : Nat) : Option (Nat × List (Nat × List Byte)) :=
  (s.entryTurn p).bind (fun e => (s.entryAt p e).bind (fun f => f.trailer.map (fun t =>
    (e, (s.entryWrites p f t).drop (s.hport p).entryTlps))))

/-- Spindle's memory writes go out on port p: those of a PRIO 1 channel alternate with the writes of the entry whose turn it is; those of a
PRIO 0 channel find none that waits (R326). -/
def State.spinPut (s : State) (p : Nat) (ws : List (Nat × List Byte)) : State :=
  let x := s.hport p
  match s.entryLeft p with
  | none => State.setHport (s.sendWrites p ws) p { x with spinLast := true }
  | some (e, ys) =>
    let r := altWrites x.spinLast ws ys
    State.setHport (s.sendWrites p r.1) p { x with
      spinLast := true, entryTlps := x.entryTlps + r.2, entryEngine := if r.2 = 0 then x.entryEngine else some e }

/-! ### Memory -/

/-- What a Spindle access meets: it is done, with the bytes of a read; or a fault code. -/
abbrev SpnAcc := Except Nat (List Byte)

/-- A read of n bytes at a Spindle address (R313, R316): ue, the HBM read met an uncorrectable error; given, the bytes that a
partner answered with, none where its read failed. -/
def State.spnRead (s : State) (addr n : Nat) (ue : Bool) (given : Option (List Byte)) : SpnAcc :=
  match hbmOffset addr with
  | some off =>
    if s.reach addr n ≠ n then .error sfBus
    else if ue || (s.lostAfter off n).isSome then .error sfMem
    else .ok (s.hbmLook off n)
  | none =>
    match windowOf addr with
    | some (p, w, o) =>
      if !s.domainOn (24 + p) then .error sfDomain
      else
        match s.windowBus p w o n false with
        | none => .error sfWindow
        | some _ =>
          if !s.portWriting p then .error sfPartner
          else match given with
            | none => .error sfPartner
            | some bs => .ok (bs.take n ++ List.replicate (n - bs.length) 0#8)
    | none =>
      match shuWordOf (addr / 4 * 4) with
      | none => .error sfBus
      | some (c, off) =>
        if !s.domainOn c then .error sfDomain
        else if !s.coreHalted c || decide (0x20000 < off + addr % 4 + n) then .error sfBus
        else if (upTo ((n + 3) / 4)).any (fun i => (s.core c).winBad (off + 4 * i)) then .error sfBus
        else .ok (((s.core c).winBytes off ((addr % 4 + n + 3) / 4)).drop (addr % 4) |>.take n)

/-- The read requests of n bytes at a Spindle address go out, where it lies in a partner window and the port writes (R299, R313). -/
def State.spnAsk (s : State) (addr n : Nat) : State :=
  match windowOf addr with
  | some (p, w, o) =>
    match s.windowBus p w o n false with
    | some bus => if s.portWriting p && s.domainOn (24 + p) then s.partnerGet p bus n (n + 1) else s
    | none => s
  | none => s

/-- The beats after which a read of partner memory without completion fails (R299, R330). -/
def State.cto (s : State) (p : Nat) : Nat :=
  let c := fieldOf (s.hport p).cfg F.HNS_PORT_CFG_CTO
  beatsPerMs * (if c = 0 then 1 else if c = 1 then 10 else 50)

/-- A read of n bytes that ends in a fault stops its channel (R166, R180, R327). -/
def State.spnReadFault (s : State) (k addr n : Nat) (ue : Option Nat) (c : Nat) : State :=
  (if c = sfBus then s.spnHole (addr + s.reach addr n) else if c = sfMem then s.readReach addr n ue
    else if c = sfPartner then s.spnAsk addr n else s).spnFault k c 1 addr

/-- The partner port that an address lies behind. -/
def partnerOf (addr : Nat) : Option Nat := (windowOf addr).map (fun w => w.1)

/-- Whether n bytes can be written at a Spindle address: none, or the fault code (R313, R316). -/
def State.spnMayWrite (s : State) (addr n : Nat) : Option Nat :=
  match hbmOffset addr with
  | some _ => if s.reach addr n ≠ n then some sfBus else none
  | none =>
    match windowOf addr with
    | some (p, w, o) =>
      if !s.domainOn (24 + p) then some sfDomain
      else
        match s.windowBus p w o n true with
        | none => some sfWindow
        | some _ => if s.portWriting p then none else some sfPartner
    | none =>
      match shuWordOf addr with
      | none => some sfBus
      | some (c, off) =>
        if !s.domainOn c then some sfDomain
        else if !s.coreHalted c || decide (0x20000 < off + n) then some sfBus
        else none

/-- The bytes written at a Spindle address where they may be; channel k notes the partner address it wrote last (R324). -/
def State.spnWrite (s : State) (k addr : Nat) (bs : List Byte) : State :=
  match hbmOffset addr with
  | some off => s.hbmFill off bs
  | none =>
    match windowOf addr with
    | some (p, w, o) =>
      match s.windowBus p w o bs.length true with
      | none => s
      | some bus =>
        let s1 := s.spinPut p (writesOf (s.mps p) bus bs (bs.length + 1))
        s1.setSpch k { s1.spch k with touched := Tab.put (fun _ => 2 ^ 64) (s1.spch k).touched p (bus + (bs.length - 4)) }
    | none =>
      match shuWordOf addr with
      | none => s
      | some (c, off) => s.setCore c ((s.core c).winPut off bs)

/-! ### MOVE -/

/-- SLEN and DLEN of channel k. -/
def State.spnSlen (s : State) (k : Nat) : Nat := s.fget (R.SPN_CH_LEN k) F.SPN_CH_LEN_SLEN
def State.spnDlen (s : State) (k : Nat) : Nat := s.fget (R.SPN_CH_LEN k) F.SPN_CH_LEN_DLEN

/-- SPTR and DPTR of channel k. -/
def State.spnSptr (s : State) (k : Nat) : Nat := s.pair (R.SPN_CH_SPTR_LO k) (R.SPN_CH_SPTR_HI k)
def State.spnDptr (s : State) (k : Nat) : Nat := s.pair (R.SPN_CH_DPTR_LO k) (R.SPN_CH_DPTR_HI k)

/-- XCNT of channel k. -/
def State.spnXcnt (s : State) (k : Nat) : Nat := s.pair (R.SPN_CH_XCNT_LO k) (R.SPN_CH_XCNT_HI k)

/-- SBASE and DBASE of channel k. -/
def State.spnSbase (s : State) (k : Nat) : Nat := s.pair (R.SPN_CH_SBASE_LO k) (R.SPN_CH_SBASE_HI k)
def State.spnDbase (s : State) (k : Nat) : Nat := s.pair (R.SPN_CH_DBASE_LO k) (R.SPN_CH_DBASE_HI k)

/-- The source and the destination of a MOVE are circular buffers. -/
def SpnIns.sCirc (i : SpnIns) : Bool := i.w0 / 16 % 2 == 1
def SpnIns.dCirc (i : SpnIns) : Bool := i.w0 / 32 % 2 == 1

/-- The source address of the next element of a MOVE with done bytes moved (R319, R321). -/
def State.spnSrc (s : State) (k : Nat) (i : SpnIns) (done : Nat) : Nat :=
  if i.sCirc then s.spnSbase k + s.spnSptr k else i.w1 + done

/-- The destination address of the next element. -/
def State.spnDst (s : State) (k : Nat) (i : SpnIns) (done : Nat) : Nat :=
  if i.dCirc then s.spnDbase k + s.spnDptr k else i.w2 + done

/-- The bytes of the next element: up to LEN, a 4 KiB boundary of either side, or the wrap of a buffer (R320). -/
def State.spnElement (s : State) (k : Nat) (i : SpnIns) (done : Nat) : Nat :=
  let n0 := min (i.len - done) (4096 - s.spnSrc k i done % 4096)
  let n1 := min n0 (4096 - s.spnDst k i done % 4096)
  let n2 := if i.sCirc then min n1 (2 ^ s.spnSlen k - s.spnSptr k % 2 ^ s.spnSlen k) else n1
  if i.dCirc then min n2 (2 ^ s.spnDlen k - s.spnDptr k % 2 ^ s.spnDlen k) else n2

/-- A circular buffer is set up as R321 asks. -/
def bufferOk (base len : Nat) : Bool :=
  let b := if (windowOf base).isSome then base % 2 ^ 48 else base
  decide (12 ≤ len) && decide (len ≤ 40) && decide (b % 2 ^ len = 0)

/-- The alignment fault of a MOVE with done bytes moved, with its direction and address: its present addresses and length, and the buffers as they
are set up now (R316, R321, R327). -/
def State.spnMoveBad (s : State) (k : Nat) (i : SpnIns) (done : Nat) : Option (Nat × Nat) :=
  let src := s.spnSrc k i done
  let dst := s.spnDst k i done
  if i.sCirc ∧ bufferOk (s.spnSbase k) (s.spnSlen k) = false then some (1, src)
  else if i.dCirc ∧ bufferOk (s.spnDbase k) (s.spnDlen k) = false then some (2, dst)
  else if src % 4 ≠ 0 ∨ i.len % 4 ≠ 0 then some (1, src)
  else if dst % 4 ≠ 0 then some (2, dst)
  else none

/-- An element is over: the count and the circular pointers advance by its length (R320, R321). -/
def State.spnAdvance (s : State) (k : Nat) (i : SpnIns) (n : Nat) : State :=
  let s1 := s.setPair (R.SPN_CH_XCNT_LO k) (R.SPN_CH_XCNT_HI k) ((s.spnXcnt k + n) % 2 ^ 64)
  let s2 := if i.sCirc then
      s1.setPair (R.SPN_CH_SPTR_LO k) (R.SPN_CH_SPTR_HI k) ((s.spnSptr k + n) % 2 ^ s.spnSlen k) else s1
  if i.dCirc then s2.setPair (R.SPN_CH_DPTR_LO k) (R.SPN_CH_DPTR_HI k) ((s.spnDptr k + n) % 2 ^ s.spnDlen k) else s2

/-! ### Domains -/

/-- The power domain that a Spindle address touches: a slice for its Shuttle memories, a port for its windows (R328). -/
def domainOf (addr : Nat) : Option Nat :=
  match windowOf addr with
  | some (p, _, _) => some (24 + p)
  | none => (shuWordOf (addr / 4 * 4)).map (fun c => c.1)

/-- The address and direction by which the element of a MOVE after done bytes touches domain d. -/
def State.elementTouches (s : State) (k d : Nat) (i : SpnIns) (done : Nat) : Option (Nat × Nat) :=
  if i.len ≤ done then none
  else if domainOf (s.spnSrc k i done) = some d then some (s.spnSrc k i done, 1)
  else if domainOf (s.spnDst k i done) = some d then some (s.spnDst k i done, 2)
  else none

/-- The address and direction by which the current or next element of channel k touches domain d: of the MOVE under way, or of the one that it is
about to fetch (R328; log entry 263). -/
def State.spnTouches (s : State) (k d : Nat) : Option (Nat × Nat) :=
  match (s.spch k).work with
  | some (.move i done) =>
    match s.elementTouches k d i done with
    | some e => some e
    | none => (s.spnAdvance k i (s.spnElement k i done)).elementTouches k d i (done + s.spnElement k i done)
  | none =>
    match s.spnFetch k false with
    | .ok [w0, w1, w2, w3] =>
      if w0 % 16 = 1 ∧ spnReserved w0 w1 w2 w3 = false then s.elementTouches k d ⟨w0, w1, w2⟩ 0 else none
    | _ => none
  | _ => none

/-- The channels that touch a domain are asked to quiesce: one that has no element in flight pauses at once (R328). -/
def State.spnQuiesce (s : State) (d : Nat) : State :=
  (upTo 64).foldl (fun x k =>
    if x.spnState k = spRunning ∧ (x.spnTouches k d).isSome = true then
      let y := x.setSpch k { x.spch k with quiesce := some (x.beats, d) }
      if (x.spch k).work.isNone then y.spnBoundary k none else y
    else x) s

/-- Some channel has been asked to quiesce for a domain and has not paused yet. -/
def State.spnQuiescing (s : State) (d : Nat) : Bool :=
  (upTo 64).any (fun k => match (s.spch k).quiesce with
    | some (_, e) => decide (e = d)
    | none => false)

/-- Channels that paused for a domain go on (R328). -/
def State.spnResume (s : State) (d : Nat) : State :=
  (upTo 64).foldl (fun x k =>
    match (x.spch k).pausedIn with
    | some (st, e) =>
      if x.spnState k = spPaused ∧ e = d then x.spnGo k st { x.spch k with pausedIn := none, asked := x.beats } else x
    | none => x) s

/-! ### Turns of Spindle (R326) -/

/-- PRIO of channel k. -/
def State.spnPrio (s : State) (k : Nat) : Bool := s.flag (R.SPN_CH_CFG k) F.SPN_CH_CFG_PRIO

/-- The port that the next element of channel k is written to. -/
def State.spnPortWrite (s : State) (k : Nat) : Option Nat :=
  match (s.spch k).work with
  | some (.move i done) => (windowOf (s.spnDst k i done)).map (fun w => w.1)
  | _ => none

/-- Channel k has an element to be served: its instruction is a MOVE under way; one of a PRIO 0 channel waits while a record entry goes before
it on its port (R326). -/
def State.spnReady (s : State) (k : Nat) : Bool :=
  decide (s.spnState k = spRunning)
    && (match (s.spch k).work with
      | some (.move _ _) => true
      | _ => false)
    && (s.spnPrio k || (match s.spnPortWrite k with
      | some p => (s.entryTurn p).isNone
      | none => true))

/-- The channel whose element is served next: PRIO 1 before PRIO 0, and within a level in turn (R326). -/
def State.spnTurn (s : State) : Option Nat :=
  let ready (prio : Bool) : List Nat := (upTo 64).filter (fun k => s.spnReady k && s.spnPrio k == prio)
  match nextAfter s.spnTurns.last1 (ready true) with
  | some k => some k
  | none => nextAfter s.spnTurns.last0 (ready false)

/-- Channel k has had an element served. -/
def State.spnServed (s : State) (k : Nat) : State :=
  { s with spnTurns := if s.spnPrio k then { s.spnTurns with last1 := k } else { s.spnTurns with last0 := k } }

end Sys2Proof.Machine
end

