-- ==== Sys2Proof/Machine/Harness.lean ====
section
/-!
DEFINITION. The commands of the Harness ports (R297 to R315) and of the Bridle's tagging engines (R417 to R419).
-/

namespace Sys2Proof.Machine

/-! ### Fragments -/

/-- The header of a fragment as the Bridle completes it (R273, R275). -/
def taggedHeader (h : FragHdr) (auth encrypt : Bool) (keyId : Nat) : FragHdr :=
  { h with enc := h.enc % 2 + (if auth then 2 else 0) + (if encrypt then 4 else 0), keyId := if auth then keyId else 0 }

/-- The nonce of a fragment (R419). -/
def nonceOf (h : FragHdr) : List Byte := leBytes 1 h.stream ++ leBytes 7 h.seq ++ leBytes 4 h.frag

/-- A fragment with a CRC trailer (R275). -/
def crcFragment (f : Fragment) : Fragment :=
  let h := taggedHeader f.hdr false false 0
  { f with hdr := h, trailer := some (leBytes 4 (crc32 (h.bytes ++ f.body)).toNat ++ leBytes 12 0) }

/-- A fragment tagged under a run key: ciphertext of its body's length, a tag of 16 bytes (R275, R419). -/
def tagFragment (f : Fragment) (keyId key run : Nat) (encrypt : Bool) : Fragment :=
  let h := taggedHeader f.hdr true encrypt keyId
  let n := nonceOf h
  if encrypt then
    { f with hdr := h, body := fit f.body.length (Config.gcmCipher run n h.bytes f.body),
             trailer := some (fit 16 (Config.gcmTag run n h.bytes f.body)), key := some key }
  else { f with hdr := h, trailer := some (fit 16 (Config.gcmTag run n (h.bytes ++ f.body) [])), key := some key }

/-- FRAGMENT_TAG: the Bridle completes and tags the fragment that an engine holds; without a session the fragment waits and
its ring stalls; a SEQ of 2^56 is not tagged (R272, R273, R275, R305, R419). -/
def execFragmentTag (engine : Fin 32) (s : State) : Host.Outcome State Fault Refusal :=
  let k := engine.val
  let e := s.engine k
  .next (
    match e.held with
    | none => s
    | some f =>
      if f.trailer.isSome then s
      else
        let st := f.hdr.stream
        let p := s.streamPort st
        let auth := s.flag (R.REC_STREAM_CFG st) F.REC_STREAM_CFG_AUTH
        let enc := s.flag (R.REC_STREAM_CFG st) F.REC_STREAM_CFG_ENCRYPT
        if auth = false then s.setEngine k { e with held := some (crcFragment f) }
        else
          match s.tagKeys p with
          | none => (s.raise vBRD 4).ringStall p (s.streamRing st)
          | some (keyId, key, run) =>
            if 2 ^ 56 ≤ f.hdr.seq then ((s.log vBRD (s.free % 256) sevFatal st 0 0).took).fatalStop
            else
              ((s.setEngine k { e with held := some (tagFragment f keyId key run enc) }).keyUsed p key).count (R.BRD_FRAG_CNT p) 1)

/-- An entry is in its ring: WR_W, the notifications that fall due, the stream's counts (R303, R304, R423). -/
def State.entryWritten (s : State) (p r : Nat) (f : Fragment) : State :=
  let x := s.pring p r
  let len := f.entryLen
  let y : PRing := { x with
    written := x.written + len, entries := x.entries + 1,
    open_ := x.open_ ++ [⟨len, f.hdr.stream, f.hdr.seq, s.beats⟩] }
  let last := f.hdr.flags / fLast % 2 == 1 && (f.hdr.rtype == rtRunEnd || f.hdr.rtype == rtManifest)
  let full := decide (2 ^ s.fget (R.HNS_RING_STATUS p r) F.HNS_RING_STATUS_NB_EXP ≤ y.written - s.ringWr p r)
  let s1 := s.setPring p r { y with due := x.due || last || full }
  let q := s1.stream f.hdr.stream
  s1.setStream f.hdr.stream { q with fragsSent := q.fragsSent + 1, wireSent := q.wireSent + f.hdr.wireLen }

/-- RING_ENTRY_WRITE: the port writes the tagged fragment of the engine whose turn it is as one entry, or the ring stalls (R299, R303 to R305,
R326). -/
def execRingEntryWrite (engine : Fin 32) (s : State) : Host.Outcome State Fault Refusal :=
  let k := engine.val
  let e := s.engine k
  .next (
    match e.held with
    | none => s
    | some f =>
      match f.trailer with
      | none => s
      | some t =>
        let p := s.streamPort f.hdr.stream
        let r := s.streamRing f.hdr.stream
        if s.ringTakes p r f.entryLen then
          if s.entryTurn p ≠ some k then s
          else
            let s1 := (s.entryRest p k f t).entryWritten p r f
            (s1.setEngine k { s1.engine k with held := none }).foff (R.HNS_RING_STATUS p r) F.HNS_RING_STATUS_STALLED
        else s.ringStall p r)

/-! ### Notifications -/

/-- NOTIFY_HOLD_EXPIRE: the oldest unnotified entry was completed HOLD × 1,024 beats ago (R304). -/
def execNotifyHoldExpire (port : Fin 4) (ring : Fin 16) (s : State) : Host.Outcome State Fault Refusal :=
  let p := port.val
  let r := ring.val
  let x := s.pring p r
  let covered := match x.out with
    | some n => n.covers
    | none => 0
  let hold := 1024 * max 1 (s.fget (R.HNS_RING_STATUS p r) F.HNS_RING_STATUS_HOLD)
  .next (
    match x.open_.drop covered with
    | [] => s
    | e :: _ => if e.at_ + hold ≤ s.beats then s.setPring p r { x with due := true } else s)

/-- The 32 bytes of a notification (R304). -/
def State.noticeBytes (s : State) (x : PRing) : List Byte :=
  leBytes 8 x.written ++ leBytes 8 x.entries ++ leBytes 8 s.wt ++ leBytes 4 (x.sentCount + 1)
    ++ leBytes 1 ((if x.lossSince then 1 else 0) + (if x.stallSince then 2 else 0)) ++ leBytes 3 0

/-- NOTIFY_SEND: a due notification is sent once none is outstanding, with the WR then current; a ring whose EN was cleared
is then no longer active (R302, R304). -/
def execNotifySend (port : Fin 4) (ring : Fin 16) (s : State) : Host.Outcome State Fault Refusal :=
  let p := port.val
  let r := ring.val
  let x := s.pring p r
  .next (
    if x.due = true ∧ x.out = none ∧ s.portWriting p = true then
      let addr := (s.pageWord p (ringOff r + 0x10)).toNat + 2 ^ 32 * (s.pageWord p (ringOff r + 0x14)).toNat
      let s1 := s.partnerPut p addr (s.noticeBytes x) 33
      let s2 := (s1.setPring p r { x with
        due := false, out := some ⟨x.written, x.open_.length⟩, lossSince := false, stallSince := false }).setPair
        (R.HNS_RING_WR_LO p r) (R.HNS_RING_WR_HI p r) x.written
      if s2.ringEn p r then s2 else s2.foff (R.HNS_RING_STATUS p r) F.HNS_RING_STATUS_ACTIVE
    else s)

/-- NOTIFY_TRANSMITTED: the outstanding notification has been transmitted in full; the entries it covers count as written
(R304, R307). -/
def execNotifyTransmitted (port : Fin 4) (ring : Fin 16) (s : State) : Host.Outcome State Fault Refusal :=
  let p := port.val
  let r := ring.val
  let x := s.pring p r
  .next (
    match x.out with
    | none => s
    | some n =>
      s.setPring p r { x with out := none, sentWr := n.wr, sentCount := x.sentCount + 1, open_ := x.open_.drop n.covers })

/-! ### Link and resets -/

/-- PERST_ASSERT: the port is held in reset; what it had not notified is lost, its page and rings go back to reset values
(R298, R308). -/
def execPerstAssert (port : Fin 4) (s : State) : Host.Outcome State Fault Refusal :=
  let p := port.val
  let up := s.flag (R.HNS_PORT_STATUS p) F.HNS_PORT_STATUS_LINK_UP
  let s1 := (s.portLoss p).portPageReset p
  let s2 := s1.wr (R.HNS_PORT_STATUS p) (w32 0x200)
  .next (if up then s2.linkFell p else s2)

/-- PERST_DEASSERT: the port leaves reset, with its settings applied (R298). -/
def execPerstDeassert (port : Fin 4) (s : State) : Host.Outcome State Fault Refusal :=
  let p := port.val
  .next (
    if s.flag (R.HNS_PORT_STATUS p) F.HNS_PORT_STATUS_PERST then
      ((s.foff (R.HNS_PORT_STATUS p) F.HNS_PORT_STATUS_PERST).portApply p).resetEnded vHNS p 0
    else s)

/-- A reset of the function: Bus Master Enable and MSI-X are off. -/
def State.functionReset (s : State) (p : Nat) : State :=
  let a := R.HNS_PORT_STATUS p
  (((s.portLoss p).portPageReset p).foff a F.HNS_PORT_STATUS_BME).foff a F.HNS_PORT_STATUS_MSIX_EN

/-- HOT_RESET: the page and its rings go back to reset values, and the settings are applied (R298, R308). -/
def execHotReset (port : Fin 4) (s : State) : Host.Outcome State Fault Refusal :=
  .next (if s.portOpen port.val then ((s.functionReset port.val).portApply port.val).resetEnded vHNS port.val 0 else s)

/-- FLR: the page and its rings go back to reset values (R298, R308). -/
def execFlr (port : Fin 4) (s : State) : Host.Outcome State Fault Refusal :=
  .next (if s.portOpen port.val then (s.functionReset port.val).resetEnded vHNS port.val 0 else s)

/-- The rate a port trains to: at most MAX_GEN (R297, R298). -/
def trainedGen (cfg : Word) (gen : Nat) : Nat :=
  let m := fieldOf cfg F.HNS_PORT_CFG_MAX_GEN
  min (clampNat 1 6 gen) (if 1 ≤ m ∧ m ≤ 6 then m else 6)

/-- The width code a port trains to: at most MAX_WIDTH, or narrower than x4 (R297, R298). -/
def trainedWidth (cfg : Word) (width : Nat) : Nat :=
  if width = 3 then 3 else min width (min 2 (fieldOf cfg F.HNS_PORT_CFG_MAX_WIDTH))

/-- LINK_UP: the port's link comes up in L0; where the port writes again, stalled rings resume and pending MSI-X vectors go out (R299, R305,
R315). -/
def execLinkUp (port : Fin 4) (gen : Fin 8) (width : Fin 4) (x1 : Bool) (s : State) : Host.Outcome State Fault Refusal :=
  let p := port.val
  let a := R.HNS_PORT_STATUS p
  let cfg := (s.hport p).cfg
  .next (
    if s.flag a F.HNS_PORT_STATUS_PERST = true ∨ s.flag a F.HNS_PORT_STATUS_LINK_UP = true then s
    else
      let w := trainedWidth cfg width.val
      let s1 := ((s.fon a F.HNS_PORT_STATUS_LINK_UP).fset a F.HNS_PORT_STATUS_GEN (trainedGen cfg gen.val)).fset a
        F.HNS_PORT_STATUS_WIDTH w
      (((s1.fset a F.HNS_PORT_STATUS_X1 (if w = 3 ∧ x1 = true then 1 else 0)).raise vHNS p).portResume p).msixFlush p)

/-- LINK_DOWN: unnotified entries are lost, the rings stall, and with DOWN_STOPS a run stops (R299, R308). -/
def execLinkDown (port : Fin 4) (s : State) : Host.Outcome State Fault Refusal :=
  let p := port.val
  let a := R.HNS_PORT_STATUS p
  .next (
    if s.flag a F.HNS_PORT_STATUS_LINK_UP then
      let s1 := (s.foff a F.HNS_PORT_STATUS_LINK_UP).foff a F.HNS_PORT_STATUS_L1
      ((s1.portLoss p).portStall p).linkFell p
    else s)

/-- BME_CLEAR: unnotified entries are lost and the rings stall (R299, R308). -/
def execBmeClear (port : Fin 4) (s : State) : Host.Outcome State Fault Refusal :=
  let p := port.val
  let a := R.HNS_PORT_STATUS p
  .next (
    if s.portOpen p = true ∧ s.flag a F.HNS_PORT_STATUS_BME = true then
      ((s.foff a F.HNS_PORT_STATUS_BME).portLoss p).portStall p
    else s)

/-- BME_SET: the port writes again, under the sizes and the MSI-X control that the partner has programmed; stalled rings resume and pending
MSI-X vectors go out (R297, R299, R305, R315). -/
def execBmeSet (port : Fin 4) (mps : Fin 8) (mrrs : Fin 8) (msix : MsixMode) (s : State) : Host.Outcome State Fault Refusal :=
  let p := port.val
  let a := R.HNS_PORT_STATUS p
  .next (
    if s.portOpen p then
      let s1 := (((s.fon a F.HNS_PORT_STATUS_BME).fset a F.HNS_PORT_STATUS_MPS mps.val).fset a F.HNS_PORT_STATUS_MRRS
        mrrs.val).fset a F.HNS_PORT_STATUS_MSIX_EN (if msix = .off then 0 else 1)
      (State.portResume (s1.setHport p { s1.hport p with msixMask := decide (msix = .masked) }) p).msixFlush p
    else s)

/-! ### The partner page -/

/-- RING_CFG_WRITE (R302). -/
def execRingCfgWrite (port : Fin 4) (ring : Fin 16) (value : BitVec 32) (s : State) : Host.Outcome State Fault Refusal :=
  .next (if s.portOpen port.val then s.ringCfgWrite port.val ring.val value else s)

/-- RING_NOTIFY_NOW (R304). -/
def execRingNotifyNow (port : Fin 4) (ring : Fin 16) (value : BitVec 32) (s : State) : Host.Outcome State Fault Refusal :=
  .next (if s.portOpen port.val = true ∧ value.getLsbD 0 = true then s.notifyNow port.val ring.val else s)

/-- RING_RD_WRITE (R306). -/
def execRingRdWrite (port : Fin 4) (ring : Fin 16) (value : BitVec 32) (s : State) : Host.Outcome State Fault Refusal :=
  .next (if s.portOpen port.val then s.ringRdWrite port.val ring.val value else s)

/-- PARTNER_DOORBELL (R314). -/
def execPartnerDoorbell (port : Fin 4) (value : BitVec 32) (s : State) : Host.Outcome State Fault Refusal :=
  .next (if s.portOpen port.val then s.doorbell port.val (value.setWidth 16) else s)

/-- PARTNER_PAGE_WRITE: an access that R301 allows is performed, low word first; any other is discarded and counted (R300,
R301). -/
def execPartnerPageWrite (port : Fin 4) (offset : BitVec 16) (size : Nat) (value : BitVec 64) (s : State) :
    Host.Outcome State Fault Refusal :=
  let p := port.val
  let o := offset.toNat
  .next (
    if s.portOpen p = false then s
    else if pageAccessOk o size then
      let s1 := s.pageWrite p o (value.setWidth 32)
      if size = 8 then s1.pageWrite p (o + 4) ((value >>> 32).setWidth 32) else s1
    else s.portRefuse p)

/-- PARTNER_LATCH_READ: a partner's read of its page; one of PP_WT_LO or RING_WR_LO latches the high word; one that R301 does
not allow is answered with Unsupported Request and counted (R300, R301). -/
def execPartnerLatchRead (port : Fin 4) (offset : BitVec 16) (size : Nat) (s : State) : Host.Outcome State Fault Refusal :=
  let p := port.val
  let o := offset.toNat
  .next (
    if s.portOpen p = false then s
    else if pageAccessOk o size then
      let s1 := s.pageLatch p o
      let lo := leBytes 4 (s.pageRead p o).toNat
      let hi := if size = 8 then leBytes 4 (s1.pageRead p (o + 4)).toNat else []
      s1.took.emit (.partnerCompletion p (some (lo ++ hi)) false)
    else (s.portRefuse p).emit (.partnerCompletion p none false))

/-! ### BAR2, MSI-X and doorbells -/

/-- A grant of port p covers n bytes from an HBM offset (R312). -/
def State.granted (s : State) (p off n : Nat) : Bool :=
  (upTo 8).any (fun g =>
    let base := (s.rd (R.HNS_GRANT_BASE_LO p g)).toNat + 2 ^ 32 * s.fget (R.HNS_GRANT_BASE_HI p g) F.HNS_GRANT_BASE_HI_BASE_HI
    let size := 4096 * s.fget (R.HNS_GRANT_SIZE p g) F.HNS_GRANT_SIZE_SIZE
    decide (base ≤ off) && decide (off + n ≤ base + size))

/-- BAR2_EXP in force: 36, or 37 for any other value (R311, R330). -/
def bar2Exp (cfg : Word) : Nat := if fieldOf cfg F.HNS_PORT_CFG_BAR2_EXP = 36 then 36 else 37

/-- A BAR2 access refused (R311). -/
def State.bar2Refuse (s : State) (p : Nat) : State := (s.portRefuse p).raise vHNS 16

/-- BAR2_READ: served from HBM where it lies within one grant; otherwise answered with Unsupported Request (R311, R312). -/
def execBar2Read (port : Fin 4) (offset : BitVec 64) (len : Nat) (ue : Option Nat) (s : State) :
    Host.Outcome State Fault Refusal :=
  let p := port.val
  let off := offset.toNat
  let cfg := (s.hport p).cfg
  .next (
    if s.portOpen p = false then s
    else if fieldOf cfg F.HNS_PORT_CFG_BAR2_EN = 1 ∧ off + len ≤ 2 ^ bar2Exp cfg ∧ s.granted p off len = true then
      (if s.reach (0x4000000000 + off) len = len then
        (s.readReach (0x4000000000 + off) len ue).emit
          (.partnerCompletion p (some (s.hbmLook off len)) (ue.isSome || (s.lostAfter off len).isSome))
      else
        ((s.holeAccess (off + s.reach (0x4000000000 + off) len)).bar2Refuse p).emit (.partnerCompletion p none false))
    else (s.bar2Refuse p).emit (.partnerCompletion p none false))

/-- BAR2_WRITE: discarded and counted (R311). -/
def execBar2Write (port : Fin 4) (s : State) : Host.Outcome State Fault Refusal :=
  .next (if s.portOpen port.val then s.bar2Refuse port.val else s)

/-- MSIX_SEND: each vector whose bit is 1 is sent, where the partner has enabled MSI-X, or is pending (R315); with MSI-X off it
has no effect (log entry 261). -/
def execMsixSend (port : Fin 4) (value : BitVec 32) (s : State) : Host.Outcome State Fault Refusal :=
  let p := port.val
  .next (
    if s.flag (R.HNS_PORT_STATUS p) F.HNS_PORT_STATUS_MSIX_EN then
      (upTo 32).foldl (fun x v => if value.getLsbD v then x.msixOne p v else x) s
    else s)

/-- A read of HNS_PARTNER_DB pops a doorbell word (R287, R314). -/
def State.doorTake (s : State) (p : Nat) : State × Nat :=
  let y := s.hport p
  match y.door with
  | [] => (s, 0)
  | v :: rest =>
    if s.popValid (qnDoor p) y.door.length then
      let r := s.turnPop (qnDoor p) y.door.length
      (r.1.setHport p { y with door := rest ++ halvesOf r.2 }, v.toNat + 2 ^ 31)
    else (s, 0)

/-- PARTNER_DB_READ: a read pops a doorbell word (R287, R314). -/
def execPartnerDbRead (port : Fin 4) (tag : Nat) (s : State) : Host.Outcome State Fault Refusal :=
  let r := s.doorTake port.val
  .next (r.1.emit (.completion tag .ok [r.2]))

end Sys2Proof.Machine
end

