-- ==== Sys2Proof/Machine/Linkai.lean ====
section
/-!
DEFINITION. The commands of the Linkai ports (R35 to R74, R488, R489).
-/

namespace Sys2Proof.Machine

/-- A register of port p that clears on read answers its value and becomes 0 (R7, class RC); any value while a breach makes the port's results
undefined (R1). -/
def State.rcRead (s : State) (p a tag : Nat) : State :=
  ((if s.breach.contains (vLNK p) then s.took else s).wr a 0#32).emit
    (.completion tag .ok [s.unsure (vLNK p) (s.rd a).toNat % 2 ^ 32])

/-! ### Blocks -/

/-- The payload bits of a block descrambled, bit 0 first: out_k = in_k xor the scrambled bits 19 and 58 before it; the
result holds the new history and the payload (R36). -/
def descramble (hist : Nat) (payload : BitVec 64) : Nat × Nat :=
  (upTo 64).foldl (fun a k =>
    let b := if payload.getLsbD k then 1 else 0
    let o := (b + a.1 / 2 ^ 18 % 2 + a.1 / 2 ^ 57 % 2) % 2
    ((a.1 * 2 + b) % 2 ^ 58, a.2 + o * 2 ^ k)) (hist, 0)

/-- The port takes frames and blocks in this state (R59). -/
def State.lnkListening (s : State) (p : Nat) : Bool :=
  let st := s.lnkState p
  decide (lsLock ≤ st) && decide (st ≤ lsActive)

/-- A lane is in use on its port. -/
def State.lnkUsed (s : State) (p l : Nat) : Bool := (s.rd (R.LNK_CFG p)).getLsbD l

/-- The fault of a pending injection has been applied: GO reads 0, unless an injection of MODE 4 goes on (R74). -/
def State.injected (s : State) (p l : Nat) : State :=
  if (s.lane p l).prbs.errs then s else s.foff (R.LNK_INJ p l) F.LNK_INJ_GO

/-- What every block of a lane leaves, whatever its header: its payload descrambled into the history; the first block after block lock was
gained is discarded (R35, R36). -/
def State.blockTaken (s : State) (p l : Nat) (x : LaneSt) (control : Bool) (payload : BitVec 64) : LaneSt :=
  let d := descramble x.descr payload
  let locked := s.flag (R.LNK_LANE_STATUS p l) F.LNK_LANE_STATUS_BLOCK_LOCK
  { x with
    descr := d.1, descrBits := min 58 (x.descrBits + 64), payload := d.2, payloadOk := locked && !x.skip,
    control := control, skip := x.skip && !locked }

/-- An invalid sync header: counted, toward loss of block lock, and a failure of VERIFY (R42, R60, R68). -/
def State.lnkBadHeader (s : State) (p l : Nat) (x : LaneSt) : State :=
  let full := decide (64 ≤ x.winBlocks + 1)
  let bad := x.winBad + 1
  let lost := decide (16 ≤ bad) && s.flag (R.LNK_LANE_STATUS p l) F.LNK_LANE_STATUS_BLOCK_LOCK
  let s1 := (s.setLane p l { x with
    goodHdrs := 0, winBlocks := (if full || lost then 0 else x.winBlocks + 1),
    winBad := (if full || lost then 0 else bad), goodMarks := (if lost then 0 else x.goodMarks) }).count (R.LNK_LANE_HDR_ERR p l) 1
  let s2 := if lost then
      (((s1.foff (R.LNK_LANE_STATUS p l) F.LNK_LANE_STATUS_BLOCK_LOCK).raise (vLNK p) 4)).lnkStepCondition p false (s1.lnkHears p l)
    else s1
  if s2.lnkState p = lsVerify then s2.lnkVerifyFail p else s2

/-- A valid sync header: 64 in a row gain block lock, and the block after them is discarded (R36, R68). -/
def State.lnkGoodHeader (s : State) (p l : Nat) (x : LaneSt) : State :=
  let full := decide (64 ≤ x.winBlocks + 1)
  let gained := decide (64 ≤ x.goodHdrs + 1) && !s.flag (R.LNK_LANE_STATUS p l) F.LNK_LANE_STATUS_BLOCK_LOCK
  let s1 := s.setLane p l { x with
    skip := x.skip || gained, goodHdrs := min 64 (x.goodHdrs + 1), winBlocks := (if full then 0 else x.winBlocks + 1),
    winBad := (if full then 0 else x.winBad) }
  if gained then s1.fon (R.LNK_LANE_STATUS p l) F.LNK_LANE_STATUS_BLOCK_LOCK else s1

/-- A block of frames. A pending injection of MODE 2 makes the header 11, while INJ_ALLOW is 1 (R74). -/
def State.lnkBlock (s : State) (p l : Nat) (h0 h1 : Bool) (payload : BitVec 64) : State :=
  let y := s.lane p l
  let forced := decide (y.inject = 2) && s.flag (R.LNK_CFG p) F.LNK_CFG_INJ_ALLOW
  let x := s.blockTaken p l { y with inject := if forced then 0 else y.inject } (h0 && !h1 && !forced) payload
  if forced then (s.injected p l).lnkBadHeader p l x
  else if h0 == h1 then s.lnkBadHeader p l x
  else s.lnkGoodHeader p l x

/-! ### PRBS checkers (R72 to R74) -/

/-- The degree of a pattern and its other tap (R72); a code of no pattern is that of PRBS7 (log entry 206). -/
def prbsTaps (pattern : Nat) : Nat × Nat :=
  if pattern = 1 then (9, 5)
  else if pattern = 2 then (15, 14)
  else if pattern = 3 then (23, 18)
  else if pattern = 4 then (31, 28)
  else (7, 6)

/-- The next bit of a pattern after a history, newest in bit 0: x^n + x^m + 1 (R72). -/
def prbsNext (pattern hist : Nat) : Nat :=
  (hist / 2 ^ ((prbsTaps pattern).1 - 1) + hist / 2 ^ ((prbsTaps pattern).2 - 1)) % 2

/-- A bit joins a history of 31. -/
def prbsPush (hist b : Nat) : Nat := (2 * hist + b) % 2 ^ 31

/-- The number of ones of a value of n bits. -/
def onesOf (n v : Nat) : Nat := (upTo n).foldl (fun k i => k + v / 2 ^ i % 2) 0

/-- A checker without lock takes a bit: it is error-free where it follows from the bits received before it, which are not all 0; the new
state, and whether lock is gained (R73). -/
def PrbsSt.hunt (x : PrbsSt) (pattern b : Nat) : PrbsSt × Bool :=
  let n := (prbsTaps pattern).1
  let ok := decide (n ≤ x.seen) && decide (x.hist % 2 ^ n ≠ 0) && decide (prbsNext pattern x.hist = b)
  let good := if ok then x.good + 1 else 0
  ({ x with hist := prbsPush x.hist b, seen := min 31 (x.seen + 1), good := good, wrong := 0 }, decide (64 ≤ good))

/-- A locked checker takes a bit: it follows its own pattern; the new state, whether the bit is wrong, and whether lock is lost, more than
32 of the last 64 bits being wrong (R73). -/
def PrbsSt.follow (x : PrbsSt) (pattern b : Nat) : PrbsSt × Bool × Bool :=
  let e := prbsNext pattern x.hist
  let bad := decide (e ≠ b)
  let wrong := (2 * x.wrong + (if bad then 1 else 0)) % 2 ^ 64
  if 32 < onesOf 64 wrong then ({ x with hist := 0, seen := 0, good := 0, wrong := 0 }, bad, true)
  else ({ x with hist := prbsPush x.hist e, wrong := wrong }, bad, false)

/-- The checker of a lane runs: state PRBS, ENABLE 0, CHK_EN 1 (R73). -/
def State.prbsRuns (s : State) (p l : Nat) : Bool :=
  s.lnkState p == lsPrbs && !s.lnkEnabled p && s.flag (R.LNK_PRBS_CTRL p l) F.LNK_PRBS_CTRL_CHK_EN

/-- A wrong bit of a locked checker (R73). -/
def State.prbsCount (s : State) (p l : Nat) : State := (s.countSat (R.LNK_PRBS_ERR p l) 1).raise (vLNK p) 15

/-- One bit of the line reaches the checker of a lane: replaced by the near-end generator's while LOOP is 1, complemented by an injection
of MODE 4, and by INVERT (R72 to R74). -/
def State.prbsBit (s : State) (p l : Nat) (line : Bool) : State :=
  let a := R.LNK_PRBS_CTRL p l
  let pattern := s.fget a F.LNK_PRBS_CTRL_PATTERN
  let y := s.lane p l
  let x := y.prbs
  let loop := s.flag a F.LNK_PRBS_CTRL_LOOP
  let inv := s.flag a F.LNK_PRBS_CTRL_INVERT
  let out := prbsNext pattern x.gen
  let inj := x.errs && s.flag (R.LNK_CFG p) F.LNK_CFG_INJ_ALLOW
    && decide ((x.count + 1) % 2 ^ s.fget (R.LNK_INJ p l) F.LNK_INJ_RATE = 0)
  let taken := (if loop then decide (out = 1) ^^ inv else line) ^^ inj ^^ inv
  let x1 := { x with gen := if loop then prbsPush x.gen out else x.gen, count := if x.errs then x.count + 1 else x.count }
  let b := if taken then 1 else 0
  let st := R.LNK_LANE_STATUS p l
  if s.flag st F.LNK_LANE_STATUS_PRBS_LOCK then
    let r := x1.follow pattern b
    let s1 := s.setLane p l { y with prbs := r.1 }
    let s2 := if r.2.1 then s1.prbsCount p l else s1
    if r.2.2 then s2.foff st F.LNK_LANE_STATUS_PRBS_LOCK else s2
  else
    let r := x1.hunt pattern b
    let s1 := s.setLane p l { y with prbs := r.1 }
    if r.2 then s1.fon st F.LNK_LANE_STATUS_PRBS_LOCK else s1

/-- The 66 bits of a block as they come: h0, h1, then the payload from bit 0 (R35). -/
def blockBits (h0 h1 : Bool) (payload : BitVec 64) : List Bool := h0 :: h1 :: (upTo 64).map (fun k => payload.getLsbD k)

/-- LINKAI_BLOCK (R35, R36, R68): 66 bits of a lane; in state PRBS they are bits of the pattern, headers included (R72, R73). -/
def execLinkaiBlock (port : Fin 24) (lane : Fin 8) (h0 h1 : Bool) (payload : BitVec 64) (s : State) : Result :=
  let p := port.val
  let l := lane.val
  .next (
    if s.prbsRuns p l then (blockBits h0 h1 payload).foldl (fun x b => x.prbsBit p l b) s
    else if s.lnkListening p && s.lnkUsed p l then s.lnkBlock p l h0 h1 payload
    else s)

/-! ### Frames -/

/-- Bits of a frame: count bits from bit lo. -/
def frameField (f lo count : Nat) : Nat := f / 2 ^ lo % 2 ^ count

/-- The frame with one bit complemented. -/
def flipBit (f b : Nat) : Nat := if f / 2 ^ b % 2 = 1 then f - 2 ^ b else f + 2 ^ b

/-- The frame after a pending injection of MODE 1 or 3 (R74). -/
def injectFrame (mode pos f : Nat) : Nat :=
  if mode = 1 ∧ frameField f 0 16 = 0x5A3C then flipBit f (168 + 14 * min pos 131)
  else if mode = 3 then flipBit f 8
  else f

/-- The CRC of a frame is good: CRC-32 over the 252 bytes of bits [2015:0] (R41). -/
def frameCrcGood (f : Nat) : Bool := (crc32 (leBytes 252 f)).toNat == frameField f 2016 32

/-- The codes of a frame's 132 samples, and whether bit 1 of their stored words is set: from the overrange map, or with
version 1 from STATUS.OVR and the end codes (R40, R71). -/
def frameSamples (v1 : Bool) (f : Nat) : List (Int × Bool) :=
  (upTo 132).map (fun k =>
    let code := signed 14 (frameField f (168 + 14 * k) 14)
    let ovr := if v1 then decide (frameField f 73 1 = 1) && (decide (code = -8192) || decide (code = 8191))
      else decide (frameField f (80 + k / 2) 1 = 1)
    (code, ovr))

/-- The 48-bit INDEX extended to 64 bits next to an earlier extended index: the upper bits advance where INDEX has
wrapped (R49). -/
def extendIndex (ref : Option Nat) (own : Nat) : Nat :=
  match ref with
  | none => own
  | some r => if own + 2 ^ 47 < r % 2 ^ 48 then (r / 2 ^ 48 + 1) * 2 ^ 48 + own else r / 2 ^ 48 * 2 ^ 48 + own

/-- The beats of a frame on port p (R43). -/
def State.lnkFrameBeats (s : State) (p : Nat) : Nat := 132 * strideOf (s.speed p)

/-- The samples of a frame whose first index is i, as its channel stores them (R47, R48, R76). A port whose results are undefined gives free codes
(R1). -/
def State.frameSamps (s : State) (p c i : Nat) (xs : List (Int × Bool)) : List Samp :=
  let g := s.chanGang c
  let st := strideOf (s.speed p)
  let place := s.place p
  let whole := s.beats + s.lnkFrameBeats p
  (xs.zip (upTo xs.length)).map (fun (e : (Int × Bool) × Nat) =>
    let ix := i + e.2 * st * g
    let code := if s.breach.contains (vLNK p) then signed 14 (Config.freeValue (s.fresh + e.2)) else e.1.1
    ⟨sampleStamp place g ix, gridPos place g ix, code, e.1.2, false, whole, st⟩)

/-- The samples of a frame delivered under index i to the alignment store of their channel (R47, R48, R76); a channel whose EN is 0 takes none
(R102). -/
def State.lnkDeliver (s : State) (p l i : Nat) (xs : List (Int × Bool)) : State :=
  let c := s.laneChannel p l
  let g := s.chanGang c
  let st := strideOf (s.speed p)
  let place := s.place p
  let samps := s.frameSamps p c i xs
  let x := s.port p
  let step := 256 * st / g
  let s1 := if x.delivering then s else s.lnkResume p (sampleStamp place g i) step
  let last := sampleStamp place g (i + 131 * st * g)
  let y := s1.port p
  let newest := match y.lastStamp with
    | some t => decide (t < last)
    | none => true
  let s2 := if newest then s1.setPort p { y with lastStamp := some last, lastStep := step } else s1
  let s3 := if s2.breach.contains (vLNK p) then { s2 with fresh := s2.fresh + 132 } else s2
  if s3.flag (R.CND_CH_CFG (c / 8) (c % 8)) F.CND_CH_CFG_EN then s3.storeSamples c 0 samps else s3

/-- The port delivers samples in this state: ENABLE is 1, the placement and Λ stand, no run is stopping (R22, R38, R48, R63, R64). -/
def State.lnkDelivers (s : State) (p : Nat) : Bool :=
  s.lnkEnabled p && s.cond.lambdaSet && s.flag (R.LNK_STATUS p) F.LNK_STATUS_ALIGNED && s.runState != rsStopping
    && (s.lnkState p == lsActive || (s.lnkState p == lsVerify && (s.port p).stepping))

/-- A marker of a frame on a lane: four bad in a row lose frame lock, four good in a row gain it (R68). -/
def State.lnkMarker (s : State) (p l : Nat) (good counts : Bool) : State :=
  let x := s.lane p l
  let a := R.LNK_LANE_STATUS p l
  let locked := s.flag a F.LNK_LANE_STATUS_FRAME_LOCK
  if good && counts then
    let s1 := s.setLane p l { x with badMarks := 0, goodMarks := min 4 (x.goodMarks + 1) }
    if 4 ≤ x.goodMarks + 1 then s1.fon a F.LNK_LANE_STATUS_FRAME_LOCK else s1
  else if good then s.setLane p l { x with badMarks := 0, goodMarks := 0 }
  else
    let s1 := s.setLane p l { x with badMarks := min 4 (x.badMarks + 1), goodMarks := 0 }
    if decide (4 ≤ x.badMarks + 1) && locked then
      ((s1.foff a F.LNK_LANE_STATUS_FRAME_LOCK).raise (vLNK p) 5).lnkStepCondition p false (s1.lnkHears p l)
    else s1

/-- STATUS.CONV_FAULT of a frame: its rise raises CONV_FAULT (R39). -/
def State.lnkConvFault (s : State) (p l : Nat) (now : Bool) : State :=
  let x := s.lane p l
  let s1 := s.setLane p l { x with convFault := now }
  if now && !x.convFault then s1.raise (vLNK p) 16 else s1

/-- A frame taken on a lane: the index it is delivered under, whether its samples are delivered, and what is kept until its CRC result. The prediction
is the frame before it on the lane, one frame on; a lane without one takes the index of a CRC-good frame (R48, R49; log entry 207). After a step
the first frame that passes its CRC resumes delivery on its lane (R64); training frames are delivered in ACTIVE alone (R38, R42). -/
def State.lnkTake (s : State) (p l f : Nat) (good lockHeld : Bool) (xs : List (Int × Bool)) : InFlight :=
  let y := s.lane p l
  let active := decide (s.lnkState p = lsActive)
  let training := frameField f 0 16 == 0x5A3D
  let crc := frameCrcGood f
  let own := extendIndex (match y.pred with
    | some i => some i
    | none => y.ref) (frameField f 16 48)
  let idx := if s.flag (R.LNK_STATUS p) F.LNK_STATUS_ALIGNED || !crc then y.pred.getD own else own
  let ready := crc || (y.live && y.pred.isSome)
  let deliver := s.lnkDelivers p && ready && (active || !training)
  let c := s.laneChannel p l
  let g := s.chanGang c
  let st := strideOf (s.speed p)
  let place := s.place p
  let shift := (s.cch c).shift
  let kept := if deliver && s.flag (R.CND_CH_CFG (c / 8) (c % 8)) F.CND_CH_CFG_EN then
      s.keptSamples c 0 (s.frameSamps p c idx xs)
    else 0
  ⟨idx, crc, good || !lockHeld, training && active, decide (own = idx), own, deliver, false,
    decide (s.lnkState p = lsVerify), c,
    ⟨gridPos place g idx - shift, gridPos place g (idx + 131 * st * g) - shift, st * g⟩, kept,
    s.beats + s.lnkFrameBeats p⟩

/-- A frame on a lane in use: its marker, its version, its index and its samples (R37 to R42, R48, R51). -/
def State.lnkFrame (s : State) (p l f : Nat) (offset : Int) : State :=
  let marker := frameField f 0 16
  let good := marker == 0x5A3C || marker == 0x5A3D
  let lockHeld := s.flag (R.LNK_LANE_STATUS p l) F.LNK_LANE_STATUS_FRAME_LOCK
  let x := s.port p
  let g := gangWidth (s.gangCode p l)
  let layoutOk := decide (frameField f 66 2 = s.gangCode p l) && decide (frameField f 68 2 = l % g)
  let s1 := s.setPort p { x with seenVersion := frameField f 76 4 }
  let s2 := (s1.lnkMarker p l good (!x.layoutDone || layoutOk)).lnkConvFault p l (decide (frameField f 72 1 = 1))
  let xs := frameSamples (s.lnkV1 p) f
  let fl := s2.lnkTake p l f good lockHeld xs
  let y := s2.lane p l
  let step := 132 * strideOf (s.speed p) * g
  let known := y.pred.isSome || fl.crcGood
  let s3 := s2.setLane p l { y with
    pred := if known then some (fl.index + step) else none,
    ref := if known then some fl.index else y.ref,
    live := y.live || fl.delivered, flight := y.flight ++ [fl] }
  let s4 := s3.fset (R.LNK_LANE_STATUS p l) F.LNK_LANE_STATUS_EB_OFFSET (unsigned 8 offset)
  let s5 := if fl.delivered then s4.lnkDeliver p l fl.index xs else s4
  if s.flag (R.LNK_STATUS p) F.LNK_STATUS_ALIGNED && (decide (offset < -96) || decide (96 < offset)) then s5.lnkAlignLost p else s5

/-- LINKAI_FRAME (R37 to R42, R48, R51, R67, R68). Nothing outside the states that take frames, on a lane not in use or
without block lock, and while a relock holds CCLK and the converters' clocks stopped (R335). -/
def execLinkaiFrame (port : Fin 24) (lane : Fin 8) (frame : BitVec 2048) (offset : Int) (s : State) : Result :=
  let p := port.val
  let l := lane.val
  let x := s.lane p l
  .next (
    if !s.lnkListening p || !s.lnkUsed p l || !s.flag (R.LNK_LANE_STATUS p l) F.LNK_LANE_STATUS_BLOCK_LOCK
        || decide (s.clk.stage ≠ 0) then s
    else
      let f := injectFrame (if s.flag (R.LNK_CFG p) F.LNK_CFG_INJ_ALLOW then x.inject else 0) (s.fget (R.LNK_INJ p l) F.LNK_INJ_POS) frame.toNat
      if f = frame.toNat then s.lnkFrame p l f offset
      else ((s.setLane p l { x with inject := 0 }).injected p l).lnkFrame p l f offset)

/-- A frame passed: a frame taken in VERIFY counts as clean there (R42, R60). -/
def State.lnkPassed (s : State) (p l : Nat) (f : InFlight) : State :=
  if f.verify && !f.stale then s.setLane p l { s.lane p l with clean := (s.lane p l).clean + 1 } else s

/-- A frame failed: counted, its samples tainted, VERIFY abandoned, and CRC excess a step condition (R42, R60, R64, R83). One taken before its
lane lost its locks only counts and taints. -/
def State.lnkFailed (s : State) (p l : Nat) (f : InFlight) : State :=
  let s1 := (s.count (R.LNK_LANE_CRC_ERR p l) 1).raise (vLNK p) 6
  let s2 := if f.kept ≠ 0 then s1.taintNotice f.chan f.kept f.at_ else s1
  let y := s2.lane p l
  if f.stale then s2
  else
    let s3 := s2.setLane p l { y with clean := 0, fails := y.fails + 1 }
    if f.verify && s3.lnkState p == lsVerify then s3.lnkVerifyFail p
    else if s3.fget (R.LNK_STEP_CFG p) F.LNK_STEP_CFG_CRC_LIMIT < y.fails + 1 then s3.lnkStepCondition p true true
    else s3

/-- A CRC-good frame against its prediction: INDEX_ERR, and after four that agree with one another ALIGN_LOST (R48). -/
def State.lnkIndexCheck (s : State) (p l : Nat) (f : InFlight) : State :=
  let y := s.lane p l
  let step := 132 * strideOf (s.speed p) * gangWidth (s.gangCode p l)
  if !f.crcGood || f.stale then s
  else if f.indexGood then s.setLane p l { y with misRun := 0 }
  else
    let run := if y.misRun ≠ 0 ∧ y.misNext = f.ownIndex then y.misRun + 1 else 1
    let s1 := (s.setLane p l { y with misRun := run, misNext := f.ownIndex + step }).raise (vLNK p) 9
    if 4 ≤ run then s1.lnkAlignLost p else s1

/-- CRC_RESULT (R42, R48, R64): the lane's oldest frame whose result is outstanding passes or fails. -/
def execCrcResult (port : Fin 24) (lane : Fin 8) (s : State) : Result :=
  let p := port.val
  let l := lane.val
  let x := s.lane p l
  .next (
    match x.flight with
    | [] => s
    | f :: rest =>
      let s1 := s.setLane p l { x with flight := rest }
      let s2 := if f.crcGood then s1.count (R.LNK_LANE_FRAMES p l) 1 else s1
      let passed := f.crcGood && f.markerGood && !f.training && f.indexGood
      let s3 := if passed then s2.lnkPassed p l f else s2.lnkFailed p l f
      s3.lnkIndexCheck p l f)

/-- CRC_WINDOW_END (R64): the failed-frame count of the lane restarts. -/
def execCrcWindowEnd (port : Fin 24) (lane : Fin 8) (s : State) : Result :=
  let p := port.val
  let l := lane.val
  let x := s.lane p l
  let len := 2 ^ s.fget (R.LNK_STEP_CFG p) F.LNK_STEP_CFG_WINDOW * s.lnkFrameBeats p
  .next (
    if s.lnkState p = lsActive ∧ x.failSince + len ≤ s.beats then
      s.setLane p l { x with fails := 0, failSince := x.failSince + len }
    else s)

/-! ### Messages -/

/-- A response for software is loaded into LNK_MSG_RX; one that overwrites an unread response raises MSG_OVERRUN
(R57, R75). -/
def State.lnkLoadRx (s : State) (p rtype data : Nat) : State :=
  let old := s.flag (R.LNK_MSG_RX p) F.LNK_MSG_RX_VALID
  let s1 := (s.wr (R.LNK_MSG_RX p) (w32 (data + 2 ^ 16 * rtype + 2 ^ 31))).raise (vLNK p) 10
  if old then s1.raise (vLNK p) 12 else s1

/-- Entering the forward sleep state that the converter acknowledged (R69). -/
def State.lnkAsleep (s : State) (p level : Nat) : State :=
  let s1 := (s.fset (R.LNK_STATUS p) F.LNK_STATUS_FWD_PWR (level + 1)).lnkGo p lsSleep
  let s2 := if level = 1 then (s1.foff (R.LNK_STATUS p) F.LNK_STATUS_ALIGNED).condReady p else s1
  (s2.foff (R.LNK_CTRL p) F.LNK_CTRL_FWD_DOZE).foff (R.LNK_CTRL p) F.LNK_CTRL_FWD_OFF

/-- The return lane goes to DOZE or OFF (R69); the state becomes DOWN where DROP asked for it. -/
def State.lnkRetSleep (s : State) (p level : Nat) : State :=
  let s1 := (s.fset (R.LNK_STATUS p) F.LNK_STATUS_RET_PWR (level + 1)).setPort p { s.port p with
    offSince := (if level = 1 then some s.beats else none) }
  let s2 := s1.lnkRetDone p
  if s2.flag (R.LNK_CTRL p) F.LNK_CTRL_DROP ∧ level = 1 then
    (((s2.foff (R.LNK_CTRL p) F.LNK_CTRL_DROP).foff (R.LNK_STATUS p) F.LNK_STATUS_ALIGNED).condReady p).lnkGo p lsDown
  else s2

/-- A message of a bring-up or of a run-time step has failed, and with it the attempt, or the port (R61, R65); nothing where neither is under way. -/
def State.lnkMsgFail (s : State) (p : Nat) : State :=
  let x := s.port p
  if x.stepping then s.lnkFail p true else if x.attempt = 0 then s else s.lnkAttemptFail p

/-- The converter's ACK of a message of the device's own sequences: CAP_QUERY, SET_SPEED, INDEX_LOAD, SLEEP, RET_SLEEP
(R54, R60 to R62, R69). A result other than 0 fails a bring-up attempt, or a run-time step (R61, R65). -/
def State.lnkAcked (s : State) (p : Nat) (m : LinkMsg) (result : Nat) : State :=
  let x := s.port p
  if m.mtype ≤ 3 ∧ result ≠ 0 then s.lnkMsgFail p
  else if m.mtype = 1 then (if s.lnkState p = lsCap then s.lnkAfterCap p else s)
  else if m.mtype = 3 then s.setPort p { x with indexReady := true, since := s.beats }
  else if m.mtype = 4 then
    if result = 0 then s.lnkAsleep p (m.payload % 2)
    else (s.foff (R.LNK_CTRL p) F.LNK_CTRL_FWD_DOZE).foff (R.LNK_CTRL p) F.LNK_CTRL_FWD_OFF
  else if m.mtype = 9 then s.lnkRetSleep p (m.payload % 2)
  else s

/-- The converter's ACK of a message of software: LNK_MSG_RX, and for a PRBS message the state PRBS or, with pattern 7,
a full bring-up (R57, R73). -/
def State.lnkAckedSoftware (s : State) (p : Nat) (m : LinkMsg) (data : Nat) : State :=
  let s1 := (s.foff (R.LNK_CTRL p) F.LNK_CTRL_SEND_MSG).lnkLoadRx p 1 data
  if m.mtype = 6 ∧ data / 256 = 0 ∧ !s1.lnkEnabled p then
    if m.payload % 8 = 7 then s1.lnkBringup p false true else s1.lnkPrbs p
  else s1

/-- A converter must begin its answer within 64 frames of receiving a message. One that is whole later than that, the longest start of the return
lane, the message and a frame more being allowed for, breaks this, and R56 states no outcome (R1; log entry 254). -/
def State.lnkAnswerLate (s : State) (p : Nat) (m : LinkMsg) : Bool :=
  decide (m.sent + 68 * 66 + 65 * s.lnkFrameBeats p < s.beats)

/-- An ACK: it answers the outstanding message with its tag; another is ignored (R55, R56). -/
def State.lnkAck (s : State) (p data : Nat) : State :=
  let x := s.port p
  match x.outstanding with
  | none => s
  | some m =>
    if m.tag ≠ data % 256 then s
    else
      let s0 := if s.lnkAnswerLate p m then s.breached (vLNK p) else s
      let s1 := (s0.setPort p { x with outstanding := none }).lnkBusySync p
      if m.software then s1.lnkAckedSoftware p m data else s1.lnkAcked p m (data / 256)

/-- CONV_RESPONSE (R55, R58), taken from the frames of lane 0, also while other lanes carry PRBS. A reserved type does
nothing. -/
def execConvResponse (port : Fin 24) (rtype : BitVec 6) (data : BitVec 16) (s : State) : Result :=
  let p := port.val
  let r := rtype.toNat
  let d := data.toNat
  let x := s.port p
  .next (
    if !s.lnkListening p && s.lnkState p != lsPrbs then s
    else if r = 1 then s.lnkAck p d
    else if 8 ≤ r ∧ r < 16 then
      if s.lnkState p = lsCap then s.setPort p { x with caps := Tab.put (fun _ => 0) x.caps (r - 8) d } else s
    else if 16 ≤ r ∧ r < 32 then s.lnkLoadRx p r d
    else s)

/-- The next tag of the port's counter, from 0x01 to 0xFF (R56). -/
def nextTag (t : Nat) : Nat := if t = 255 then 1 else t + 1

/-- What a message of the device's own sequences starts once it is sent: after WAKE the converter's frames are locked again;
a forward direction that sleeps can not answer RET_SLEEP, so the return lane sleeps at once (R69). -/
def State.lnkSent (s : State) (p : Nat) (m : LinkMsg) : State :=
  if m.mtype = 5 ∧ s.lnkState p = lsSleep then
    (((s.setPort p { s.port p with lockFor := .wake }).fset (R.LNK_STATUS p) F.LNK_STATUS_FWD_PWR 0).lnkUnlock p).lnkGo p lsLock
  else if m.mtype = 9 ∧ s.lnkState p = lsSleep then
    ((s.setPort p { s.port p with outstanding := none }).lnkRetSleep p (m.payload % 2)).lnkBusySync p
  else s

/-- A message type that a version 1 converter is sent: CAP_QUERY, SET_SPEED, PRBS, USER (R71). -/
def v1Type (t : Nat) : Bool := t == 1 || t == 2 || t == 6 || (decide (16 ≤ t) && decide (t < 32))

/-- The return blocks to a version 1 converter stop, the return clock running on; a lane that does not run stays as it is (R71, R489). -/
def State.lnkRetStop (s : State) (p : Nat) : State :=
  if s.fget (R.LNK_STATUS p) F.LNK_STATUS_RET_PWR = 0 then s.fset (R.LNK_STATUS p) F.LNK_STATUS_RET_PWR 1 else s

/-- A message leaves on the return lane, which wakes for it: with the port's next tag, or with its own where it was sent before (R56, R69). -/
def State.lnkSend (s : State) (p : Nat) (m : LinkMsg) : State :=
  let x := s.port p
  let fresh := decide (m.tag = 0)
  let m1 : LinkMsg := { m with tag := if fresh then x.tag else m.tag, resends := 0, sent := s.beats }
  let s1 := s.setPort p { x with
    outstanding := some m1, tag := if fresh then nextTag x.tag else x.tag, offSince := none }
  ((s1.fset (R.LNK_STATUS p) F.LNK_STATUS_RET_PWR 0).emit (.linkMessage p m1.mtype m1.tag m1.payload)).lnkBusySync p

/-- The return lane can carry a message: it is not held OFF for an attempt, sends no idle blocks of a start, and carries no pattern (R62, R73,
R489). -/
def State.lnkReturnFree (s : State) (p : Nat) : Bool :=
  let st := s.lnkState p
  !(decide (st = lsDown) && decide ((s.port p).attempt ≠ 0)) && decide (st ≠ lsRetStart) && !s.retPrbsOn p

/-- A message of the device's own that a version 1 converter is not sent: the return lane stops with no RET_SLEEP (R71). -/
def State.lnkUnsent (s : State) (p : Nat) (m : LinkMsg) : State :=
  if m.mtype = 9 then ((s.lnkRetDone p).lnkRetStop p).lnkBusySync p else s.lnkBusySync p

/-- MSG_TRANSMIT (R56, R57, R69, R71): the next waiting message is sent, the device's own first. A message of a type that a version 1
converter is not sent is refused here where the version was not known when it was accepted. -/
def execMsgTransmit (port : Fin 24) (s : State) : Result :=
  let p := port.val
  let x := s.port p
  .next (
    if !s.lnkReturnFree p then s
    else
      match x.outstanding, x.devQueue, x.software with
      | some _, _, _ => s
      | none, m :: rest, _ =>
        let s1 := s.setPort p { x with devQueue := rest }
        if s.lnkV1 p && !v1Type m.mtype then s1.lnkUnsent p m else (s1.lnkSend p m).lnkSent p m
      | none, [], some m =>
        let s1 := s.setPort p { x with software := none }
        if s.lnkV1 p && !v1Type m.mtype then ((s1.foff (R.LNK_CTRL p) F.LNK_CTRL_SEND_MSG).lnkBusySync p).lnkRefuse p
        else s1.lnkSend p m
      | none, [], none => s)

/-- MSG_ACK_TIMEOUT (R56, R61): a resend, or after three of them MSG_TIMEOUT; a message of a bring-up fails its
attempt, one of a run-time step fails the port. -/
def execMsgAckTimeout (port : Fin 24) (s : State) : Result :=
  let p := port.val
  let x := s.port p
  .next (
    match x.outstanding with
    | none => s
    | some m =>
      if s.beats < m.sent + 128 * s.lnkFrameBeats p then s
      else if m.resends < 3 then
        (s.setPort p { x with outstanding := some { m with resends := m.resends + 1, sent := s.beats } }).emit
          (.linkMessage p m.mtype m.tag m.payload)
      else
        let s1 := ((s.setPort p { x with outstanding := none }).lnkBusySync p).raise (vLNK p) 11
        if m.software then s1.foff (R.LNK_CTRL p) F.LNK_CTRL_SEND_MSG
        else if m.mtype ≤ 3 then s1.lnkMsgFail p
        else if m.mtype = 5 ∧ x.attempt ≠ 0 then s1.lnkAttemptFail p
        else s1.wr (R.LNK_CTRL p) (s1.rd (R.LNK_CTRL p) &&& 0xFFFFFF01#32))

/-! ### Signal and clock -/

/-- LOSS_OF_SIGNAL (R66, R68): a lane in use starts a recovery. -/
def execLossOfSignal (port : Fin 24) (lane : Fin 8) (s : State) : Result :=
  let s1 := (s.foff (R.LNK_LANE_STATUS port lane) F.LNK_LANE_STATUS_SIGNAL).raise (vLNK port) 2
  .next (if s.lnkUsed port lane then s1.lnkRecover port else s1)

/-- SIGNAL_RESTORED (R68). -/
def execSignalRestored (port : Fin 24) (lane : Fin 8) (s : State) : Result :=
  .next (s.fon (R.LNK_LANE_STATUS port lane) F.LNK_LANE_STATUS_SIGNAL)

/-- FWD_CLOCK_LOST (R66, R68). -/
def execFwdClockLost (port : Fin 24) (s : State) : Result :=
  .next (((s.setPort port { s.port port with clkLost := true }).raise (vLNK port) 3).lnkRecover port)

/-- FWD_CLOCK_RESTORED (R68). -/
def execFwdClockRestored (port : Fin 24) (s : State) : Result :=
  .next (s.setPort port { s.port port with clkLost := false })

/-! ### Bring-up phases -/

/-- DOWN_HOLD_END (R489). -/
def execDownHoldEnd (port : Fin 24) (s : State) : Result :=
  let p := port.val
  let x := s.port p
  let held := match x.offSince with
    | some b => decide (b + 10 * beatsPerUs ≤ s.beats)
    | none => false
  .next (if s.lnkState p == lsDown && x.attempt != 0 && x.waiting.isNone && held then s.lnkRetStart p else s)

/-- RET_START_DONE (R62): 64 blocks of 66 bits, one bit a beat. -/
def execRetStartDone (port : Fin 24) (s : State) : Result :=
  let p := port.val
  .next (if s.lnkState p = lsRetStart ∧ (s.port p).since + 64 * 66 ≤ s.beats then s.lnkGo p lsWaitConv else s)

/-- FWD_CLOCK_DETECT (R62). -/
def execFwdClockDetect (port : Fin 24) (s : State) : Result :=
  let p := port.val
  .next (
    if s.lnkState p = lsWaitConv then
      ((s.setPort p { s.port p with clkLost := false }).fset (R.LNK_STATUS p) F.LNK_STATUS_FWD_PWR 0).lnkGo p lsAdapt
    else s)

/-- ADAPT_DONE (R60, R62): within a STEP its limit runs on. -/
def execAdaptDone (port : Fin 24) (s : State) : Result :=
  let p := port.val
  .next (
    if s.lnkState p = lsAdapt then
      if (s.port p).lockFor = .cap then s.lnkGo p lsLock else s.lnkKeep p lsLock
    else s)

/-- Every lane in use holds block and frame lock. -/
def State.lnkLocked (s : State) (p : Nat) : Bool :=
  (s.lnkLanes p).all (fun l => s.flag (R.LNK_LANE_STATUS p l) F.LNK_LANE_STATUS_BLOCK_LOCK
    && s.flag (R.LNK_LANE_STATUS p l) F.LNK_LANE_STATUS_FRAME_LOCK)

/-- LOCK_DONE (R60, R63, R69): CAP, VERIFY, ALIGN alone, or after a wake from DOZE ACTIVE. -/
def execLockDone (port : Fin 24) (s : State) : Result :=
  let p := port.val
  let x := s.port p
  .next (
    if s.lnkState p = lsLock ∧ s.lnkLocked p then
      match x.lockFor with
      | .cap => (s.lnkGo p lsCap).lnkQueue p 1 0
      | .verify => s.lnkVerify p
      | .wake =>
        if x.alignOnly then s.lnkGo p lsAlign
        else ((s.lnkRecount p).lnkGo p lsActive).foff (R.LNK_CTRL p) F.LNK_CTRL_FWD_WAKE
    else s)

/-- VERIFY_PASS (R60, R64): a run-time step ends in ACTIVE; a bring-up climbs, or settles and aligns. -/
def execVerifyPass (port : Fin 24) (s : State) : Result :=
  let p := port.val
  let x := s.port p
  .next (
    if s.lnkState p = lsVerify ∧ (s.lnkLanes p).all (fun l => decide (s.lnkVerifyCount p ≤ (s.lane p l).clean)) then
      if x.stepping then ((s.setPort p { x with stepping := false }).lnkRecount p).lnkGo p lsActive
      else if x.fallback || decide (x.target ≤ s.speed p) then s.lnkSettle p
      else s.lnkSetSpeed p (s.speed p + 1) x.layoutLo x.layoutHi
    else s)

/-- STEP_SWITCH_DONE (R60, R62): a layout alone is locked again; a new speed adapts first. -/
def execStepSwitchDone (port : Fin 24) (s : State) : Result :=
  let p := port.val
  let x := s.port p
  .next (
    if s.lnkState p = lsStep ∧ x.outstanding.isNone ∧ x.devQueue.isEmpty then
      let changed := decide (x.wantLo ≠ x.layoutLo) || decide (x.wantHi ≠ x.layoutHi)
      let s1 := (s.setPort p { x with
        layoutLo := x.wantLo, layoutHi := x.wantHi, layoutDone := x.layoutDone || changed }).lnkUnlock p
      if x.wantSpeed = s.speed p then s1.lnkKeep p lsLock
      else (s1.fset (R.LNK_STATUS p) F.LNK_STATUS_SPEED x.wantSpeed).lnkKeep p lsAdapt
    else s)

/-! ### Alignment -/

/-- D of port p at its current speed, in 1/256 beat (R58). -/
def State.lnkDeclared (s : State) (p : Nat) : Nat :=
  let cap (k : Nat) : Nat := (s.rd (R.LNK_CAP p (k / 2))).toNat / 2 ^ (16 * (k % 2)) % 2 ^ 16
  let v := s.speed p
  if v = 2 then cap 1 * 256 + cap 4 % 256
  else if v = 1 then cap 2 * 256 + cap 4 / 256
  else cap 3 * 256 + cap 5 % 256

/-- LNK_SKEW of port p, signed, in 1/256 beat. -/
def State.lnkSkew (s : State) (p : Nat) : Int := signed 16 (s.rd (R.LNK_SKEW p)).toNat

/-- a(p) of R77: the arrival of port p, in whole beats. -/
def State.lnkArrival (s : State) (p : Nat) : Int :=
  let x : Int := s.lnkSkew p + (s.lnkDeclared p : Int) + ((s.port p).spread : Int)
  (x + 255) / 256

/-- Ports in use: LANE_EN not 0. -/
def State.usedPorts (s : State) : List Nat := (upTo 24).filter (fun p => !(s.lnkLanes p).isEmpty)

/-- When ARM has aligned every port in use, whatever the port has done since, Λ and the arrivals are computed (R77). -/
def State.setLambda (s : State) : State :=
  let ps := s.usedPorts
  if s.run.armSince.isSome && !s.cond.lambdaSet && ps.all (fun p => (s.port p).alignedArm) then
    let lam : Int := ps.foldl (fun m p => if m < s.lnkArrival p then s.lnkArrival p else m)
      (match ps with
       | p :: _ => s.lnkArrival p
       | [] => 0) + 18
    let s1 := (upTo 24).foldl (fun y n => y.wr (R.CND_LAMBDA n) (w32 (unsigned 16 lam))) s
    let s2 := ps.foldl (fun y p => y.wr (R.CND_ARRIVAL p)
      (w32 (unsigned 16 (s.lnkArrival p) + 2 ^ 16 * unsigned 16 (lam - s.lnkArrival p)))) s1
    { s2 with cond := { s2.cond with lambdaSet := true } }
  else s

/-- The change of placement of a recovery (R66): DIFF, and PLACE_CHECK where it is greater than 8/256 beat. -/
def State.lnkPlaceDiff (s : State) (p : Nat) (old new : Int) : State :=
  let d := clampInt (-32768) 32767 (new - old)
  let s1 := s.fset (R.LNK_PLACE_AUX p) F.LNK_PLACE_AUX_DIFF (unsigned 16 d)
  if decide (8 < d) || decide (d < -8) then
    s1.event (vLNK p) 14 sevWarning 0 (unsigned 32 d) (unsigned 64 (new / 256))
  else s1

/-- The lanes of port p at alignment: the frame before still predicts a lane's next one, INDEX is extended from the reference frame's, the read points
are centred, and a late or early sample is the first again (R48, R49, R51, R79). -/
def State.lnkCentre (s : State) (p index : Nat) : State :=
  (upTo 8).foldl (fun y l => ((y.sampleFresh (8 * p + l)).setLane p l { y.lane p l with
      pred := (y.lane p l).pred.map (fun q => extendIndex (some index) (q % 2 ^ 48)), ref := some index, live := true, misRun := 0 }).fset
    (R.LNK_LANE_STATUS p l) F.LNK_LANE_STATUS_EB_OFFSET 0) s

/-- Lanes more than 64 beats apart: the integrator has broken the limit of R52, for which no outcome is stated (R1). -/
def State.lnkSkewed (s : State) (p spread : Nat) : State := if 64 * 256 < spread then s.breached (vLNK p) else s

/-- ALIGN_DONE (R47, R62, R66, R77): P from t_a and the reference frame's INDEX; the port is ACTIVE. -/
def execAlignDone (port : Fin 24) (ta : Nat) (index : BitVec 48) (spread : Nat) (s : State) : Result :=
  let p := port.val
  let x := s.port p
  .next (
    if s.lnkState p = lsAlign ∧ x.indexReady then
      let g := gangWidth (s.gangCode p 0)
      let place : Int := (ta : Int) - s.lnkSkew p - (s.lnkDeclared p : Int) - ((index.toNat * 256 / g : Nat) : Int)
      let s1 := (s.setPlace p place).fon (R.LNK_STATUS p) F.LNK_STATUS_ALIGNED
      let s2 := match x.oldPlace with
        | some old => if x.recovery then s1.lnkPlaceDiff p old place else s1
        | none => s1
      let s3 := s2.setPort p { s2.port p with
        spread := spread, attempt := 0, recovery := false, oldPlace := none, alignOnly := false, alignedArm := true }
      let s4 := (s3.lnkCentre p index.toNat).lnkSkewed p spread
      ((((s4.lnkRecount p).lnkGo p lsActive).lnkCtrlDone p |>.raise (vLNK p) 0).condReady p).setLambda
    else s)

/-- The limit of a phase in beats, none for a state without one and for WAIT_CONV, which has two (R62). -/
def State.lnkLimit (s : State) (p : Nat) : Option Nat :=
  let st := s.lnkState p
  let step := decide ((s.port p).lockFor = .verify)
  if st = lsCap then some 67584
  else if st = lsAlign then some (10 * beatsPerUs)
  else if st = lsStep then some (290 * beatsPerUs)
  else if st = lsAdapt then some (if step then 290 * beatsPerUs else 200 * beatsPerUs)
  else if st = lsLock then some (if step then 290 * beatsPerUs else 20 * beatsPerUs)
  else none

/-- The present phase of port p has exceeded its limit (R62): in WAIT_CONV 100 µs pass with no forwarded clock, or 10 µs from the clock's start without its
detection; INDEX_LOAD's own time is not ALIGN's. -/
def State.lnkOverdue (s : State) (p : Nat) (clockFor : Option Nat) : Bool :=
  let x := s.port p
  if s.lnkState p = lsWaitConv then
    match clockFor with
    | none => decide (x.since + 100 * beatsPerUs < s.beats)
    | some n => decide (10 * beatsPerUs < n) && decide (x.since + n ≤ s.beats)
  else
    match s.lnkLimit p with
    | none => false
    | some lim => decide (x.since + lim < s.beats) && (decide (s.lnkState p ≠ lsAlign) || x.indexReady)

/-- PHASE_TIMEOUT (R61, R62, R65): the attempt fails, or the run-time step. -/
def execPhaseTimeout (phase : PhaseEnd) (s : State) : Result :=
  let p := phase.port.val
  .next (
    if !s.lnkOverdue p phase.clockFor then s
    else if (s.port p).stepping then s.lnkFail p true
    else s.lnkAttemptFail p)

/-- BRINGUP_RETRY (R61). -/
def execBringupRetry (port : Fin 24) (s : State) : Result :=
  let p := port.val
  let x := s.port p
  .next (
    match x.waiting with
    | none => s
    | some b => if b + 100 * beatsPerUs ≤ s.beats then s.lnkAttempt p (x.attempt + 1) else s)

/-! ### Commands of LNK_CTRL -/

/-- Diagnostic commands are allowed: ENABLE is 0, and no run is armed, running or stopping (R63, R69). -/
def State.lnkDiag (s : State) (p : Nat) : Bool := !s.lnkEnabled p && s.runState != rsStopping

/-- BRINGUP (R63): a diagnostic bring-up, refused while ENABLE is 1. -/
def execBringup (port : Fin 24) (s : State) : Result :=
  let p := port.val
  .next (
    if !s.lnkDiag p then s.lnkRefuse p
    else if s.flag (R.LNK_CTRL p) F.LNK_CTRL_BRINGUP then s.again (R.LNK_CTRL p) 0
    else (s.fon (R.LNK_CTRL p) F.LNK_CTRL_BRINGUP).lnkBringup p false true)

/-- Forward OFF is supported (CAP0 [9], R58). -/
def State.lnkCanOff (s : State) (p : Nat) : Bool := s.bit (R.LNK_CAP p 0) 9

/-- DROP outside ACTIVE and SLEEP, or with a version 1 converter: no message is sent, and the forward direction stops with the return clock (R63, R75,
R489; log entry 232). -/
def State.lnkDropNow (s : State) (p : Nat) : State :=
  let a := R.LNK_STATUS p
  let s1 := (((s.fon (R.LNK_CTRL p) F.LNK_CTRL_DROP).lnkFlushMsgs p).fon (R.LNK_CTRL p) F.LNK_CTRL_DROP).lnkRetSleep p 1
  if s1.fget a F.LNK_STATUS_FWD_PWR = 0 then s1.fset a F.LNK_STATUS_FWD_PWR (if s.lnkCanOff p then 2 else 1) else s1

/-- DROP (R63, R71): forward OFF if supported, else DOZE, return OFF, state DOWN; refused while ENABLE is 1. It ends a bring-up that is under way, and
a RET_WAKE that waits. -/
def execDrop (port : Fin 24) (s : State) : Result :=
  let p := port.val
  .next (
    if !s.lnkDiag p then s.lnkRefuse p
    else if s.flag (R.LNK_CTRL p) F.LNK_CTRL_DROP then s
    else
      let s0 := ((s.setPort p { s.port p with attempt := 0, waiting := none }).lnkCtrlDone p).foff (R.LNK_CTRL p) F.LNK_CTRL_RET_WAKE
      if s.lnkState p = lsActive ∧ !s.lnkV1 p then
        ((s0.fon (R.LNK_CTRL p) F.LNK_CTRL_DROP).lnkQueue p 4 (if s.lnkCanOff p then 1 else 0)).lnkQueue p 9 1
      else if s.lnkState p = lsSleep then (s0.fon (R.LNK_CTRL p) F.LNK_CTRL_DROP).lnkQueue p 9 1
      else s0.lnkDropNow p)

/-- A command that asks the converter for forward sleep (R69, R71). -/
def State.lnkSleepCmd (s : State) (p level : Nat) (f : Fld) : State :=
  if s.lnkEnabled p || s.lnkV1 p || s.lnkState p != lsActive || (level == 1 && !s.lnkCanOff p) then s.lnkRefuse p
  else if s.flag (R.LNK_CTRL p) f then s
  else (s.fon (R.LNK_CTRL p) f).lnkQueue p 4 level

/-- FWD_DOZE (R69). -/
def execFwdDoze (port : Fin 24) (s : State) : Result := .next (s.lnkSleepCmd port 0 F.LNK_CTRL_FWD_DOZE)

/-- FWD_OFF (R69). -/
def execFwdOff (port : Fin 24) (s : State) : Result := .next (s.lnkSleepCmd port 1 F.LNK_CTRL_FWD_OFF)

/-- FWD_WAKE (R69): LOCK again from DOZE, a full bring-up from OFF and after a DROP. -/
def execFwdWake (port : Fin 24) (s : State) : Result :=
  let p := port.val
  let pw := s.fget (R.LNK_STATUS p) F.LNK_STATUS_FWD_PWR
  .next (
    if s.lnkEnabled p then s.lnkRefuse p
    else if s.flag (R.LNK_CTRL p) F.LNK_CTRL_FWD_WAKE then s
    else if pw = 1 ∧ s.lnkState p = lsSleep then (s.fon (R.LNK_CTRL p) F.LNK_CTRL_FWD_WAKE).lnkQueue p 5 0
    else if pw ≠ 0 then (s.fon (R.LNK_CTRL p) F.LNK_CTRL_FWD_WAKE).lnkBringup p false true
    else s)

/-- A command that puts the return lane to sleep: after RET_SLEEP, or at once with a version 1 converter, whose return clock keeps running (R69, R71). -/
def State.lnkRetCmd (s : State) (p level : Nat) (f : Fld) : State :=
  if s.flag (R.LNK_CTRL p) f || decide (s.fget (R.LNK_STATUS p) F.LNK_STATUS_RET_PWR = level + 1) then s
  else if s.lnkV1 p then s.lnkRetStop p
  else (s.fon (R.LNK_CTRL p) f).lnkQueue p 9 level

/-- RET_DOZE (R69). -/
def execRetDoze (port : Fin 24) (s : State) : Result := .next (s.lnkRetCmd port 0 F.LNK_CTRL_RET_DOZE)

/-- RET_OFF (R69). -/
def execRetOff (port : Fin 24) (s : State) : Result := .next (s.lnkRetCmd port 1 F.LNK_CTRL_RET_OFF)

/-- RET_WAKE (R69). While an attempt holds the return lane OFF the command waits for RET_START (R489). -/
def execRetWake (port : Fin 24) (s : State) : Result :=
  let p := port.val
  let x := s.port p
  .next (
    if s.lnkState p = lsDown ∧ x.attempt ≠ 0 then s.fon (R.LNK_CTRL p) F.LNK_CTRL_RET_WAKE
    else ((s.setPort p { x with offSince := none }).foff (R.LNK_CTRL p) F.LNK_CTRL_RET_WAKE).fset (R.LNK_STATUS p)
      F.LNK_STATUS_RET_PWR 0)

/-- The message of LNK_MSG_TX: TYPE [7:0], PAYLOAD [95:16]; its TAG byte is ignored (R53, R56). -/
def State.lnkTxMsg (s : State) (p : Nat) : LinkMsg :=
  let v := (s.rd (R.LNK_MSG_TX p 0)).toNat + 2 ^ 32 * (s.rd (R.LNK_MSG_TX p 1)).toNat
    + 2 ^ 64 * (s.rd (R.LNK_MSG_TX p 2)).toNat
  ⟨v % 256, v / 2 ^ 16, 0, true, 0, 0⟩

/-- SEND_MSG (R57, R71). -/
def execSendMsg (port : Fin 24) (s : State) : Result :=
  let p := port.val
  let m := s.lnkTxMsg p
  .next (
    if s.flag (R.LNK_CTRL p) F.LNK_CTRL_SEND_MSG then s.raise (vLNK p) 12
    else if s.lnkV1 p && !v1Type m.mtype then s.lnkRefuse p
    else ((s.fon (R.LNK_CTRL p) F.LNK_CTRL_SEND_MSG).setPort p { s.port p with software := some m }).lnkBusySync p)

/-- MSG_RX_READ (R75): class RC. -/
def execMsgRxRead (port : Fin 24) (tag : Nat) (s : State) : Result := .next (s.rcRead port (R.LNK_MSG_RX port) tag)

/-! ### PRBS and injection -/

/-- PRBS_LOCK (R73): what the checker's bits lead to where they are not given as blocks (log entry 206). -/
def execPrbsLock (port : Fin 24) (lane : Fin 8) (s : State) : Result :=
  .next (if s.prbsRuns port lane then s.fon (R.LNK_LANE_STATUS port lane) F.LNK_LANE_STATUS_PRBS_LOCK else s)

/-- PRBS_LOCK_LOSS (R73): the checker begins anew. -/
def execPrbsLockLoss (port : Fin 24) (lane : Fin 8) (s : State) : Result :=
  .next (if s.prbsRuns port lane then s.prbsReset port lane else s)

/-- PRBS_ERR_READ (R75): class RC. -/
def execPrbsErrRead (port : Fin 24) (lane : Fin 8) (tag : Nat) (s : State) : Result :=
  .next (s.rcRead port (R.LNK_PRBS_ERR port lane) tag)

/-- PRBS_ERR (R73): a locked checker counts a wrong bit. -/
def execPrbsErr (port : Fin 24) (lane : Fin 8) (s : State) : Result :=
  .next (
    if s.prbsRuns port lane && s.flag (R.LNK_LANE_STATUS port lane) F.LNK_LANE_STATUS_PRBS_LOCK then s.prbsCount port lane else s)

/-- The injection of a mode that is neither 0 nor reserved begins: a fault that waits for its block or frame, or wrong bits into the checker until MODE is
written 0 (R74). -/
def State.injectBegin (s : State) (p l mode : Nat) : State :=
  let x := s.lane p l
  s.setLane p l (if mode = 4 then { x with prbs := { x.prbs with errs := true, count := 0 } } else { x with inject := mode })

/-- MODE of LNK_INJ written 0 ends an injection of MODE 4 (R74). -/
def State.injectEnd (s : State) (p l : Nat) : State :=
  let x := s.lane p l
  if x.prbs.errs && s.fget (R.LNK_INJ p l) F.LNK_INJ_MODE == 0 then
    let s1 := s.setLane p l { x with prbs := { x.prbs with errs := false } }
    if x.inject = 0 then s1.foff (R.LNK_INJ p l) F.LNK_INJ_GO else s1
  else s

/-- INJECT_GO (R74). Without INJ_ALLOW GO is ignored; one written while GO reads 1 replaces the fault that waits (log entry 219); a reserved MODE raises CMD_REFUSED; MODE 0 injects nothing. -/
def execInjectGo (port : Fin 24) (lane : Fin 8) (s : State) : Result :=
  let p := port.val
  let l := lane.val
  let a := R.LNK_INJ p l
  let mode := s.fget a F.LNK_INJ_MODE
  .next (
    if !s.flag (R.LNK_CFG p) F.LNK_CFG_INJ_ALLOW then s
    else if 5 ≤ mode then s.lnkRefuse p
    else if mode = 0 then s
    else ((s.injectBegin p l mode).log (vLNK p) ecInject sevInfo l ((s.rd a).toNat % 2 ^ 16) 0).fon a F.LNK_INJ_GO)

end Sys2Proof.Machine
end

