-- ==== Sys2Proof/Machine/Sha.lean ====
section
/-!
DEFINITION. SHA-384 (FIPS 180-4), with which the journal is chained and images are digested (R407, R420).
-/

namespace Sys2Proof.Machine

/-- The largest number below 2^n whose k-th power is at most x, bit by bit from the highest. -/
def rootBelow (k x : Nat) : Nat → Nat → Nat
  | 0, r => r
  | n + 1, r => rootBelow k x n (if (r + 2 ^ n) ^ k ≤ x then r + 2 ^ n else r)

/-- The first 64 bits of the fraction of the k-th root of p. -/
def rootFraction (k p : Nat) : Nat := rootBelow k (p * 2 ^ (64 * k)) 68 0 % 2 ^ 64

/-- The primes among the n numbers from m on, given those below m. -/
def primesFrom : Nat → Nat → List Nat → List Nat
  | 0, _, ps => ps
  | n + 1, m, ps => primesFrom n (m + 1) (if ps.all (fun q => m % q != 0) then ps ++ [m] else ps)

/-- The first 80 primes; the last is 409. -/
def shaPrimes : List Nat := primesFrom 408 2 []

/-- The round constants: the fractions of the cube roots of the first 80 primes. -/
def shaConstants : List Nat := shaPrimes.map (rootFraction 3)

/-- The eight working words of SHA-384. -/
structure ShaH where
  a : DWord
  b : DWord
  c : DWord
  d : DWord
  e : DWord
  f : DWord
  g : DWord
  h : DWord
  deriving DecidableEq, Repr

/-- Word i of the initial hash value: the fraction of the square root of one of the ninth to sixteenth primes. -/
def shaStart (i : Nat) : DWord := BitVec.ofNat 64 (rootFraction 2 (shaPrimes.getD (8 + i) 0))

/-- The initial hash value of SHA-384. -/
def shaInit : ShaH :=
  ⟨shaStart 0, shaStart 1, shaStart 2, shaStart 3, shaStart 4, shaStart 5, shaStart 6, shaStart 7⟩

/-- One round with message word w and constant k. -/
def shaRound (x : ShaH) (w k : DWord) : ShaH :=
  let s1 := x.e.rotateRight 14 ^^^ x.e.rotateRight 18 ^^^ x.e.rotateRight 41
  let ch := (x.e &&& x.f) ^^^ (~~~x.e &&& x.g)
  let t1 := x.h + s1 + ch + k + w
  let s0 := x.a.rotateRight 28 ^^^ x.a.rotateRight 34 ^^^ x.a.rotateRight 39
  let mj := (x.a &&& x.b) ^^^ (x.a &&& x.c) ^^^ (x.b &&& x.c)
  ⟨t1 + (s0 + mj), x.a, x.b, x.c, x.d + t1, x.e, x.f, x.g⟩

/-- The next word of the message schedule from the last sixteen, newest last. -/
def shaNext (ws : List DWord) : DWord :=
  let w2 := ws.getD 14 0
  let w15 := ws.getD 1 0
  let s0 := w15.rotateRight 1 ^^^ w15.rotateRight 8 ^^^ (w15 >>> 7)
  let s1 := w2.rotateRight 19 ^^^ w2.rotateRight 61 ^^^ (w2 >>> 6)
  s1 + ws.getD 9 0 + s0 + ws.getD 0 0

/-- The rounds over the constants, with the window of sixteen message words. -/
def shaRounds : List Nat → List DWord → ShaH → ShaH
  | [], _, x => x
  | k :: ks, ws, x =>
    shaRounds ks (ws.drop 1 ++ [shaNext ws]) (shaRound x (ws.getD 0 0) (BitVec.ofNat 64 k))

/-- One block of 128 bytes. -/
def shaBlock (x : ShaH) (ws : List DWord) : ShaH :=
  let y := shaRounds shaConstants ws x
  ⟨x.a + y.a, x.b + y.b, x.c + y.c, x.d + y.d, x.e + y.e, x.f + y.f, x.g + y.g, x.h + y.h⟩

/-- A big-endian number. -/
def beNat (bs : List Byte) : Nat := bs.foldl (fun n b => n * 256 + b.toNat) 0

/-- Big-endian bytes of a number. -/
def beBytes (k n : Nat) : List Byte := (leBytes k n).reverse

/-- The 64-bit big-endian words of bytes, k of them. -/
def beWords : Nat → List Byte → List DWord
  | 0, _ => []
  | k + 1, bs => BitVec.ofNat 64 (beNat (bs.take 8)) :: beWords k (bs.drop 8)

/-- The blocks of a padded message, n of them. -/
def shaBlocks : Nat → List Byte → ShaH → ShaH
  | 0, _, x => x
  | n + 1, bs, x => shaBlocks n (bs.drop 128) (shaBlock x (beWords 16 (bs.take 128)))

/-- SHA-384 of bytes: 48 bytes. -/
def sha384 (m : List Byte) : List Byte :=
  let len := m.length
  let pad := (239 - len % 128) % 128
  let p := m ++ [0x80#8] ++ List.replicate pad 0#8 ++ beBytes 16 (8 * len)
  let x := shaBlocks (p.length / 128) p shaInit
  beBytes 8 x.a.toNat ++ beBytes 8 x.b.toNat ++ beBytes 8 x.c.toNat ++ beBytes 8 x.d.toNat
    ++ beBytes 8 x.e.toNat ++ beBytes 8 x.f.toNat

end Sys2Proof.Machine
end

