-- ==== Sys2Proof/Machine/BridleOps.lean ====
section
/-!
DEFINITION. Operations of the Bridle: commands over its buffer (R413, R414), signed images (R407, R408), the journal (R420
to R422), the run manifest (R423), zeroisation (R425).
-/

namespace Sys2Proof.Machine

/-- A text as bytes. -/
def ascii (t : String) : List Byte := t.toList.map (fun c => BitVec.ofNat 8 c.toNat)

/-- n bytes from a place. -/
def slice (bs : List Byte) (at_ n : Nat) : List Byte := (bs.drop at_).take n

/-! ### The journal -/

/-- A key event of a command is journalled; what its ADDR holds is not given (R421). -/
def State.keyEvent (s : State) (code : Nat) : State := s.took.journal (s.jentry 7 s.brd.cmdSrc 0 (s.free % 2 ^ 64) code)

/-- BRD_JHEAD shows the chain head. -/
def State.setHead (s : State) (h : List Byte) : State :=
  (upTo 12).foldl (fun x i => x.wr (R.BRD_JHEAD i) (w32 (leNat (slice h (4 * i) 4)))) { s with brd := { s.brd with head := h } }

/-- Entries kept for export (R422). -/
def backlogSize : Nat := 16384

/-- The entries that wait for export, and BRD_JRN_BACKLOG with them. -/
def State.setBacklog (s : State) (xs : List (JEntry × Nat)) : State :=
  State.wr { s with brd := { s.brd with backlog := xs } } R.BRD_JRN_BACKLOG (w32 xs.length)

/-- An entry is chained: H := SHA-384(H ‖ e), then JSEQ advances; it waits for export, or is counted where the backlog is full
(R420, R422). -/
def State.chainEntry (s : State) (e : JEntry) : State :=
  let j := (s.rd R.BRD_JSEQ).toNat
  let s1 := (s.setHead (sha384 (s.brd.head ++ e.bytes j))).count R.BRD_JSEQ 1
  if s1.brd.backlog.length < backlogSize then s1.setBacklog (s1.brd.backlog ++ [(e, j)])
  else
    let s2 := (s1.count R.BRD_JRN_DROP_CNT 1).raise vBRD 2
    { s2 with brd := { s2.brd with jrnGap := true } }

/-! ### Commands -/

/-- The key operations that a brownout ends with RETRY: SESSION_OPEN, ATTEST, OWNER_INSTALL, OWNER_REVOKE, DECOMMISSION
(R414). -/
def keyOps : List Nat := [1, 3, 5, 6, 9]

/-- The commands that may program a fuse of the Bridle's bank, and so wait for Farrier's engine (R428). -/
def fuseOps : List Nat := [4, 5, 6, 9]

/-- A command ends without output. -/
def State.brdFail (s : State) (result : Nat) : State := (s.wr R.BRD_OUT_LEN 0#32).brdEnd result

/-- A command ends with a result that is not OK and that the spec does not name. -/
def State.brdOpen (s : State) : State := s.took.brdFail (1 + s.free % 6)

/-- A command ends with RETRY (R414). -/
def State.brdRetry (s : State) : State := (s.brdFail brRetry).raise vBRD 3

/-- A command ends OK with its output in the buffer (R413). -/
def State.brdOut (s : State) (bytes : List Byte) : State :=
  (State.wr { s with brd := { s.brd with buf := putBytes s.brd.buf 0 bytes } } R.BRD_OUT_LEN (w32 bytes.length)).brdEnd brOk

/-- A command of a code ends: nothing where it is not in progress; RETRY for a key operation during a brownout; a fuse
operation waits for Farrier's engine; an input too long is BAD_FORMAT (R413, R414, R428). -/
def State.brdRun (s : State) (code : Nat) (act : List Byte → State) : State :=
  if !(s.flag R.BRD_CMD F.BRD_CMD_GO && s.brd.cmdCode == code) then s
  else if keyOps.contains code && s.pwr.brownout.isSome then s.brdRetry
  else if fuseOps.contains code && s.far.prog.isSome then s
  else if 16384 < s.brd.cmdLen then s.brdFail brBadFormat
  else act (getBytes s.brd.buf 0 s.brd.cmdLen)

/-- A GO, by a requester as the journal codes it: ignored with CMD_BUSY where the command in progress does not end in this beat; a code that
R413 does not list ends at once, with a result it does not give; a key operation begun during a brownout ends with RETRY (R373, R413,
R414). -/
def State.brdGo (s : State) (src : Nat) : State :=
  if s.flag R.BRD_CMD F.BRD_CMD_GO then s.againBy R.BRD_CMD 8 src
  else
    let code := s.fget R.BRD_CMD F.BRD_CMD_CODE
    let len := s.fget R.BRD_CMD_LEN F.BRD_CMD_LEN_LEN
    let s1 := State.fon { s with brd := { s.brd with cmdSrc := src, cmdCode := code, cmdLen := len } } R.BRD_CMD F.BRD_CMD_GO
    if code = 0 ∨ 10 < code then s1.took.brdFail (s1.free % 8)
    else if keyOps.contains code ∧ s1.pwr.brownout.isSome = true then s1.brdRetry
    else s1

/-- A VSTBY brownout begins: key operations in progress end with RETRY, and a manifest signing is begun again at its end (R414). -/
def State.brdBrownout (s : State) : State :=
  let s1 := if s.flag R.BRD_CMD F.BRD_CMD_GO && keyOps.contains s.brd.cmdCode then s.brdRetry else s
  if s1.flag R.BRD_STATUS F.BRD_STATUS_SIGNING then
    let s2 := (s1.foff R.BRD_STATUS F.BRD_STATUS_SIGNING).raise vBRD 3
    { s2 with run := { s2.run with manifest := 4 } }
  else s1

/-! ### Keys and images -/

/-- The state of an owner slot: 0 EMPTY, 1 ACTIVE, 2 REVOKED (R412). -/
def State.ownerState (s : State) (k : Nat) : Nat := (s.rd R.BRD_OWNER).toNat / 4 ^ k % 4

/-- An owner slot changes its state; OPEN shows whether none is ACTIVE (R409). -/
def State.setOwner (s : State) (k v : Nat) : State :=
  let s1 := s.fset R.BRD_OWNER ⟨2 * k, 2⟩ v
  s1.fset R.BRD_STATUS F.BRD_STATUS_OPEN (if (upTo 4).any (fun j => s1.ownerState j == 1) then 0 else 1)

/-- The digest held for an owner slot. -/
def State.ownerKey (s : State) (k : Nat) : List Byte := Tab.get (fun _ => []) s.brd.owners k

/-- The digests of the ACTIVE owner keys, one slot left out. -/
def State.activeKeys (s : State) (but : Nat) : List (List Byte) :=
  ((upTo 4).filter (fun k => s.ownerState k == 1 && k != but)).map s.ownerKey

/-- No owner slot is ACTIVE (R409). -/
def State.brdIsOpen (s : State) : Bool := s.flag R.BRD_STATUS F.BRD_STATUS_OPEN

/-- The digest held for a signer that may sign: an ACTIVE owner slot, F0 unless revoked, F1 (R405, R407). -/
def State.signerKey (s : State) (signer : Nat) : Option (List Byte) :=
  if signer < 4 then (if s.ownerState signer = 1 then some (s.ownerKey signer) else none)
  else if signer = 0xF0 then (if s.flag R.BRD_OWNER F.BRD_OWNER_F0_REVOKED then none else some (Config.firmwareKey 0))
  else some (Config.firmwareKey 1)

/-- Payload of an image. -/
def imagePayload (b : List Byte) : List Byte := slice b 256 (recNat b 8 4)

/-- Form of an image: MAGIC, VERSION, zero bytes, those of ENTRY too in an OSERI image, and the length of header, payload and public key (R407). -/
def imageForm (b : List Byte) : Bool :=
  recNat b 0 4 == 0x4B461932 && recNat b 5 1 == 1 && decide (recNat b 7 1 < 2)
    && (slice b 168 88).all (fun x => x == 0#8) && (recNat b 4 1 != 3 || (slice b 16 8).all (fun x => x == 0#8)) && b.length == 353 + recNat b 8 4

/-- TYPE and SIGNER belong together (R408). -/
def imageSigner (b : List Byte) : Bool :=
  (recNat b 4 1 == 1 && (recNat b 6 1 == 0xF0 || recNat b 6 1 == 0xF1))
    || ((recNat b 4 1 == 2 || recNat b 4 1 == 3) && decide (recNat b 6 1 < 4))

/-- The fuse security version for a TYPE (R408). -/
def State.fuseVersion (s : State) (type : Nat) : Nat :=
  if type = 1 then s.fget R.BRD_SVN F.BRD_SVN_SEALED else s.fget R.BRD_SVN F.BRD_SVN_OWNER

/-- The result of an image's check; none where it fails in a way that R413 names no result for. A USER image is accepted
without a signature check while the device is OPEN (R408, R409). -/
def State.imageCheck (s : State) (b : List Byte) : Option Nat :=
  let key := sha384 (slice b (256 + recNat b 8 4) 97)
  let free := recNat b 4 1 == 2 && s.brdIsOpen
  if !imageForm b then some brBadFormat
  else if !imageSigner b then none
  else if !free && s.signerKey (recNat b 6 1) != some key then some brNoKey
  else if !free && !Config.verify key (sha384 (b.take 72)) (slice b 72 96) then some brBadSig
  else if sha384 (imagePayload b) != slice b 24 48 then none
  else if recNat b 12 4 < s.fuseVersion (recNat b 4 1) then some brRollback
  else some brOk

/-- An image passed: with ADVANCE and a higher SVN the fuse version is raised, unless a brownout aborts that (R408). A version
that does not fit the 16 bits shown has no stated form. -/
def State.imagePassed (s : State) (b : List Byte) : State :=
  let type := recNat b 4 1
  let svn := recNat b 12 4
  if recNat b 7 1 % 2 = 1 ∧ s.fuseVersion type < svn ∧ s.pwr.brownout.isSome = false then
    let v := if svn < 65536 then svn else s.free % 65536
    (s.took.fset R.BRD_SVN (if type = 1 then F.BRD_SVN_SEALED else F.BRD_SVN_OWNER) v).keyEvent 4
  else s

/-! ### Sessions, zeroisation, the manifest -/

/-- Every session key and run key is destroyed (R425). -/
def State.zeroise (s : State) : State :=
  (((upTo 4).foldl (fun x p => x.keysGone p) s).fon R.BRD_STATUS F.BRD_STATUS_ZEROISED).keyEvent 8

/-- DIK signing is not available: the debug state is FULL, or no DIK exists (R425). -/
def State.dikOff (s : State) : Bool := s.flag R.BRD_STATUS F.BRD_STATUS_DIK_OFF

/-- A command that needs the DIK ends where there is none: refused in debug state FULL, otherwise for want of the key. -/
def State.dikFail (s : State) : State := s.brdFail (if s.fget R.BRD_DEBUG F.BRD_DEBUG_STATE = 2 then brRefused else brNoKey)

/-- A stream entry of the manifest (R423). -/
def State.manifestStream (s : State) (k : Nat) : List Byte :=
  let q := s.stream k
  let cfg := R.REC_STREAM_CFG k
  leBytes 1 k ++ leBytes 1 (s.streamPort k) ++ leBytes 1 (s.streamRing k)
    ++ leBytes 1 (s.fget cfg F.REC_STREAM_CFG_AUTH + 2 * s.fget cfg F.REC_STREAM_CFG_ENCRYPT) ++ leBytes 1 q.keyAtStop
    ++ leBytes 3 0 ++ leBytes 8 q.runEndSeq ++ leBytes 4 q.vetoed ++ leBytes 4 q.discStop ++ leBytes 4 q.discAbort
    ++ leBytes 4 q.sideRefused ++ leBytes 8 q.fragsSent ++ leBytes 8 q.wireSent

/-- The manifest's bytes with its signature (R423). -/
def State.manifestBytes (s : State) : List Byte :=
  let streams := (upTo 256).filter (fun k => s.streamOn k)
  let flags := (if s.brd.sealedAtStart then 1 else 0) + (if s.brd.jrnGap then 2 else 0) + (if s.brdIsOpen then 4 else 0)
    + (if s.brd.debugInRun then 8 else 0)
  let body := leBytes 2 0x1932 ++ leBytes 1 1 ++ leBytes 1 flags ++ leBytes 4 s.runNumber ++ leBytes 8 s.run.startWt
    ++ leBytes 8 s.run.stopWt ++ leBytes 8 s.wt ++ leBytes 1 (s.fget R.GLB_RUN F.GLB_RUN_STOP_REASON)
    ++ leBytes 2 streams.length ++ leBytes 1 0 ++ leBytes 4 s.brd.jseqAtStart ++ leBytes 4 (s.rd R.BRD_JSEQ).toNat
    ++ s.brd.head ++ s.brd.serial ++ leBytes 8 s.brd.nonce
    ++ streams.foldl (fun b k => b ++ s.manifestStream k) []
  body ++ fit 96 (Config.dikSign (sha384 body))

/-- The manifest is built and its signing begins (R423). -/
def State.manifestStart (s : State) : State :=
  let s1 := s.fon R.BRD_STATUS F.BRD_STATUS_SIGNING
  { s1 with
    run := { s1.run with manifest := 1 }
    brd := { s1.brd with manifest := s1.manifestBytes, manifestWt := s1.wt, manifestFrac := s1.nowFrac } }

/-- A manifest signing that a brownout ended is begun again at its end (R414). -/
def State.manifestAgain (s : State) : State := if s.run.manifest = 4 then s.manifestStart else s

/-- Words of a packet of side Quill 4: its length slot and its body (R288, R423). -/
def manifestWords (bytes : List Byte) : Nat := 1 + (bytes.length + 31) / 32

/-- Side Quill 4 has room for a manifest. -/
def State.manifestRoom (s : State) (bytes : List Byte) : Bool :=
  decide ((s.side 4).quill.foldl (fun n e => n + manifestWords e.bytes) 0 + manifestWords bytes ≤ sideDepth)

/-- The keys and the flags that a run starts with (R411, R418, R423). -/
def State.brdRunStart (s : State) : State :=
  let s1 := (upTo 4).foldl (fun x p => x.deriveRun p) s
  { s1 with brd := { s1.brd with
      sealedAtStart := s1.brd.sealed, jseqAtStart := (s1.rd R.BRD_JSEQ).toNat,
      debugInRun := s1.flag R.BRD_DEBUG F.BRD_DEBUG_STATE } }

end Sys2Proof.Machine
end

