-- ==== Sys2Proof/Machine/PowerOps.lean ====
section
/-!
DEFINITION. Operations of power and reset: block resets (R159, R461), domains (R454 to R456), brownouts (R458 to R460), device
resets (R461), a boot stage that fails (R386), units under test (R463).
-/

namespace Sys2Proof.Machine

/-! ### Clearing the state of blocks -/

/-- What a register holds after a block reset: its configuration fields stay, the rest takes its reset value; counters take
theirs (R461). PDK_FAIL of SPC_RETIRE stays until Paddock passes the Reed (R110). -/
def keptValue (a : Nat) (v : Word) : Word :=
  match regRowAt a with
  | none => v
  | some r =>
    if r.base = 0x10400C then v
    else if counterBases.contains r.base then resetOf a
    else (v &&& w32 (r.rw ||| r.eg)) ||| (resetOf a &&& ~~~(w32 (r.rw ||| r.eg)))

/-- The registers of a range after a block reset. -/
def State.regsKeep (s : State) (lo hi : Nat) : State :=
  (s.regs.filter (fun e => decide (lo ≤ e.1) && decide (e.1 < hi))).foldl (fun x e => x.wr e.1 (keptValue e.1 e.2)) (s.mended lo hi)

/-- The registers of a range after a reset that keeps the configuration, or does not. -/
def State.regsReset (s : State) (full : Bool) (lo hi : Nat) : State := if full then s.clearRegs lo hi else s.regsKeep lo hi

/-- Vectors come into line with their blocks. -/
def State.settleVecs (s : State) (vs : List Nat) : State := vs.foldl (fun x v => x.settleVec v) s

/-- A table without the entries whose number is in a class. -/
def dropWhere {α : Type} (p : Nat → Bool) (t : Tab α) : Tab α := t.filter (fun e => !p e.1)

/-- The Shuttle core of slice n after a reset of its slice: its memories stay unless all is cleared (R461). -/
def State.coreClear (s : State) (n : Nat) (full : Bool) : State :=
  let s1 := (s.partsBypass n).turnsGone (fun k => k == qnMboxIn n || k == qnMboxOut n)
  let c := s1.core n
  if full then { s1 with shu := dropWhere (fun k => k == n) s1.shu }
  else s1.setCore n { CoreSt.init with
    prog := c.prog, data := c.data, buf := c.buf, progBad := c.progBad, dataBad := c.dataBad, tag := c.tag,
    pc := s1.fget (R.SHU_START n) F.SHU_START_START }

/-- Everything of slice n but its Reeds is cleared: port, conditioners, trigger front end, Shuttle; coefficients and masks stay
unless all is cleared. -/
def State.sliceClear (s : State) (n : Nat) (full : Bool) : State :=
  let s1 := s.coreClear n full
  let s2 := { s1 with
    ports := dropWhere (fun k => k == n) s1.ports
    lanes := dropWhere (fun k => k / 8 == n) s1.lanes
    cond := { s1.cond with
      chans := dropWhere (fun k => k / 8 == n) s1.cond.chans
      coef := if full then dropWhere (fun k => k / 1024 == n) s1.cond.coef else s1.cond.coef
      rewritten := dropWhere (fun k => k / 4 == n) s1.cond.rewritten }
    trd := { s1.trd with
      prims := dropWhere (fun k => k / 8 == n) s1.trd.prims
      masks := if full then dropWhere (fun k => k / 32768 == n) s1.trd.masks else s1.trd.masks } }
  s2.setPort n { PortSt.init with offSince := some s2.beats }

/-- Reed u is idle, and what it holds is gone. -/
def State.reedClear (s : State) (u : Nat) : State := { s with spec := { s.spec with reeds := dropWhere (fun k => k == u) s.spec.reeds } }

/-- The Reeds of slice n are cleared, with the streams and the spectral condition units that they serve; window tables stay
unless all is cleared. -/
def State.reedsClear (s : State) (n : Nat) (full : Bool) : State :=
  { s with
    spec := { s.spec with
      streams := dropWhere (fun k => k / 8 == n) s.spec.streams
      reeds := dropWhere (fun k => k / 4 == n) s.spec.reeds
      tables := if full then dropWhere (fun k => k / 32768 == n) s.spec.tables else s.spec.tables
      rewritten := dropWhere (fun k => k / 2 == n) s.spec.rewritten }
    trd := { s.trd with scs := dropWhere (fun k => k / 16 == n) s.trd.scs } }

/-- The vectors of the blocks of slice n. -/
def sliceVecs (n : Nat) : List Nat := [vLNK n, vCND n, vSPC n, vSTR n, vSHU n, vQUL n]

/-- The first address of the registers of slice n, and of its blocks (R364). -/
def sliceBase (n : Nat) : Nat := 0x100000 + 0x10000 * n

/-- Slice n is reset (R461), or comes up or goes off with nothing kept (R456). -/
def State.sliceReset (s : State) (n : Nat) (full : Bool) : State :=
  (((s.sliceClear n full).reedsClear n full).regsReset full (sliceBase n) (sliceBase n + 0x10000)).settleVecs (sliceVecs n)

/-- The display engine is reset: its outputs stop (R461). -/
def State.displayReset (s : State) (full : Bool) : State :=
  let x := (s.outputStop 0).outputStop 1
  let y := x.pnl
  let s1 := { x with pnl := if full then PnlSt.init else
    { PnlSt.init with stores := y.stores, badPixels := y.badPixels, palPending := y.palPending, palActive := y.palActive } }
  (s1.regsReset full 0x600000 0x700000).settleVecs [vPNL]

/-- The registers of Harness port p. -/
def portBase (p : Nat) : Nat := 0x901000 + 0x1000 * p

/-- Harness port p after a reset with nothing kept. -/
def State.harnessClear (s : State) (p : Nat) : State :=
  let s1 := (s.functionReset p).turnsGone (fun k => k == qnDoor p)
  State.clearRegs { s1 with hns := dropWhere (fun k => k == p) s1.hns } (portBase p) (portBase p + 0x1000)

/-! ### Absent slices -/

/-- The bus bits of slice n fall to 0 (R159). -/
def State.busClear (s : State) (n : Nat) : State :=
  let mine (i : Nat) : Bool := busSlice i == some n
  let s1 := s.setTrd { s.trd with coming := s.trd.coming.filter (fun c => !mine c.1) }
  ((upTo 576).filter mine).foldl (fun x i =>
    if bitAt (x.busHist i) x.beats then x.pushBus i ⟨x.beats, false, none, .plain, false⟩ else x) s1

/-- A shed whose mask names a channel of slice n closes its open record with ABANDONED, one that run stop left open too; a shed in POST
goes on (R158, R159). -/
def State.shedAbandon (s : State) (n k : Nat) : State :=
  if (s.shedChans k).any (fun c => c / 8 == n) then
    (if s.shedState k = shPost then (s.shedCut k clAbandoned).shedPosted k else s.shedCut k clAbandoned)
  else s

/-- The open RAW and SPECTRUM records of channel c close with ABANDONED (R31). -/
def State.recordsAbandon (s : State) (c : Nat) : State :=
  let s1 := s.rawClose c clAbandoned
  let open_ := Tab.get (fun _ => []) s1.recs.specs c
  open_.foldl (fun x r => x.specClose c clAbandoned r)
    { s1 with recs := { s1.recs with specs := Tab.put (fun _ => []) s1.recs.specs c [] } }

/-- Slice n is absent from now on: its open records close (R31, R159). -/
def State.sliceAbsent (s : State) (n : Nat) : State :=
  let s0 := (upTo 8).foldl (fun x l => x.recordsAbandon (8 * n + l)) s
  let s1 := (upTo 64).foldl (fun x k => x.shedAbandon n k) (s0.busClear n)
  ((s1.bitOn R.TRD_SLICE_ABSENT n).raise vTRD 7).degradeOn dgSliceAbsent n

/-! ### Domains -/

/-- The vector that writes the entry of a domain's reset. -/
def domainVec (d : Nat) : Nat := if d < 24 then vLNK d else if d < 28 then vHNS else vPNL

/-- The unit that the entry of a domain's reset names. -/
def domainUnit (d : Nat) : Nat := if 24 ≤ d ∧ d < 28 then d - 24 else 0

/-- Everything of a domain takes its reset value, its memories hold zeros (R456). -/
def State.domainClear (s : State) (d : Nat) : State :=
  if d < 24 then s.sliceReset d true
  else if d < 28 then s.harnessClear (d - 24)
  else s.displayReset true

/-- The domain that a unit of Paddock lies in, where it lies in a switched one (R463). -/
def unitDomain (u : Nat) : Option Nat :=
  if u < 96 then some (u / 4) else if u < 120 then some (u - 96) else if u = 125 then some 28
  else if 126 ≤ u ∧ u < 130 then some (24 + (u - 126)) else none

/-- A domain is under a Paddock test. -/
def State.domainTested (s : State) (d : Nat) : Bool := s.pdk.running.any (fun u => unitDomain u == some d)

/-- The lowest domain whose state is not its target (R455). -/
def State.domainDue (s : State) : Option Nat :=
  (upTo 29).find? (fun d => s.bit R.PWR_DOM_TARGET d != s.bit R.PWR_DOM_STATE d)

/-! ### Brownouts -/

/-- Some brownout is in progress. -/
def State.brownoutAny (s : State) : Bool := s.pwr.brownout.isSome || s.pwr.vio.any (fun e => e.2.isSome)

/-- A brownout begins: EMCY, ALERT_N (R395, R459, R462). -/
def State.brownoutOn (s : State) : State := (s.bitOn R.PWR_ALERT 4).emcyOnAll 0x3200 2 0xFF

/-- A brownout has ended: EMCY 0x0000; ALERT_N and the condition go on while another lasts (R395, R459). -/
def State.brownoutOff (s : State) : State :=
  if s.brownoutAny then
    let e : Emcy := ⟨0, 0x3200, s.runState, 0xFF, s.wt⟩
    (s.emcySend 0 e).emcySend 1 e
  else (s.bitOff R.PWR_ALERT 4).emcyOffAll 0x3200 0xFF

/-- Stamps taken in a bank's brownout, since the beat of its entry, that are still in their Quills are flagged SUSPECT (R358). -/
def State.flagSuspects (s : State) (b since : Nat) : State :=
  let hit (e : SideEntry) : Bool := decide (since ≤ e.taken)
  let mark (e : SideEntry) : SideEntry :=
    if hit e then { e with bytes := e.bytes.take 10 ++ ((e.bytes.drop 10).take 1).map (fun f => f ||| 2#8) ++ e.bytes.drop 11 } else e
  let is := (upTo 8).map (fun i => 8 * b + i)
  let any := is.any (fun i => (s.side (8 + i)).quill.any hit)
  let s1 := is.foldl (fun (x : State) i =>
    let q := x.side (8 + i)
    if q.quill.isEmpty then x else x.setSide (8 + i) { q with quill := q.quill.map mark }) s
  if any then s1.raise vHFB 3 else s1

/-- An entry written and committed at once that covers a number of events (R460). -/
def State.logCount (s : State) (vec num sev unit a0 a1 n : Nat) : State :=
  let e : ErlEntry := ⟨s.wt, s.nowFrac, sev, false, false, vec * 256 + num, (s.rd R.ERL_NEXT).toNat, unit % 2 ^ 16,
    min n 65535, a0 % 2 ^ 32, a1 % 2 ^ 64⟩
  (s.erlAllocate e).erlCommit e

/-! ### Boot and device resets -/

/-- Boot stages (R386). -/
def bsReset : Nat := 0
def bsRom : Nat := 1
def bsLink : Nat := 2
def bsFuses : Nat := 3
def bsSealed : Nat := 4
def bsHbm : Nat := 5
def bsUserLoad : Nat := 6
def bsUser : Nat := 7
def bsFailed : Nat := 15

/-- GLB_BOOT.STAGE. -/
def State.bootStage (s : State) : Nat := s.fget R.GLB_BOOT F.GLB_BOOT_STAGE

/-- The present boot stage fails: STAGE FAILED, ALERT_N low, a FATAL entry; at USER_LOAD also EMCY 0x6000 (R386, R395). -/
def State.bootFail (s : State) : State :=
  let st := s.bootStage
  let s1 := (s.fset R.GLB_BOOT F.GLB_BOOT_FAIL_STAGE st).fset R.GLB_BOOT F.GLB_BOOT_STAGE bsFailed
  let s2 := ((s1.bitOn R.PWR_ALERT 0).logOpen vGLB sevFatal 0 0 0).fatalStop
  if st = bsUserLoad then s2.emcyOnAll 0x6000 7 0xFF else s2

/-- Nominal voltages in mV of the supplies that V1 to V11 measure (R439, R475). -/
def railNominals : List Nat := [750, 850, 800, 1100, 400, 1100, 400, 900, 900, 1200, 900]

/-- The voltage that a code of PWR_VIO_STATUS stands for, in mV (R460). -/
def nominalOf (code : Nat) : Nat := if code = 0 then 1800 else if code = 1 then 2500 else 3300

/-- The nominal voltage that voltage monitor v shows: VSTBY's and the VIO banks' as chosen at NRESET release (R439, R475). -/
def State.nominal (s : State) (v : Nat) : Nat :=
  if v = 0 then s.fget (R.MON_V 0) F.MON_V_NOM
  else if v < 12 then railNominals.getD (v - 1) 0
  else nominalOf (s.fget R.PWR_VIO_STATUS F.PWR_VIO_STATUS_NOMINAL / 4 ^ (v - 12) % 4)

/-- Every MON_V shows its nominal voltage. -/
def State.showNominals (s : State) : State := (upTo 16).foldl (fun x v => x.fset (R.MON_V v) F.MON_V_NOM (x.nominal v)) s

/-- Boot begins at stage RESET: the Bridle draws the boot nonce and journals BOOT, with the security version of a sealed firmware that has not
been read yet (R386, R420, R421, R423). -/
def State.bootStart (s0 : State) : State :=
  let s := s0.took
  let nonce := s0.free % 2 ^ 64
  let s1 := (s.showNominals.fset R.GLB_BOOT F.GLB_BOOT_STAGE bsReset).setPair R.BRD_BOOT_NONCE_LO R.BRD_BOOT_NONCE_HI nonce
  let s2 := { s1 with brd := { s1.brd with nonce := nonce }, hitch := { s1.hitch with stageSince := s1.beats } }
  s2.took.journal (s2.jentry 1 0x40 0 nonce (s2.free % 2 ^ 16))

/-- The slots of programmings that a reset cut short: used, without their MARK; the bytes programmed are not given (R428). -/
def State.farCut (s : State) : State :=
  ((match s.far.prog with
    | some p => [p.slot]
    | none => []) ++ s.far.voidDue).foldl (fun (x : State) k => x.took.setSlot k ([0#8, 0#8] ++ leBytes 254 x.free)) s

/-- The fuses, which no reset changes, in the state after a reset: Farrier's store, and the Bridle's bank, whose device secret
gives a DIK or none (R405, R425, R428). -/
def State.withFuses (r s : State) : State :=
  let r1 := { r with
    far := { r.far with slots := s.farCut.far.slots }
    fresh := s.farCut.fresh
    brd := { r.brd with secretOff := s.brd.secretOff, owners := s.brd.owners } }
  let r2 := (r1.wr R.BRD_OWNER (s.rd R.BRD_OWNER)).wr R.BRD_SVN (s.rd R.BRD_SVN)
  let r3 := r2.fset R.BRD_STATUS F.BRD_STATUS_OPEN (s.fget R.BRD_STATUS F.BRD_STATUS_OPEN)
  if s.brd.secretOff then r3.fon R.BRD_STATUS F.BRD_STATUS_DIK_OFF else r3

/-- What lies outside the device, or counts for the model, goes on through a reset. -/
def State.withWorld (r s : State) : State := { r with beats := s.beats, pending := s.pending, outs := s.outs }

/-- A POWER_ON reset: everything but the fuses (R461). -/
def State.powerOn (s : State) : State :=
  let r := (State.reset.withWorld s).withFuses s
  { r with pwr := { r.pwr with porAt := some s.beats } }

/-- Registers that an EXTERNAL, SOFTWARE or THERMAL reset keeps (R461). -/
def keptRegs : List Nat :=
  [R.PWR_LAST_FATAL, R.PWR_LAST_FATAL_WT_LO, R.PWR_LAST_FATAL_WT_HI, R.PWR_BROWNOUT_CNT, R.PWR_AGE_EQ, R.PWR_POWERED,
    R.PWR_VIO_STATUS]

/-- An EXTERNAL, SOFTWARE or THERMAL reset, with its bit of PWR_RESET_CAUSE: both dies but the always-on domain; brownouts in
progress and the node-ID go on; a boot that has failed stays so but for an EXTERNAL reset (R386, R391, R461). -/
def State.deviceReset (s : State) (cause : Nat) : State :=
  let r := (State.reset.withWorld s).withFuses s
  let r1 := keptRegs.foldl (fun x a => x.wr a (s.rd a)) r
  let r2 := (r1.wr R.PWR_RESET_CAUSE (w32 (2 ^ cause))).fset R.PWR_STATUS F.PWR_STATUS_BROWNOUT (s.fget R.PWR_STATUS F.PWR_STATUS_BROWNOUT)
  let r2 := r2.fset (R.MON_V 0) F.MON_V_NOM (s.fget (R.MON_V 0) F.MON_V_NOM)
  let r3 := if s.brownoutAny then r2.bitOn R.PWR_ALERT 4 else r2
  let r4 := if s.pwr.thermalHold then r3.bitOn R.PWR_ALERT 5 else r3
  let failed := decide (3 ≤ cause) && decide (s.bootStage = bsFailed)
  let r5 := if failed then
      ((r4.fset R.GLB_BOOT F.GLB_BOOT_FAIL_STAGE (s.fget R.GLB_BOOT F.GLB_BOOT_FAIL_STAGE)).fset R.GLB_BOOT F.GLB_BOOT_STAGE bsFailed).bitOn
        R.PWR_ALERT 0
    else r4
  { r5 with
    pwr := { s.pwr with moving := none, railAt := none, suspects := [], ageWarned := false, driftWarned := false }
    dict := { r5.dict with nodeId := s.dict.nodeId, nodeFlags := s.dict.nodeFlags } }

/-- A THERMAL reset: both dies are held (R461, R462). -/
def State.thermalReset (s : State) : State :=
  let r := (s.deviceReset 4).bitOn R.PWR_ALERT 5
  { r with pwr := { r.pwr with thermalHold := true } }

end Sys2Proof.Machine
end

