-- ==== Sys2Proof/Machine/Monitors.lean ====
section
/-!
DEFINITION. The commands of the monitor net (R439 to R443).
-/

namespace Sys2Proof.Machine

/-- The monitor net converts: boot has reached stage FUSES (R439). -/
def State.monOn (s : State) : Bool := decide (bsFuses ≤ s.bootStage)

/-- The trim of the MON_TRIM record in force is loaded at the monitor's first conversion after it was written; what software wrote in this beat
does not stand before it (R373, R432). -/
def State.trimLoad (s0 : State) (t : Nat) : State :=
  let s := s0.trimsDue
  if s.mon.trimDue.contains t then
    let v := match s.settled.payload 9 0 with
      | some p => recNat p t 1
      | none => 0
    State.fload { s with mon := { s.mon with
      trimDue := s.mon.trimDue.filter (fun k => k ≠ t), trimOld := s.mon.trimOld.filter (fun e => e.1 ≠ t) } } (R.MON_T_TRIM t)
      F.MON_T_TRIM_TRIM v
  else s

/-- The trim of monitor t is about to be written: what it held is kept for a conversion in the same beat (R443). -/
def State.trimReplace (s : State) (t : Nat) : State :=
  if s.mon.trimOld.any (fun e => e.1 = t && e.2.2 = s.beats) then s
  else
    { s with mon := { s.mon with
      trimOld := Tab.put (fun _ => (0, 0)) s.mon.trimOld t (s.fget (R.MON_T_TRIM t) F.MON_T_TRIM_TRIM, s.beats) } }

/-- The trim of monitor t in a conversion of the present beat: a write in this beat does not apply yet (R443). -/
def State.trimNow (s : State) (t : Nat) : Int :=
  let old := s.mon.trimOld.find? (fun e => e.1 = t && e.2.2 = s.beats)
  signed 8 (match old with
    | some e => e.2.1
    | none => s.fget (R.MON_T_TRIM t) F.MON_T_TRIM_TRIM)

/-- The reading of monitor t, in 1/16 °C. -/
def State.temperature (s : State) (t : Nat) : Int := signed 16 (s.fget (R.MON_T t) F.MON_T_READING)

/-- Reading and monitor of the highest reading among the monitors that take part in the levels (R440). -/
def State.hottest (s : State) : Option (Int × Nat) :=
  ((upTo 32).filter (fun t => s.bit R.MON_T_EN t && !s.bit R.MON_T_FAULT t)).foldl (fun best t =>
    match best with
    | none => some (s.temperature t, t)
    | some b => if b.1 < s.temperature t then some (s.temperature t, t) else some b) none

/-- Level WARN after a conversion with the highest reading x, of monitor t (R31, R440). -/
def State.warnLevel (s : State) (x : Int) (t : Nat) : State :=
  let w : Int := 16 * s.fget R.MON_THERM_CFG F.MON_THERM_CFG_WARN
  let h : Int := 16 * (max 1 (s.fget R.MON_THERM_CFG F.MON_THERM_CFG_HYST) : Nat)
  if s.flag R.MON_STATUS F.MON_STATUS_WARN then
    if x < w - h then
      (((s.foff R.MON_STATUS F.MON_STATUS_WARN).raise vMON 1).logSev vMON 1 t 0 0).degradeOff dgThermal
    else s
  else if w ≤ x then (((s.fon R.MON_STATUS F.MON_STATUS_WARN).raise vMON 0).logSev vMON 0 t 0 0).degradeOn dgThermal t
  else s

/-- Level CRIT after a conversion with the highest reading x, of monitor t (R24, R440, R462). -/
def State.critLevel (s : State) (x : Int) (t : Nat) : State :=
  let c : Int := 16 * s.fget R.MON_THERM_CFG F.MON_THERM_CFG_CRIT
  let h : Int := 16 * (max 1 (s.fget R.MON_THERM_CFG F.MON_THERM_CFG_HYST) : Nat)
  if s.flag R.MON_STATUS F.MON_STATUS_CRIT then
    if x < c - h then
      let s1 := (s.foff R.MON_STATUS F.MON_STATUS_CRIT).bitOff R.PWR_ALERT 1
      s1.took.logOpen vMON (s1.free % 3) t 0 0
    else s
  else if c ≤ x then ((s.fon R.MON_STATUS F.MON_STATUS_CRIT).bitOn R.PWR_ALERT 1).fatal vMON 2 t 0 0
  else s

/-- The levels are evaluated after a conversion; MON_T_MAX shows the highest reading, or a free value where no monitor takes part
(R440). -/
def State.thermalLevels (s : State) : State :=
  match s.hottest with
  | none => s.took.wr R.MON_T_MAX (w32 (s.free % 2 ^ 21))
  | some (x, t) =>
    let s1 := s.wr R.MON_T_MAX (w32 (unsigned 16 x + 65536 * t))
    (s1.warnLevel x t).critLevel x t

/-- THERMAL_CONVERSION: the trimmed reading, the fault of the monitor, the levels, and the THERMAL reset at 125 °C (R440, R443,
R461). -/
def execThermalConversion (monitor : Fin 32) (raw : Int) (s : State) : Host.Outcome State Fault Refusal :=
  let t := monitor.val
  .next (
    if s.monOn then
      let s1 := s.trimLoad t
      let x := raw + s1.trimNow t
      let s2 := s1.fset (R.MON_T t) F.MON_T_READING (unsigned 16 x)
      let bad := decide (x < -880) || decide (2400 < x)
      let s3 := if bad then
          (if s2.bit R.MON_T_FAULT t then s2 else (s2.bitOn R.MON_T_FAULT t).event vMON 5 sevError t 0 0)
        else s2.bitOff R.MON_T_FAULT t
      let s4 := s3.thermalLevels
      if bad = false ∧ 2000 ≤ x then s4.thermalReset else s4
    else s)

/-- A reading lies outside the window of voltage monitor v (R441). -/
def State.outside (s : State) (v reading : Nat) : Bool :=
  let nom := s.nominal v
  decide (reading * 1000 < nom * (1000 - s.fget (R.MON_V_WIN v) F.MON_V_WIN_LO))
    || decide (nom * (1000 + s.fget (R.MON_V_WIN v) F.MON_V_WIN_HI) < reading * 1000)

/-- VOLTAGE_CONVERSION: three readings in a row outside the window set the monitor's bit, three inside clear it (R441). -/
def execVoltageConversion (monitor : Fin 16) (reading : BitVec 16) (s : State) : Host.Outcome State Fault Refusal :=
  let v := monitor.val
  .next (
    if s.monOn then
      let s1 := s.fset (R.MON_V v) F.MON_V_READING reading.toNat
      let out := s1.outside v reading.toNat
      let no := if out then min 3 (Tab.get (fun _ => 0) s.mon.outRun v + 1) else 0
      let ni := if out then 0 else min 3 (Tab.get (fun _ => 0) s.mon.inRun v + 1)
      let s2 := { s1 with mon := { s1.mon with
        outRun := Tab.put (fun _ => 0) s1.mon.outRun v no, inRun := Tab.put (fun _ => 0) s1.mon.inRun v ni } }
      if no = 3 ∧ s2.bit R.MON_V_OUT v = false then (s2.bitOn R.MON_V_OUT v).event vMON 3 sevWarning v 0 0
      else if ni = 3 ∧ s2.bit R.MON_V_OUT v = true then (s2.bitOff R.MON_V_OUT v).event vMON 4 sevInfo v 0 0
      else s2
    else s)

/-- PROCESS_CONVERSION: the count, and its drift from the baseline in ppm (R442). -/
def execProcessConversion (monitor : Fin 16) (count : BitVec 32) (s : State) : Host.Outcome State Fault Refusal :=
  let q := monitor.val
  let base : Nat := match s.settled.payload 9 0 with
    | some p => recNat p (32 + 4 * q) 4
    | none => 0
  let drift := if base = 0 then 0 else roundAway (((count.toNat : Int) - (base : Int)) * 1000000) base
  .next (if s.monOn then (s.wr (R.MON_P q) count).wr (R.MON_P_DRIFT q) (w32 (unsigned 32 drift)) else s)

end Sys2Proof.Machine
end

