-- ==== Sys2Proof/Machine/Paddock.lean ====
section
/-!
DEFINITION. Paddock: the commands that start, end and complete its tests (R463 to R465).
-/

namespace Sys2Proof.Machine

/-- The domain of a unit is on, and not in transition. -/
def State.unitPowered (s : State) (u : Nat) : Bool :=
  match unitDomain u with
  | none => true
  | some d =>
    s.bit R.PWR_DOM_STATE d && (match s.pwr.moving with
      | some (e, _, _) => decide (e ≠ d)
      | none => true)

/-- A unit is disabled, so that it can be tested (R463). -/
def State.unitDisabled (s : State) (u : Nat) : Bool :=
  if u < 120 then s.atRest && s.unitPowered u
  else if u < 123 then s.atRest
  else if u = 123 then s.atRest && (upTo 4).all (fun k => !s.flag (R.SKN_DEC_STATUS k) F.SKN_DEC_STATUS_BUSY)
  else if u = 124 then (upTo 64).all (fun k => !s.spnActive k)
  else if u = 125 then !s.flag R.PNL_STATUS F.PNL_STATUS_ENABLE && s.unitPowered u
  else !s.flag (R.HNS_PORT_STATUS (u - 126)) F.HNS_PORT_STATUS_LINK_UP && s.unitPowered u

/-- The block reset that ends a unit's test: every register at its reset value, every memory zero (R465). -/
def State.unitClear (s : State) (u : Nat) : State :=
  if u < 96 then
    let n := u / 4
    let a := R.SPC_RETIRE n
    let keep := s.rd a
    let s1 := (s.reedsClear n true).clearRegs (sliceBase n + 0x4000) (sliceBase n + 0x6000)
    let lo := R.STR_SC_CFG n (4 * (u % 4))
    ((s1.wr a keep).clearRegs lo (lo + 0x80)).settleVecs [vSPC n, vSTR n]
  else if u < 120 then
    let n := u - 96
    let b := sliceBase n
    let s1 := ((s.sliceClear n true).clearRegs b (b + 0x4000)).clearRegs (b + 0x6000) (b + 0x6200)
    (s1.clearRegs (b + 0x8000) (b + 0x10000)).settleVecs [vLNK n, vCND n, vSTR n, vSHU n, vQUL n]
  else if u = 120 then
    let t := s.trd
    let s1 := { s with trd := { TrdSt.init with masks := t.masks, prims := t.prims, scs := t.scs } }
    (s1.clearRegs 0x300000 0x400000).drivePins.settleVecs [vTRD]
  else if u = 121 then (State.clearRegs { s with tap := TapSt.init } 0x500000 0x600000).settleVecs [vTAP]
  else if u = 122 then
    let r := s.recs
    (State.clearRegs { s.turnsGone (fun k => decide (qnSide 0 ≤ k)) with recs := { RecSt.init with engines := r.engines, decs := r.decs } } 0x700000 0x800000).settleVecs
      [vREC]
  else if u = 123 then
    (State.clearRegs { s with recs := { s.recs with engines := [], decs := [] } } 0x800000 0x900000).settleVecs [vSKN]
  else if u = 124 then (State.clearRegs { s with spn := [], spnTurns := SpnTurns.init } 0xA00000 0xB00000).settleVecs [vSPN]
  else if u = 125 then s.displayReset true
  else (s.harnessClear (u - 126)).settleVecs [vHNS]

/-- The vector and the instance of a unit's reset entry. -/
def unitVec (u : Nat) : Nat × Nat :=
  if u < 96 then (vSPC (u / 4), u % 4)
  else if u < 120 then (vLNK (u - 96), 0)
  else if u = 120 then (vTRD, 0)
  else if u = 121 then (vTAP, 0)
  else if u = 122 then (vREC, 0)
  else if u = 123 then (vSKN, 0)
  else if u = 124 then (vSPN, 0)
  else if u = 125 then (vPNL, 0)
  else (vHNS, u - 126)

/-- A unit's test is over: it is reset, with an entry that counts the RETRYs it gave (R380, R461, R465). -/
def State.unitReset (s : State) (u : Nat) : State :=
  let n := min 65535 (Tab.get (fun _ => 0) s.pdk.retries u)
  let s1 := (s.unitClear u).resetEnded (unitVec u).1 (unitVec u).2 n
  { s1 with pdk := { s1.pdk with
    running := s1.pdk.running.filter (fun v => v ≠ u), retries := Tab.put (fun _ => 0) s1.pdk.retries u 0 } }

/-- The result registers show the unit that PDK_SEL names (R465). -/
def State.pdkShow (s : State) : State :=
  let x := Tab.get (fun _ => PdkRes.none) s.pdk.results (s.fget R.PDK_SEL F.PDK_SEL_UNIT)
  (((s.wr R.PDK_SIG (w32 x.sig)).wr R.PDK_SIG_EXP (w32 x.expected)).wr R.PDK_MEM_INFO (w32 x.memInfo)).wr R.PDK_REPAIR
    (w32 x.repair)

/-- The whole test is over with a result (R464). -/
def State.pdkEnd (s : State) (result : Nat) : State :=
  ((s.foff R.PDK_STATUS F.PDK_STATUS_RUNNING).fset R.PDK_STATUS F.PDK_STATUS_RESULT result).raise vPDK 0

/-- PDK_GO: every requested unit is tested, or, where one is not disabled, none is (R464). -/
def execPdkGo (s : State) : Host.Outcome State Fault Refusal :=
  let req := (upTo 130).filter (fun u => s.bit (R.PDK_REQ (u / 32)) (u % 32))
  let busy := req.filter (fun u => !s.unitDisabled u)
  .next (
    if s.flag R.PDK_STATUS F.PDK_STATUS_RUNNING then s.again R.PDK_CTRL 0
    else if busy.isEmpty then
      let s1 := (upTo 5).foldl (fun x w => x.wr (R.PDK_FAIL w) 0#32) s
      let s2 := (s1.fon R.PDK_STATUS F.PDK_STATUS_RUNNING).fset R.PDK_STATUS F.PDK_STATUS_RESULT 0
      let mode := s.fget R.PDK_CFG F.PDK_CFG_MODE
      let s3 := { s2 with pdk := { s2.pdk with
        running := req, mode := if mode = 0 then 3 else mode, anyFail := false, retries := [] } }
      if req.isEmpty then s3.pdkEnd 1 else s3
    else
      let s1 := (upTo 5).foldl (fun x w => x.wr (R.PDK_BUSY w) (busy.foldl (fun v u =>
        if u / 32 = w then setBitW v (u % 32) else v) 0#32)) s
      (s1.fset R.PDK_STATUS F.PDK_STATUS_RESULT 3).raise vPDK 2)

/-- PDK_ABORT: the test ends; units not yet finished report no result (R464, R465). -/
def execPdkAbort (s : State) : Host.Outcome State Fault Refusal :=
  .next (
    if s.flag R.PDK_STATUS F.PDK_STATUS_RUNNING then
      (s.pdk.running.foldl (fun x u => x.unitReset u) s).pdkEnd 4
    else s)

/-- The Reed u failed or passed: RETIRE and PDK_FAIL of SPC_RETIRE (R110, R465). -/
def State.reedResult (s : State) (u : Nat) (failed : Bool) : State :=
  let a := R.SPC_RETIRE (u / 4)
  let f := s.fget a F.SPC_RETIRE_PDK_FAIL
  let r := s.fget a F.SPC_RETIRE_RETIRE
  if failed then
    (s.fset a F.SPC_RETIRE_PDK_FAIL (setBitW (w32 f) (u % 4)).toNat).fset a F.SPC_RETIRE_RETIRE (setBitW (w32 r) (u % 4)).toNat
  else s.fset a F.SPC_RETIRE_PDK_FAIL (clrBitW (w32 f) (u % 4)).toNat

/-- PDK_TEST_DONE: the unit is reset, its signature compared, and its failure marked and logged; with the last unit the test
ends (R110, R465). -/
def execPdkTestDone (unit : Fin 130) (signature : BitVec 32) (memInfo : BitVec 25) (repair : BitVec 16) (s : State) :
    Host.Outcome State Fault Refusal :=
  let u := unit.val
  let m := s.pdk.mode
  let expected := Config.padSignature u
  let bad := (m % 2 == 1 && signature != expected) || (decide (2 ≤ m) && decide (memInfo.toNat % 65536 ≠ 0))
  .next (
    if s.pdk.running.contains u then
      let x := Tab.get (fun _ => PdkRes.none) s.pdk.results u
      let x1 := if m % 2 = 1 then { x with sig := signature.toNat, expected := expected.toNat } else x
      let x2 := if 2 ≤ m then { x1 with memInfo := memInfo.toNat, repair := repair.toNat } else x1
      let s1 := s.unitReset u
      let s2 := State.pdkShow { s1 with pdk := { s1.pdk with
        results := Tab.put (fun _ => PdkRes.none) s1.pdk.results u x2, anyFail := s1.pdk.anyFail || bad } }
      let s3 := if u < 96 then s2.reedResult u bad else s2
      let s4 := if bad then (s3.bitOn (R.PDK_FAIL (u / 32)) (u % 32)).event vPDK 1 sevError u 0 0 else s3
      if s4.pdk.running.isEmpty then s4.pdkEnd (if s4.pdk.anyFail then 2 else 1) else s4
    else s)

end Sys2Proof.Machine
end

