-- ==== Sys2Proof/Machine/Power.lean ====
section
/-!
DEFINITION. The commands of the power manager and the reset controller (R454 to R462, R470, R484), and the commit of
coalescing log entries (R468).
-/

namespace Sys2Proof.Machine

/-! ### Domains -/

/-- A power-down of domain d is not allowed at present (R455). -/
def State.downRefused (s : State) (d : Nat) : Bool :=
  s.domainTested d || (if d < 28 then !s.atRest else s.flag R.PNL_STATUS F.PNL_STATUS_ENABLE)

/-- The wanted states are stored; a cleared bit that is refused keeps its value, with a WARNING entry for each (R455, R487). -/
def State.domTargetPut (s : State) (value : Word) : State :=
  let bad := (upTo 29).filter (fun d => s.bit R.PWR_DOM_TARGET d && !value.getLsbD d && s.downRefused d)
  let v := bad.foldl (fun w d => setBitW w d) (value &&& 0x1FFFFFFF#32)
  bad.foldl (fun x d => x.event vPWR 8 sevWarning d 0 0) (s.wr R.PWR_DOM_TARGET v)

/-- A domain is in transition from now on (R455, R456). -/
def State.domainMoves (s : State) (d : Nat) (up : Bool) : State :=
  State.fon { s with pwr := { s.pwr with moving := some (d, up, s.beats) } } R.PWR_STATUS F.PWR_STATUS_TRANSITION

/-- The transition of the moving domain is over (R455). -/
def State.domainStill (s : State) : State :=
  State.foff { s with pwr := { s.pwr with moving := none, railAt := none } } R.PWR_STATUS F.PWR_STATUS_TRANSITION

/-- DOMAIN_POWER_DOWN: the lowest domain whose state is not its target starts down: Spindle channels are asked to quiesce, a
slice becomes absent (R159, R328, R455, R456). -/
def execDomainPowerDown (s : State) : Host.Outcome State Fault Refusal :=
  .next (
    match s.pwr.moving, s.domainDue with
    | none, some d =>
      if s.bit R.PWR_DOM_TARGET d then s
      else
        let s1 := (s.domainMoves d false).spnQuiesce d
        if d < 24 then s1.sliceAbsent d else s1
    | _, _ => s)

/-- DOMAIN_OFF: once no channel is quiescing, a Harness port's link is down, the domain holds nothing, and its rail switch is
open (R308, R456). -/
def execDomainOff (s : State) : Host.Outcome State Fault Refusal :=
  .next (
    match s.pwr.moving with
    | some (d, false, _) =>
      if s.spnQuiescing d then s
      else
        let p := d - 24
        let s1 := if 24 ≤ d ∧ d < 28 ∧ s.flag (R.HNS_PORT_STATUS p) F.HNS_PORT_STATUS_LINK_UP = true then
            (s.portLoss p).linkFell p
          else s
        let s2 := (s1.domainClear d).bitOff R.PWR_DOM_STATE d
        ((s2.raise vPWR 5).logSev vPWR 5 d 0 0).domainStill
    | _ => s)

/-- DOMAIN_POWER_UP: the lowest domain whose state is not its target starts up; its rail has closed within 60,000 beats (R455, R456). -/
def execDomainPowerUp (s : State) : Host.Outcome State Fault Refusal :=
  .next (
    match s.pwr.moving, s.domainDue with
    | none, some d =>
      if s.bit R.PWR_DOM_TARGET d then
        let s1 := s.took.domainMoves d true
        { s1 with pwr := { s1.pwr with railAt := some (s.beats + s.free % 60001), updRetries := 0 } }
      else s
    | _, _ => s)

/-- DOMAIN_ON: the domain is on, its registers at reset values and its memories zero; the update is logged, and channels that
paused for it go on (R328, R456, R461). -/
def execDomainOn (s : State) : Host.Outcome State Fault Refusal :=
  .next (
    match s.pwr.moving with
    | some (d, true, _) =>
      let s1 := (s.domainClear d).bitOn R.PWR_DOM_STATE d
      let s2 := ((s1.raise vPWR 6).logSev vPWR 6 d 0 0).resetEnded (domainVec d) (domainUnit d) (min 65535 s.pwr.updRetries)
      s2.domainStill.spnResume d
    | _ => s)

/-! ### Brownouts -/

/-- VSTBY_BROWNOUT_BEGIN (R395, R414, R435, R459). -/
def execVstbyBrownoutBegin (s : State) : Host.Outcome State Fault Refusal :=
  .next (
    if s.pwr.brownout.isSome = true ∨ s.pwr.porAt = some s.beats then s
    else
      let s1 := State.fon { s with pwr := { s.pwr with brownout := some s.wt } } R.PWR_STATUS F.PWR_STATUS_BROWNOUT
      ((s1.event vPWR 0 sevWarning 0 0 0).brownoutOn).farAbort.brdBrownout)

/-- VSTBY_BROWNOUT_END: the exit entry has the lowest reading and the entry's warp time; what waited goes on (R435, R459,
R460). -/
def execVstbyBrownoutEnd (lowest : BitVec 16) (s : State) : Host.Outcome State Fault Refusal :=
  .next (
    match s.pwr.brownout with
    | none => s
    | some t =>
      let s1 := State.foff { s with pwr := { s.pwr with brownout := none } } R.PWR_STATUS F.PWR_STATUS_BROWNOUT
      ((s1.event vPWR 1 sevWarning 0 lowest.toNat t).count R.PWR_BROWNOUT_CNT 1).brownoutOff.farReturn.manifestAgain)

/-- The entry warp time of a bank's brownout, while it lasts. -/
def State.vioSince (s : State) (b : Nat) : Option (Nat × Nat) := Tab.get (fun _ => none) s.pwr.vio b

/-- VIO_BROWNOUT_BEGIN (R460). -/
def execVioBrownoutBegin (bank : Fin 7) (s : State) : Host.Outcome State Fault Refusal :=
  let b := bank.val
  .next (
    if (s.vioSince b).isSome then s
    else
      let s1 := { s with pwr := { s.pwr with
        vio := Tab.put (fun _ => none) s.pwr.vio b (some (s.wt, s.beats))
        suspects := Tab.put (fun _ => (0, 0, 0)) s.pwr.suspects b (0, 0, 0) } }
      ((s1.bitOn R.PWR_VIO_STATUS (16 + b)).event vPWR 2 sevWarning b 0 0).brownoutOn)

/-- VIO_BROWNOUT_END: the bank returns; the exit entry of banks 0 to 3 lists the SUSPECT stamps already popped, and those still
in the Quills are flagged (R358, R460). -/
def execVioBrownoutEnd (bank : Fin 7) (lowest : BitVec 16) (s : State) : Host.Outcome State Fault Refusal :=
  let b := bank.val
  .next (
    match s.vioSince b with
    | none => s
    | some (t, since) =>
      let x := Tab.get (fun _ => (0, 0, 0)) s.pwr.suspects b
      let s1 := { s with pwr := { s.pwr with vio := Tab.put (fun _ => none) s.pwr.vio b none } }
      let s2 := ((s1.bitOff R.PWR_VIO_STATUS (16 + b)).bitOff R.PWR_VIO_STATUS (24 + b)).raise vPWR 3
      let s3 := if b < 4 then
          (s2.logCount vPWR 3 sevWarning b (min 0xFFFFFFFF (x.2.1 - x.1)) x.1 x.2.2).flagSuspects b since
        else s2.log vPWR 3 sevWarning b lowest.toNat t
      s3.drivePins.brownoutOff)

/-- VIO_LOST: in its brownout a bank falls below its reset threshold; its outputs are inactive; a loss of VIO_BOOT fails the
boot stages that read the boot flash (R386, R460). -/
def execVioLost (bank : Fin 7) (s : State) : Host.Outcome State Fault Refusal :=
  let b := bank.val
  .next (
    if (s.vioSince b).isSome = true ∧ s.bankLost b = false then
      let s1 := ((s.bitOn R.PWR_VIO_STATUS (24 + b)).event vPWR 4 sevError b 0 0).drivePins
      if b = 6 ∧ (s1.bootStage = bsSealed ∨ s1.bootStage = bsUserLoad) then s1.bootFail else s1
    else s)

/-! ### Resets -/

/-- No reset or hold keeps the dies from booting. -/
def State.released (s : State) : Bool := !s.pwr.nresetLow && !s.pwr.pwrOkLow && !s.pwr.thermalHold

/-- Boot begins, where nothing holds it and it has not failed for good (R386; log entry 269). -/
def State.bootIfReleased (s : State) : State := if s.released && s.bootStage != bsFailed then s.bootStart else s

/-- POWER_ON_RESET (R458, R461). -/
def execPowerOnReset (s : State) : Host.Outcome State Fault Refusal := .next s.powerOn

/-- NRESET_ASSERT: an EXTERNAL reset; the dies are held until NRESET is released (R461). -/
def execNresetAssert (s : State) : Host.Outcome State Fault Refusal :=
  let r := s.deviceReset 1
  .next { r with pwr := { r.pwr with nresetLow := true } }

/-- PWR_OK_LOW: an EXTERNAL reset whose cause is PWR_OK (R461, R484). -/
def execPwrOkLow (s : State) : Host.Outcome State Fault Refusal :=
  let r := s.deviceReset 2
  .next { r with pwr := { r.pwr with pwrOkLow := true } }

/-- The nominal voltage nearest to a measured one, as PWR_VIO_STATUS codes it: 0 1.8 V, 1 2.5 V, 2 3.3 V (R460). -/
def vioNominal (mv : Nat) : Nat := if mv < 2150 then 0 else if mv < 2900 then 1 else 2

/-- The first process monitor that is slower than DRIFT_WARN allows is reported, once since reset (R470). -/
def State.driftCheck (s : State) : State :=
  let limit : Int := s.fget R.PWR_AGE_CFG F.PWR_AGE_CFG_DRIFT_WARN
  match (upTo 16).find? (fun q => decide (signed 32 (s.rd (R.MON_P_DRIFT q)).toNat + limit < 0)) with
  | some q =>
    if s.pwr.driftWarned then s
    else State.event { s with pwr := { s.pwr with driftWarned := true } } vPWR 9 sevWarning q 0 0
  | none => s

/-- NRESET_RELEASE: the pins are sampled, the nominal voltages of VSTBY and of each VIO bank are chosen, and boot begins (R386,
R391, R457, R460, R475, R484). -/
def execNresetRelease (canid : BitVec 7) (vstby : BitVec 16) (vio : List (BitVec 16)) (s : State) :
    Host.Outcome State Fault Refusal :=
  .next (
    if s.pwr.nresetLow = true ∨ s.pwr.pwrOkLow = true then
      let s1 := { s with pwr := { s.pwr with nresetLow := false, pwrOkLow := false, canid := some canid.toNat } }
      let nom := (upTo 7).foldl (fun n b => n + vioNominal (vio.getD b 0#16).toNat * 4 ^ b) 0
      let s2 := s1.fset (R.MON_V 0) F.MON_V_NOM (nominalOf (vioNominal vstby.toNat))
      (s2.fset R.PWR_VIO_STATUS F.PWR_VIO_STATUS_NOMINAL nom).driftCheck.bootIfReleased
    else s)

/-- DEVICE_RESET: a SOFTWARE reset; boot restarts (R461). -/
def execDeviceReset (s : State) : Host.Outcome State Fault Refusal := .next (s.deviceReset 3).driftCheck.bootIfReleased

/-- THERMAL_HOLD_END: the dies are released, and boot begins (R461, R462). -/
def execThermalHoldEnd (s : State) : Host.Outcome State Fault Refusal :=
  .next (
    if s.pwr.thermalHold then
      let s1 := s.bitOff R.PWR_ALERT 5
      State.bootIfReleased { s1 with pwr := { s1.pwr with thermalHold := false } }
    else s)

/-- Requests to HBM that domain d has made and that are in progress: a reset discards their replies (R380). -/
def State.repliesOut (s : State) (d : Nat) : Nat :=
  s.bob.pcs.foldl (fun n e => n + (e.2.queue.filter (fun r => !r.write
    && ((r.who == .window && d < 24 && r.id / 8 == d) || (r.who == .bar2 && decide (24 ≤ d) && r.id + 24 == d)))).length) 0

/-- A block reset of domain d, refused while the domain is off or in transition; the entry counts the replies discarded (R159, R298, R380,
R461). -/
def State.blockReset (s : State) (d : Nat) : State :=
  let moving := match s.pwr.moving with
    | some (e, _, _) => decide (e = d)
    | none => false
  if s.bit R.PWR_DOM_STATE d = false ∨ moving = true then s.raise vPWR 8
  else
    let s1 := if d < 24 then (s.sliceAbsent d).sliceReset d false
      else if d < 28 then (s.functionReset (d - 24)).portApply (d - 24)
      else s.displayReset false
    s1.resetEnded (domainVec d) (domainUnit d) (65536 * min 65535 (s.repliesOut d))

/-- PWR_BLK_RESET: a block reset of each domain named (R461). -/
def execPwrBlkReset (value : BitVec 32) (s : State) : Host.Outcome State Fault Refusal :=
  .next (((upTo 29).filter (fun d => value.getLsbD d)).foldl (fun x d => x.blockReset d) s)

/-! ### The log and the age -/

/-- ERL_COALESCE_COMMIT: an entry that nothing has extended for 1,024 beats is committed (R468). -/
def execErlCoalesceCommit (s : State) : Host.Outcome State Fault Refusal :=
  .next ((s.erl.opens.filter (fun (o : ErlOpen) => decide (o.last + 1024 ≤ s.beats))).foldl (fun x o => x.erlClose o) s)

/-- 1/16 hour in 2^-16 s. -/
def ageUnit : Nat := 225 * 2 ^ 16

/-- 2^((T − 85) / 10) seconds in 2^-16 s, for T in 1/16 °C: exact where it is a whole number (R470). -/
def ageStep (t : Int) : Nat :=
  let d := t - 1360
  if d % 160 = 0 ∧ -16 ≤ d / 160 then 2 ^ (16 + d / 160).toNat else Config.ageSeconds t

/-- AGE_TICK: a second has passed: equivalent age and powered time, and the warning at AGE_LIMIT, once (R470). -/
def execAgeTick (s : State) : Host.Outcome State Fault Refusal :=
  let a := s.pwr.ageAcc + ageStep (signed 16 (s.fget R.MON_T_MAX F.MON_T_MAX_READING))
  let p := s.pwr.poweredAcc + 1
  let s1 := { s with pwr := { s.pwr with ageAcc := a % ageUnit, poweredAcc := p % 225 } }
  let s2 := (s1.count R.PWR_AGE_EQ (a / ageUnit)).count R.PWR_POWERED (p / 225)
  .next (
    if s2.rd R.PWR_AGE_LIMIT ≤ s2.rd R.PWR_AGE_EQ ∧ s2.pwr.ageWarned = false then
      State.event { s2 with pwr := { s2.pwr with ageWarned := true } } vPWR 9 sevWarning 0 0 0
    else s2)

/-- DRIFT_CHECK (R470). -/
def execDriftCheck (s : State) : Host.Outcome State Fault Refusal := .next s.driftCheck

end Sys2Proof.Machine
end

