-- ==== Sys2Proof/Machine/ConfigOps.lean ====
section
/-!
DEFINITION. What CONFIGURE checks (R18 and the rules that add to it), and how it places the spectral streams on the Reeds
(R106 to R110) and binds the spectral condition units (R132). A check that fails is the address of its register and the
instance it names, numbered as the register map of the block numbers it (R487).
-/

namespace Sys2Proof.Machine

/-- A failed check: the register's address and the instance. -/
abbrev Fail := Nat × Nat

/-- The failure of a check. -/
def failIf (bad : Bool) (addr inst : Nat) : List Fail := if bad then [(addr, inst)] else []

/-- The failures of checks made on each of n instances, in order. -/
def eachOf (n : Nat) (f : Nat → List Fail) : List Fail := (upTo n).foldl (fun xs i => xs ++ f i) []

/-- Slice n is powered down (R10). -/
def State.sliceDown (s : State) (n : Nat) : Bool := !s.domainOn n

/-- A stream with EN 0 is named by a producer (R271). -/
def State.noStream (s : State) (k : Nat) : Bool := !s.streamOn k

/-! ### Hoofbeat, Linkai, conditioners -/

/-- Hoofbeat inputs in use (R352, R362). -/
def State.hfbChecks (s : State) : List Fail :=
  eachOf 32 (fun i =>
    let a := R.HFB_IN_CFG i
    let ps := s.fget a F.HFB_IN_CFG_PS
    failIf (s.hfbOn i && (s.fget a F.HFB_IN_CFG_EDGE == 3 || decide (24 < s.fget a F.HFB_IN_CFG_DECIM)
      || (s.flag a F.HFB_IN_CFG_PS_EN && (decide (i < 28) || ps == 0 || decide (16 < ps))))) a i)

/-- The lowest lane of port n whose LANE_EN differs from that of its gang's lowest lane (R75). -/
def State.lanesDiffer (s : State) (n : Nat) : Option Nat :=
  (upTo 8).find? (fun l =>
    (s.rd (R.LNK_CFG n)).getLsbD l != (s.rd (R.LNK_CFG n)).getLsbD (gangBase (gangWidth (s.gangCode n l)) l))

/-- Port n (R75). -/
def State.lnkChecks (s : State) (n : Nat) : List Fail :=
  let a := R.LNK_CFG n
  let hi := s.fget a F.LNK_CFG_MAX_SPEED
  let lo := s.fget a F.LNK_CFG_MIN_SPEED
  failIf (s.fget a F.LNK_CFG_GANG_LO == 3 || s.fget a F.LNK_CFG_GANG_HI == 3 || hi == 3 || lo == 3 || decide (hi < lo)) a n
    ++ (match s.lanesDiffer n with
      | some l => [(a, l)]
      | none => [])

/-- The largest number of FIR taps for a decimation (R88). -/
def maxTaps (d : Nat) : Nat := if d ≤ 2 then 31 else if d ≤ 4 then 63 else if d ≤ 8 then 127 else 255

/-- The conditioners of slice n (R80, R87, R88). -/
def State.cndChecks (s : State) (n : Nat) : List Fail :=
  eachOf 8 (fun l =>
    let c := 8 * n + l
    let a := cndCfg c
    let d := ddcCfg c
    let mode := s.fget a F.CND_CH_CFG_RANK_MODE
    let w := s.fget a F.CND_CH_CFG_RANK_W
    let k := s.fget a F.CND_CH_CFG_RANK_K
    let t := s.ddcTaps c
    if s.flag a F.CND_CH_CFG_EN then
      failIf (s.gangHigh c || mode == 3 || ((mode == 1 || mode == 2) && w == 7)
          || (mode == 1 && (k == 0 || decide (2 * w + 3 < k)))) a l
        ++ failIf (s.ddcOn c && (decide (11 < s.fget d F.CND_DDC_CFG_RC_EXP) || t == 0 || decide (maxTaps (s.ddcD c) < t))) d l
    else [])

/-! ### Reeds -/

/-- The bins that the stream of channel c delivers (R116). -/
def State.specBins (s : State) (c : Nat) : Nat := if s.specZoom c then s.specN c else s.specN c / 2

/-- The stride that CONFIGURE takes for a channel: that of LNK_CFG.MAX_SPEED (R106). -/
def State.stridePlanned (s : State) (c : Nat) : Nat := strideOf (s.fget (R.LNK_CFG (c / 8)) F.LNK_CFG_MAX_SPEED)

/-- A slot of a Reed, in the unit of loads here: 1/32,768 of a slot (R106). -/
def oneSlot : Nat := 32768

/-- A stream as the allocator sees it: local channel, load at overlap 0, overlap code, memory, KEEP_OV (R106, R108). -/
structure AllocStream where
  ch : Nat
  base : Nat
  ovl : Nat
  mem : Nat
  keep : Bool
  deriving DecidableEq, Repr

/-- The load of a stream (R106). -/
def AllocStream.load (x : AllocStream) : Nat := x.base * 2 ^ x.ovl

/-- The stream of channel c as the allocator sees it. -/
def State.allocStream (s : State) (c : Nat) : AllocStream :=
  let k := if s.specZoom c then 2 else 1
  ⟨c % 8, s.chanGang c * k * oneSlot / (s.stridePlanned c * s.specDz c), s.fget (spcCfg c) F.SPC_CH_CFG_OVL,
    s.specN c * k, s.flag (spcCfg c) F.SPC_CH_CFG_KEEP_OV⟩

/-- A Reed as the allocator fills it: streams, load, memory, whether it is a member of a pair. -/
structure AllocReed where
  streams : List Nat
  load : Nat
  mem : Nat
  paired : Bool
  deriving DecidableEq, Repr

/-- A Reed that holds nothing. -/
def AllocReed.empty : AllocReed := ⟨[], 0, 0, false⟩

/-- The placement of a slice: its Reeds, where each stream went (channel, Reed, on a pair), and the first stream that went
nowhere. -/
structure Alloc where
  reeds : Tab AllocReed
  puts : List (Nat × Nat × Bool)
  lost : Option Nat
  deriving DecidableEq, Repr

/-- Reed r of a placement. -/
def Alloc.reed (x : Alloc) (r : Nat) : AllocReed := Tab.get (fun _ => AllocReed.empty) x.reeds r

/-- Reed r of a placement holds one stream more. -/
def Alloc.put (x : Alloc) (r ch load mem : Nat) (pair : Bool) : Alloc :=
  let y := x.reed r
  { x with reeds := Tab.put (fun _ => AllocReed.empty) x.reeds r ⟨y.streams ++ [ch], y.load + load, y.mem + mem, pair⟩ }

/-- One stream is placed, by the rule of R108. -/
def allocOne (retired : Nat → Bool) (x : Alloc) (y : AllocStream) : Alloc :=
  let miss : Alloc := { x with lost := some (x.lost.getD y.ch) }
  if 4 * oneSlot < y.load then
    match [0, 2].find? (fun r => [r, r + 1].all (fun k => !retired k && (x.reed k).streams.isEmpty)) with
    | some r =>
      let x1 := (x.put r y.ch (y.load / 2) y.mem true).put (r + 1) y.ch (y.load / 2) y.mem true
      { x1 with puts := x1.puts ++ [(y.ch, r, true)] }
    | none => miss
  else
    match (upTo 4).find? (fun r => !retired r && !(x.reed r).paired
        && decide ((x.reed r).load + y.load ≤ 4 * oneSlot) && decide ((x.reed r).mem + y.mem ≤ 32768)) with
    | some r =>
      let x1 := x.put r y.ch y.load y.mem false
      { x1 with puts := x1.puts ++ [(y.ch, r, false)] }
    | none => miss

/-- A stream put into the order of the allocator: largest load first, lower channel first among equals. -/
def allocInsert (x : AllocStream) : List AllocStream → List AllocStream
  | [] => [x]
  | y :: t => if y.load < x.load then x :: y :: t else y :: allocInsert x t

/-- The order of the allocator, for streams in ascending channel. -/
def allocOrder (xs : List AllocStream) : List AllocStream := xs.foldl (fun ys x => allocInsert x ys) []

/-- The stream whose overlap the allocator lowers: of largest load, the higher channel among equals (R108). -/
def allocVictim (xs : List AllocStream) : Option AllocStream :=
  xs.foldl (fun a x =>
    if x.keep || x.ovl == 0 then a
    else match a with
      | none => some x
      | some y => if y.load ≤ x.load then some x else a) none

/-- The allocator (R108): the placement with the streams as placed, or the channel that the failure names. fuel: the passes
left. -/
def allocate (retired : Nat → Bool) (xs : List AllocStream) : Nat → Except Nat (Alloc × List AllocStream)
  | 0 => .error 0
  | fuel + 1 =>
    let x := (allocOrder xs).foldl (allocOne retired) ⟨[], [], none⟩
    match x.lost with
    | none => .ok (x, xs)
    | some ch =>
      if (upTo 4).all (fun r => !retired r) then .error ch
      else
        match allocVictim xs with
        | none => .error ch
        | some v => allocate retired (xs.map (fun y => if y.ch = v.ch then { y with ovl := y.ovl - 1 } else y)) fuel

/-- Reed r of slice n is retired (R110). -/
def State.reedRetired (s : State) (n r : Nat) : Bool := s.bit (R.SPC_RETIRE n) r

/-- The enabled streams of slice n, in ascending local channel. -/
def State.allocStreams (s : State) (n : Nat) : List AllocStream :=
  ((upTo 8).filter (fun l => s.flag (spcCfg (8 * n + l)) F.SPC_CH_CFG_EN)).map (fun l => s.allocStream (8 * n + l))

/-- The placement of slice n: 8 streams, each lowered at most 3 times. -/
def State.allocSlice (s : State) (n : Nat) : Except Nat (Alloc × List AllocStream) :=
  allocate (s.reedRetired n) (s.allocStreams n) 25

/-- The Reeds of slice n (R103, R104, R107, R108, R111, R122, R271). -/
def State.spcChecks (s : State) (n : Nat) : List Fail :=
  let each := eachOf 8 (fun l =>
    let c := 8 * n + l
    let a := spcCfg c
    let e := s.fget a F.SPC_CH_CFG_LEN_EXP
    let w := s.fget a F.SPC_CH_CFG_WIN
    let first := s.fget (R.SPC_CH_BINS n l) F.SPC_CH_BINS_FIRST
    let count := s.fget (R.SPC_CH_BINS n l) F.SPC_CH_BINS_COUNT
    let out := s.fget a F.SPC_CH_CFG_OUT_FMT != 0
    if s.flag a F.SPC_CH_CFG_EN then
      failIf (s.gangHigh c || (s.specZoom c && !s.ddcOn c) || decide (e < 6) || decide (14 < e)
          || (decide (4 < w) && w != 8 && w != 9) || decide (8 * oneSlot < (s.allocStream c).load)) a l
        ++ failIf (decide (s.specBins c ≤ first) || decide (s.specBins c < first + count)) (R.SPC_CH_BINS n l) l
        ++ failIf (out && s.noStream (s.specStream c)) (R.QUL_CH_CFG n l) l
    else failIf out a l)
  match s.allocSlice n with
  | .ok _ => each
  | .error l => each ++ [(spcCfg (8 * n + l), l)]

/-- The Reed that serves the stream of local channel ch of a placement: its number, and on a pair. -/
def Alloc.servant (x : Alloc) (ch : Nat) : Option (Nat × Bool) :=
  (x.puts.find? (fun p => decide (p.1 = ch))).map (fun p => p.2)

/-! ### Slice trigger front ends -/

/-- The primitive units of slice n (R127 to R129). -/
def State.primChecks (s : State) (n : Nat) : List Fail :=
  eachOf 8 (fun l =>
    let a := R.STR_PRIM_CFG n l
    let kind := s.fget a F.STR_PRIM_CFG_KIND
    let qual := s.fget a F.STR_PRIM_CFG_QUAL
    let ta := signed 16 (s.fget (R.STR_PRIM_THR n l) F.STR_PRIM_THR_THR_A)
    let tb := signed 16 (s.fget (R.STR_PRIM_THR n l) F.STR_PRIM_THR_THR_B)
    let lo := s.fget (R.STR_PRIM_WIDTH n l) F.STR_PRIM_WIDTH_WMIN
    let hi := s.fget (R.STR_PRIM_WIDTH n l) F.STR_PRIM_WIDTH_WMAX
    if kind = 0 then []
    else
      failIf (kind == 7 || s.gangHigh (8 * n + l) || s.fget a F.STR_PRIM_CFG_TAP == 3 || decide (5 ≤ qual)) a l
        ++ failIf (((kind == 3 || kind == 4) && decide (ta ≤ tb)) || ((kind == 5 || kind == 6) && decide (ta ≤ 0)))
          (R.STR_PRIM_THR n l) l
        ++ failIf (((qual == 1 || qual == 3 || qual == 4) && lo == 0) || (qual == 3 && decide (hi < lo)))
          (R.STR_PRIM_WIDTH n l) l)

/-- Spectral condition unit u of slice n is in use. -/
def State.scOn (s : State) (n u : Nat) : Bool :=
  s.flag (R.STR_SC_CFG n u) F.STR_SC_CFG_EN && s.flag (R.STR_SC_CFG n u) F.STR_SC_CFG_KIND

/-- The binding of the spectral condition units of slice n, in ascending u: each takes the lowest free slot of the Reed, or
the pair, that serves its stream (R132). Units bound so far with their Reeds. -/
def State.scBind (s : State) (n : Nat) (x : Alloc) (us : List Nat) : List (Nat × Option Nat) :=
  us.foldl (fun b u =>
    let free (r : Nat) : Bool := decide ((b.filter (fun e => decide (e.2 = some r))).length < 4)
    let r : Option Nat := match x.servant (s.fget (R.STR_SC_CFG n u) F.STR_SC_CFG_CH) with
      | none => none
      | some (q, pair) => if free q then some q else if pair && free (q + 1) then some (q + 1) else none
    b ++ [(u, r)]) []

/-- The units of slice n that are in use. -/
def State.scUnits (s : State) (n : Nat) : List Nat := (upTo 16).filter (fun u => s.scOn n u)

/-- The spectral condition units of slice n (R132, R133). -/
def State.scChecks (s : State) (n : Nat) : List Fail :=
  let each := eachOf 16 (fun u =>
    let a := R.STR_SC_CFG n u
    let kind := s.fget a F.STR_SC_CFG_KIND
    let c := 8 * n + s.fget a F.STR_SC_CFG_CH
    let first := s.fget (R.STR_SC_BAND n u) F.STR_SC_BAND_FIRST
    let last := s.fget (R.STR_SC_BAND n u) F.STR_SC_BAND_LAST
    if s.scOn n u then
      failIf (s.fget a F.STR_SC_CFG_CONSEC == 0 || decide (4 ≤ kind) || !s.flag (spcCfg c) F.SPC_CH_CFG_EN) a u
        ++ failIf (decide (s.fget (R.STR_SC_THR n u) F.STR_SC_THR_THR_HI < s.fget (R.STR_SC_THR n u) F.STR_SC_THR_THR_LO))
          (R.STR_SC_THR n u) u
        ++ failIf (decide (s.specBins c ≤ last)) (R.STR_SC_BAND n u) u
        ++ failIf (kind == 3 && decide (32767 < s.fget (R.STR_SC_MASK n u) F.STR_SC_MASK_BASE + (last - first)))
          (R.STR_SC_MASK n u) u
    else [])
  match s.allocSlice n with
  | .ok (x, _) => each ++ ((s.scBind n x (s.scUnits n)).filter (fun e => e.2.isNone)).map (fun e => (R.STR_SC_CFG n e.1, e.1))
  | .error _ => each

/-- The raw streaming of slice n (R271, R280). -/
def State.rawChecks (s : State) (n : Nat) : List Fail :=
  eachOf 8 (fun l =>
    let a := R.QUL_CH_CFG n l
    let e := s.fget a F.QUL_CH_CFG_RAW_EXP
    failIf (s.flag a F.QUL_CH_CFG_RAW_EN && !s.gangHigh (8 * n + l) && (decide (e < 10) || decide (15 < e) || !s.ringOn (8 * n + l)
      || s.noStream (s.fget a F.QUL_CH_CFG_RAW_STREAM))) a l)

/-! ### Treadle, Bobbin, Tapestry, display, records -/

/-- A trigger bus index that a literal may not name: above 623, or of a powered-down slice (R160). -/
def State.badInput (s : State) (i : Nat) : Bool :=
  decide (623 < i) || (match busSlice i with
    | some n => s.sliceDown n
    | none => false)

/-- The terms (R160). -/
def State.termChecks (s : State) : List Fail :=
  eachOf 64 (fun m =>
    failIf (decide (9 ≤ s.fget (R.TRD_TERM_CFG m) F.TRD_TERM_CFG_TREF)) (R.TRD_TERM_CFG m) m
      ++ eachOf 8 (fun j =>
        let a := R.TRD_LIT_A m j
        failIf (s.flag a F.TRD_LIT_A_EN && s.badInput (s.fget a F.TRD_LIT_A_INPUT)) a m))

/-- The words of the part that slice n's channels of a shed make at most: header, positions, feature block (R253, R254, R259,
R279). -/
def State.partWords (s : State) (k n : Nat) : Nat :=
  let cs := (s.shedChans k).filter (fun c => decide (c / 8 = n))
  cs.foldl (fun w c => w + 16 + (s.shedPre k + s.shedPostLen k) * (s.posBytes c / 2)) (52 + 1024)

/-- The sheds in use (R155, R160, R259). -/
def State.shedChecks (s : State) : List Fail :=
  eachOf 64 (fun k =>
    let cs := s.shedChans k
    let a := R.TRD_SHED_CFG k
    let post := s.shedPostLen k
    let spill := s.shedSpill k
    let shuttle := s.flag a F.TRD_SHED_CFG_SHUTTLE
    let shared := (upTo 64).any (fun j => decide (j ≠ k) && cs.any (fun c => (s.shedChans j).contains c))
    if cs.isEmpty then []
    else
      failIf (s.fget a F.TRD_SHED_CFG_HOLD_MODE == 3 || s.noStream (s.fget a F.TRD_SHED_CFG_STREAM) || (spill && shared)
          || (spill && shuttle)) a k
        ++ failIf (post == 0) (R.TRD_SHED_POST_LO k) k
        ++ failIf ((decide (2 ^ 32 ≤ post) && !spill) || decide (2 ^ 48 < post)) (R.TRD_SHED_POST_HI k) k
        ++ failIf (decide (65536 < s.fget (R.TRD_SHED_SEG k) F.TRD_SHED_SEG_SEGMENTS)) (R.TRD_SHED_SEG k) k
        ++ (match cs.find? (fun c => !s.ringOn c || s.gangHigh c || s.sliceDown (c / 8)) with
          | some c => [(R.TRD_SHED_CHMASK k (c / 32), k)]
          | none => [])
        ++ failIf (shuttle && (upTo 24).any (fun n => cs.any (fun c => c / 8 == n) && decide (65536 < s.partWords k n))) a k)

/-- The offset of a ring and the offset after its end. -/
def State.ringSpan (s : State) (c : Nat) : Nat × Nat :=
  let b := (s.rd (R.BOB_RING_BASE c)).toNat % 2 ^ 20 * 65536
  (b, b + s.ringBytes c)

/-- A ring lies in the capture ranges: below the end of that of stack 0, in that of stack 1, or across the two where the hole
of stack 0 is empty (R164, R167). -/
def State.ringFits (s : State) (c : Nat) : Bool :=
  let (lo, hi) := s.ringSpan c
  let end0 := s.captureEnd0
  decide (hi ≤ end0) || (decide (stack1Base ≤ lo) && decide (hi ≤ s.captureEnd1))
    || (decide (end0 = stack1Base) && decide (lo < end0) && decide (hi ≤ s.captureEnd1))

/-- The capture rings (R10, R18, R167). -/
def State.bobChecks (s : State) : List Fail :=
  let on := (upTo 192).filter (fun c => s.ringOn c)
  on.foldl (fun xs c =>
    let (lo, hi) := s.ringSpan c
    xs ++ failIf (!s.flag (cndCfg c) F.CND_CH_CFG_EN || s.gangHigh c || s.sliceDown (c / 8)) (R.BOB_RING_CFG c) c
      ++ failIf (decide (s.ringBytes c < 2 * 65536)) (R.BOB_RING_SIZE c) c
      ++ failIf (!s.ringFits c || on.any (fun d => decide (d ≠ c) && decide (lo < (s.ringSpan d).2)
          && decide ((s.ringSpan d).1 < hi))) (R.BOB_RING_BASE c) c) []

/-- The enabled planes (R193 to R195, R199, R202, R208, R271). -/
def State.tapChecks (s : State) : List Fail :=
  eachOf 16 (fun p =>
    let a := R.TAP_PL_CFG p
    let g := R.TAP_PL_GEOM p
    let cs := (upTo 192).filter (fun c => s.planeTakes p c)
    let cols := s.fget g F.TAP_PL_GEOM_COLS16
    let rows := s.fget g F.TAP_PL_GEOM_ROWS16
    let b := s.fget g F.TAP_PL_GEOM_BIN_EXP
    let need := s.fget (R.TAP_PL_FIRST p) F.TAP_PL_FIRST_FIRST + s.planeCols p * 2 ^ b
    let period := (s.rd (R.TAP_PL_PERIOD p)).toNat
    let bmax := cs.foldl (fun m c => max m (s.specB c)) 0
    if s.planeOn p then
      failIf (decide (4 ≤ s.fget a F.TAP_PL_CFG_FSRC) || s.fget a F.TAP_PL_CFG_COMBINE == 3 || s.fget a F.TAP_PL_CFG_REC_FMT == 3
          || s.noStream (s.fget a F.TAP_PL_CFG_STREAM)) a p
        ++ failIf (cols == 0 || decide (64 < cols) || rows == 0 || decide (32 < rows) || b == 7) g p
        ++ failIf (decide (8 < s.fget (R.TAP_PL_ROWMAP p) F.TAP_PL_ROWMAP_ROW_SHIFT)) (R.TAP_PL_ROWMAP p) p
        ++ failIf (s.fget a F.TAP_PL_CFG_FSRC == 0
            && decide (period < bmax + (s.planeCols p * s.planeRows p + 15) / 16 + 600)) (R.TAP_PL_PERIOD p) p
        ++ failIf cs.isEmpty (R.TAP_PL_SRC p 0) p
        ++ (match cs.find? (fun c => !s.flag (spcCfg c) F.SPC_CH_CFG_EN || s.sliceDown (c / 8)) with
          | some c => [(R.TAP_PL_SRC p (c / 32), p)]
          | none => [])
        ++ failIf (cs.any (fun c => decide (s.specBins c < need))) (R.TAP_PL_FIRST p) p
    else [])

/-- The display's flip records (R271). -/
def State.pnlChecks (s : State) : List Fail :=
  failIf (s.flag R.PNL_CFG F.PNL_CFG_FLIP_REC && s.noStream (s.fget R.PNL_CFG F.PNL_CFG_STREAM)) R.PNL_CFG 0xFFFF

/-- The raw-streaming load of record Quill q, in 1/32,768 quarter byte a beat (R271). -/
def State.rawLoad (s : State) (q : Nat) : Nat :=
  (upTo 192).foldl (fun t c =>
    let a := R.QUL_CH_CFG (c / 8) (c % 8)
    if s.flag a F.QUL_CH_CFG_RAW_EN && !s.gangHigh c
        && s.fget (R.REC_STREAM_CFG (s.fget a F.QUL_CH_CFG_RAW_STREAM)) F.REC_STREAM_CFG_QUILL == q then
      let dz := if s.capZoom c then s.ddcD c else 1
      t + (if s.flag a F.QUL_CH_CFG_RAW_PACK then 7 else 8)
        * (s.posBytes c / 2 * s.chanGang c * oneSlot / (s.stridePlanned c * dz))
    else t) 0

/-- The lowest stream that brings raw channels to record Quill q. -/
def State.rawFeeder (s : State) (q : Nat) : Option Nat :=
  (upTo 256).find? (fun k => s.fget (R.REC_STREAM_CFG k) F.REC_STREAM_CFG_QUILL == q && !(s.rawChans k).isEmpty)

/-- The record builder: side sources, streams, their ports, the raw-streaming load (R18, R271). -/
def State.recChecks (s : State) : List Fail :=
  eachOf 5 (fun i =>
      let a := R.REC_SIDE_CFG i
      failIf (s.flag a F.REC_SIDE_CFG_EN && s.noStream (s.fget a F.REC_SIDE_CFG_STREAM)) a i)
    ++ eachOf 256 (fun k =>
      let a := R.REC_STREAM_CFG k
      let f := s.fget a F.REC_STREAM_CFG_FRAG_EXP
      failIf ((s.flag a F.REC_STREAM_CFG_ENCRYPT && !s.flag a F.REC_STREAM_CFG_AUTH) || decide (f < 12) || decide (16 < f)
        || (s.streamOn k && !s.flag (R.HNS_PORT_STATUS (s.streamPort k)) F.HNS_PORT_STATUS_LINK_UP)) a k)
    ++ eachOf 32 (fun q =>
      if 128 * oneSlot < 3 * s.rawLoad q then
        match s.rawFeeder q with
        | some k => [(R.REC_STREAM_CFG k, k)]
        | none => []
      else [])

/-- Every failed check, in the order of the blocks' vectors (R18, R381). -/
def State.cfgFails (s : State) : List Fail :=
  s.hfbChecks
    ++ eachOf 24 (fun n => s.lnkChecks n ++ s.cndChecks n ++ s.spcChecks n ++ s.primChecks n ++ s.scChecks n ++ s.rawChecks n)
    ++ s.termChecks ++ s.shedChecks ++ s.bobChecks ++ s.tapChecks ++ s.pnlChecks ++ s.recChecks

/-! ### What a CONFIGURE that passes loads -/

/-- A load in 1/64 slot, rounded up (R115). -/
def load64 (x : Nat) : Nat := (64 * x + oneSlot - 1) / oneSlot

/-- The event of a stream whose overlap was lowered (R109). -/
def State.stepDown (s : State) (n l : Nat) : State := s.event (vSPC n) 7 sevWarning l 0 0

/-- The placement of slice n is shown: SPC_CH_STATUS, SPC_ALLOC, SPC_STATUS.PLACED, the bindings (R109, R132). -/
def State.showAlloc (s : State) (n : Nat) : State :=
  match s.allocSlice n with
  | .error _ => s
  | .ok (x, ys) =>
    let s1 := (upTo 8).foldl (fun z l =>
      let a := R.SPC_CH_STATUS n l
      let keep := z.fget a F.SPC_CH_STATUS_REDUCED
      match ys.find? (fun y => decide (y.ch = l)), x.servant l with
      | some y, some (r, pair) =>
        let stepped := decide (y.ovl < z.fget (spcCfg (8 * n + l)) F.SPC_CH_CFG_OVL)
        let z1 := z.wr a (w32 (y.ovl + 4 * r + (if pair then 16 else 0) + 32 * keep + (if stepped then 64 else 0)
          + 2 ^ 16 * load64 y.load))
        if stepped then z1.stepDown n l else z1
      | _, _ => z.wr a (w32 (32 * keep))) s
    let s2 := (upTo 4).foldl (fun z r =>
      let a := R.SPC_ALLOC n r
      let y := x.reed r
      z.wr a (w32 (y.streams.foldl (fun v l => v + 2 ^ l) 0 + (if y.paired then 256 else 0)
        + (if z.reedRetired n r then 512 else 0) + 1024 * z.fget a F.SPC_ALLOC_REDUCED + 2 ^ 16 * load64 y.load))) s1
    let s3 := s2.fset (R.SPC_STATUS n) F.SPC_STATUS_PLACED
      ((upTo 4).foldl (fun v r => if (x.reed r).streams.isEmpty then v else v + 2 ^ r) 0)
    let b := s3.scBind n x (s3.scUnits n)
    (upTo 16).foldl (fun z u =>
      let a := R.STR_SC_STATUS n u
      match b.find? (fun e => decide (e.1 = u)) with
      | some (_, some r) => (z.fon a F.STR_SC_STATUS_BOUND).fset a F.STR_SC_STATUS_REED r
      | _ => (z.foff a F.STR_SC_STATUS_BOUND).foff a F.STR_SC_STATUS_REED) s3

/-- GLB_DEGRADE.REED_RETIRED follows the retired Reeds (R31, R110). -/
def State.showRetired (s : State) : State :=
  match (upTo 96).find? (fun r => s.reedRetired (r / 4) (r % 4)) with
  | some r => s.degradeOn dgReedRetired r
  | none => s.degradeOff dgReedRetired

end Sys2Proof.Machine
end

