-- ==== Sys2Proof/Machine/RunOps.lean ====
section
/-!
DEFINITION. Operations of the run states: commands refused (R17, R20), ARM and its readiness (R19, R31, R63, R70, R77,
R101, R188, R205, R309), run start (R22, R25, R86, R105, R141, R168, R199, R258, R352, R437), the end of STOPPING (R23), and
the passing of a beat (R21, R349).
-/

namespace Sys2Proof.Machine

/-- Codes of the run commands (R17). -/
def rcConfigure : Nat := 1
def rcArm : Nat := 2
def rcStart : Nat := 3
def rcStop : Nat := 4
def rcAbort : Nat := 5

/-- GLB_RUN.BUSY. -/
def State.runBusy (s : State) : Bool := s.flag R.GLB_RUN F.GLB_RUN_BUSY

/-- A run command is refused (R17, R20, R487). -/
def State.runRefuse (s : State) (cmd : Nat) : State :=
  (s.fon R.GLB_STATUS F.GLB_STATUS_CMD_REFUSED).event vGLB 1 sevWarning 0
    (cmd + 16 * s.runState + (if s.runBusy then 128 else 0)) 0

/-- Paddock tests some unit (R463). -/
def State.pdkBusy (s : State) : Bool := !s.pdk.running.isEmpty

/-- A start that was accepted has not begun (R21). -/
def State.startPending (s : State) : Bool := s.run.timedStart || s.run.startNext

/-! ### ARM -/

/-- A core has parts to pass: some shed with SHUTTLE names a channel of its slice. -/
def State.coreWanted (s : State) (n : Nat) : Bool :=
  (upTo 64).any (fun k => s.flag (R.TRD_SHED_CFG k) F.TRD_SHED_CFG_SHUTTLE
    && (s.shedChans k).any (fun c => decide (c / 8 = n)))

/-- ENABLE of every configured data-path block becomes 1 (R16, R19): the global ones, and those of each slice that is
powered, the core where a shed passes parts to it. -/
def State.enableBlocks (s : State) : State :=
  let s1 := globalEnables.foldl (fun x p => x.fon p.1 p.2) s
  (upTo 24).foldl (fun x n =>
    if x.domainOn n then
      (sliceEnables n).foldl (fun y p =>
        if p.1 = R.SHU_STATUS n ∧ s.coreWanted n = false then y else y.fon p.1 p.2) x
    else x) s1

/-- The conditioners of a slice wait for their first outputs again (R101). -/
def State.condArm (s : State) (n : Nat) : State :=
  (upTo 8).foldl (fun x l => x.setCch (8 * n + l) CondCh.init) (s.foff (R.CND_STATUS n) F.CND_STATUS_READY)

/-- The zeroing of plane p's banks begins, unless KEEP is 1 (R205). -/
def State.planeArm (s : State) (p : Nat) : State :=
  s.setPlane p { s.plane p with
    zeroUntil := if s.planeOn p && !s.flag (R.TAP_PL_CFG p) F.TAP_PL_CFG_KEEP then some (s.beats + 32768) else none }

/-- A FREQ_GO that has not issued SRE when a run is prepared is refused, with SR_REFUSED (R188; log entry 257). -/
def State.freqRefuse (s : State) (k : Nat) : State :=
  if (s.stack k).freqWanted.isSome && !(s.srState k == srSwitch) then
    (State.foff (s.setStack k { s.stack k with freqWanted := none }) (R.BOB_SR_CTRL k) F.BOB_SR_CTRL_FREQ_GO).raise vBOB 8
  else s

/-- A stack that holds part of an enabled ring comes out of self-refresh and to FSEL 0 (R188); any stack gives up a change that waits. -/
def State.stackArm (s0 : State) (k : Nat) : State :=
  let s := s0.freqRefuse k
  if !s.stackUsed k then s
  else
    let slow := s.fget (R.BOB_SR_STATUS k) F.BOB_SR_STATUS_FCUR != 0 && s.srState k != srSwitch
    let s1 := if slow then s.setStack k { s.stack k with freqWanted := some 0 } else s
    let st := s1.srState k
    if slow then (if st = srActive then s1.srGo k srPending else s1.setStack k { s1.stack k with exitWanted := true })
    else if st = srPending ∨ st = srEntering then (s1.srGo k srActive).srCtrlDone k
    else if st = srActive then s1
    else s1.setStack k { s1.stack k with exitWanted := true }

/-- The lowest port in use whose speed is below the one that its bring-up aims at (R31, R63). -/
def State.steppedPort (s : State) : Option Nat := s.usedPorts.find? (fun p => decide (s.speed p < s.lnkTarget p))

/-- The Reeds of a slice report ready (R115). -/
def State.reedsReady (s : State) : State :=
  (upTo 24).foldl (fun x n => if x.domainOn n then x.fon (R.SPC_STATUS n) F.SPC_STATUS_READY else x) s

/-- ARM is accepted: BUSY, and every block's part in it (R19). -/
def State.armBegin (s : State) : State :=
  let s1 := { s with run := { s.run with armSince := some s.beats }, cond := { s.cond with lambdaSet := false } }
  let s2 := ((s1.fon R.GLB_RUN F.GLB_RUN_BUSY).degradeOff dgLinkStep).enableBlocks
  let s3 := (upTo 24).foldl (fun x n => x.condArm n) s2
  let s4 := ((upTo 16).foldl (fun x p => x.planeArm p) s3).tapReady
  let s5 := ((s4.stackArm 0).stackArm 1).bobReady
  let s6 := s5.reedsReady.hfbReady
  let s7 := s6.usedPorts.foldl (fun x p => if x.domainOn p then x.lnkArm p else x) s6
  s7.setLambda

/-- Ports in use that have not finished negotiation and alignment. -/
def State.portsNotReady (s : State) : List (Nat × Nat) :=
  (s.usedPorts.filter (fun p => s.lnkState p != lsActive || !s.flag (R.LNK_STATUS p) F.LNK_STATUS_ALIGNED)).map
    (fun p => (vLNK p, 0xFFFF))

/-- Slices with an enabled channel whose conditioners are not ready (R101). -/
def State.condsNotReady (s : State) : List (Nat × Nat) :=
  ((upTo 24).filter (fun n => (upTo 8).any (fun l => s.flag (R.CND_CH_CFG n l) F.CND_CH_CFG_EN)
    && !s.flag (R.CND_STATUS n) F.CND_STATUS_READY)).map (fun n => (vCND n, 0xFFFF))

/-- Slices with an enabled stream whose Reeds are not ready. -/
def State.spcsNotReady (s : State) : List (Nat × Nat) :=
  ((upTo 24).filter (fun n => (upTo 8).any (fun l => s.flag (R.SPC_CH_CFG n l) F.SPC_CH_CFG_EN)
    && !s.flag (R.SPC_STATUS n) F.SPC_STATUS_READY)).map (fun n => (vSPC n, 0xFFFF))

/-- The lowest enabled stream whose ring has EN 0 or whose port is not writing (R309). -/
def State.ringNotReady (s : State) : Option Nat :=
  (upTo 256).find? (fun k => s.streamOn k
    && !(s.ringEn (s.streamPort k) (s.streamRing k) && s.portWriting (s.streamPort k)))

/-- The lowest port that an enabled AUTH stream names and that has no session: the Bridle is not ready (R419). -/
def State.sessionMissing (s : State) : Option Nat :=
  (upTo 4).find? (fun p => !(s.session p).valid && (upTo 256).any (fun k => s.streamOn k && s.streamPort k == p
    && s.flag (R.REC_STREAM_CFG k) F.REC_STREAM_CFG_AUTH))

/-- The blocks that are not ready: vector, and the instance or 0xFFFF for the whole block (R19, R487). -/
def State.notReady (s : State) : List (Nat × Nat) :=
  let whole (v st : Nat) (f : Fld) : List (Nat × Nat) := if s.flag st f then [] else [(v, 0xFFFF)]
  whole vHFB R.HFB_STATUS F.HFB_STATUS_READY ++ s.portsNotReady ++ s.condsNotReady ++ s.spcsNotReady
    ++ whole vBOB R.BOB_STATUS F.BOB_STATUS_READY ++ whole vTAP R.TAP_STATUS F.TAP_STATUS_READY
    ++ (match s.ringNotReady with
      | some k => [(vHNS, 16 * s.streamPort k + s.streamRing k)]
      | none => [])
    ++ (match s.sessionMissing with
      | some p => [(vBRD, p)]
      | none => [])

/-- Every block that ARM waits for is ready, and Λ is known (R19, R77). -/
def State.armReady (s : State) : Bool := s.notReady.isEmpty && (s.cond.lambdaSet || s.usedPorts.isEmpty)

/-- Slices that are powered are no longer absent (R31, R159). -/
def State.slicesBack (s : State) : State :=
  let s1 := (upTo 24).foldl (fun x n => if x.domainOn n then x.bitOff R.TRD_SLICE_ABSENT n else x) s
  if s1.rd R.TRD_SLICE_ABSENT = 0#32 then s1.degradeOff dgSliceAbsent else s1

/-- ARM completes (R19, R31, R63, R140, R150). -/
def State.armEnd (s : State) : State :=
  let s1 := { s with run := { s.run with armSince := none } }
  let s2 := ((s1.foff R.GLB_RUN F.GLB_RUN_BUSY).setRunState rsArmed).raise vGLB 2
  let s3 := match s2.steppedPort with
    | some p => s2.degradeOn dgLinkStep p
    | none => s2
  let s4 := s3.slicesBack
  let s5 := (upTo 64).foldl (fun x k => if x.flag (R.TRD_SHED_CFG k) F.TRD_SHED_CFG_AUTO_ARM then x.shedArm k else x) s4
  s5.drivePins

/-- Beats that an ARM may take: 50 ms (R19). -/
def armLimit : Nat := 50 * beatsPerMs

/-- ARM has not completed in time: one entry for each block that is not ready, the blocks disabled, CONFIGURED (R19). -/
def State.armGiveUp (s : State) : State :=
  let s1 := s.notReady.foldl (fun x e => x.log vGLB 3 sevError e.1 e.2 0) s
  let s2 := { s1 with run := { s1.run with armSince := none } }
  let s3 := ((s2.fon R.GLB_STATUS F.GLB_STATUS_ARM_TIMEOUT).raise vGLB 3).foff R.GLB_RUN F.GLB_RUN_BUSY
  s3.disableBlocks.setRunState rsConfigured

/-! ### Run start -/

/-- OFFSET and GAIN of a channel with CAL_SRC 1 are loaded from its record, where it has one (R86, R431). -/
def State.calLoad (s : State) (c : Nat) : State :=
  let n := c / 8
  let l := c % 8
  if !s.flag (cndCfg c) F.CND_CH_CFG_CAL_SRC then s
  else
    match s.settled.calRecord c with
    | some e =>
      let p := recPayload e.2
      let at_ := 6 + 4 * (c % 48)
      let g : Int := 0x10000 + signed 16 (recNat p (at_ + 2) 2)
      let old : Int × Nat :=
        (signed 16 (s.fget (R.CND_OFFSET n l) F.CND_OFFSET_OFFSET), s.fget (R.CND_GAIN n l) F.CND_GAIN_GAIN)
      (((s.setCch c { s.cch c with prior := some old }).fset (R.CND_OFFSET n l) F.CND_OFFSET_OFFSET (recNat p at_ 2)).fset (R.CND_GAIN n l) F.CND_GAIN_GAIN
        (unsigned 18 g)).foff (R.CND_CH_STATUS n l) F.CND_CH_STATUS_CAL_NONE
    | none => (s.fon (R.CND_CH_STATUS n l) F.CND_CH_STATUS_CAL_NONE).raise (vCND n) 8

/-- Every ring starts empty at position 0, and every directory is cleared (R168, R172, R174, R191). -/
def State.ringsStart (s : State) : State :=
  let s1 := { s with recs := { s.recs with rawNext := [] }, bob := { s.bob with rings := [] } }
  (upTo 192).foldl (fun x c =>
    let a := R.BOB_RING_STATUS c
    let y := (x.setPair (R.BOB_RING_WPOS_LO c) (R.BOB_RING_WPOS_HI c) 0).foff a F.BOB_RING_STATUS_STOPPED
    if y.ringOn c then y.fon a F.BOB_RING_STATUS_ACTIVE else y) s1

/-- Sequence numbers and counts of every stream restart (R25, R270, R284). -/
def State.streamsStart (s : State) : State :=
  let s1 := { s with recs := { s.recs with streams := [] } }
  (upTo 256).foldl (fun x k => x.wr (R.REC_STREAM_REC_CNT k) 0#32) s1

/-- TAG of every core restarts at 0 (R258). -/
def State.tagsStart (s : State) : State := (upTo 24).foldl (fun x n => x.setCore n { x.core n with tag := 0 }) s

/-- The number of the next run: it wraps to 1 and is never 0 (R25). -/
def nextRun (n : Nat) : Nat := if n + 1 < 2 ^ 32 then n + 1 else 1

/-- Run start: the present beat is the first of RUNNING (R22, R25). -/
def State.runStart (s : State) : State :=
  let s1 := { s with run := { s.run with
    timedStart := false, startNext := false, startWt := s.wt, startBeat := s.beats, manifest := 0, softStop := none,
    fatalAt := none, aborting := false } }
  let s2 := ((s1.wr R.GLB_RUN_NUMBER (w32 (nextRun s1.runNumber))).setRunState rsRunning).raise vGLB 4
  let s3 := (s2.emcyOffAll 0x5000 0xFF).emcyOffAll 0xFF10 0xFF
  let s4 := { s3 with dict := { s3.dict with gaps := 0 } }
  let s5 := (upTo 192).foldl (fun x c => x.calLoad c) s4
  (((((((s5.streamsStart).ringsStart).statsStart).hfbStart).brdRunStart).reedsStart).planesStart).trdStart.tagsStart

/-! ### STOPPING -/

/-- Every engine, Quill and partner ring has let go of every record (R23). -/
def State.egressEmpty (s : State) : Bool :=
  (upTo 32).all (fun k => s.quillDone k && (s.engine k).held.isNone)
    && (upTo 4).all (fun p => (upTo 16).all (fun r => (s.pring p r).open_.isEmpty && (s.pring p r).out.isNone))

/-- Every part that a core holds has ended (R258). -/
def State.partsEnded (s : State) : Bool := (upTo 24).all (fun n => (s.core n).held.isNone && (s.core n).queued.isNone)

/-- The manifest's record has been made, so that it takes the number after its stream's run-end marker; its source may be off (R23, R423). -/
def State.manifestOut (s : State) : Bool :=
  !s.flag (R.REC_SIDE_CFG 4) F.REC_SIDE_CFG_EN || ((s.side 4).quill.isEmpty && (s.side 4).gathered.isEmpty)

/-- The three things that end STOPPING have happened, and every partial unit of a ring has been written (R23, R169, R205, R258). -/
def State.stoppingOver (s : State) : Bool :=
  (upTo 256).all (fun k => !s.streamOn k || (s.stream k).runEnd)
    && s.recs.waves.isEmpty && s.egressEmpty && s.partsEnded && decide (s.run.manifest = 3) && s.manifestOut
    && (upTo 192).all (fun c => !s.flag (R.BOB_RING_STATUS c) F.BOB_RING_STATUS_ACTIVE)
    && (upTo 16).all (fun p => (s.plane p).stopped.isNone && (s.plane p).closing.isNone && (s.plane p).sweep.isNone)

/-- ABORT_DISCARD entries: one for each stream that discarded records (R23, R487). -/
def State.logDiscards (s : State) : State :=
  if s.run.aborting then
    (upTo 256).foldl (fun x k =>
      let n := (x.stream k).discAbort
      if n = 0 then x else x.log vREC ecAbortDiscard sevWarning k (min 0xFFFFFFFF n) 0) s
  else s

/-- What waited behind run-end markers enters its Quill (R284, R288). -/
def State.quillsResume (s : State) : State :=
  (upTo 32).foldl (fun x k => if (x.quill k).waiting.isEmpty then x else x.quillRefill k) s

/-- STOPPING ends: IDLE (R16, R23). -/
def State.runEnd (s : State) : State :=
  let s1 := (s.logDiscards).foff R.REC_STATUS F.REC_STATUS_FLUSHING
  let s2 := { s1 with run := { s1.run with aborting := false } }
  (s2.disableBlocks.setRunState rsIdle).quillsResume.restored.raise vGLB 6

/-! ### Software STOP and ABORT -/

/-- A software STOP or ABORT was accepted in this beat (R24). -/
def State.softStopped (s : State) (cmd : Nat) : State := { s with run := { s.run with softStop := some (cmd, s.beats) } }

/-- STOP or ABORT in the beat in which a FATAL entry stopped the run: one transition has taken place; ABORT keeps its
discarding, and STOP_COINCIDENT names the command (R24). -/
def State.stopCoincides (s : State) : Bool := decide (s.run.fatalAt = some s.beats)

/-- STOP or ABORT (R17, R20, R21, R24). In ARMED no run took place, and STOP_REASON stays that of the latest run (R388; log entry 203). -/
def State.softCommand (s : State) (cmd : Nat) : State :=
  let abort := cmd == rcAbort
  if s.runBusy then s.disarm
  else if s.runState = rsConfigured then s.setRunState rsIdle
  else if s.runState = rsArmed then
    (s.softStopped cmd).disarm
  else if s.runState = rsRunning then
    let s1 := (s.softStopped cmd).runStop (if abort then stopAbort else stopSoftware)
    if abort then s1.abortDiscard else s1
  else if s.stopCoincides ∧ s.runState = rsStopping then
    let s1 := s.log vGLB ecStopCoincident sevWarning 0 cmd 0
    if abort then s1.abortDiscard else s1
  else if s.stopCoincides then s.log vGLB ecStopCoincident sevWarning 0 cmd 0
  else if s.runState = rsStopping ∧ abort = true then s.abortDiscard
  else s.runRefuse cmd

end Sys2Proof.Machine
end

