-- ==== Sys2Proof/Machine/Run.lean ====
section
/-!
DEFINITION. The run commands and the events that end ARM, a timed start and STOPPING (R16 to R25).
-/

namespace Sys2Proof.Machine

/-- CONFIGURE passes: its placements are loaded, the flags of an earlier failure cleared, CONFIGURED (R18, R31, R109, R132,
R372). -/
def State.cfgPass (s : State) : State :=
  let s1 := (upTo 24).foldl (fun x n => x.showAlloc n) s
  ((s1.showRetired.foff R.GLB_STATUS F.GLB_STATUS_CFG_ERR).foff R.GLB_STATUS F.GLB_STATUS_CFG_DIRTY).setRunState rsConfigured

/-- CONFIGURE fails: one entry that names the first failing block, CFG_ERR, IDLE (R18, R487). -/
def State.cfgFail (s : State) (f : Fail) : State :=
  ((s.log vGLB ecCfgErr sevError (vectorOf f.1) f.2 f.1).fon R.GLB_STATUS F.GLB_STATUS_CFG_ERR).setRunState rsIdle

/-- CONFIGURE: the configuration is validated in IDLE and CONFIGURED; refused elsewhere, while BUSY, and while Paddock runs
(R17, R18, R20, R463). -/
def execConfigure (s : State) : Host.Outcome State Fault Refusal :=
  .next (
    if s.runBusy = true ∨ s.atRest = false ∨ s.pdkBusy = true then s.runRefuse rcConfigure
    else
      match s.cfgFails with
      | [] => s.cfgPass
      | f :: _ => s.cfgFail f)

/-- ARM: in CONFIGURED with nothing changed since, the data-path blocks are enabled and begin to become ready; refused
elsewhere, while BUSY, with CFG_DIRTY, and while Paddock runs (R17, R19, R20, R372, R463). -/
def execArm (s : State) : Host.Outcome State Fault Refusal :=
  .next (
    if s.runBusy = true ∨ s.runState ≠ rsConfigured ∨ s.flag R.GLB_STATUS F.GLB_STATUS_CFG_DIRTY = true ∨ s.pdkBusy = true then
      s.runRefuse rcArm
    else s.armBegin)

/-- ARM_COMPLETE: every enabled block reports ready (R19). -/
def execArmComplete (s : State) : Host.Outcome State Fault Refusal :=
  .next (if s.run.armSince.isSome = true ∧ s.armReady = true then s.armEnd else s)

/-- ARM_TIMEOUT: ARM has not completed within 50 ms (R19). -/
def execArmTimeout (s : State) : Host.Outcome State Fault Refusal :=
  .next (
    match s.run.armSince with
    | some b => if b + armLimit ≤ s.beats ∧ s.armReady = false then s.armGiveUp else s
    | none => s)

/-- START: in ARMED, RUNNING begins with the next beat, or waits for GLB_START_AT; a time that has passed sets LATE_START
(R17, R20, R21). -/
def execStart (s : State) : Host.Outcome State Fault Refusal :=
  .next (
    if s.runState ≠ rsArmed ∨ s.runBusy = true ∨ s.startPending = true then s.runRefuse rcStart
    else if s.flag R.GLB_RUN F.GLB_RUN_START_MODE then
      if s.pair R.GLB_START_AT_LO R.GLB_START_AT_HI ≤ s.wt then
        let s1 := s.fon R.GLB_STATUS F.GLB_STATUS_LATE_START
        { s1 with run := { s1.run with startNext := true } }
      else { s with run := { s.run with timedStart := true } }
    else { s with run := { s.run with startNext := true } })

/-- TIMED_START: the first beat whose warp time has reached GLB_START_AT (R21). -/
def execTimedStart (s : State) : Host.Outcome State Fault Refusal :=
  .next (
    if s.run.timedStart = true ∧ s.runState = rsArmed ∧ s.pair R.GLB_START_AT_LO R.GLB_START_AT_HI ≤ s.wt then s.runStart
    else s)

/-- STOP (R17, R20, R21, R24). -/
def execStop (s : State) : Host.Outcome State Fault Refusal := .next (s.softCommand rcStop)

/-- ABORT (R17, R20, R21, R23, R24). -/
def execAbort (s : State) : Host.Outcome State Fault Refusal := .next (s.softCommand rcAbort)

/-- STOPPING_END: every stream has ended, every record is delivered or discarded, the manifest is signed or none is made
(R23). -/
def execStoppingEnd (s : State) : Host.Outcome State Fault Refusal :=
  .next (if s.runState = rsStopping ∧ s.stoppingOver = true then s.runEnd else s)

end Sys2Proof.Machine
end

