-- ==== Sys2Proof/Machine/Shuttle.lean ====
section
/-!
DEFINITION. The instructions of the Shuttle cores (R237 to R254, R262, R264). Each is executed by a core whose program
counter holds it; ecc says what the ECC found in the words it reads.
-/

namespace Sys2Proof.Machine

/-! ### Control without operands -/

/-- NOP (R247). -/
def execNop (core : Fin 24) (ecc : Ecc) (s : State) : Result :=
  .next (s.shuRun core.val (isOp 0x00) ecc (onCore core.val (fun c _ => c)))

/-- HALT: the core halts after this instruction (R247, R265). -/
def execHalt (core : Fin 24) (ecc : Ecc) (s : State) : Result :=
  .next (s.shuRun core.val (isOp 0x01) ecc (onCore core.val (fun c _ => c)))

/-- Some interrupt is pending, enabled in SR.IEN (R260, R261). -/
def CoreSt.irq (c : CoreSt) : Bool := decide (BitVec.ofNat 16 c.ipend &&& (c.sr >>> 12) ≠ 0#16)

/-- What a waiting core waits for is there (R247). -/
def CoreSt.wakes (c : CoreSt) : Bool :=
  (c.held.isSome && decide (c.descAt < 8)) || !c.mboxIn.isEmpty || (c.irq && c.sb 9)

/-- WAIT: issue stops until a port word or an enabled interrupt is there (R247). -/
def execWait (core : Fin 24) (ecc : Ecc) (s : State) : Result :=
  let n := core.val
  .next (s.shuRun n (isOp 0x02) ecc (fun t _ =>
    .done (if (t.core n).wakes then t else t.fon (R.SHU_STATUS n) F.SHU_STATUS_WAITING) 1 none))

/-- TRAP: a BREAK fault with its code (R247, R264). -/
def execTrap (core : Fin 24) (ecc : Ecc) (s : State) : Result :=
  .next (s.shuRun core.val (isOp 0x03) ecc (fun t w => .fault t fcBreak (some (fImm w % 256))))

/-! ### Moves -/

/-- MOV d, s (R247). -/
def execMov (core : Fin 24) (ecc : Ecc) (s : State) : Result :=
  .next (s.shuRun core.val (isOp 0x04) ecc (onCore core.val (fun c w => c.setD (fD w) (c.dr (fS w)))))

/-- MOVI d, imm: S is 0 (R246, R247). -/
def execMovi (core : Fin 24) (ecc : Ecc) (s : State) : Result :=
  let n := core.val
  .next (s.shuRun n (isOp 0x05) ecc (onCore n (fun c w => c.setD (fD w) (BitVec.ofNat 16 (fImm w)))))

/-- MOVC cond, d, s: the flags as the instruction just before left them (R244, R247, R248). -/
def execMovc (core : Fin 24) (ecc : Ecc) (s : State) : Result :=
  let n := core.val
  .next (s.shuRun n (isOp 0x06) ecc (fun t w =>
    let c := t.core n
    match condOf c.sr (fT w) with
    | none => .fault t fcIllegal none
    | some true => .done (t.setCore n (c.setD (fD w) (c.dr (fS w)))) 1 none
    | some false => .done t 1 none))

/-! ### Adding and comparing (R243) -/

/-- The carry out of a 16-bit sum. -/
def carryOf (x y : Half) : Bool := decide (65536 ≤ x.toNat + y.toNat)

/-- Signed overflow of an exact result. -/
def overOf (v : Int) : Bool := decide (v < -32768) || decide (32767 < v)

/-- A wrapping sum with its flags. -/
def CoreSt.addTo (c : CoreSt) (d : Nat) (x y : Half) : CoreSt :=
  (c.setD d (x + y)).zncv (x + y) (carryOf x y) (overOf (x.toInt + y.toInt))

/-- The flags of a difference; C is 1 when no borrow occurred. -/
def CoreSt.subFlags (c : CoreSt) (x y : Half) : CoreSt :=
  c.zncv (x - y) (decide (y.toNat ≤ x.toNat)) (overOf (x.toInt - y.toInt))

/-- A saturated result with its flags. -/
def CoreSt.satTo (c : CoreSt) (d : Nat) (v : Int) (carry : Bool) : CoreSt :=
  let r := BitVec.ofInt 16 (sat16 v)
  (c.setD d r).zncv r carry (overOf v)

/-- ADD d, s, t (R243, R247). -/
def execAdd (core : Fin 24) (ecc : Ecc) (s : State) : Result :=
  .next (s.shuRun core.val (isOp 0x07) ecc (onCore core.val (fun c w => c.addTo (fD w) (c.dr (fS w)) (c.dr (fT w)))))

/-- SUB d, s, t (R243, R247). -/
def execSub (core : Fin 24) (ecc : Ecc) (s : State) : Result :=
  .next (s.shuRun core.val (isOp 0x08) ecc (onCore core.val (fun c w =>
    (c.setD (fD w) (c.dr (fS w) - c.dr (fT w))).subFlags (c.dr (fS w)) (c.dr (fT w)))))

/-- ADDS d, s, t (R243, R247). -/
def execAdds (core : Fin 24) (ecc : Ecc) (s : State) : Result :=
  .next (s.shuRun core.val (isOp 0x09) ecc (onCore core.val (fun c w =>
    let x := c.dr (fS w)
    let y := c.dr (fT w)
    c.satTo (fD w) (x.toInt + y.toInt) (carryOf x y))))

/-- SUBS d, s, t (R243, R247). -/
def execSubs (core : Fin 24) (ecc : Ecc) (s : State) : Result :=
  .next (s.shuRun core.val (isOp 0x0A) ecc (onCore core.val (fun c w =>
    let x := c.dr (fS w)
    let y := c.dr (fT w)
    c.satTo (fD w) (x.toInt - y.toInt) (decide (y.toNat ≤ x.toNat)))))

/-- ADDI d, s, imm (R243, R247). -/
def execAddi (core : Fin 24) (ecc : Ecc) (s : State) : Result :=
  .next (s.shuRun core.val (isOp 0x0B) ecc (onCore core.val (fun c w =>
    c.addTo (fD w) (c.dr (fS w)) (BitVec.ofNat 16 (fImm w)))))

/-- CMP s, t (R243, R247). -/
def execCmp (core : Fin 24) (ecc : Ecc) (s : State) : Result :=
  .next (s.shuRun core.val (isOp 0x12) ecc (onCore core.val (fun c w => c.subFlags (c.dr (fS w)) (c.dr (fT w)))))

/-- CMPI s, imm (R243, R247). -/
def execCmpi (core : Fin 24) (ecc : Ecc) (s : State) : Result :=
  .next (s.shuRun core.val (isOp 0x13) ecc (onCore core.val (fun c w =>
    c.subFlags (c.dr (fS w)) (BitVec.ofNat 16 (fImm w)))))

/-- ABS d, s: C is 0 (R243, R247). -/
def execAbs (core : Fin 24) (ecc : Ecc) (s : State) : Result :=
  .next (s.shuRun core.val (isOp 0x14) ecc (onCore core.val (fun c w =>
    let v := (c.dr (fS w)).toInt
    c.satTo (fD w) (if v < 0 then -v else v) false)))

/-- MIN d, s, t (R247). -/
def execMin (core : Fin 24) (ecc : Ecc) (s : State) : Result :=
  .next (s.shuRun core.val (isOp 0x15) ecc (onCore core.val (fun c w =>
    let x := c.dr (fS w)
    let y := c.dr (fT w)
    let r := if x.toInt ≤ y.toInt then x else y
    (c.setD (fD w) r).zn r)))

/-- MAX d, s, t (R247). -/
def execMax (core : Fin 24) (ecc : Ecc) (s : State) : Result :=
  .next (s.shuRun core.val (isOp 0x16) ecc (onCore core.val (fun c w =>
    let x := c.dr (fS w)
    let y := c.dr (fT w)
    let r := if x.toInt ≤ y.toInt then y else x
    (c.setD (fD w) r).zn r)))

/-! ### Logic and shifts (R243) -/

/-- A logical result: C and V are cleared. -/
def CoreSt.logicTo (c : CoreSt) (d : Nat) (r : Half) : CoreSt := (c.setD d r).zncv r false false

/-- AND d, s, t (R243, R247). -/
def execShuAnd (core : Fin 24) (ecc : Ecc) (s : State) : Result :=
  .next (s.shuRun core.val (isOp 0x0C) ecc (onCore core.val (fun c w => c.logicTo (fD w) (c.dr (fS w) &&& c.dr (fT w)))))

/-- OR d, s, t (R243, R247). -/
def execShuOr (core : Fin 24) (ecc : Ecc) (s : State) : Result :=
  .next (s.shuRun core.val (isOp 0x0D) ecc (onCore core.val (fun c w => c.logicTo (fD w) (c.dr (fS w) ||| c.dr (fT w)))))

/-- XOR d, s, t (R243, R247). -/
def execShuXor (core : Fin 24) (ecc : Ecc) (s : State) : Result :=
  .next (s.shuRun core.val (isOp 0x0E) ecc (onCore core.val (fun c w => c.logicTo (fD w) (c.dr (fS w) ^^^ c.dr (fT w)))))

/-- ANDI d, s, imm (R243, R247). -/
def execAndi (core : Fin 24) (ecc : Ecc) (s : State) : Result :=
  let n := core.val
  .next (s.shuRun n (isOp 0x0F) ecc (onCore n (fun c w =>
    c.logicTo (fD w) (c.dr (fS w) &&& BitVec.ofNat 16 (fImm w)))))

/-- ASH d, s, imm: by IMM [4:0], signed, positive left (R243, R247). -/
def execAsh (core : Fin 24) (ecc : Ecc) (s : State) : Result :=
  .next (s.shuRun core.val (isOp 0x10) ecc (onCore core.val (fun c w =>
    let (r, carry, past) := ashOf (c.dr (fS w)) (signed 5 (fImm w))
    (c.setD (fD w) r).zncv r carry past)))

/-- LSH d, s, imm (R243, R247). -/
def execLsh (core : Fin 24) (ecc : Ecc) (s : State) : Result :=
  .next (s.shuRun core.val (isOp 0x11) ecc (onCore core.val (fun c w =>
    let (r, carry) := lshOf (c.dr (fS w)) (signed 5 (fImm w))
    (c.setD (fD w) r).zncv r carry false)))

/-! ### Memory and extended registers -/

/-- An offset stands where the mode does not use one (R237, R246). -/
def badOffset (mode off : Nat) : Bool := decide (off ≠ 0) && !(decide (mode = 0) || decide (6 ≤ mode))

/-- LD d, mem (R237, R244, R247). -/
def execLd (core : Fin 24) (ecc : Ecc) (s : State) : Result :=
  let n := core.val
  .next (s.shuRun n (isOp 0x17) ecc (fun t w =>
    let c := t.core n
    let mode := bitsOf w 18 16
    let (addr, c1) := c.address mode (bitsOf w 21 19) (BitVec.ofNat 16 (fImm w))
    if badOffset mode (fImm w) then .fault t fcIllegal none
    else
      match c.dataFault ecc [addr] with
      | some bad => .fault (t.setCore n bad) fcEcc none
      | none => .done (t.setCore n (c1.setD (fD w) (c.load addr))) 1 none))

/-- ST s, mem: a store to the window is a WINDOW fault (R232, R237, R247). -/
def execSt (core : Fin 24) (ecc : Ecc) (s : State) : Result :=
  let n := core.val
  .next (s.shuRun n (isOp 0x18) ecc (fun t w =>
    let c := t.core n
    let mode := bitsOf w 18 16
    let (addr, c1) := c.address mode (bitsOf w 21 19) (BitVec.ofNat 16 (fImm w))
    if badOffset mode (fImm w) then .fault t fcIllegal none
    else if addr.msb then .fault t fcWindow none
    else .done (t.setCore n (c1.store addr.toNat (c.dr (fD w)))) 1 none))

/-- A write of an extended register: refused for the read-only and reserved ones (R235). -/
def shuExtWrite (t : State) (n x : Nat) (v : Half) : ShuRes :=
  match (t.core n).extWrite x v t.beats with
  | some c => .done (t.setCore n c) 1 none
  | none => .fault t fcIllegal none

/-- MOVX x, s (R235, R236, R244, R247). -/
def execMovx (core : Fin 24) (ecc : Ecc) (s : State) : Result :=
  .next (s.shuRun core.val (isOp 0x19) ecc (fun t w =>
    shuExtWrite t core.val (fX w) ((t.core core.val).dr (fXD w))))

/-- MOVXI x, imm (R235, R236, R244, R247). -/
def execMovxi (core : Fin 24) (ecc : Ecc) (s : State) : Result :=
  .next (s.shuRun core.val (isOp 0x1A) ecc (fun t w => shuExtWrite t core.val (fX w) (BitVec.ofNat 16 (fImm w))))

/-- MOVFX d, x (R235, R247). -/
def execMovfx (core : Fin 24) (ecc : Ecc) (s : State) : Result :=
  let n := core.val
  .next (s.shuRun n (isOp 0x1B) ecc (fun t w =>
    match (t.core n).extRead (fX w) with
    | some v => .done (t.setCore n ((t.core n).setD (fXD w) v)) 1 none
    | none => .fault t fcIllegal none))

/-! ### Accumulators (R240 to R242) -/

/-- MPY ac, s, t (R240, R247). -/
def execMpy (core : Fin 24) (ecc : Ecc) (s : State) : Result :=
  .next (s.shuRun core.val (isOp 0x1C) ecc (onCore core.val (fun c w =>
    c.setAc (fAC w) (c.product (c.dr (fAS w)) (c.dr (fAT w))))))

/-- MAC ac, s, t (R240, R241, R247). -/
def execMac (core : Fin 24) (ecc : Ecc) (s : State) : Result :=
  .next (s.shuRun core.val (isOp 0x1D) ecc (onCore core.val (fun c w =>
    c.accum (fAC w) (c.ac (fAC w) + c.product (c.dr (fAS w)) (c.dr (fAT w))))))

/-- MSU ac, s, t (R240, R241, R247). -/
def execMsu (core : Fin 24) (ecc : Ecc) (s : State) : Result :=
  .next (s.shuRun core.val (isOp 0x1E) ecc (onCore core.val (fun c w =>
    c.accum (fAC w) (c.ac (fAC w) - c.product (c.dr (fAS w)) (c.dr (fAT w))))))

/-- MACM ac, ma, mb: both addresses are those before any post-modification. It stalls a cycle, and sees an earlier store,
where the data memory would take three accesses or the window two (R237, R239, R240, R245, R247). -/
def execMacm (core : Fin 24) (ecc : Ecc) (s : State) : Result :=
  let n := core.val
  .next (s.shuRun n (isOp 0x1F) ecc (fun t w =>
    let c := t.core n
    let a := bitsOf w 24 22
    let b := bitsOf w 19 17
    let (x, c1) := c.address (shortMode (bitsOf w 21 20)) a 0#16
    let (y, _) := c.address (shortMode (bitsOf w 16 15)) b 0#16
    let (_, c2) := c1.address (shortMode (bitsOf w 16 15)) b 0#16
    let c3 := if a = b then { c2 with a := c2.a.set a (BitVec.ofNat 16 t.free) } else c2
    let stall := (c.stBefore.isSome && !x.msb && !y.msb) || (x.msb && y.msb)
    let view := if stall then { c with stBefore := none } else c
    match c.dataFault ecc [x, y] with
    | some bad => .fault (t.setCore n bad) fcEcc none
    | none =>
      .done (State.took (t.setCore n (c3.accum (fAC w) (c.ac (fAC w) + c.product (view.load x) (view.load y)))))
        (if stall then 2 else 1) none))

/-- MACSQ ac, ma (R237, R240, R247). -/
def execMacsq (core : Fin 24) (ecc : Ecc) (s : State) : Result :=
  let n := core.val
  .next (s.shuRun n (isOp 0x20) ecc (fun t w =>
    let c := t.core n
    let (x, c1) := c.address (shortMode (bitsOf w 21 20)) (bitsOf w 24 22) 0#16
    match c.dataFault ecc [x] with
    | some bad => .fault (t.setCore n bad) fcEcc none
    | none =>
      .done (t.setCore n (c1.accum (fAC w) (c.ac (fAC w) + c.product (c.load x) (c.load x)))) 1 none))

/-- ACLR ac (R247). -/
def execAclr (core : Fin 24) (ecc : Ecc) (s : State) : Result :=
  .next (s.shuRun core.val (isOp 0x21) ecc (onCore core.val (fun c w => c.setAc (fAC w) 0)))

/-- ACADD ac, s, sh: a shift above 16 is ILLEGAL (R241, R247). -/
def execAcadd (core : Fin 24) (ecc : Ecc) (s : State) : Result :=
  let n := core.val
  .next (s.shuRun n (isOp 0x22) ecc (fun t w =>
    let c := t.core n
    let sh := bitsOf w 4 0
    if 16 < sh then .fault t fcIllegal none
    else .done (t.setCore n (c.accum (fAC w) (c.ac (fAC w) + (c.dr (fAS w)).toInt * 2 ^ sh))) 1 none))

/-- ACSH ac, imm: left with zero fill, right rounding towards minus infinity (R241, R242, R247). -/
def execAcsh (core : Fin 24) (ecc : Ecc) (s : State) : Result :=
  .next (s.shuRun core.val (isOp 0x23) ecc (onCore core.val (fun c w =>
    let k := signed 6 (bitsOf w 5 0)
    let v := c.ac (fAC w)
    c.accum (fAC w) (if 0 ≤ k then v * 2 ^ k.toNat else v / 2 ^ (-k).toNat))))

/-- RND ac (R241, R242, R247). -/
def execRnd (core : Fin 24) (ecc : Ecc) (s : State) : Result :=
  .next (s.shuRun core.val (isOp 0x24) ecc (onCore core.val (fun c w =>
    c.accum (fAC w) (roundConv (c.ac (fAC w)) 16 * 2 ^ 16))))

/-- MOVH d, ac: V says that saturation changed the value (R242, R247). -/
def execMovh (core : Fin 24) (ecc : Ecc) (s : State) : Result :=
  .next (s.shuRun core.val (isOp 0x25) ecc (onCore core.val (fun c w =>
    let v := roundConv (c.ac (fAC w)) 16
    (c.setD (fAS w) (BitVec.ofInt 16 (sat16 v))).setSb 3 (overOf v))))

/-- MOVL d, ac (R242, R247). -/
def execMovl (core : Fin 24) (ecc : Ecc) (s : State) : Result :=
  .next (s.shuRun core.val (isOp 0x26) ecc (onCore core.val (fun c w =>
    c.setD (fAS w) (BitVec.ofInt 16 (c.ac (fAC w))))))

/-- MOVG d, ac: the guard bits, sign-extended (R242, R247). -/
def execMovg (core : Fin 24) (ecc : Ecc) (s : State) : Result :=
  .next (s.shuRun core.val (isOp 0x27) ecc (onCore core.val (fun c w =>
    c.setD (fAS w) (BitVec.ofInt 16 (c.ac (fAC w) / 2 ^ 32)))))

/-! ### Branches and loops -/

/-- The core before a delay slot that a jump or nothing follows. -/
def CoreSt.branch (c : CoreSt) (taken : Bool) (target : Nat) : CoreSt :=
  { c with delay := some (if taken then .jump target else .notTaken) }

/-- B cond, target: the flags as they were left two instructions before (R244, R247, R248, R250). -/
def execShuB (core : Fin 24) (ecc : Ecc) (s : State) : Result :=
  let n := core.val
  .next (s.shuRun n (isOp 0x28) ecc (fun t w =>
    match condOf (t.core n).srBefore (fD w) with
    | none => .fault t fcIllegal none
    | some taken => .done (t.setCore n ((t.core n).branch taken (bitsOf w 13 0))) 1 none))

/-- CALL cond, target: the return address is the branch's plus 2; a ninth push is a STACK fault (R247, R250). -/
def execCall (core : Fin 24) (ecc : Ecc) (s : State) : Result :=
  let n := core.val
  .next (s.shuRun n (isOp 0x29) ecc (fun t w =>
    let c := t.core n
    match condOf c.srBefore (fD w) with
    | none => .fault t fcIllegal none
    | some false => .done (t.setCore n (c.branch false 0)) 1 none
    | some true =>
      if 8 ≤ c.calls.length then .fault t fcStack none
      else
        .done (t.setCore n { c.branch true (bitsOf w 13 0) with calls := (c.pc + 2) % 16384 :: c.calls }) 1 none))

/-- RET cond: with the stack empty it is a STACK fault (R247, R250). -/
def execRet (core : Fin 24) (ecc : Ecc) (s : State) : Result :=
  let n := core.val
  .next (s.shuRun n (isOp 0x2A) ecc (fun t w =>
    let c := t.core n
    match condOf c.srBefore (fD w) with
    | none => .fault t fcIllegal none
    | some false => .done (t.setCore n (c.branch false 0)) 1 none
    | some true =>
      match c.calls with
      | [] => .fault t fcStack none
      | r :: rest => .done (t.setCore n { c.branch true r with calls := rest }) 1 none))

/-- RETI: outside a handler it is ILLEGAL; after its delay slot the main bank and IPC return (R247, R262). -/
def execReti (core : Fin 24) (ecc : Ecc) (s : State) : Result :=
  let n := core.val
  .next (s.shuRun n (isOp 0x2B) ecc (fun t _ =>
    let c := t.core n
    if c.sb 10 then .done (t.setCore n { c with delay := some .reti }) 1 none
    else .fault t fcIllegal none))

/-- A loop of count passes up to END begins at the next instruction (R249). -/
def shuLoop (t : State) (n last count : Nat) : ShuRes :=
  let c := t.core n
  if last ≤ c.pc then .fault t fcIllegal none
  else if count = 0 then .done t 1 (some ((last + 1) % 16384))
  else if 4 ≤ c.loops.length then .fault t fcLoopStack none
  else .done (t.setCore n { c with loops := ⟨(c.pc + 1) % 16384, last, count⟩ :: c.loops }) 1 none

/-- LOOP count, end: COUNT 0 means 4,096 (R247, R249). -/
def execLoop (core : Fin 24) (ecc : Ecc) (s : State) : Result :=
  .next (s.shuRun core.val (isOp 0x2C) ecc (fun t w =>
    let k := bitsOf w 11 0
    shuLoop t core.val (bitsOf w 25 12) (if k = 0 then 4096 else k)))

/-- LOOPD s, end: the count as D was two instructions before; 0 skips the body (R244, R247, R249). -/
def execLoopd (core : Fin 24) (ecc : Ecc) (s : State) : Result :=
  .next (s.shuRun core.val (isOp 0x2D) ecc (fun t w =>
    shuLoop t core.val (bitsOf w 25 12) (regAt (t.core core.val).dBefore (bitsOf w 3 0)).toNat))

/-! ### Ports and verdicts -/

/-- A word taken from a port into d, with C (R251). -/
def CoreSt.taken (c : CoreSt) (d : Nat) (v : Option Half) : CoreSt := (c.setD d (v.getD 0#16)).setSb 2 v.isSome

/-- SHU_MBOX_IN of core n holds these words. -/
def State.setMboxIn (s : State) (n : Nat) (q : List Half) : State :=
  (s.setCore n { s.core n with mboxIn := q }).fset (R.SHU_MBOX_IN n) F.SHU_MBOX_IN_DEPTH q.length

/-- IN d, port (R251, R252, R289). -/
def execShuIn (core : Fin 24) (ecc : Ecc) (s : State) : Result :=
  let n := core.val
  .next (s.shuRun n (isOp 0x2E) ecc (fun t w =>
    let c := t.core n
    let d := fD w
    match bitsOf w 2 0 with
    | 0 =>
      let v := match c.held with
        | some p => p.desc[c.descAt]?
        | none => none
      .done (t.setCore n { c.taken d v with descAt := if v.isSome then c.descAt + 1 else c.descAt }) 1 none
    | 1 =>
      match c.mboxIn with
      | [] => .done (t.setCore n (c.taken d none)) 1 none
      | v :: rest =>
        if t.popValid (qnMboxIn n) c.mboxIn.length = false then .done (t.setCore n (c.taken d none)) 1 none
        else
        let r := t.turnPop (qnMboxIn n) c.mboxIn.length
        let u := r.1.setCore n (c.taken d (if ecc = .parity then none else some v))
        let u1 := u.setMboxIn n (rest ++ halvesOf r.2)
        .done (if ecc = .parity then State.took (u1.log (vSHU n) (u1.free % 256) sevError 0 0 0) else u1) 1 none
    | 4 => .done (t.setCore n { c.taken d (some (BitVec.ofNat 16 t.wt)) with latched := t.wt }) 1 none
    | 5 => .done (t.setCore n (c.taken d (some (BitVec.ofNat 16 (c.latched / 2 ^ 16))))) 1 none
    | 6 => .done (t.setCore n (c.taken d (some (BitVec.ofNat 16 (c.latched / 2 ^ 32))))) 1 none
    | 7 => .done (t.setCore n (c.taken d (some (BitVec.ofNat 16 (c.latched / 2 ^ 48))))) 1 none
    | _ => .fault t fcPort none))

/-- OUT port, s: a push to SHU_MBOX_OUT; at full C is 0, unless a pop comes in the same cycle (R251, R287). -/
def execOut (core : Fin 24) (ecc : Ecc) (s : State) : Result :=
  let n := core.val
  .next (s.shuRun n (isOp 0x2F) ecc (fun t w =>
    let c := t.core n
    let k := qnMboxOut n
    let len := c.mboxOut.length
    if bitsOf w 2 0 ≠ 2 then .fault t fcPort none
    else if 8 ≤ len then .done ((t.setCore n (c.setSb 2 false)).turnWait k len (.half (c.dr (fD w)))) 1 none
    else
      let u := (t.setCore n { c.setSb 2 true with mboxOut := c.mboxOut ++ [c.dr (fD w)] }).turnPush k len
      .done (if t.fillsQuill k len then u.raise (vSHU n) 2 else u) 1 none))

/-- PASS s, t: the part ends with the feature block; the core stalls while it is copied; an uncorrectable word of the block is
an ECC fault (R254, R267). -/
def execPass (core : Fin 24) (ecc : Ecc) (s : State) : Result :=
  let n := core.val
  .next (s.shuRun n (isOp 0x30) ecc (fun t w =>
    let c := t.core n
    let from_ := (c.dr (fD w)).toNat
    let len := (c.dr (fS w)).toNat
    if 0x8000 < from_ + len ∨ 1024 < len then .fault t fcVerdict none
    else
      let cycles := (len + 1) / 2 + 4
      if c.held.isSome then
        match c.dataFault ecc ((upTo len).map (fun i => BitVec.ofNat 16 (from_ + i))) with
        | some bad => .fault (t.setCore n bad) fcEcc none
        | none =>
          .done (t.partEnd n (some ((upTo len).map (fun i => Tab.get (fun _ => 0#16) c.data (from_ + i)))) false false) cycles none
      else .done (t.verdictStale n) cycles none))

/-- VETO: the part ends, and the record is to be discarded (R254, R255). -/
def execVeto (core : Fin 24) (ecc : Ecc) (s : State) : Result :=
  let n := core.val
  .next (s.shuRun n (isOp 0x31) ecc (fun t _ =>
    if (t.core n).held.isSome then .done ((t.partEnd n none false true).count (R.SHU_VETO_CNT n) 1) 1 none
    else .done (t.verdictStale n) 1 none))

/-- RESERVED_OPCODE: an opcode from 0x32 to 0x3F is ILLEGAL (R246, R264). -/
def execReservedOpcode (core : Fin 24) (ecc : Ecc) (s : State) : Result :=
  .next (s.shuRun core.val (fun op => decide (0x32 ≤ op)) ecc (fun t _ => .fault t fcIllegal none))

/-! ### Events of a core -/

/-- WAIT_WAKE: a waiting core resumes (R245, R247). -/
def execWaitWake (core : Fin 24) (s : State) : Result :=
  let n := core.val
  .next (
    if s.coreWaiting n ∧ (s.core n).wakes = true then
      (s.setCore n (s.core n).settle).foff (R.SHU_STATUS n) F.SHU_STATUS_WAITING
    else s)

/-- INTERRUPT_ENTRY: the highest pending enabled source is taken (R245, R260, R261). -/
def execInterruptEntry (core : Fin 24) (s : State) : Result :=
  let n := core.val
  let c := s.core n
  .next (
    if s.coreHalted n ∨ c.stepping = true ∨ c.sb 9 = false ∨ c.sb 10 = true ∨ c.delay.isSome = true then s
    else
      match (upTo 4).find? (fun i => nbit c.ipend i && c.sb (12 + i)) with
      | none => s
      | some i =>
        let c1 := (c.settle.swapBank).setSb 10 true
        let c2 := { c1.settle with ipc := c.pc, found := some c.settle.lent, pc := 4 * (i + 1), ipend := c.ipend - 2 ^ i }
        let s1 := ((s.setCore n c2).foff (R.SHU_STATUS n) F.SHU_STATUS_WAITING).fon (R.SHU_STATUS n) F.SHU_STATUS_IN_HANDLER
        let s2 := if i = 3 then s1.bitOff (R.SHU_CTRL n) 4 else s1
        s2.count (R.SHU_CYCLE_CNT n) 1)

/-- TICK_EXPIRE: the timer reaches 0 (R263). -/
def execTickExpire (core : Fin 24) (s : State) : Result :=
  let n := core.val
  let c := s.core n
  let period := 2 * c.tick.toNat
  .next (
    if c.tick ≠ 0#16 ∧ c.tickBeat + period ≤ s.beats then
      s.setCore n { c with tickBeat := c.tickBeat + period, ipend := if nbit c.ipend 2 then c.ipend else c.ipend + 4 }
    else s)

/-- Positions of a channel before its trigger position. -/
def WaveChan.pre (x : WaveChan) : Nat := x.qc.getD x.first - x.first

/-- The smallest number of positions that channels hold before their trigger position. -/
def commonPre : List WaveChan → Nat
  | [] => 0
  | [x] => x.pre
  | x :: t => min x.pre (commonPre t)

/-- A channel from pre positions before its trigger position on. -/
def WaveChan.cut (x : WaveChan) (pre : Nat) : WaveChan :=
  { x with data := x.data.drop ((x.pre - pre) * 2 * x.wpp), first := x.first + (x.pre - pre) }

/-- TAINT of a record so far: of every word of it that is committed (R252). -/
def State.taintSoFar (s : State) (w : WaveRec) : Bool :=
  w.chans.any (fun x => wordFlags (s.waveReadAll x).data % 2 == 1)

/-- The part of a record that slice n gets, as it is written: its words and its descriptor without TAG; the trigger position of every
channel is its position PRE_ACT (R252, R253, R279). -/
def State.partOf (s : State) (n slot tag : Nat) (w : WaveRec) : List Half × List Half :=
  let mine := w.chans.filter (fun x => decide (x.ch / 8 = n))
  let pre := commonPre mine
  let chans := mine.map (fun x => x.cut pre)
  let npos := commonPos chans
  let wpp := match chans with
    | x :: _ => x.wpp
    | [] => 1
  let wanted := s.shedWanted w.shed
  let data := chans.foldl (fun b x => b ++ x.data.take (npos * 2 * x.wpp)) []
  let r := w.recIn 0
  let en := w.endStamp w.laid.length
  let h : FragHdr :=
    { rtype := rtWaveform, stream := w.stream, cls := s.fget (R.REC_STREAM_CFG w.stream) F.REC_STREAM_CFG_CLASS,
      flags := (w32 r.flags ||| w32 (r.content w.laid.length)).toNat, run := s.runNumber, frag := 0, seq := 0,
      wt := unsigned 64 (w.t / 256), wtFrac := (w.t % 256).toNat, enc := 0, source := w.shed, rawLen := 0, wireLen := 0,
      rate := 0, thLen := 0, endWt := unsigned 64 (en / 256), endFrac := (en % 256).toNat, keyId := 0 }
  let bytes := h.bytes60 ++ leBytes 4 0 ++ w.header40 ++ chans.foldl (fun b x => b ++ x.dirBytes wanted) [] ++ data
  let words := (words16 bytes).map (fun v => BitVec.ofNat 16 v)
  let past := decide (w.cause = some clOverrun)
  let taint := s.taintSoFar w
  let short := w.chans.any (fun x => x.shortPre)
  let d (v : Nat) : Half := BitVec.ofNat 16 v
  (words,
    [d tag,
     d (2 * slot + (if taint then 4 else 0) + (if short then 8 else 0) + (if past then 16 else 0) + 256 * w.shed),
     d (words.length - 1), d (52 + 16 * chans.length), d npos, d pre,
     d (chans.foldl (fun m x => m + 2 ^ (x.ch % 8)) 0 + 256 * wpp), d chans.length])

/-- Half-words put into a table from a number upward. -/
def putHalves (t : Tab Half) (k : Nat) : List Half → Tab Half
  | [] => t
  | v :: vs => putHalves (Tab.put (fun _ => 0#16) t k v) (k + 1) vs

/-- Core n has this record's part in a slot. -/
def CoreSt.hasPart (c : CoreSt) (w : WaveRec) : Bool :=
  let same (p : Option Part) : Bool := match p with
    | some q => decide (q.shed = w.shed) && decide (q.fired = w.fired)
    | none => false
  same c.held || same c.queued

/-- PART_WRITE: the oldest record whose part of the slice is complete goes to the core: around one that is halted or not
enabled, else into a free slot of the shed buffer; either way TAG counts it (R252, R253, R257). -/
def execPartWrite (core : Fin 24) (s : State) : Result :=
  let n := core.val
  let c := s.core n
  .next (
    match s.recs.waves.find? (fun w => w.partsLeft.contains n && w.cause.isSome && !c.hasPart w) with
    | none => s
    | some w0 =>
      let w := s.waveOverrun { w0 with chans := w0.chans.map (fun x => if x.ch / 8 = n then s.waveReadAll x else x) }
      if !(w.chans.all (fun x => decide (x.ch / 8 ≠ n) || x.full)) then s
      else
        let s1 := s.mapWaves (fun y => if y.shed = w.shed ∧ y.fired = w.fired then w else y)
        if s.coreHalted n || !s.flag (R.SHU_STATUS n) F.SHU_STATUS_ENABLE then
          (s1.setCore n { c with tag := c.tag + 1 }).partBypass n w.shed w.fired
        else if c.held.isSome && c.queued.isSome then s
        else
          let slot := match c.held with
            | some p => 1 - p.slot
            | none => 0
          let (words, desc) := s1.partOf n slot (c.tag % 65536) w
          let p : Part := ⟨c.tag % 65536, w.shed, w.fired, slot, desc, s.beats⟩
          let s2 := s1.setCore n { c with buf := putHalves c.buf (65536 * slot) words, tag := c.tag + 1 }
          if c.held.isSome then s2.setCore n { s2.core n with queued := some p } else s2.partOffer n p)

/-- PART_TIMEOUT: the part held is withdrawn, once the cycle of the expiry is over: a verdict given in that cycle counts (R256). -/
def execPartTimeout (core : Fin 24) (s : State) : Result :=
  let n := core.val
  let limit := s.fget (R.SHU_CFG n) F.SHU_CFG_TIMEOUT
  .next (
    match (s.core n).held with
    | some p =>
      if limit ≠ 0 ∧ (p.since + 128 * limit) / 2 < s.beats / 2 then
        ((s.partEnd n none true false).count (R.SHU_TIMEOUT_CNT n) 1).event (vSHU n) 3 sevWarning 0 0 0
      else s
    | none => s)

/-! ### Commands of SHU_CTRL (R265, R266) -/

/-- SHU_RUN: a halted core restarts at SHU_PC; one that halts itself in this beat will (R265, R266). -/
def execShuRun (core : Fin 24) (s : State) : Result :=
  let n := core.val
  .next (
    if s.coreHalted n then s.coreRun n else s.setCore n { s.core n with runBeat := some s.beats })

/-- SHU_HALT: a halt at the next boundary; a core in WAIT halts at once (R265). -/
def execShuHalt (core : Fin 24) (s : State) : Result :=
  let n := core.val
  .next (
    if s.coreHalted n then s
    else if s.coreWaiting n then s.coreHalt n
    else (s.setCore n { s.core n with haltAsked := true }).bitOn (R.SHU_CTRL n) 1)

/-- CORE_HALTED: the core reaches a boundary that is not a delay slot and halts; parts bypass (R257, R265). -/
def execCoreHalted (core : Fin 24) (s : State) : Result :=
  let n := core.val
  .next (if (s.core n).haltAsked = true ∧ (s.core n).delay = none ∧ s.coreHalted n = false then s.coreHalt n else s)

/-- SHU_STEP: a halted core executes one instruction and halts again (R265). -/
def execShuStep (core : Fin 24) (s : State) : Result :=
  let n := core.val
  .next (
    if s.coreHalted n then
      ((s.setCore n { s.core n with stepping := true }).foff (R.SHU_STATUS n) F.SHU_STATUS_HALTED).bitOn (R.SHU_CTRL n) 2
    else s)

/-- The registers of SHU that a reset of the core clears: status but ENABLE, interrupt events, fault and counters (R461). -/
def State.shuRegsClear (s : State) (n : Nat) : State :=
  let st := R.SHU_STATUS n
  let s1 := s.wr st (setField (resetOf st) F.SHU_STATUS_ENABLE (s.fget st F.SHU_STATUS_ENABLE))
  ([R.SHU_INT_STATUS n, R.SHU_FAULT n, R.SHU_CTRL n, R.SHU_PART_CNT n, R.SHU_VETO_CNT n, R.SHU_BYPASS_CNT n,
    R.SHU_TIMEOUT_CNT n, R.SHU_STALE_CNT n, R.SHU_CYCLE_CNT n, R.SHU_MEM_CE_CNT n].foldl (fun x a => x.wr a 0#32) s1).settleVec
    (vSHU n)

/-- SHU_RESET: the core halts, its registers, stacks, mailboxes and pending interrupts are reset; it is a block reset, which
clears status, events and counters too (R234, R265, R461). -/
def execShuReset (core : Fin 24) (s : State) : Result :=
  let n := core.val
  let h := if s.coreHalted n then s else s.coreHalt n
  let c := h.core n
  let start := h.fget (R.SHU_START n) F.SHU_START_START
  let c1 : CoreSt := { CoreSt.init with
    prog := c.prog, data := c.data, buf := c.buf, progBad := c.progBad, dataBad := c.dataBad, pc := start, tag := c.tag }
  let clear := ((h.setCore n c1).setTurn (qnMboxIn n) none).setTurn (qnMboxOut n) none
  .next ((((clear.shuRegsClear n).wr (R.SHU_PC n) (w32 start)).setMboxIn n []).resetEnded (vSHU n) 0 0)

/-- SHU_IRQ: HOST becomes pending (R260, R266). -/
def execShuIrq (core : Fin 24) (s : State) : Result :=
  let n := core.val
  let c := s.core n
  .next ((s.setCore n { c with ipend := if nbit c.ipend 3 then c.ipend else c.ipend + 8 }).bitOn (R.SHU_CTRL n) 4)

/-- MBOX_PUSH: a word pushed; at full it is refused with MBOX_OVF as the cycle ends, unless a pop comes in it (R251, R260, R287, R289). -/
def execMboxPush (core : Fin 24) (value : BitVec 16) (s : State) : Result :=
  let n := core.val
  let c := s.core n
  let k := qnMboxIn n
  let len := c.mboxIn.length
  .next (
    if 8 ≤ len then s.turnWait k len (.half value)
    else
      let s1 := if s.fillsQuill k len = true ∧ nbit c.ipend 1 = false then s.setCore n { c with ipend := c.ipend + 2 } else s
      (s1.setMboxIn n (c.mboxIn ++ [value])).turnPush k len)

/-- A read of SHU_MBOX_OUT pops a word, unless the queue is empty or the core halted (R251, R265). -/
def State.mboxTake (s : State) (n : Nat) : State × Nat :=
  let c := s.core n
  match c.mboxOut with
  | [] => (s, 0)
  | v :: rest =>
    if s.coreHalted n || !s.popValid (qnMboxOut n) c.mboxOut.length then (s, 0)
    else
      let r := s.turnPop (qnMboxOut n) c.mboxOut.length
      let more := halvesOf r.2
      let c1 := if more.isEmpty then c else c.setSb 2 true
      (r.1.setCore n { c1 with mboxOut := rest ++ more }, v.toNat + 2 ^ 31)

/-- MBOX_OUT_READ: a word popped; one whose parity fails returns its bits with BUS_ERR (R251, R265, R289). -/
def execMboxOutRead (src : Src) (core : Fin 24) (parity : Bool) (tag : Nat) (s : State) : Result :=
  let n := core.val
  let r := s.mboxTake n
  .next (
    if parity ∧ r.2 ≠ 0 then
      ((State.took (r.1.log (vSHU n) (r.1.free % 256) sevError 0 0 0)).busErr src 0 false (R.SHU_MBOX_OUT n) false).emit
        (.completion tag .busErr [r.2])
    else r.1.emit (.completion tag .ok [r.2]))

end Sys2Proof.Machine
end

