-- ==== Sys2Proof/Machine/Spectral.lean ====
section
/-!
DEFINITION. The commands of the Reeds (R103 to R125).
-/

namespace Sys2Proof.Machine

/-- SPECTRUM_DELIVERY: the first window of the stream whose beat has come leaves its Reed; mem: 1 a Reed-memory word was
corrected on the way, 2 one could not be, and the window is discarded (R114 to R123, R120). -/
def execSpectrumDelivery (channel : Fin 192) (mem : Fin 3) (s : State) : Host.Outcome State Fault Refusal :=
  let c := channel.val
  let x := s.strm c
  .next (
    match x.pend with
    | [] => s
    | w :: rest =>
      if !w.placed || decide (s.beats < w.due) then s
      else
        let s1 := if mem.val = 1 then (s.count (R.SPC_MEM_CE_CNT (c / 8)) 1).raise (vSPC (c / 8)) 2 else s
        if mem.val = 2 then ((s1.setStrm c { x with pend := rest }).raise (vSPC (c / 8)) 3).specSkip c 1
        else
          (s1.setStrm c { x with
            pend := rest,
            left := ⟨s.beats, w.index, w.lo, w.hi⟩ :: x.left.filter (fun y => decide (s.beats ≤ y.beat + 1024)) }).specDeliver c w)

/-- The streams of a slice that use one of its user tables. -/
def State.tableUsers (s : State) (n t : Nat) : List Nat :=
  ((upTo 8).map (fun l => 8 * n + l)).filter (fun c =>
    s.flag (spcCfg c) F.SPC_CH_CFG_EN && s.fget (spcCfg c) F.SPC_CH_CFG_WIN == 8 + t)

/-- Windows of a stream that are still loading are discarded (R112, R120; log entry 252). -/
def State.dropLoading (s : State) (c : Nat) : State :=
  let x := s.strm c
  let b := s.specB c
  let keep := x.pend.filter (fun w => w.placed && decide (w.loadAt + b ≤ s.beats))
  (s.setStrm c { x with pend := keep }).specSkip c (x.pend.length - keep.length)

/-- TABLE_SCRUB: an entry of a user window table is read with an error, corrected or not (R112). -/
def execTableScrub (slice : Fin 24) (table : Fin 2) (_entry : Fin 16384) (ue : Bool) (s : State) :
    Host.Outcome State Fault Refusal :=
  let n := slice.val
  let t := table.val
  .next (
    if ue then
      let s1 := (s.bitOn (R.SPC_STATUS n) (4 + t)).event (vSPC n) 4 sevError t 0 0
      let s2 := { s1 with spec := { s1.spec with rewritten := Tab.put (fun _ => 0) s1.spec.rewritten (2 * n + t) 0 } }
      (s2.tableUsers n t).foldl (fun x c => x.dropLoading c) s2
    else (s.count (R.SPC_MEM_CE_CNT n) 1).raise (vSPC n) 2)

/-- The entry that SPC_WIN_ADDR names is written under the EG rule and ENTRY advances; once every entry
of a bad table has been rewritten, entry 16,383 last, TABLE_BAD clears (R112, R125, R372). -/
def State.winDataPut (s : State) (src : Src) (n : Nat) (value : Word) : State :=
  let a := R.SPC_WIN_ADDR n
  let t := s.fget a F.SPC_WIN_ADDR_TABLE
  let k := s.fget a F.SPC_WIN_ADDR_ENTRY
  let v := value.toNat % 2 ^ 18
  let same := decide (v = s.tableEntry n t k)
  if s.egShut (vSPC n) && !same then s.egReject (vSPC n) src (R.SPC_WIN_DATA n)
  else
    let s1 := if same then s else
      State.egStored { s with spec := { s.spec with
        tables := Tab.put (fun _ => 0) s.spec.tables (16384 * (2 * n + t) + k) v } }
    let s2 := s1.fset a F.SPC_WIN_ADDR_ENTRY (k + 1)
    if s.bit (R.SPC_STATUS n) (4 + t) && !s.egShut (vSPC n) then
      let old := Tab.get (fun _ => 0) s2.spec.rewritten (2 * n + t)
      let mask := if old / 2 ^ k % 2 = 1 then old else old + 2 ^ k
      let s3 := { s2 with spec := { s2.spec with
        rewritten := Tab.put (fun _ => 0) s2.spec.rewritten (2 * n + t) mask } }
      if k = 16383 ∧ mask + 1 = 2 ^ 16384 then s3.bitOff (R.SPC_STATUS n) (4 + t) else s3
    else s2

/-- RETIRE takes the written bits under the EG rule; a 0 leaves a bit at 1 while its PDK_FAIL is 1 (R110, R372). -/
def State.retirePut (s : State) (src : Src) (n : Nat) (value : Word) : State :=
  let a := R.SPC_RETIRE n
  let old := s.fget a F.SPC_RETIRE_RETIRE
  let fail := s.fget a F.SPC_RETIRE_PDK_FAIL
  let v := value.toNat % 16
  if v = old then s
  else if s.egShut (vSPC n) then s.egReject (vSPC n) src a
  else State.egStored (s.fset a F.SPC_RETIRE_RETIRE ((w32 v) ||| (w32 old &&& w32 fail)).toNat)

end Sys2Proof.Machine
end

