-- ==== Sys2Proof/Machine/Spindle.lean ====
section
/-!
DEFINITION. The commands of Spindle (R316 to R329). A channel that runs takes its next instruction in the row of that
instruction's opcode.
-/

namespace Sys2Proof.Machine

/-- SPN_START: starts a channel, or continues its kept instruction; ignored with CMD_REFUSED in an active state (R318), and in the beat of a
STOP (R329). An END that was kept parks again, or is fetched again where a poke is pending (R325). -/
def execSpnStart (channel : Fin 64) (s : State) : Host.Outcome State Fault Refusal :=
  let k := channel.val
  let x := s.spch k
  .next (
    if x.stopped = some s.beats then s
    else if s.spnActive k then s.fon R.SPN_STATUS F.SPN_STATUS_CMD_REFUSED
    else if s.spnState k = spIdle then
      s.spnGo k spRunning { x with work := none, loop0 := none, loop1 := none, pcWritten := false }
    else if x.pcWritten then s.spnGo k spRunning { x with work := none, pcWritten := false }
    else
      match x.work with
      | some (.wait _ _ _ _) => s.spnGo k spWaiting { x with asked := s.beats }
      | some .parked => (s.spnGo k spEndWait x).pokeOne k
      | _ => s.spnGo k spRunning { x with asked := s.beats })

/-- An instruction of channel k is under way whose present element must end first. -/
def State.spnMoving (s : State) (k : Nat) : Bool :=
  s.spnState k == spRunning && (match (s.spch k).work with
    | some (.move _ _) => true
    | _ => false)

/-- SPN_HALT: an active channel stops, a moving one at its next element boundary (R318, R329). -/
def execSpnHalt (channel : Fin 64) (s : State) : Host.Outcome State Fault Refusal :=
  let k := channel.val
  let x := s.spch k
  .next (
    if s.spnActive k = false then s
    else if s.spnMoving k then s.spnGo k spRunning { x with haltAsked := true }
    else s.spnGo k spHalted { x with
      pausedIn := none, quiesce := none, pcWritten := false, halted := some (s.beats, s.spnState k) })

/-- A STOP of channel k: the other commands of its beat do not count (R329). -/
def State.stopAlone (s : State) (k : Nat) : State :=
  let t := if (s.spch k).poked = some s.beats then s.pokeDone k else s
  t.setSpch k { t.spch k with stopped := some t.beats }

/-- SPN_STOP: as HALT, then IDLE, with the kept instruction discarded (R318, R329). -/
def execSpnStop (channel : Fin 64) (s : State) : Host.Outcome State Fault Refusal :=
  let k := channel.val
  let t := s.stopAlone k
  let x := t.spch k
  .next (
    if t.spnMoving k then t.spnGo k spRunning { x with stopAsked := true }
    else t.spnGo k spIdle { x with work := none, pausedIn := none, quiesce := none, pcWritten := false, haltAsked := false })

/-- SPN_POKE: a channel parked on END fetches that word again, once the Hitch writes to HBM before the poke are done; otherwise the poke is kept
(R325). -/
def execSpnPoke (channel : Fin 64) (s : State) : Host.Outcome State Fault Refusal :=
  .next (s.pokeWrite channel.val false)

/-- Event bits of channel k set (R323). -/
def State.spnEvents (s : State) (k v : Nat) : State :=
  s.wr (R.SPN_CH_EVENT k) (s.rd (R.SPN_CH_EVENT k) ||| w32 (v % 256))

/-- SPN_EVENT_SET (R323). -/
def execSpnEventSet (channel : Fin 64) (value : BitVec 8) (s : State) : Host.Outcome State Fault Refusal :=
  .next (s.spnEvents channel.val value.toNat)

/-- SPN_END: the channel parks on the END word; a pending poke has it fetched once more instead (R325). -/
def execSpnEnd (channel : Fin 64) (ue : Bool) (s : State) : Host.Outcome State Fault Refusal :=
  let k := channel.val
  .next (s.spnRun k (fun op => op == 0) ue (fun y _ =>
    if y.pokeReady k then y.pokeDone k else y.spnGo k spEndWait { y.spch k with work := some .parked }))

/-- SPN_LINK: the channel goes on at W1 (R325). -/
def execSpnLink (channel : Fin 64) (ue : Bool) (s : State) : Host.Outcome State Fault Refusal :=
  let k := channel.val
  .next (s.spnRun k (fun op => op == 5) ue (fun y i => y.setSpnPc k i.w1))

/-- SPN_RESERVED_OPCODE: BAD_INSTR (R319, R327). -/
def execSpnReservedOpcode (channel : Fin 64) (ue : Bool) (s : State) : Host.Outcome State Fault Refusal :=
  let k := channel.val
  .next (s.spnBeside k (fun t =>
    if t.spnState k ≠ spRunning ∨ (t.spch k).work.isSome = true then t
    else
      match t.spnFetch k ue with
      | .error c => t.spnFetchFault k ue c
      | .ok ws => if 6 ≤ ws.headD 0 % 16 then (t.readReach (t.spnPc k) 32 none).spnFault k sfInstr 0 (t.spnPc k) else t))

/-! ### MOVE -/

/-- SPN_MOVE: a MOVE begins; LEN 0 and addresses that are not aligned fault (R316, R319 to R321). -/
def execSpnMove (channel : Fin 64) (ue : Bool) (s : State) : Host.Outcome State Fault Refusal :=
  let k := channel.val
  .next (s.spnRun k (fun op => op == 1) ue (fun y i =>
    if i.len = 0 then y.spnFault k sfInstr 0 (y.spnPc k)
    else
      match y.spnMoveBad k i 0 with
      | some (dir, addr) => y.spnFault k sfAlign dir addr
      | none => y.spnGo k spRunning { y.spch k with work := some (.move i 0), asked := y.beats }))

/-- An element that was read whole is written, and the channel comes to its boundary (R320, R321). -/
def State.spnElementWrite (s : State) (k : Nat) (i : SpnIns) (done n : Nat) (bs : List Byte) : State :=
  let dst := s.spnDst k i done
  match s.spnMayWrite dst n with
  | some c => (if c = sfBus then s.spnHole (dst + s.reach dst n) else s).spnFault k c 2 dst
  | none =>
    let s1 := (s.spnWrite k dst bs).spnAdvance k i n
    if i.len ≤ done + n then s1.spnNext k else s1.spnBoundary k (some (.move i (done + n)))

/-- SPN_ELEMENT_DONE: the element of the channel whose turn it is is read and written; what it needs aligned is
checked again, since its registers may have been written while it was halted; a fault in its read leaves its destination untouched (R313, R316,
R320, R321, R326, R327). -/
def execSpnElementDone (channel : Fin 64) (ue : Option Nat) (given : Option (List (BitVec 8))) (s : State) :
    Host.Outcome State Fault Refusal :=
  let k := channel.val
  .next (
    if s.spnTurn ≠ some k then s
    else
      match (s.spch k).work with
      | some (.move i done) =>
        let n := s.spnElement k i done
        let src := s.spnSrc k i done
        (match s.spnMoveBad k i done with
        | some (dir, addr) => (s.spnServed k).spnFault k sfAlign dir addr
        | none =>
          match s.spnRead src n ue.isSome given with
          | .error c => (s.spnServed k).spnReadFault k src n ue c
          | .ok bs => (((s.spnServed k).readReach src n none).spnAsk src n).spnElementWrite k i done n bs)
      | _ => s)

/-- SPN_QUIESCE_TIMEOUT: a channel that has not paused within 12,000 beats faults with DOMAIN_OFF at its element (R328). -/
def execSpnQuiesceTimeout (channel : Fin 64) (s : State) : Host.Outcome State Fault Refusal :=
  let k := channel.val
  .next (
    match (s.spch k).quiesce with
    | none => s
    | some (b, d) =>
      if b + 12000 ≤ s.beats then
        let t := (s.spnTouches k d).getD (s.spnPc k, 0)
        (s.spnFault k sfDomain t.2 t.1).raise vPWR 7
      else s)

/-! ### LOOP -/

/-- Loop level l of a channel. -/
def SpnCh.loop (x : SpnCh) (l : Nat) : Option SpnLoop := if l = 0 then x.loop0 else x.loop1

/-- Loop level l of a channel replaced. -/
def SpnCh.setLoop (x : SpnCh) (l : Nat) (v : Option SpnLoop) : SpnCh :=
  if l = 0 then { x with loop0 := v } else { x with loop1 := v }

/-- SPN_LOOP: activates, decrements or leaves a loop level (R319, R322). -/
def execSpnLoop (channel : Fin 64) (ue : Bool) (s : State) : Host.Outcome State Fault Refusal :=
  let k := channel.val
  .next (s.spnRun k (fun op => op == 2) ue (fun y i =>
    let pc := y.spnPc k
    let l := i.w0 / 16 % 2
    let count := i.w0 / 2 ^ 32
    let off := signed 32 i.w1
    let x := y.spch k
    let jump := unsigned 64 ((pc : Int) + 32 * off)
    if count = 0 ∨ 0 ≤ off then y.spnFault k sfInstr 0 pc
    else
      match x.loop l with
      | none =>
        if count = 1 then y.spnNext k
        else (y.setSpnPc k jump).spnGo k spRunning (x.setLoop l (some ⟨count - 1, pc⟩))
      | some e =>
        if e.addr ≠ pc then y.spnFault k sfInstr 0 pc
        else if e.count ≤ 1 then (y.setSpch k (x.setLoop l none)).spnNext k
        else (y.setSpnPc k jump).spnGo k spRunning (x.setLoop l (some ⟨e.count - 1, pc⟩))))

/-! ### WAIT -/

/-- MODE, EVMASK, POLL and TIMEOUT of a WAIT (R319). -/
def SpnIns.mode (i : SpnIns) : Nat := i.w0 / 16 % 4
def SpnIns.evmask (i : SpnIns) : Nat := i.w0 / 2 ^ 8 % 256
def SpnIns.poll (i : SpnIns) : Nat := max 1 (i.w0 / 2 ^ 16 % 2 ^ 16)
def SpnIns.timeout (i : SpnIns) : Nat := i.w0 / 2 ^ 32

/-- SPN_WAIT: the channel waits (R323). -/
def execSpnWait (channel : Fin 64) (ue : Bool) (s : State) : Host.Outcome State Fault Refusal :=
  let k := channel.val
  .next (s.spnRun k (fun op => op == 3) ue (fun y i =>
    if i.mode = 3 then y.spnFault k sfInstr 0 (y.spnPc k)
    else y.spnGo k spWaiting { y.spch k with work := some (.wait i y.beats none false), asked := y.beats }))

/-- The WAIT of a channel that is waiting: its instruction, its beat, its latest poll, whether a poll met the condition. -/
def State.spnWaitOf (s : State) (k : Nat) : Option (SpnIns × Nat × Option Nat × Bool) :=
  if s.spnState k = spWaiting then
    (match (s.spch k).work with
    | some (.wait i since polled met) => some (i, since, polled, met)
    | _ => none)
  else none

/-- The condition of a WAIT holds (R323). -/
def State.spnHolds (s : State) (k : Nat) (i : SpnIns) (met : Bool) : Bool :=
  if i.mode = 0 then decide (i.w1 ≤ s.wt)
  else if i.mode = 1 then decide ((s.rd (R.SPN_CH_EVENT k) &&& w32 i.evmask) ≠ 0#32)
  else met

/-- SPN_WAIT_POLL: the word at W1 is read, POLL × 16 beats after the poll before, and compared with XCNT + VALUE (R323). -/
def execSpnWaitPoll (channel : Fin 64) (ue : Bool) (given : Option (List (BitVec 8))) (s : State) :
    Host.Outcome State Fault Refusal :=
  let k := channel.val
  .next (s.spnBeside k (fun t =>
    match t.spnWaitOf k with
    | some (i, since, polled, met) =>
      let due := match polled with
        | none => true
        | some b => decide (b + 16 * i.poll ≤ t.beats)
      if i.mode = 2 ∧ due = true ∧ met = false then
        (match t.spnRead i.w1 8 ue given with
        | .error c => t.spnReadFault k i.w1 8 (if ue then some 0 else none) c
        | .ok bs =>
          let d := signed 64 (unsigned 64 ((leNat bs : Int) - (t.spnXcnt k + i.w2 : Nat)))
          ((t.readReach i.w1 8 none).spnAsk i.w1 8).setSpch k { t.spch k with
            work := some (.wait i since (some t.beats) (decide (0 ≤ d))), asked := t.beats + 16 * i.poll })
      else t
    | none => t))

/-- SPN_WAIT_END: the condition holds and the channel goes on; EVENT clears the bits it waited for (R323). -/
def execSpnWaitEnd (channel : Fin 64) (s : State) : Host.Outcome State Fault Refusal :=
  let k := channel.val
  .next (
    match s.spnWaitOf k with
    | some (i, _, _, met) =>
      if s.spnHolds k i met then
        let s1 := if i.mode = 1 then
            s.wr (R.SPN_CH_EVENT k) (s.rd (R.SPN_CH_EVENT k) &&& ~~~(w32 i.evmask)) else s
        s1.spnNext k
      else s
    | none => s)

/-- SPN_WAIT_TIMEOUT: a WAIT not ended after TIMEOUT × 1,024 beats faults; the failing address of one that reads no memory is
open (R323, R327). -/
def execSpnWaitTimeout (channel : Fin 64) (s : State) : Host.Outcome State Fault Refusal :=
  let k := channel.val
  .next (s.spnBeside k (fun t =>
    match t.spnWaitOf k with
    | some (i, since, _, met) =>
      if i.timeout ≠ 0 ∧ since + 1024 * i.timeout ≤ t.beats ∧ t.spnHolds k i met = false then
        (if i.mode = 2 then t.spnFault k sfTimeout 1 i.w1
        else t.took.took.spnFault k sfTimeout (t.took.free % 4) t.free)
      else t
    | none => t))

/-! ### SIGNAL -/

/-- IRQ, WRITE, VALSRC, TCH and TEV of a SIGNAL (R319). -/
def SpnIns.irq (i : SpnIns) : Bool := i.w0 / 16 % 2 == 1
def SpnIns.writes (i : SpnIns) : Bool := i.w0 / 32 % 2 == 1
def SpnIns.valsrc (i : SpnIns) : Nat := i.w0 / 64 % 4
def SpnIns.tch (i : SpnIns) : Nat := i.w0 / 2 ^ 32 % 64
def SpnIns.tev (i : SpnIns) : Nat := i.w0 / 2 ^ 40 % 256

/-- A SIGNAL begins to wait for the channel's earlier writes: for each port written since the previous one it issues a flush read of 4 bytes at the
last address written (R324). -/
def State.spnFlush (s : State) (k : Nat) (i : SpnIns) : State :=
  let x := s.spch k
  x.touched.foldl (fun y e => if y.portWriting e.1 then y.partnerGet e.1 e.2 4 5 else y)
    (s.spnGo k spRunning { x with work := some (.signal i), asked := s.beats })

/-- SPN_SIGNAL: the channel waits for its earlier writes; a signal address that is not 32-byte aligned faults (R319, R324). -/
def execSpnSignal (channel : Fin 64) (ue : Bool) (s : State) : Host.Outcome State Fault Refusal :=
  let k := channel.val
  .next (s.spnRun k (fun op => op == 4) ue (fun y i =>
    if i.writes = true ∧ i.w1 % 32 ≠ 0 then y.spnFault k sfAlign 3 i.w1
    else y.spnFlush k i))

/-- The value that a SIGNAL reports (R324). -/
def State.spnValue (s : State) (k : Nat) (i : SpnIns) : Nat :=
  if i.valsrc = 0 then i.w2
  else if i.valsrc = 1 then s.spnXcnt k
  else if i.valsrc = 2 then s.spnSptr k
  else s.spnDptr k

/-- The 32 bytes that a SIGNAL writes (R324). -/
def State.signalBytes (s : State) (k : Nat) (i : SpnIns) : List Byte :=
  leBytes 8 (s.spnValue k i) ++ leBytes 8 s.wt ++ leBytes 1 0 ++ leBytes 1 k ++ leBytes 14 0

/-- What SIGNAL does once its record is written: events, SIG_WT, IRQ (R324). -/
def State.spnSignalled (s : State) (k : Nat) (i : SpnIns) : State :=
  let s1 := (s.spnEvents i.tch i.tev).setPair (R.SPN_CH_SIG_WT_LO k) (R.SPN_CH_SIG_WT_HI k) s.wt
  let lo := chanReg R.SPN_SIG_STATUS_LO R.SPN_SIG_STATUS_HI k
  let s2 := if i.irq then
      let y := s1.bitOn lo (k % 32)
      if y.bit (chanReg R.SPN_SIG_EN_LO R.SPN_SIG_EN_HI k) (k % 32) && !s1.bit lo (k % 32) then y.raise vSPN 0 else y
    else s1
  (s2.setSpch k { s2.spch k with touched := [] }).spnNext k

/-- SPN_SIGNAL_FLUSHED: every earlier write has reached its target; the signal is given (R324, R327). -/
def execSpnSignalFlushed (channel : Fin 64) (failed : Bool) (s : State) : Host.Outcome State Fault Refusal :=
  let k := channel.val
  .next (s.spnBeside k (fun t =>
    if t.spnState k ≠ spRunning then t
    else
      match (t.spch k).work with
      | some (.signal i) =>
        (match (t.spch k).touched.find? (fun e => failed || !t.portWriting e.1) with
        | some e => t.spnFault k sfPartner 1 e.2
        | none =>
          if i.writes then
            (if !t.spnPrio k && ((partnerOf i.w1).bind t.entryTurn).isSome then t
            else match t.spnMayWrite i.w1 32 with
            | some c => (if c = sfBus then t.spnHole (i.w1 + t.reach i.w1 32) else t).spnFault k c 3 i.w1
            | none => (t.spnWrite k i.w1 (t.signalBytes k i)).spnSignalled k i)
          else t.spnSignalled k i)
      | _ => t))

/-- The read of partner memory that channel k is waiting for: the port and its address as R327 reports it (R299, R320, R323, R324). -/
def State.spnAwaits (s : State) (k : Nat) : Option (Nat × Nat) :=
  match (s.spch k).work with
  | some (.move i done) =>
    if s.spnState k = spRunning then (partnerOf (s.spnSrc k i done)).map (fun p => (p, s.spnSrc k i done)) else none
  | some (.wait i _ _ _) => if s.spnState k = spWaiting ∧ i.mode = 2 then (partnerOf i.w1).map (fun p => (p, i.w1)) else none
  | some (.signal _) => if s.spnState k = spRunning then (s.spch k).touched.head? else none
  | _ => none

/-- COMPLETION_TIMEOUT: a read of partner memory has no completion within CTO of the beat in which it could be issued and fails; its channel
faults with PARTNER (R299, R327). -/
def execCompletionTimeout (channel : Fin 64) (s : State) : Host.Outcome State Fault Refusal :=
  let k := channel.val
  .next (s.spnBeside k (fun t =>
    match t.spnAwaits k with
    | some (p, addr) => if (t.spch k).asked + t.cto p ≤ t.beats then t.spnFault k sfPartner 1 addr else t
    | none => t))

end Sys2Proof.Machine
end

