-- ==== Sys2Proof/Machine/TackOps.lean ====
section
/-!
DEFINITION. Operations of the Tack ADC: its sequences (R444 to R447), corrections (R449), the circular writer (R450).
-/

namespace Sys2Proof.Machine

/-- The part of Tack replaced. -/
def State.setTck (s : State) (x : TckSt) : State := { s with tck := x }

/-- The word of an entry of the regular or the injected sequence (R445). -/
def State.tckEntry (s : State) (injected : Bool) (e : Nat) : Word := s.rd (if injected then R.TCK_INJ e else R.TCK_SEQ e)

/-- The length of a sequence (R445). -/
def State.tckLen (s : State) (injected : Bool) : Nat :=
  (if injected then s.fget R.TCK_CFG F.TCK_CFG_INJ_LEN else s.fget R.TCK_CFG F.TCK_CFG_REG_LEN) + 1

/-- The words of a sequence. -/
def State.tckWords (s : State) (injected : Bool) : List Word := (upTo (s.tckLen injected)).map (fun e => s.tckEntry injected e)

/-- An entry is sampled with the one before it. -/
def simultaneous (w : Word) : Bool := fieldOf w F.TCK_SEQ_SIM == 1

/-- The groups of a sequence, in order: an entry and those after it with SIM 1 (R445). -/
def groupsOf : List Word → List (List Word)
  | [] => []
  | w :: rest =>
    match rest, groupsOf rest with
    | x :: _, g :: gs => if simultaneous x then (w :: g) :: gs else [w] :: g :: gs
    | _, gs => [w] :: gs

/-- No two entries use one converter. -/
def convertersDiffer : List Word → Bool
  | [] => true
  | w :: rest =>
    rest.all (fun x => fieldOf x F.TCK_SEQ_CONV != fieldOf w F.TCK_SEQ_CONV) && convertersDiffer rest

/-- A sequence keeps R444 and R445: no reserved input, entry 0 not simultaneous, groups of at most four entries on different
converters. -/
def sequenceOk (ws : List Word) : Bool :=
  ws.all (fun w => decide (fieldOf w F.TCK_SEQ_INPUT ≤ 28)) && (ws.take 1).all (fun w => !simultaneous w)
    && (groupsOf ws).all (fun g => decide (g.length ≤ 4) && convertersDiffer g)

/-- START is allowed (R444 to R446). -/
def State.tckOk (s : State) : Bool :=
  let reg := s.tckWords false
  let inj := s.tckWords true
  sequenceOk reg && sequenceOk inj
    && (!s.flag R.TCK_CFG F.TCK_CFG_MODE
      || decide (1200 * ((groupsOf reg).length + (groupsOf inj).length) ≤ (s.rd R.TCK_PERIOD).toNat))

/-- The group that begins at an entry is converted from this beat on (R445, R448). -/
def State.groupStart (s : State) (injected : Bool) (first : Nat) : State :=
  let more := ((s.tckWords injected).drop (first + 1)).takeWhile simultaneous
  s.setTck { s.tck with group := some ⟨injected, first, 1 + more.length, s.wt, s.nowFrac, s.beats⟩ }

/-- The sequencer stops: what was left of its sequences is dropped (R444). -/
def State.tckHalt (s : State) : State :=
  let s1 := s.setTck { s.tck with regNext := none, injNext := none, group := none, stopping := false }
  ((s1.foff R.TCK_STATUS F.TCK_STATUS_ENABLE).foff R.TCK_STATUS F.TCK_STATUS_REG_BUSY).foff R.TCK_STATUS
    F.TCK_STATUS_INJ_BUSY

/-- With no group in progress, what waits begins: a stop, a calibration, the injected sequence, the regular one (R444, R447,
R449). -/
def State.tckGo (s : State) : State :=
  let x := s.tck
  if x.group.isSome then s
  else if x.stopping then s.tckHalt
  else
    match x.cal with
    | some c => if c.begun.isSome then s else s.setTck { x with cal := some { c with begun := some s.beats } }
    | none =>
      match x.injNext, x.regNext with
      | some j, _ => s.groupStart true j
      | none, some e => s.groupStart false e
      | none, none => s

/-- The Z and G words of an input's correction that apply from the present beat: not those written in it (R449). -/
def State.corrNow (s : State) (i : Nat) : Int × Nat :=
  match s.tck.corrOld.find? (fun e => e.1 = i && e.2.2.2 = s.beats) with
  | some e => (signed 32 e.2.1, e.2.2.1)
  | none => (signed 32 (s.rd (R.TCK_IN_CORR_Z i)).toNat, s.fget (R.TCK_IN_CORR_G i) F.TCK_IN_CORR_G_G)

/-- The words of an input's correction are about to be replaced: what they held is kept for a start in the same beat (R449). -/
def State.corrReplace (s : State) (i : Nat) : State :=
  if s.tck.corrOld.any (fun e => e.1 = i && e.2.2.2 = s.beats) then s
  else
    let v := ((s.rd (R.TCK_IN_CORR_Z i)).toNat, s.fget (R.TCK_IN_CORR_G i) F.TCK_IN_CORR_G_G, s.beats)
    s.setTck { s.tck with corrOld := Tab.put (fun _ => (0, 0, 0)) s.tck.corrOld i v }

/-- The converter trims of the record in force; without one, none (R432, R449). -/
def State.trimsInForce (s : State) : List (Int × Nat) :=
  match s.settled.payload 10 0 with
  | none => []
  | some p => (upTo 4).map (fun c => (signed 16 (recNat p (5 * c) 2), recNat p (5 * c + 2) 3))

/-- A new record's correction of input i is loaded; what software wrote in this beat does not stand before it (R373, R432). -/
def State.corrLoad (s : State) (p : List Byte) (i : Nat) : State :=
  let s1 := (s.fload (R.TCK_IN_CORR_Z i) ⟨0, 32⟩ (recNat p (20 + 7 * i) 4)).fload (R.TCK_IN_CORR_G i) F.TCK_IN_CORR_G_G
    (recNat p (24 + 7 * i) 3)
  s1.setTck { s1.tck with corrOld := s1.tck.corrOld.filter (fun e => e.1 ≠ i) }

/-- The regular sequence starts: corrections and trims are taken, the sequence counted (R432, R446, R449). -/
def State.regStart (s0 : State) : State :=
  let s := s0.corrsDue
  let s1 := match s.settled.payload 10 0 with
    | some p => s.tck.corrDue.foldl (fun (x : State) i => x.corrLoad p i) s
    | none => s
  let corr : Tab (Int × Nat) := (upTo 24).foldl (fun t i => Tab.put (fun _ => (0, 0x10000)) t i (s1.corrNow i)) []
  let s2 := s1.setTck { s1.tck with
    regNext := some 0, seqCount := s1.tck.seqCount + 1, corr := corr, trims := s1.trimsInForce, corrDue := [] }
  (s2.fon R.TCK_STATUS F.TCK_STATUS_REG_BUSY).tckGo

/-- The correction of R449 before its clamp: a code, Z, G. -/
def tackRound (code : Nat) (z : Int) (g : Nat) : Int := roundConv ((16 * (code : Int) - z) * (g : Int)) 20

/-- A converter's code after its trim (R449). -/
def State.trimmed (s : State) (conv : Nat) (code : Nat) : Nat :=
  match s.tck.trims[conv]? with
  | some t => (clampInt 0 65535 (tackRound code t.1 t.2)).toNat
  | none => code

/-- The corrected code of a conversion, and whether it was clamped (R449). -/
def State.corrected (s : State) (input code : Nat) : Nat × Bool :=
  if input < 24 then
    let c := Tab.get (fun _ => (0, 0x10000)) s.tck.corr input
    let v := tackRound code c.1 c.2
    ((clampInt 0 65535 v).toNat, decide (v < 0) || decide (65535 < v))
  else (code, false)

/-- The circular writer takes an entry; a bus error turns it off (R450). -/
def State.tackWrite (s : State) (bytes : List Byte) : State :=
  if s.flag R.TCK_WR_CFG F.TCK_WR_CFG_EN then
    let ptr := s.fget R.TCK_WR_PTR F.TCK_WR_PTR_PTR
    let addr := s.pair R.TCK_WR_BASE_LO R.TCK_WR_BASE_HI + ptr
    let r := match hbmOffset addr with
      | some off => s.hbmEnter .tack true off 16 0 (bytes.map some)
      | none => (s, false)
    if r.2 then
      (r.1.fset R.TCK_WR_PTR F.TCK_WR_PTR_PTR ((ptr + 16) % 2 ^ s.fget R.TCK_WR_CFG F.TCK_WR_CFG_LEN)).setPair R.TCK_WR_CNT_LO
        R.TCK_WR_CNT_HI (s.pair R.TCK_WR_CNT_LO R.TCK_WR_CNT_HI + 1)
    else
      let x := r.1.foff R.TCK_WR_CFG F.TCK_WR_CFG_EN
      (x.setTck { x.tck with wrErrAt := some x.beats }).event vTCK 5 sevError 0 0 addr
  else s

/-- One conversion of a group gives its entry (R448). -/
def State.tackEntry (s : State) (g : TckGroup) (e code : Nat) : State :=
  let w := s.tckEntry g.injected e
  let input := fieldOf w F.TCK_SEQ_INPUT
  let conv := fieldOf w F.TCK_SEQ_CONV
  let raw := s.trimmed conv code
  let c := s.corrected input raw
  let bytes := leBytes 8 g.wt ++ leBytes 1 input
    ++ leBytes 1 (conv + (if g.injected then 4 else 0) + (if c.2 then 8 else 0))
    ++ leBytes 2 c.1 ++ leBytes 2 raw ++ leBytes 1 e ++ leBytes 1 s.tck.seqCount
  let s1 := if g.injected then s.fset (R.TCK_INJ_RES e) F.TCK_INJ_RES_CODE c.1 else s.fset (R.TCK_RES e) F.TCK_RES_CODE c.1
  let s2 := if !g.injected && e == 0 then s1.setPair R.TCK_RES_WT_LO R.TCK_RES_WT_HI g.wt else s1
  let s3 := if s2.flag R.TCK_CFG F.TCK_CFG_REC then s2.sidePush 2 ⟨g.wt, g.frac, 0, bytes, s2.beats⟩ else s2
  s3.tackWrite bytes

/-- A command of TCK_CTRL is refused. -/
def State.tckRefuse (s : State) : State := s.raise vTCK 6

end Sys2Proof.Machine
end

