-- ==== Sys2Proof/Machine/Tack.lean ====
section
/-!
DEFINITION. The commands of the Tack ADC (R444 to R450).
-/

namespace Sys2Proof.Machine

/-- TCK_START: the sequencer starts, or is refused with CFG_BAD and an entry (R444). -/
def execTckStart (s : State) : Host.Outcome State Fault Refusal :=
  .next (
    if s.flag R.TCK_STATUS F.TCK_STATUS_ENABLE then s
    else if s.tckOk then (s.setTck { s.tck with seqCount := 0 }).fon R.TCK_STATUS F.TCK_STATUS_ENABLE
    else
      let s1 := s.fon R.TCK_STATUS F.TCK_STATUS_CFG_BAD
      s1.took.logOpen vTCK (s1.free % 3) 0 0 0)

/-- TCK_STOP: a calibration is abandoned at once, the sequencer stops once the group in progress has ended (R444, R449). -/
def execTckStop (s : State) : Host.Outcome State Fault Refusal :=
  let s1 := if s.tck.cal.isSome then
      ((s.setTck { s.tck with cal := none }).foff R.TCK_STATUS F.TCK_STATUS_CAL_BUSY).raise vTCK 3
    else s
  .next (if s1.flag R.TCK_STATUS F.TCK_STATUS_ENABLE then (s1.setTck { s1.tck with stopping := true }).tckGo else s1)

/-- REG_GO: the regular sequence runs once in MODE 0; while it runs on past this beat, REG_GO is refused (R373, R446). -/
def execRegGo (s : State) : Host.Outcome State Fault Refusal :=
  .next (
    if s.flag R.TCK_STATUS F.TCK_STATUS_ENABLE = false ∨ s.flag R.TCK_CFG F.TCK_CFG_MODE = true
        ∨ s.tck.stopping = true then s.tckRefuse
    else if s.flag R.TCK_STATUS F.TCK_STATUS_REG_BUSY then s.again R.TCK_CTRL 2
    else s.regStart)

/-- A periodic start of the present beat has begun its first group. -/
def State.justStarted (s : State) : Bool :=
  s.flag R.TCK_CFG F.TCK_CFG_MODE && (match s.tck.group with
    | some g => !g.injected && g.first == 0 && g.since == s.beats
    | none => false)

/-- INJ_GO: the injected sequence runs once when the group in progress ends, before a periodic start of the same beat; while it
or a calibration runs on past this beat, INJ_GO is refused (R373, R447). -/
def execInjGo (s : State) : Host.Outcome State Fault Refusal :=
  .next (
    if s.flag R.TCK_STATUS F.TCK_STATUS_ENABLE = false ∨ s.tck.cal.isSome = true ∨ s.tck.stopping = true then s.tckRefuse
    else if s.tck.injNext.isSome then s.again R.TCK_CTRL 3
    else
      let s1 := if s.justStarted then s.setTck { s.tck with group := none } else s
      ((s1.setTck { s1.tck with injNext := some 0 }).fon R.TCK_STATUS F.TCK_STATUS_INJ_BUSY).tckGo)

/-- PERIODIC_START: in MODE 1 the regular sequence starts at a multiple of TCK_PERIOD, or, while it runs, the start is skipped
(R446). -/
def execPeriodicStart (s : State) : Host.Outcome State Fault Refusal :=
  .next (
    if s.flag R.TCK_STATUS F.TCK_STATUS_ENABLE = false ∨ s.flag R.TCK_CFG F.TCK_CFG_MODE = false
        ∨ s.wt % (s.rd R.TCK_PERIOD).toNat ≠ 0 ∨ s.tck.stopping = true then s
    else if s.flag R.TCK_STATUS F.TCK_STATUS_REG_BUSY then (s.count R.TCK_SKIP_CNT 1).event vTCK 4 sevInfo 0 0 0
    else s.regStart)

/-- TACK_GROUP_DONE: the group's entries are corrected, stored and sent; the sequencer goes on (R444 to R448). -/
def execTackGroupDone (codes : List (BitVec 16)) (s : State) : Host.Outcome State Fault Refusal :=
  .next (
    match s.tck.group with
    | none => s
    | some g =>
      if s.beats < g.since + 1200 then s
      else
        let s1 := (upTo g.count).foldl (fun x i => x.tackEntry g (g.first + i) (codes.getD i 0#16).toNat) s
        let next := g.first + g.count
        let past := decide (s1.tckLen g.injected ≤ next)
        let left := if past then none else some next
        let s2 := if g.injected then s1.setTck { s1.tck with group := none, injNext := left }
          else s1.setTck { s1.tck with group := none, regNext := left }
        let s3 := if past then
            (if g.injected then (s2.foff R.TCK_STATUS F.TCK_STATUS_INJ_BUSY).raise vTCK 1
              else (s2.foff R.TCK_STATUS F.TCK_STATUS_REG_BUSY).raise vTCK 0)
          else s2
        s3.tckGo)

/-- TCK_CAL_GO: a calibration of INPUT on CONV begins when the group in progress ends; while one, or the injected sequence, runs on
past this beat, CAL_GO is refused (R373, R447, R449). -/
def execTckCalGo (s : State) : Host.Outcome State Fault Refusal :=
  let a := R.TCK_CAL_CTRL
  .next (
    if s.tck.injNext.isSome = true ∨ s.tck.stopping = true then s.tckRefuse
    else if s.tck.cal.isSome then s.again R.TCK_CTRL 4
    else
      let c : TckCal := ⟨s.fget a F.TCK_CAL_CTRL_INPUT, s.fget a F.TCK_CAL_CTRL_CONV, s.fget a F.TCK_CAL_CTRL_STEP, none⟩
      ((s.setTck { s.tck with cal := some c }).fon R.TCK_STATUS F.TCK_STATUS_CAL_BUSY).tckGo)

/-- TACK_CAL_DONE: the mean of the 256 conversions is loaded into TCK_CAL_Z or TCK_CAL_F (R449). -/
def execTackCalDone (codes : List (BitVec 16)) (s : State) : Host.Outcome State Fault Refusal :=
  .next (
    match s.tck.cal with
    | none => s
    | some c =>
      match c.begun with
      | none => s
      | some b =>
        if s.beats < b + 256 * 1200 then s
        else
          let sum := (codes.take 256).foldl (fun n x => n + s.trimmed c.conv x.toNat) 0
          let v := w32 (unsigned 32 (roundConv sum 4))
          let s1 := s.wr (if c.step = 0 then R.TCK_CAL_Z else R.TCK_CAL_F) v
          (((s1.setTck { s1.tck with cal := none }).foff R.TCK_STATUS F.TCK_STATUS_CAL_BUSY).raise vTCK 2).tckGo)

/-- CAL_COMMIT: the correction of INPUT is computed and loaded, or CAL_BAD is raised (R449). -/
def execCalCommit (s : State) : Host.Outcome State Fault Refusal :=
  let i := s.fget R.TCK_CAL_CTRL F.TCK_CAL_CTRL_INPUT
  let z := signed 32 (s.rd R.TCK_CAL_Z).toNat
  let f := signed 32 (s.rd R.TCK_CAL_F).toNat
  let t : Int := s.fget R.TCK_CAL_TARGET F.TCK_CAL_TARGET_TARGET
  .next (
    if i < 24 ∧ z < f then
      let g := (roundAway (1048576 * t) (f - z).toNat).toNat
      if corrOk z g then
        ((s.corrReplace i).wr (R.TCK_IN_CORR_Z i) (w32 (unsigned 32 z))).fset (R.TCK_IN_CORR_G i) F.TCK_IN_CORR_G_G g
      else s.raise vTCK 3
    else s.raise vTCK 3)

end Sys2Proof.Machine
end

