-- ==== Sys2Proof/Machine/Treadle.lean ====
section
/-!
DEFINITION. The commands of the Treadle and the slice trigger front ends (R126 to R161).
-/

namespace Sys2Proof.Machine

/-- TRIGGER_BUS_INPUT: bus changes whose beat has come reach the matrix, which evaluates its literals, terms and sum lines
(R136 to R141). -/
def execTriggerBusInput (s : State) : Host.Outcome State Fault Refusal := .next s.matrix

/-- Sheds that the stop request of a mask still awaits: in POST since no later than 16 beats after the rise reached the
Treadle, without spill (R135). -/
def State.maskAwaits (s : State) (rise : Nat) : Bool :=
  (upTo 64).any (fun k =>
    decide (s.shedState k = shPost) && !s.shedSpill k && decide ((s.shed k).firedBeat ≤ rise + 16))

/-- MASK_STOP: once 16 beats have passed since the rise and every shed awaited has finished its POST, the Treadle issues
STOP with reason MASK; nothing where the run is not RUNNING any more (R135). -/
def execMaskStop (s : State) : Host.Outcome State Fault Refusal :=
  .next (
    match s.trd.maskRise with
    | none => s
    | some (b, u) =>
      if s.beats < b + 16 ∨ s.runState ≠ rsRunning ∨ s.maskAwaits b = true then s
      else ((s.fon R.TRD_STATUS F.TRD_STATUS_MASK_STOP).event vTRD 8 sevWarning u 0 0).stopFor stopMask)

/-- LITERAL_DELAY_EXPIRE: a literal's input, DELAY beats old, changes its delayed bit; its term is evaluated anew
(R136). -/
def execLiteralDelayExpire (term : Fin 64) (literal : Fin 8) (s : State) : Host.Outcome State Fault Refusal :=
  .next (if s.flag (R.TRD_LIT_A term.val literal.val) F.TRD_LIT_A_EN then s.matrix else s)

/-- EDGE_WINDOW_END: the WIN beats of an EDGE literal run out; its term is evaluated anew (R136). -/
def execEdgeWindowEnd (term : Fin 64) (literal : Fin 8) (s : State) : Host.Outcome State Fault Refusal :=
  .next (if s.flag (R.TRD_LIT_A term.val literal.val) F.TRD_LIT_A_MODE then s.matrix else s)

/-- OUT_PULSE_END: a pulse output whose PW beats have passed returns to its inactive level (R140). -/
def execOutPulseEnd (output : Fin 16) (s : State) : Host.Outcome State Fault Refusal :=
  .next (
    if s.flag (R.TRD_OUT_CFG output.val) F.TRD_OUT_CFG_MODE
        ∧ Tab.get (fun _ => 0) s.trd.pulses output.val ≤ s.beats then
      State.drivePins (s.setTrd { s.trd with pulses := Tab.put (fun _ => 0) s.trd.pulses output.val 0 })
    else s)

/-- TRIG_IN_EDGE: an edge at a pin, at an eighth of the beat; an enabled input drives its bus bit 1 beat later, and a rising event is
stamped with the edge less DLY (R126, R139). -/
def execTrigInEdge (input : Fin 8) (high : Bool) (phase : Fin 8) (s : State) : Host.Outcome State Fault Refusal :=
  let i := input.val
  let stamp : Int := (s.wt256 : Int) + 32 * (phase.val : Int) - 32 * (s.fget R.TRD_IN_CFG F.TRD_IN_CFG_DLY : Int)
  .next (
    if s.bankLost 4 then s
    else (State.setTrd s { s.trd with inPins := if high then s.trd.inPins ||| 2 ^ i else
      (s.trd.inPins ||| 2 ^ i) - 2 ^ i }).inDrives s i (some stamp))

/-- SOFT_TRIGGER: each bit written as 1 raises its software trigger bus bit for one beat (R126, R139). -/
def execSoftTrigger (value : BitVec 8) (s : State) : Host.Outcome State Fault Refusal :=
  .next ((upTo 8).foldl (fun x i =>
    if value.getLsbD i then x.pulseBus (616 + i) x.beats (x.wt256 : Int) .plain false else x) s)

/-- Copy k's record of its disagreements. -/
def State.copy (s : State) (k : Nat) : CopySt := Tab.get (fun _ => CopySt.init) s.trd.copies k

/-- Copy k's record replaced. -/
def State.setCopy (s : State) (k : Nat) (x : CopySt) : State :=
  s.setTrd { s.trd with copies := Tab.put (fun _ => CopySt.init) s.trd.copies k x }

/-- TMR_DISAGREE: copy k holds bits that differ in the present beat: it is outvoted and, from the next beat on, overwritten (R145; log
entry 47); counted and logged, where a further one within 1,024 beats extends the entry (R146). -/
def execTmrDisagree (copy : Fin 3) (s : State) : Host.Outcome State Fault Refusal :=
  let k := copy.val
  let x := s.copy k
  .next (
    if x.bad ≠ 0 ∧ x.lastBad = s.beats then s
    else
      let run := if x.bad ≠ 0 ∧ x.lastBad + 1 = s.beats then x.bad + 1 else 1
      ((((s.upsets k).setCopy k ⟨run, s.beats⟩).count (R.TRD_TMR_CNT k) 1).raise vTRD 0).logCoalesce vTRD 0 sevInfo k 0)

/-- COPY_STUCK: a copy that has disagreed in 4,096 beats in a row is marked stuck; a second copy stuck at once is FATAL
(R146). -/
def execCopyStuck (copy : Fin 3) (s : State) : Host.Outcome State Fault Refusal :=
  let k := copy.val
  let x := s.copy k
  .next (
    if x.bad < 4096 ∨ x.lastBad + 1 < s.beats ∨ s.bit R.TRD_STATUS (2 + k) = true then s
    else
      let s1 := (s.bitOn R.TRD_STATUS (2 + k)).event vTRD 1 sevError k 0 0
      if (upTo 3).any (fun j => decide (j ≠ k) && s1.bit R.TRD_STATUS (2 + j)) then s1.fatal vTRD 1 k 0 0 else s1)

/-- COPY_RECOVERED: a stuck copy that has agreed for 4,096 beats in a row is no longer stuck (R146). -/
def execCopyRecovered (copy : Fin 3) (s : State) : Host.Outcome State Fault Refusal :=
  let k := copy.val
  .next (
    if s.bit R.TRD_STATUS (2 + k) = true ∧ (s.copy k).lastBad + 4096 ≤ s.beats then
      (s.bitOff R.TRD_STATUS (2 + k)).setCopy k CopySt.init
    else s)

/-- TAINT_RETENTION_END: firings older than 1,024 beats are no longer watched for taint (R147, R148). -/
def execTaintRetentionEnd (s : State) : Host.Outcome State Fault Refusal :=
  .next (s.setTrd { s.trd with firings := s.trd.firings.filter (fun f => decide (s.beats ≤ f.beat + 1024)) })

/-- SHED_ARM: in ARMED or RUNNING a DISARMED or DONE shed is armed with the check of R151; any other ARM is ignored with
CMD_REFUSED (R150). -/
def execShedArm (shed : Fin 64) (s : State) : Host.Outcome State Fault Refusal :=
  let k := shed.val
  .next (
    if (s.runState = rsArmed ∨ s.runState = rsRunning) ∧ (s.shedState k = shDisarmed ∨ s.shedState k = shDone) then
      s.shedArm k
    else s.raise vTRD 9)

/-- SHED_DISARM (R157, R158). -/
def execShedDisarm (shed : Fin 64) (s : State) : Host.Outcome State Fault Refusal := .next (s.shedDisarm shed.val)

/-- SHED_FORCE (R157). -/
def execShedForce (shed : Fin 64) (s : State) : Host.Outcome State Fault Refusal := .next (s.shedForce shed.val)

/-- SHED_PREFILL_DONE: every channel has released PRE positions stamped at or after the arm (R152). -/
def execShedPrefillDone (shed : Fin 64) (s : State) : Host.Outcome State Fault Refusal :=
  let k := shed.val
  .next (if s.shedState k = shPrefill ∧ s.prefilled k = true then s.shedGo k shReady else s)

/-- SHED_POST_END: the capture tap of the last channel has released the record's last position, at the earliest in the
beat after the firing (R154). -/
def execShedPostEnd (shed : Fin 64) (s : State) : Host.Outcome State Fault Refusal :=
  let k := shed.val
  .next (
    if s.shedState k = shPost ∧ (s.shed k).firedBeat < s.beats ∧ s.postReleased k = true then s.shedPosted k else s)

/-- SHED_HOLDOFF_END: the hold-off is met (R154). -/
def execShedHoldoffEnd (shed : Fin 64) (s : State) : Host.Outcome State Fault Refusal :=
  let k := shed.val
  .next (if s.shedState k = shHoldoff ∧ s.holdMet k = true then s.shedGo k shReady else s)

/-- The entry that STR_MASK_ADDR names is written under the EG rule, and ENTRY advances (R133, R161, R372). -/
def State.maskDataPut (s : State) (src : Src) (n : Nat) (value : Word) : State :=
  let k := s.fget (R.STR_MASK_ADDR n) F.STR_MASK_ADDR_ENTRY
  if s.maskEntry n k = value then s.fset (R.STR_MASK_ADDR n) F.STR_MASK_ADDR_ENTRY (k + 1)
  else if s.egShut (vSTR n) then s.egReject (vSTR n) src (R.STR_MASK_DATA n)
  else
    State.fset (State.egStored (s.setTrd { s.trd with
      masks := Tab.put (fun _ => 0x0000FFFF#32) s.trd.masks (32768 * n + k) value }))
      (R.STR_MASK_ADDR n) F.STR_MASK_ADDR_ENTRY (k + 1)

end Sys2Proof.Machine
end

