-- ==== Sys2Proof/Machine/RegOps.lean ====
section
/-!
DEFINITION. One 32-bit read or write of a register as it takes effect: views (R209, R219, R349, R362, R427), shadows (R369),
the classes of fields (R7, R366, R372), the commands that W1S fields start, and the writes with a rule of their own.
-/

namespace Sys2Proof.Machine

/-! ### Reading -/

/-- The low words of the pairs that are read as SH pairs; the high word follows 4 bytes later (R369). -/
def shLows : List Nat :=
  [R.LNK_PLACE_LO 0, R.STR_SC_VIOL_LO 0 0, R.TRD_SHED_TRIG_LO 0, R.BOB_ERR_ADDR_LO, R.BOB_LOOKUP_POS_LO, R.BOB_RING_WPOS_LO 0,
    R.TAP_PL_CLOSE_LO 0, R.PNL_FLIP_WT_LO 0, R.HNS_RING_WR_LO 0 0, R.HNS_RING_RD_LO 0 0, R.SPN_CH_XCNT_LO 0,
    R.SPN_CH_ERR_ADDR_LO 0, R.SPN_CH_SIG_WT_LO 0, R.WRP_NOW_LO, R.WRP_SYNC_WT_LO, R.WRP_SYNC_DIFF_LO, R.WRP_STEP_BEFORE_LO,
    R.WRP_STEP_AFTER_LO, R.GLB_START_AT_LO, R.GLB_BUSERR_ADDR_LO, R.GLB_DEGRADE_WT_LO 0, R.BRD_BOOT_NONCE_LO, R.TCK_RES_WT_LO,
    R.TCK_WR_CNT_LO, R.PWR_LAST_FATAL_WT_LO]

/-- The place of a requester's shadow of a word. -/
def shadowKey (src : Src) (a : Nat) : Nat := 16 * a + srcCode src

/-- A requester's shadow of a word; 0 before its first latch (R369). -/
def State.shadow (s : State) (src : Src) (a : Nat) : Word := Tab.get (fun _ => 0#32) s.hitch.shadows (shadowKey src a)

/-- A word latched into a requester's shadow. -/
def State.latchHigh (s : State) (src : Src) (a : Nat) (v : Word) : State :=
  { s with hitch := { s.hitch with shadows := Tab.put (fun _ => 0#32) s.hitch.shadows (shadowKey src a) v } }

/-- The index of an instance of a register whose row is given: the first index and the second. -/
def RegRow.index (r : RegRow) (a : Nat) : Nat × Nat := ((a - r.base) / r.stride1, (a - r.base) % r.stride1 / r.stride2)

/-- The W1S bits of PNL_CTRL, TCK_CTRL and PDK_CTRL whose command is not finished, as the state of its block shows it (R7, R229, R453,
R464). The other W1S bits that stay 1 for a time are held in their registers. -/
def State.unfinished (s : State) (a : Nat) : Word :=
  let one (n : Nat) (b : Bool) : Nat := if b then 2 ^ n else 0
  if a = R.TCK_CTRL then
    w32 (one 1 s.tck.stopping + one 2 (s.flag R.TCK_STATUS F.TCK_STATUS_REG_BUSY && !s.flag R.TCK_CFG F.TCK_CFG_MODE)
      + one 3 s.tck.injNext.isSome + one 4 s.tck.cal.isSome)
  else if a = R.PNL_CTRL then
    let o0 := s.output 0
    let o1 := s.output 1
    let pal (o : OutputSt) : Bool := o.snapPal || (match o.commit with
      | some c => c.pal
      | none => false)
    w32 (one 2 o0.commit.isSome + one 3 o1.commit.isSome + one 4 (pal o0 || pal o1 || s.pnl.palCopy))
  else if a = R.PDK_CTRL then w32 (one 0 (!s.pdk.running.isEmpty))
  else 0#32

/-- What a register shows at this beat, without effect: its stored value, or the state it is a view of. -/
def State.view (s : State) (r : RegRow) (a : Nat) : Word :=
  let i := (r.index a).1
  if a = R.WRP_NOW_LO then lo32 s.wt
  else if a = R.WRP_NOW_HI then hi32 s.wt
  else if a = R.HFB_CAL_DATA then s.calData
  else if r.base = R.PNL_OSTATUS 0 then s.ostatus i
  else if r.base = R.SPC_WIN_DATA 0 then
    w32 (s.tableEntry i (s.fget (R.SPC_WIN_ADDR i) F.SPC_WIN_ADDR_TABLE) (s.fget (R.SPC_WIN_ADDR i) F.SPC_WIN_ADDR_ENTRY))
  else if r.base = R.BOB_PC_STATUS 0 then setField (s.rd a) F.BOB_PC_STATUS_ROWS (min 255 (s.recentRows i).length)
  else if r.base = R.STR_MASK_DATA 0 then s.maskEntry i (s.fget (R.STR_MASK_ADDR i) F.STR_MASK_ADDR_ENTRY)
  else if r.base = R.SHU_MBOX_OUT 0 then w32 (s.mboxTake i).2
  else if r.base = R.HNS_PARTNER_DB 0 then w32 (s.doorTake i).2
  else s.rd a ||| s.unfinished a

/-- What a register that is read as an SH pair held when the beat began: an update of this beat does not show (R373). -/
def State.pairView (s : State) (r : RegRow) (a : Nat) : Word :=
  if r.base = R.WRP_NOW_LO ∨ r.base = R.WRP_NOW_HI ∨ r.base = R.GLB_START_AT_LO ∨ r.base = R.GLB_START_AT_HI then s.view r a
  else s.rd0 a

/-- The bits of a register whose value is a result of its block, not what software stored. -/
def RegRow.results (r : RegRow) : Word := w32 (r.ro ||| r.rc ||| r.w1c)

/-- A value read, its result bits open while a breach makes the block's results undefined (R1). -/
def State.shown (s : State) (r : RegRow) (a : Nat) (v : Word) : State × Word :=
  if s.breach.contains (vectorOf a) then (s.took, (v &&& ~~~r.results) ||| (w32 s.free &&& r.results)) else (s, v)

/-- What an RC register holds after a read: its reset value plus what hardware did to it in this beat; LNK_PRBS_ERR counts, the
others take what came (R73, R373). -/
def State.rcLeft (s : State) (r : RegRow) (a : Nat) : Word :=
  let v := s.rd a
  let rest := v &&& ~~~(w32 r.rc)
  if v = s.rd0 a ∧ s.hit a = 0#32 then rest
  else if r.base = R.LNK_PRBS_ERR 0 0 then v - s.rd0 a
  else v

/-- One 32-bit read of a register: SH pairs and BRD_JHEAD latch, RC fields clear; what hardware did in this beat does not show
(R7, R369, R373, R427). -/
def State.readPlain (s : State) (src : Src) (r : RegRow) (a : Nat) : State × Word :=
  let i := (r.index a).1
  if shLows.contains r.base then (s.latchHigh src (a + 4) (s.pairView r (a + 4)), s.pairView r a)
  else if shLows.contains (r.base - 4) && decide (4 ≤ r.base) then (s, s.shadow src a)
  else if a = R.BRD_JHEAD 0 then
    (((upTo 11).foldl (fun x k => x.latchHigh src (R.BRD_JHEAD (k + 1)) (s.rd0 (R.BRD_JHEAD (k + 1)))) s).latchHigh src R.BRD_JSEQ
      (s.rd0 R.BRD_JSEQ), s.rd0 a)
  else if r.base = R.BRD_JHEAD 0 ∨ a = R.BRD_JSEQ then (s, s.shadow src a)
  else if r.base = R.SHU_MBOX_OUT 0 then ((s.mboxTake i).1, w32 (s.mboxTake i).2)
  else if r.base = R.HNS_PARTNER_DB 0 then ((s.doorTake i).1, w32 (s.doorTake i).2)
  else if r.rc ≠ 0 then (s.wr a (s.rcLeft r a), s.rd0 a)
  else (s, s.view r a)

/-- One 32-bit read of a register (R1, R7). -/
def State.readReg (s : State) (src : Src) (r : RegRow) (a : Nat) : State × Word :=
  let x := s.readPlain src r a
  x.1.shown r a x.2

/-! ### Commands -/

/-- The state that a command leads to. -/
def State.after (s : State) (o : Host.Outcome State Fault Refusal) : State :=
  match o with
  | .next t => t
  | _ => s

/-- The commands whose bits are 1 in a written word, in the order listed. -/
def State.cmds (s : State) (v : Word) (xs : List (Nat × (State → Host.Outcome State Fault Refusal))) : State :=
  xs.foldl (fun x p => if v.getLsbD p.1 then x.after (p.2 x) else x) s

/-- A Shuttle core's commands: RESET with any other bit is RESET alone, STEP and RUN together are RUN (R266). -/
def State.shuCtrl (s : State) (n : Fin 24) (v : Word) : State :=
  if v.getLsbD 3 then s.after (execShuReset n s)
  else
    s.cmds (if v.getLsbD 0 then clrBitW v 2 else v)
      [(0, execShuRun n), (1, execShuHalt n), (2, execShuStep n), (4, execShuIrq n)]

/-- A Spindle channel's commands: STOP with any other is STOP, HALT and START together are HALT (R318, R329). -/
def State.spnCtrl (s : State) (k : Fin 64) (v : Word) : State :=
  if v.getLsbD 2 then s.after (execSpnStop k s)
  else if v.getLsbD 1 then s.cmds v [(1, execSpnHalt k), (3, fun x => .next (x.pokeWrite k.val true))]
  else s.cmds v [(0, execSpnStart k), (3, fun x => .next (x.pokeWrite k.val true))]

/-- A shed's commands: DISARM is applied before ARM (R157). -/
def State.shedCtrl (s : State) (k : Fin 64) (v : Word) : State :=
  s.cmds v [(1, execShedDisarm k), (0, execShedArm k), (2, execShedForce k)]

/-- A Linkai port's commands. -/
def State.lnkCtrl (s : State) (p : Fin 24) (v : Word) : State :=
  s.cmds v [(0, execBringup p), (1, execDrop p), (2, execFwdDoze p), (3, execFwdOff p), (4, execFwdWake p), (5, execRetDoze p),
    (6, execRetOff p), (7, execRetWake p), (8, execSendMsg p)]

/-- A run command by its code; codes 6 and 7 are refused (R17). -/
def State.runCommand (s : State) (code : Nat) : State :=
  match code with
  | 0 => s
  | 1 => s.after (execConfigure s)
  | 2 => s.after (execArm s)
  | 3 => s.after (execStart s)
  | 4 => s.after (execStop s)
  | 5 => s.after (execAbort s)
  | c => s.runRefuse c

/-- What a written word's W1S bits start (R7). -/
def State.command (s : State) (srcByte : Nat) (r : RegRow) (a : Nat) (v : Word) : State :=
  let i := (r.index a).1
  let j := (r.index a).2
  let b := r.base
  if b = R.LNK_CTRL 0 then s.lnkCtrl (Fin.ofNat 24 i) v
  else if b = R.LNK_INJ 0 0 then s.cmds v [(16, execInjectGo (Fin.ofNat 24 i) (Fin.ofNat 8 j))]
  else if b = R.TRD_SOFT then s.after (execSoftTrigger (v.setWidth 8) s)
  else if b = R.TRD_SHED_CTRL 0 then s.shedCtrl (Fin.ofNat 64 i) v
  else if b = R.BOB_PC_PENDING_LO then s.after (execPcPendingSet false v s)
  else if b = R.BOB_PC_PENDING_HI then s.after (execPcPendingSet true v s)
  else if b = R.BOB_LOOKUP_CTRL then s.cmds v [(16, execLookupGo)]
  else if b = R.BOB_SR_CTRL 0 then
    s.cmds v [(0, execSrEnter (Fin.ofNat 2 i)), (1, execSrExit (Fin.ofNat 2 i)), (2, execFreqGo (Fin.ofNat 2 i))]
  else if b = R.TAP_CTRL then
    let s1 := s.after (execTapFrame (v.setWidth 16) s)
    s1.after (execTapClear ((v >>> 16).setWidth 16) s1)
  else if b = R.PNL_CTRL then
    s.cmds v [(0, execPnlEnable), (1, execPnlDisable), (4, execPal), (2, execCommit), (3, execCommit1), (5, execTrain0),
      (6, execTrain1)]
  else if b = R.PNL_AUX_CTRL 0 then s.cmds v [(8, execAuxGo (Fin.ofNat 2 i))]
  else if b = R.SHU_CTRL 0 then s.shuCtrl (Fin.ofNat 24 i) v
  else if b = R.REC_USER_CTRL then s.cmds v [(8, execUserGo)]
  else if b = R.SKN_DEC_CTRL 0 then s.cmds v [(0, execDecGo (Fin.ofNat 4 i)), (1, execDecStop (Fin.ofNat 4 i))]
  else if b = R.HNS_MSIX_SEND 0 then s.after (execMsixSend (Fin.ofNat 4 i) v s)
  else if b = R.SPN_CH_CTRL 0 then s.spnCtrl (Fin.ofNat 64 i) v
  else if b = R.SPN_CH_EVENT 0 then s.after (execSpnEventSet (Fin.ofNat 64 i) (v.setWidth 8) s)
  else if b = R.STP_CTRL then s.cmds v [(0, execRelock), (1, execSyncArm)]
  else if b = R.WRP_CTRL then s.cmds v [(0, execWarpLoad)]
  else if b = R.HFB_CTRL then s.cmds v [(0, execHfbCal)]
  else if b = R.GLB_RUN then s.runCommand (fieldOf v F.GLB_RUN_CMD)
  else if b = R.BRD_CMD then (if v.getLsbD 8 then s.brdGo srcByte else s)
  else if b = R.FAR_CTRL then s.cmds v [(0, execFarProg), (1, execStatsGo), (2, execStatsCancel)]
  else if b = R.TCK_CTRL then
    s.cmds v [(0, execTckStart), (1, execTckStop), (2, execRegGo), (3, execInjGo), (4, execTckCalGo), (5, execCalCommit)]
  else if b = R.PWR_CTRL then s.cmds v [(0, execDeviceReset)]
  else if b = R.PWR_BLK_RESET then s.after (execPwrBlkReset v s)
  else if b = R.PDK_CTRL then s.cmds v [(0, execPdkGo), (1, execPdkAbort)]
  else s

/-! ### The gate -/

/-- The register belongs to a channel of Spindle. -/
def spnChannel (a : Nat) : Option Nat := if 0xA01000 ≤ a ∧ a < 0xA03000 then some ((a - 0xA01000) / 0x80) else none

/-- The register belongs to Tack's writer (R450). -/
def isWriter (a : Nat) : Bool := decide (R.TCK_WR_CFG ≤ a) && decide (a ≤ R.TCK_WR_PTR)

/-- What gates the EG fields of a register is 1: its block's ENABLE, for a Spindle channel its activity, for Tack's writer its
own EN (R321, R372, R450). -/
def State.gateNow (s : State) (a : Nat) : Bool :=
  match spnChannel a with
  | some k => s.spnActive k
  | none => if isWriter a then s.flag R.TCK_WR_CFG F.TCK_WR_CFG_EN else s.egNow (vectorOf a)

/-- The gate is shut now, or was when the beat began (R372, R373). -/
def State.gateShut (s : State) (a : Nat) : Bool := s.gateNow a || State.gateNow { s with regs := s.tick.regs0 } a

/-- The EG bits that a write of a register would change. -/
def State.egChange (s : State) (r : RegRow) (a : Nat) (v : Word) : Word := (s.view r a ^^^ v) &&& w32 r.eg

/-- Some EG field would be written and is not stored (R372). -/
def State.notStored (s : State) (r : RegRow) (a : Nat) (v : Word) : Bool := s.egChange r a v != 0#32 && s.gateShut a

/-! ### Effects of stored values -/

/-- An output's set-up can not be driven: DIV with spread or a divider of 1, SYNTH with spread of no stated depth (R343,
R344). -/
def State.outBad (s : State) (i : Nat) : Bool :=
  let a := R.STP_OUT_CFG i
  let spread := s.fget a F.STP_OUT_CFG_SPREAD
  let depth := s.fget a F.STP_OUT_CFG_DEPTH
  if s.flag a F.STP_OUT_CFG_MODE then spread != 0 && (depth == 0 || decide (5 < depth))
  else spread != 0 || s.fget a F.STP_OUT_CFG_DIV == 1

/-- An output runs as a divider of the root. -/
def State.outDivides (s : State) (i : Nat) : Bool :=
  s.flag (R.STP_OUT_CFG i) F.STP_OUT_CFG_EN && !s.flag (R.STP_OUT_CFG i) F.STP_OUT_CFG_MODE

/-- The set-up of output i was written, in a state that held another: CFG_BAD as it is now; a change of DIV or phase of an output
that divides, or one that starts to, leaves it unsynced (R343 to R345). -/
def State.outWritten (s old : State) (i : Nat) : State :=
  let s1 := if s.outBad i then s.bitOn R.STP_OUT_STATUS (16 + i) else s.bitOff R.STP_OUT_STATUS (16 + i)
  let cfg := R.STP_OUT_CFG i
  let moved := s.fget cfg F.STP_OUT_CFG_DIV != old.fget cfg F.STP_OUT_CFG_DIV
    || s.rd (R.STP_OUT_PHASE i) != old.rd (R.STP_OUT_PHASE i) || !old.outDivides i
  if s1.outDivides i && moved then
    (s1.bitOn R.STP_OUT_STATUS i).setClk { s1.clk with phases := Tab.put (fun _ => none) s1.clk.phases i none }
  else s1

/-- The pointers of a Spindle channel, within the buffers that SLEN and DLEN give, each where its length was changed (R321, R372). -/
def State.spnPointers (s old : State) (k : Nat) : State :=
  let fold (x : State) (f : Fld) (lo hi : Nat) : State :=
    if s.fget (R.SPN_CH_LEN k) f = old.fget (R.SPN_CH_LEN k) f then x
    else x.setPair lo hi (x.pair lo hi % 2 ^ s.fget (R.SPN_CH_LEN k) f)
  let s1 := fold s F.SPN_CH_LEN_SLEN (R.SPN_CH_SPTR_LO k) (R.SPN_CH_SPTR_HI k)
  fold s1 F.SPN_CH_LEN_DLEN (R.SPN_CH_DPTR_LO k) (R.SPN_CH_DPTR_HI k)

/-- A stream's set-up has changed: the rings with EN 0 that it named and names stall as streams name them now (R302, R305). -/
def State.streamWritten (s old : State) (k : Nat) : State :=
  if s.rd (R.REC_STREAM_CFG k) = old.rd (R.REC_STREAM_CFG k) then s
  else (s.ringIdle (old.streamPort k) (old.streamRing k)).ringIdle (s.streamPort k) (s.streamRing k)

/-- Tack's writer after a write of its registers: PTR within the buffer; EN refused with CFG_BAD where BASE is no multiple of
the buffer's size, and cleared where the writer meets a bus error in the same beat (R450). -/
def State.writerWritten (s old : State) : State :=
  let size := 2 ^ s.fget R.TCK_WR_CFG F.TCK_WR_CFG_LEN
  let s1 := if old.flag R.TCK_WR_CFG F.TCK_WR_CFG_EN then s else s.wr R.TCK_WR_PTR (w32 ((s.rd R.TCK_WR_PTR).toNat % size))
  if s1.flag R.TCK_WR_CFG F.TCK_WR_CFG_EN && !old.flag R.TCK_WR_CFG F.TCK_WR_CFG_EN then
    if s1.pair R.TCK_WR_BASE_LO R.TCK_WR_BASE_HI % size ≠ 0 then
      (s1.foff R.TCK_WR_CFG F.TCK_WR_CFG_EN).fon R.TCK_STATUS F.TCK_STATUS_CFG_BAD
    else if s1.tck.wrErrAt = some s1.beats then s1.foff R.TCK_WR_CFG F.TCK_WR_CFG_EN
    else s1
  else s1

/-- LOOP puts a port whose ENABLE is 0 into PRBS; a checker that does not run, or whose set-up changes, begins anew, and with a new pattern or a
closed loop the near-end generator too (R73). -/
def State.prbsWritten (s old : State) (p l : Nat) : State :=
  let a := R.LNK_PRBS_CTRL p l
  let s1 := if s.flag a F.LNK_PRBS_CTRL_LOOP && !s.lnkEnabled p && s.lnkState p != lsPrbs then s.lnkPrbs p else s
  let again := decide (s.fget a F.LNK_PRBS_CTRL_PATTERN ≠ old.fget a F.LNK_PRBS_CTRL_PATTERN)
    || (s.flag a F.LNK_PRBS_CTRL_LOOP && !old.flag a F.LNK_PRBS_CTRL_LOOP)
  let s2 := if again then s1.prbsReseed p l else s1
  if s.rd a = old.rd a ∧ s2.flag a F.LNK_PRBS_CTRL_CHK_EN = true then s2 else s2.prbsReset p l

/-- What a stored value changes beyond its register, against the state before the write. -/
def State.regWritten (s old : State) (r : RegRow) (a : Nat) : State :=
  let i := (r.index a).1
  let j := (r.index a).2
  let b := r.base
  if a = intStatus (vectorOf a) ∨ a = intEnable (vectorOf a) then s.resettleVec (vectorOf a)
  else if b = R.LNK_PRBS_CTRL 0 0 then s.prbsWritten old i j
  else if b = R.BOB_TSET 0 0 then (if 5 ≤ j ∧ s.rd a ≠ old.rd a then s.breached vBOB else s)
  else if b = R.PNL_LAYER_BASE_LO 0 then (if s.rd a ≠ old.rd a ∧ s.bit a 0 = true then s.breached vPNL else s)
  else if b = R.HNS_GRANT_BASE_LO 0 0 then (if s.rd a ≠ old.rd a ∧ (s.rd a).toNat % 4096 ≠ 0 then s.breached vHNS else s)
  else if b = R.LNK_RET_PRBS 0 then (if s.rd a = old.rd a then s else s.retPrbsShow i (old.retPrbsOn i))
  else if b = R.LNK_INJ 0 0 then s.injectEnd i j
  else if b = R.TRD_OUT_CFG 0 then s.drivePins
  else if b = R.TRD_IN_CFG then s.inWritten old
  else if b = R.STP_OUT_CFG 0 ∨ b = R.STP_OUT_FREQ 0 ∨ b = R.STP_OUT_PHASE 0 then s.outWritten old i
  else if b = R.SPN_CH_PC_LO 0 ∨ b = R.SPN_CH_PC_HI 0 then
    (if s.rd a = old.rd a then s else s.setSpch i { s.spch i with pcWritten := true })
  else if b = R.SPN_CH_LEN 0 then s.spnPointers old i
  else if b = R.REC_STREAM_CFG 0 then s.streamWritten old i
  else if isWriter a then s.writerWritten old
  else if b = R.HFB_IN_CFG 0 then (if s.rd a = old.rd a then s else s.hfbReady)
  else if a = R.ERL_STATUS then (if s.flag a F.ERL_STATUS_FATAL_SEEN then s else s.bitOff R.PWR_ALERT 3)
  else if a = R.PDK_SEL then s.pdkShow
  else s

/-! ### Writing -/

/-- The register is a counter that software may write. -/
def isCounter (r : RegRow) : Bool := counterBases.contains r.base || r.base == R.PWR_AGE_EQ || r.base == R.PWR_POWERED

/-- What a write of v leaves in a counter: what hardware counted in this beat is added (R373). -/
def State.counted (s : State) (r : RegRow) (a : Nat) (v : Word) : Word :=
  if isCounter r then v + (s.rd a - s.rd0 a) else v

/-- A counter that software has written counts from the value written (R373). -/
def State.rebase (s : State) (r : RegRow) (a : Nat) (v : Word) : State :=
  if isCounter r then { s with tick := { s.tick with regs0 := Tab.put resetOf s.tick.regs0 a v } } else s

/-- The value a register holds after a write: each field under its class; a field that hardware loaded in this beat keeps what
was loaded, and a flag that hardware set in this beat stays set (R7, R366, R372, R373). -/
def State.stored (s : State) (r : RegRow) (a : Nat) (v : Word) : Word :=
  let set := (w32 r.rw ||| (if s.gateShut a then 0#32 else w32 r.eg)) &&& ~~~(s.loaded a)
  ((s.rd a &&& ~~~set) ||| (s.counted r a v &&& set)) &&& ~~~(v &&& w32 r.w1c &&& ~~~(s.hit a))

/-- The set of timings of BOB_TSET that a register belongs to is in use by a stack (R189). -/
def State.timingsUsed (s : State) (t : Nat) : Bool := (upTo 2).any (fun k => s.fget (R.BOB_SR_STATUS k) F.BOB_SR_STATUS_FCUR == t)

/-- GLB_BOOT.HOST_GIB: the first write of 2, 4, 6 or 8 fixes the host partition; any other sets CFG_REJECT (R8, R387). -/
def State.hostGib (s : State) (v : Nat) : State :=
  if s.flag R.GLB_BOOT F.GLB_BOOT_HOST_SET ∨ ([2, 4, 6, 8].contains v) = false then s.fon R.GLB_STATUS F.GLB_STATUS_CFG_REJECT
  else
    (((s.fset R.GLB_BOOT F.GLB_BOOT_HOST_GIB v).fon R.GLB_BOOT F.GLB_BOOT_HOST_SET).fset R.BOB_HOST F.BOB_HOST_GIB v).showLayout

/-- GLB_VEC_MASK: a pending vector whose mask is lifted sends one MSGI (R382). -/
def State.vecMask (s : State) (w : Nat) (v : Word) : State :=
  let old := s.rd (R.GLB_VEC_MASK w)
  (upTo 32).foldl (fun x i => if old.getLsbD i && !v.getLsbD i && x.vecPend (32 * w + i) then x.sendMsgi (32 * w + i) else x)
    (s.wr (R.GLB_VEC_MASK w) v)

/-- One 32-bit write of a register takes effect: the writes with a rule of their own, otherwise each field under its class,
with an EG field that is not stored reported, then what its W1S bits start. The requester as the journal codes it goes with
a command of the Bridle. -/
def State.writeReg (s : State) (src : Src) (srcByte : Nat) (r : RegRow) (a : Nat) (v : Word) : State :=
  let i := (r.index a).1
  let b := r.base
  if b = R.SPC_WIN_DATA 0 then s.winDataPut src i v
  else if b = R.STR_MASK_DATA 0 then s.maskDataPut src i v
  else if b = R.SPC_RETIRE 0 then s.retirePut src i v
  else if a = R.PWR_DOM_TARGET then s.domTargetPut v
  else if a = R.GLB_BOOT then s.hostGib (fieldOf v F.GLB_BOOT_HOST_GIB)
  else if b = R.GLB_VEC_MASK 0 then s.vecMask i v
  else if b = R.SHU_MBOX_IN 0 then s.after (execMboxPush (Fin.ofNat 24 i) (v.setWidth 16) s)
  else if b = R.BOB_TSET 0 0 ∧ s.timingsUsed i = true then s.egReject vBOB src a
  else if b = R.LNK_PRBS_CTRL 0 0 ∧ s.lnkEnabled i = true then s
  else
    let before := if b = R.MON_T_TRIM 0 then s.trimReplace i
      else if b = R.TCK_IN_CORR_Z 0 ∨ b = R.TCK_IN_CORR_G 0 then s.corrReplace i
      else s
    let s1 := if a = R.GLB_START_AT_LO ∨ a = R.GLB_START_AT_HI then before.wr a v
      else if r.rw = 0 ∧ r.eg = 0 ∧ r.w1c = 0 then before
      else (before.wr a (before.stored r a v)).rebase r a v
    let s2 := if s.notStored r a v then s1.egReject (vectorOf a) src a
      else if s.egChange r a v ≠ 0#32 then s1.egStored
      else s1
    (s2.regWritten s r a).command srcByte r a v

end Sys2Proof.Machine
end

