-- ==== Sys2Proof/Machine/Beat.lean ====
section
/-!
DEFINITION. The passing of one beat, which is what a step does while no command waits (R21, R349; log entry 2), and what time alone
brings about in it: positions fall due at the taps (R79, R99), and in STOPPING each block drains (R16; log entry 208).
-/

namespace Sys2Proof.Machine

/-! ### Draining -/

/-- The data-path blocks of slice n that hold nothing more of the run: their STATUS register, and whether it is so (R16). -/
def State.sliceDrained (s : State) (n : Nat) : List (Nat × Bool) :=
  let chans := (upTo 8).map (fun l => 8 * n + l)
  let cond := chans.all (fun c => s.chanDone c)
  let spec := chans.all (fun c => s.streamDone c)
  [(R.LNK_STATUS n, (upTo 8).all (fun l => (s.lane n l).flight.isEmpty)), (R.CND_STATUS n, cond), (R.SPC_STATUS n, spec),
   (R.STR_STATUS n, cond && spec),
   (R.SHU_STATUS n, (s.core n).held.isNone && (s.core n).queued.isNone && s.recs.waves.all (fun w => w.partsLeft.isEmpty)),
   (R.QUL_STATUS n, s.recs.waves.isEmpty && s.quillDone n
     && chans.all (fun c => (Tab.get (fun _ => none) s.recs.raws c).isNone && (s.specRecs c).isEmpty))]

/-- Every stream has sent its RUN_END, and no shed record is open. -/
def State.recsDrained (s : State) : Bool :=
  s.recs.waves.isEmpty && (upTo 256).all (fun k => !s.streamOn k || (s.stream k).runEnd)

/-- The global data-path blocks that pass on what a run leaves, each with whether it holds nothing more of it (R16). The clock block and Hoofbeat
hold no data of a run; they are disabled with the last. -/
def State.globalDrained (s : State) : List (Nat × Fld × Bool) :=
  let planes := (upTo 16).all (fun p => (s.plane p).stopped.isNone && (s.plane p).closing.isNone && (s.plane p).sweep.isNone)
  let rings := (upTo 192).all (fun c => !s.flag (R.BOB_RING_STATUS c) F.BOB_RING_STATUS_ACTIVE)
  let skein := (upTo 32).all (fun k => s.quillDone k && (s.engine k).held.isNone)
  [(R.TRD_STATUS, F.TRD_STATUS_ENABLE, (upTo 24).all (fun n => !s.flag (R.STR_STATUS n) F.STR_STATUS_ENABLE)),
   (R.BOB_STATUS, F.BOB_STATUS_ENABLE, rings && s.recs.waves.isEmpty && (upTo 192).all (fun c => (Tab.get (fun _ => none) s.recs.raws c).isNone)),
   (R.TAP_STATUS, F.TAP_STATUS_ENABLE, planes),
   (R.REC_STATUS, F.REC_STATUS_ENABLE, s.recsDrained),
   (R.SKN_STATUS, F.SKN_STATUS_ENABLE, s.recsDrained && skein),
   (R.HNS_STATUS, F.HNS_STATUS_ENABLE, s.recsDrained && s.egressEmpty)]

/-- The ENABLE of the blocks of slice n that have drained becomes 0. -/
def State.sliceDrain (s : State) (n : Nat) : State :=
  let done := s.sliceDrained n
  (sliceEnables n).foldl (fun x p => if done.contains (p.1, true) then x.foff p.1 p.2 else x) s

/-- In STOPPING the capture of each channel whose last word has come ends, and a block's ENABLE becomes 0 once it has drained (R16, R22, R169). -/
def State.drain (s : State) : State :=
  if s.runState = rsStopping then
    let s1 := (upTo 24).foldl (fun x n => x.sliceDrain n) s.drainAll
    (s1.globalDrained.foldl (fun x e => if e.2.2 then x.foff e.1 e.2.1 else x) s1).tapsIdle
  else s

/-! ### The end of a cycle of FCLK -/

/-- A push that found Quill k full is refused (R251, R287, R289, R314, R357). OUT has had its C already. -/
def State.refusal (s : State) (k : Nat) : State :=
  if k < qnMboxOut 0 then s.fon (R.SHU_STATUS k) F.SHU_STATUS_MBOX_OVF
  else if k < qnDoor 0 then s
  else if k < qnSide 0 then s.doorRefusal (k - qnDoor 0)
  else if k < qnSide 8 then s.sideRefusal (k - qnSide 0)
  else s.stampRefusal (k - qnSide 8)

/-- A cycle of FCLK, two beats, ends: the pushes that no pop made room for are refused (R287). -/
def State.cycleEnd (s : State) : State :=
  s.turns.foldl (fun x e => match e.2 with
    | some t => t.refused.foldl (fun y _ => y.refusal e.1) x
    | none => x) { s with turns := [] }

/-- A W1S bit written while its command is not over, and that command did not end in the beat: nothing, but where a rule refuses it (R350,
R413, R433, R446, R447). -/
def State.againRefused (s : State) (a : Nat) : State :=
  if a = R.BRD_CMD then s.fon R.BRD_STATUS F.BRD_STATUS_CMD_BUSY
  else if a = R.TCK_CTRL then s.tckRefuse
  else if a = R.FAR_CTRL then s.raise vFAR 5
  else if a = R.WRP_CTRL then s.raise vWRP wiRefused
  else s

/-- A W1S bit that software wrote in this beat while its command before was not over starts a new one, if that one ended after all
(R373). -/
def State.reissueOne (s : State) (a b src : Nat) : State :=
  match regRowAt a with
  | some r => if (s.view r a).getLsbD b then s.againRefused a else s.command src r a (setBitW 0#32 b)
  | none => s

/-- The commands that the end of a beat starts. -/
def State.reissue (s : State) : State :=
  s.tick.again.foldl (fun x e => x.reissueOne e.1 e.2.1 e.2.2) { s with tick := { s.tick with again := [] } }

/-! ### One beat -/

/-- What time alone brings about in a beat that has begun. While a relock holds CCLK and FCLK stopped only warp time advances (R335,
R336; log entry 103). -/
def State.passes (s : State) : State :=
  if s.clk.stage ≠ 0 then s else
  let s1 := if s.run.startNext && s.runState == rsArmed then s.runStart else s
  let s2 := if s1.beats % 2 = 0 then s1.cycleEnd else s1
  s2.condBeat.specBeat.riseDue.tapBeat.drain

/-- One beat passes: warp time increases by 1 once the device is out of reset, and a start that was accepted takes place. While
the beat clock is stopped for a snap no beat passes (R341). -/
def State.beat (s : State) : State :=
  let t := s.reissue.shedsFired
  if t.clk.snap.isSome then t
  else
    State.passes { t.resync with
      now := if t.released then t.now + 1#64 else t.now, beats := t.beats + 1, tick := ⟨t.wt, t.regs, [], [], [], 0⟩ }

end Sys2Proof.Machine
end

