-- ==== Sys2Proof/Machine/Bridle.lean ====
section
/-!
DEFINITION. The commands of the Bridle (R406, R412 to R425). Each of rows SESSION_OPEN to GET_CERT is the end of a command
that BRD_CMD holds; where BRD_CMD holds none of its code, nothing happens.
-/

namespace Sys2Proof.Machine

/-- A session is opened for port p: the derived key takes its place, an older key stays only while a fragment is in flight
under it; the output of R416 (R416 to R418). -/
def State.sessionOpened (s0 : State) (p : Nat) (qp np : List Byte) : State :=
  let n := s0.fresh
  let s := s0.took
  let x := s.session p
  let id := if x.keyId = 255 then 1 else x.keyId + 1
  let eph := fit 129 (Config.ephemeral n)
  let qd := eph.take 97
  let nd := eph.drop 97
  let k := Config.sessionKey n qp (np ++ nd) (ascii "KF-1932 session" ++ s.brd.serial ++ leBytes 1 p ++ leBytes 1 id)
  let old := ((if x.valid then [x.key] else []) ++ x.old).filter (fun y => (upTo 32).any (fun e => s.engineUnder [y] e))
  let s1 := (s.setSession p ⟨true, id, k, none, old, some (s.beats, s.tagKeys p)⟩).deriveRun p
  let s2 := ((s1.foff R.BRD_STATUS F.BRD_STATUS_ZEROISED).journal (s1.jentry 6 s1.brd.cmdSrc 0 (p + 256 * id) 1)).portResume p
  s2.brdOut (qd ++ nd ++ leBytes 1 id
    ++ fit 96 (Config.dikSign (sha384 (qp ++ qd ++ np ++ nd ++ leBytes 1 p ++ leBytes 1 id))))

/-- SESSION_OPEN: port, Q_P, N_P, credential (static key, port mask, owner slot, owner signature) and the partner's signature
are checked, and the session key is derived; an OPEN device takes a credential without the owner signature too (R415, R416). -/
def execSessionOpen (s : State) : Host.Outcome State Fault Refusal :=
  .next (s.brdRun 1 (fun i =>
    let p := recNat i 0 1
    let qp := slice i 1 97
    let np := slice i 98 32
    let key := slice i 130 97
    let owner := recNat i 228 1
    let bare := s.brdIsOpen && i.length == 325
    if (i.length ≠ 421 ∧ bare = false) ∨ 4 ≤ p then s.brdFail brBadFormat
    else if s.dikOff then s.dikFail
    else if s.brdIsOpen = false ∧ (4 ≤ owner ∨ s.ownerState owner ≠ 1) then s.brdFail brNoKey
    else if s.brdIsOpen = false ∧ Config.verify (s.ownerKey owner) (sha384 (slice i 130 98)) (slice i 229 96) = false then
      s.brdFail brBadSig
    else if recNat i 227 1 / 2 ^ p % 2 = 0 then s.brdOpen
    else if Config.verify key (sha384 (qp ++ np ++ s.brd.serial ++ leBytes 1 p)) (slice i (if bare then 229 else 325) 96) = false then
      s.brdFail brBadSig
    else s.sessionOpened p qp np))

/-- SESSION_CLOSE: the keys of the port are destroyed at once (R405, R417). -/
def execSessionClose (s : State) : Host.Outcome State Fault Refusal :=
  .next (s.brdRun 2 (fun i =>
    let p := recNat i 0 1
    if i.length ≠ 1 ∨ 4 ≤ p then s.brdFail brBadFormat
    else if (s.session p).valid then
      ((s.keysGone p).journal (s.jentry 6 s.brd.cmdSrc 0 (p + 256 * (s.session p).keyId) 2)).brdOut []
    else s.brdFail brNoKey))

/-- ATTEST: the report of R424 and its signature, with the caller's nonce. -/
def State.attestReport (s : State) (nonce : List Byte) : List Byte :=
  let r := nonce ++ s.brd.serial ++ leBytes 4 (s.rd R.GLB_ID).toNat ++ leBytes 4 (s.rd R.BRD_SVN).toNat ++ s.brd.fwDigest
    ++ s.brd.userDigest ++ leBytes 4 (s.rd R.BRD_OWNER).toNat ++ leBytes 4 (s.rd R.BRD_DEBUG).toNat
    ++ leBytes 4 (s.rd R.GLB_BOOT).toNat ++ leBytes 4 (s.rd R.BRD_JSEQ).toNat ++ s.brd.head ++ leBytes 8 s.wt
  r ++ fit 96 (Config.dikSign (sha384 (r ++ nonce)))

/-- ATTEST (R424). -/
def execAttest (s : State) : Host.Outcome State Fault Refusal :=
  .next (s.brdRun 3 (fun i =>
    if i.length ≠ 32 then s.brdFail brBadFormat
    else if s.dikOff then s.dikFail
    else s.brdOut (s.attestReport i)))

/-- Bytes of an image, without its key, that VERIFY_IMAGE takes at most (R413). -/
def verifyLimit : Nat := 16128

/-- VERIFY_IMAGE: the image in the buffer is checked; one that is too long fails in a way that R413 names no result for (R408, R413). -/
def execVerifyImage (s : State) : Host.Outcome State Fault Refusal :=
  .next (s.brdRun 4 (fun i =>
    if verifyLimit + 97 < i.length then s.brdOpen
    else
    match s.imageCheck i with
    | none => s.brdOpen
    | some r => if r = brOk then (s.imagePassed i).brdOut [] else s.brdFail r))

/-- OWNER_INSTALL: the lowest EMPTY slot takes the new key (R412). -/
def execOwnerInstall (s : State) : Host.Outcome State Fault Refusal :=
  .next (s.brdRun 5 (fun i =>
    if s.atRest = false then s.brdFail brRefused
    else if Config.requestSigned i s.brd.serial s.brd.nonce (s.activeKeys 4) = false then s.brdFail brBadSig
    else
      match (upTo 4).find? (fun k => s.ownerState k == 0) with
      | none => s.brdOpen
      | some k =>
        let s1 := { s with brd := { s.brd with
          owners := Tab.put (fun _ => []) s.brd.owners k (fit 48 (Config.requestKey i)) } }
        ((s1.setOwner k 1).keyEvent 5).brdOut []))

/-- OWNER_REVOKE: an ACTIVE slot is revoked by a different ACTIVE key, unless it is the last (R412). -/
def execOwnerRevoke (s : State) : Host.Outcome State Fault Refusal :=
  .next (s.brdRun 6 (fun i =>
    let k := Config.requestSlot i % 4
    if s.atRest = false then s.brdFail brRefused
    else if s.ownerState k ≠ 1 then s.brdFail brNoKey
    else if (s.activeKeys k).isEmpty then s.brdFail brRefused
    else if Config.requestSigned i s.brd.serial s.brd.nonce (s.activeKeys k) = false then s.brdFail brBadSig
    else ((s.setOwner k 2).keyEvent 6).brdOut []))

/-- DEBUG_UNLOCK: the debug state rises to the one that the token asks for; FULL zeroises and disables DIK signing (R425). -/
def execDebugUnlock (s : State) : Host.Outcome State Fault Refusal :=
  .next (s.brdRun 7 (fun i =>
    let want := Config.requestState i
    let keys := if want = 2 then [0xF0, 0xF1].filterMap (fun k => s.signerKey k) else s.activeKeys 4
    if want ≠ 1 ∧ want ≠ 2 then s.brdFail brBadFormat
    else if want ≤ s.fget R.BRD_DEBUG F.BRD_DEBUG_STATE then s.brdFail brRefused
    else if keys.isEmpty then s.brdFail brNoKey
    else if Config.requestSigned i s.brd.serial s.brd.nonce keys = false then s.brdFail brBadSig
    else
      let s1 := if want = 2 then s.zeroise.fon R.BRD_STATUS F.BRD_STATUS_DIK_OFF else s
      let s2 := s1.fset R.BRD_DEBUG F.BRD_DEBUG_STATE want
      let s3 := s2.took.journal (s2.jentry 8 s2.brd.cmdSrc 0 (s2.free % 2 ^ 64) 7)
      State.brdOut { s3 with brd := { s3.brd with debugInRun := s3.brd.debugInRun || decide (s3.runState = rsRunning) } } []))

/-- ZEROISE: every session key and run key is destroyed (R425). -/
def execZeroise (s : State) : Host.Outcome State Fault Refusal := .next (s.brdRun 8 (fun _ => s.zeroise.brdOut []))

/-- DECOMMISSION: in IDLE, the fuse that disables the device secret is burned; it acts from the next reset (R425). -/
def execDecommission (s : State) : Host.Outcome State Fault Refusal :=
  .next (s.brdRun 9 (fun i =>
    if s.runState ≠ rsIdle then s.brdFail brRefused
    else if (s.activeKeys 4).isEmpty then s.brdFail brNoKey
    else if Config.requestSigned i s.brd.serial s.brd.nonce (s.activeKeys 4) = false then s.brdFail brBadSig
    else (State.keyEvent { s with brd := { s.brd with secretOff := true } } 9).brdOut []))

/-- GET_CERT: the device certificate, as boot took it from its record (R406, R432). -/
def execGetCert (s : State) : Host.Outcome State Fault Refusal :=
  .next (s.brdRun 10 (fun _ =>
    match s.brd.cert with
    | some c => s.brdOut c
    | none => s.brdOpen))

/-- KEY_RETIRE: an old key of the port is destroyed once no fragment is in flight under it (R417). -/
def execKeyRetire (port : Fin 4) (s : State) : Host.Outcome State Fault Refusal :=
  let p := port.val
  let x := s.session p
  let keep := x.old.filter (fun k => (upTo 32).any (fun e => s.engineUnder [k] e))
  .next (s.setSession p { x with old := keep })

/-- JOURNAL_EXPORT: the oldest entry that waits for export is pushed into side Quill 1, where it has room (R422). -/
def execJournalExport (s : State) : Host.Outcome State Fault Refusal :=
  .next (
    match s.brd.backlog with
    | [] => s
    | (e, j) :: rest =>
      if (s.side 1).quill.length < sideDepth then (s.setBacklog rest).sidePush 1 ⟨e.wt, e.frac, 0, e.bytes j, s.beats⟩ else s)

/-- MANIFEST_BEGIN: in STOPPING, once every enabled stream has pushed its RUN_END, the manifest is built and its signing
begins; none is made while DIK signing is unavailable. A signing that begins during a VSTBY brownout ends with RETRY and is begun again
after it (R414, R423). -/
def execManifestBegin (s : State) : Host.Outcome State Fault Refusal :=
  .next (
    if s.runState = rsStopping ∧ s.run.manifest = 0
        ∧ (upTo 256).all (fun k => !s.streamOn k || (s.stream k).runEnd) = true then
      if s.dikOff then
        let s1 := s.took.log vBRD (s.free % 256) sevWarning 0 0 0
        { s1 with run := { s1.run with manifest := 3 } }
      else if s.pwr.brownout.isSome then State.raise { s with run := { s.run with manifest := 4 } } vBRD 3
      else s.manifestStart
    else s)

/-- MANIFEST_PUSH: the signing has completed; the manifest is pushed as one packet into side Quill 4 once it has room (R423). -/
def execManifestPush (s : State) : Host.Outcome State Fault Refusal :=
  .next (
    if s.run.manifest = 1 ∨ s.run.manifest = 2 then
      let s1 := s.foff R.BRD_STATUS F.BRD_STATUS_SIGNING
      if s1.manifestRoom s1.brd.manifest then
        let s2 := (s1.sidePush 4 ⟨s1.brd.manifestWt, s1.brd.manifestFrac, 0, s1.brd.manifest, s1.beats⟩).raise vBRD 1
        { s2 with run := { s2.run with manifest := 3 }, brd := { s2.brd with manifest := [] } }
      else { s1 with run := { s1.run with manifest := 2 } }
    else s)

end Sys2Proof.Machine
end

