-- ==== Sys2Proof/Machine/HitchOps.lean ====
section
/-!
DEFINITION. Hitch requests to registers, windows and bit aliases: places (R363, R364), the order of checks (R365, R367, R371,
R377, R380, R385), the windows (R95, R209, R219, R233, R413, R428, R433, R469), the configuration journal (R411, R420, R421),
and completions.
-/

namespace Sys2Proof.Machine

/-! ### Places -/

/-- What lies at the address of a 32-bit word (R363, R364, R371). -/
inductive Place where
  /-- A register, with its row. -/
  | reg (a : Nat) (r : RegRow)
  /-- A word of a coefficient set (R95). -/
  | coef (slice set word : Nat)
  /-- A word of the log window (R469). -/
  | erl (off : Nat)
  /-- A word of FAR_STAGE, and of the Farrier store (R428, R433). -/
  | farStage (off : Nat)
  | farSlot (off : Nat)
  /-- A word of BRD_BUF (R413). -/
  | brdBuf (off : Nat)
  /-- A word of a Shuttle core's memories (R233). -/
  | shuttle (core off : Nat)
  /-- A cell of the plane window, by its number y × 1,024 + j (R209). -/
  | plane (cell : Nat)
  /-- An entry of the palette window (R219). -/
  | palette (entry : Nat)
  /-- Two pixels of a scan store, by the number of the first (R219). -/
  | scan (store pixel : Nat)
  /-- The alias word of a bit of a register (R371). -/
  | bit (a : Nat) (r : RegRow) (b : Nat)
  /-- A reserved location (R365). -/
  | reserved
  /-- In none of the loom die's ranges (R363). -/
  | nothing

/-- A place in the register blocks (R364). -/
def blockPlace (a : Nat) : Place :=
  if 0x18000 ≤ a ∧ a < 0x20000 then .erl (a - 0x18000)
  else if 0x50400 ≤ a ∧ a < 0x50500 then .farStage (a - 0x50400)
  else if 0x58000 ≤ a ∧ a < 0x60000 then .farSlot (a - 0x58000)
  else if 0x68000 ≤ a ∧ a < 0x6C000 then .brdBuf (a - 0x68000)
  else if 0x100000 ≤ a ∧ a < 0x280000 ∧ 0x3000 ≤ a % 0x10000 ∧ a % 0x10000 < 0x4000 then
    .coef ((a - 0x100000) / 0x10000) (a % 0x1000 / 0x400) (a % 0x400 / 4)
  else
    match regRowAt a with
    | some r => .reg a r
    | none => .reserved

/-- The base of the bit-alias window. -/
def aliasBase : Nat := 0x1000000000

/-- The address lies in the bit-alias window (R371). -/
def inAlias (a : Nat) : Bool := decide (aliasBase ≤ a) && decide (a < aliasBase + 0x20000000)

/-- The register offset that an alias address names, and its bit (R371). -/
def aliasOf (a : Nat) : Nat × Nat := ((a - aliasBase) / 128 * 4, (a - aliasBase) % 128 / 4)

/-- What lies at a word's address. -/
def placeOf (a : Nat) : Place :=
  if a < 0x1000000 then blockPlace a
  else if a < 0x1C00000 then
    match shuWordOf a with
    | some (n, off) => .shuttle n off
    | none => .reserved
  else if 0x2000000 ≤ a ∧ a < 0x2200000 then .plane ((a - 0x2000000) / 4)
  else if 0x2200000 ≤ a ∧ a < 0x2204040 then .palette ((a - 0x2200000) / 4)
  else if 0x2400000 ≤ a ∧ a < 0x2CCA000 then .scan 0 ((a - 0x2400000) / 2)
  else if 0x3000000 ≤ a ∧ a < 0x38CA000 then .scan 1 ((a - 0x3000000) / 2)
  else if inAlias a then
    match blockPlace (aliasOf a).1 with
    | .reg b r => .bit b r (aliasOf a).2
    | _ => .reserved
  else .nothing

/-- The memory window of R363 that an address lies in; none for registers and aliases. -/
def memWindow (a : Nat) : Option Nat :=
  if a < 0x1000000 ∨ inAlias a then none
  else if a < 0x1C00000 then some 0
  else if a < 0x2200000 then some 1
  else if a < 0x2400000 then some 2
  else if a < 0x3000000 then some 3
  else some 4

/-- The register address whose rules an address falls under: the register itself for an alias word (R371, R385). -/
def ruleAddr (a : Nat) : Nat := if inAlias a then (aliasOf a).1 else a

/-! ### Checks -/

/-- The domain rules of R385 allow the access. -/
def domainAllows (src : Src) (write : Bool) (a : Nat) : Bool :=
  src.secure || (a / 0x10000 != 6 && (!write || (a / 0x10000 != 5 && a / 0x10000 != 10 && a / 4 * 4 != R.GLB_BOOT)))

/-- The switched power domain that an address lies in (R454). -/
def addrDomain (a : Nat) : Option Nat :=
  if 0x100000 ≤ a ∧ a < 0x280000 then some ((a - 0x100000) / 0x10000)
  else if 0x901000 ≤ a ∧ a < 0x905000 then some (24 + (a - 0x901000) / 0x1000)
  else if (0x600000 ≤ a ∧ a < 0x700000) ∨ (0x2200000 ≤ a ∧ a < 0x4000000) then some 28
  else if 0x1000000 ≤ a ∧ a < 0x1C00000 then some ((a - 0x1000000) / 0x80000)
  else none

/-- The addresses of a unit that Paddock tests (R463, R464). -/
def unitHolds (u a : Nat) : Bool :=
  let within (lo n : Nat) : Bool := decide (lo ≤ a) && decide (a < lo + n)
  if u < 96 then
    within (sliceBase (u / 4) + 0x4000) 0x2000 || within (R.STR_SC_CFG (u / 4) (4 * (u % 4))) 0x80
  else if u < 120 then
    let b := sliceBase (u - 96)
    within b 0x4000 || within (b + 0x6000) 0x200 || within (b + 0x8000) 0x8000 || within (0x1000000 + 0x80000 * (u - 96)) 0x80000
  else if u = 120 then within 0x300000 0x100000
  else if u = 121 then within 0x500000 0x100000 || within 0x2000000 0x200000
  else if u = 122 then within 0x700000 0x100000
  else if u = 123 then within 0x800000 0x100000
  else if u = 124 then within 0xA00000 0x100000
  else if u = 125 then within 0x600000 0x100000 || within 0x2200000 0x1E00000
  else within (portBase (u - 126)) 0x1000

/-- The unit under test that an address belongs to (R380, R464). -/
def State.testedUnit (s : State) (a : Nat) : Option Nat := s.pdk.running.find? (fun u => unitHolds u (ruleAddr a))

/-- A word that holds nothing, lies in a domain that is off, or cannot be reached at present: answered with BUS_ERR (R209, R233,
R365, R380). -/
def State.wordBad (s : State) (write : Bool) (a : Nat) : Bool :=
  let off := match addrDomain (ruleAddr a) with
    | some d => !s.domainOn d
    | none => false
  off || (match placeOf a with
    | .reserved => true
    | .nothing => true
    | .shuttle n _ => !s.coreHalted n
    | .plane _ => !write && s.blockOn vTAP
    | _ => false)

/-- The width and the alignment of an access are allowed (R367, R371). -/
def widthOk (write : Bool) (a size : Nat) : Bool :=
  if inAlias a then size == 4 && a % 4 == 0
  else if size = 4 ∨ size = 8 then a % size == 0
  else if size = 1 ∨ size = 2 then
    !write && a % size == 0 && (match placeOf (a / 4 * 4) with
      | .reg _ r => r.rc == 0
      | _ => true)
  else false

/-- The words of an access. -/
def accessWords (a size : Nat) : List Nat := if size = 8 ∧ a % 8 = 0 then [a, a + 4] else [a / 4 * 4]

/-- The answer that the checks give: performed; RETRY of a unit under test, of a domain that powers up, or of the Bridle; or an error with the
KIND that is latched. -/
inductive Verdict where
  | perform
  | retry (unit : Nat)
  | update
  | busy
  | error (kind : Nat)
  deriving DecidableEq, Repr

/-- The domain of an address has its rail and is brought up: it is held in reset, or its repairs are applied (R380, R456). -/
def State.updating (s : State) (a : Nat) : Bool :=
  match s.pwr.moving, s.pwr.railAt with
  | some (d, true, _), some t => decide (addrDomain (ruleAddr a) = some d) && decide (t ≤ s.beats)
  | _, _ => false

/-- A write of a word would begin a key operation in a brownout: GO of BRD_CMD, as such or by its alias (R371, R377, R413, R414). -/
def State.keyBusy (s : State) (a : Nat) (v : Word) : Bool :=
  s.pwr.brownout.isSome && !s.flag R.BRD_CMD F.BRD_CMD_GO && (match placeOf a with
    | .reg b _ => b == R.BRD_CMD && v.getLsbD 8 && keyOps.contains (fieldOf v F.BRD_CMD_CODE)
    | .bit b _ n => b == R.BRD_CMD && n == 8 && v.getLsbD 0 && keyOps.contains (s.fget R.BRD_CMD F.BRD_CMD_CODE)
    | _ => false)

/-- The words of a write with their addresses. -/
def wordPairs : List Nat → Nat → List (Nat × Word)
  | [], _ => []
  | a :: rest, v => (a, w32 v) :: wordPairs rest (v / 2 ^ 32)

/-- The answer is RETRY. -/
def Verdict.again : Verdict → Bool
  | .perform => false
  | .retry _ => true
  | .update => true
  | .busy => true
  | .error _ => false

/-- The checks of an access in the order of R365; a unit under test, and a domain that powers up, answers with RETRY what only a cause of
KIND 0 could refuse (R380); the Bridle answers so in a brownout (R377). -/
def State.verdict (s : State) (q : HitchReq) : Verdict :=
  let ws := accessWords q.addr q.size
  let missing (a : Nat) : Bool := match placeOf a with
    | .nothing => true
    | _ => false
  if ws.any missing then .error 1
  else if ws.any (fun a => !domainAllows q.src q.write (ruleAddr a)) then .error 3
  else if !widthOk q.write q.addr q.size then .error 2
  else
    match ws.findSome? (fun a => s.testedUnit a) with
    | some u => .retry u
    | none =>
      if ws.any (fun a => s.updating a) then .update
      else if ws.any (fun a => s.wordBad q.write a) then .error 0
      else if q.write && (wordPairs ws q.data).any (fun w => s.keyBusy w.1 w.2) then .busy
      else .perform

/-! ### The journal -/

/-- Places of the Bridle's chaining queue that software's entries may take: 256, less the 16 reserved for hardware (R420). -/
def chainRoom : Nat := 240

/-- The chaining queue has room for one more of software's entries. -/
def State.jroom (s : State) : Bool := decide (s.brd.chain.length < chainRoom)

/-- A software entry enters the chaining queue; one of those that R411 does not except ends a sealed configuration. -/
def State.jsoft (s : State) (e : JEntry) (keeps : Bool) : State :=
  { s with
    brd := { s.brd with chain := s.brd.chain ++ [e], sealed := s.brd.sealed && keeps }
    tick := { s.tick with soft := s.tick.soft + 1 } }

/-- The entries that wait after the oldest has been taken; those of software of this beat are the last of them (R420). -/
def State.chainLeft (s : State) (rest : List JEntry) : State :=
  { s with
    brd := { s.brd with chain := rest }
    tick := { s.tick with soft := min s.tick.soft rest.length } }

/-- The oldest entry that waits is chained. -/
def State.chainOne (s : State) : State :=
  match s.brd.chain with
  | [] => s
  | e :: rest => (s.chainLeft rest).chainEntry e

/-- A run of window writes closes and is journalled (R421). -/
def State.closeRun (s : State) (w : WinRun) : State :=
  let s1 := { s with brd := { s.brd with windows := s.brd.windows.filter (fun x => x.src ≠ w.src) } }
  s1.jsoft (s1.jentry 3 w.src w.flags w.first (w.data.length / 4 + 2 ^ 32 * (crc32 w.data).toNat)) false

/-- Words of a run at most (R421). -/
def runLimit : Nat := 65536

/-- A requester, as the journal codes it, accesses an address: a run of window writes of its own goes on with the next word of
the same window and closes at any other access; a window write begins one (R421). -/
def State.winAccess (s : State) (src a : Nat) (v : Option (Word × Nat)) : State :=
  let bytes (x : Word) : List Byte := leBytes 4 x.toNat
  let open_ (x : State) : State := match v, memWindow a with
    | some (d, f), some _ => { x with brd := { x.brd with windows := x.brd.windows ++ [⟨src, a, a + 4, bytes d, f⟩] } }
    | _, _ => x
  match s.brd.windows.find? (fun w => w.src = src) with
  | none => open_ s
  | some w =>
    match v with
    | some (d, f) =>
      if a = w.next ∧ memWindow a = memWindow w.first then
        let w1 : WinRun := { w with next := a + 4, data := w.data ++ bytes d, flags := w.flags ||| f }
        let s1 := { s with brd := { s.brd with windows := s.brd.windows.map (fun x => if x.src = src then w1 else x) } }
        if runLimit ≤ w1.data.length / 4 then s1.closeRun w1 else s1
      else open_ (s.closeRun w)
    | none => s.closeRun w

/-- A write of a register changes nothing but what its W1C and W1S fields do, or of GLB_RUN nothing but CMD (R411). -/
def State.keepsSeal (s : State) (r : RegRow) (a : Nat) (v : Word) : Bool :=
  let set := w32 r.rw ||| (if s.gateShut a then 0#32 else w32 r.eg)
  let pair := decide (a = R.GLB_START_AT_LO) || decide (a = R.GLB_START_AT_HI)
  (s.view r a ^^^ v) &&& (if pair then 0xFFFFFFFF#32 else set) == 0#32

/-! ### Windows -/

/-- A word of a window as read; whether the word holds an error that cannot be corrected (R95, R209, R219, R233, R267, R413,
R428, R469). -/
def State.readPlace (s : State) (p : Place) : Word × Bool :=
  match p with
  | .coef n m k => (w32 (s.coefWord n m k), false)
  | .erl off =>
    let e := Tab.get (fun _ => ErlEntry.empty) s.erl.entries (off / 32)
    (w32 (leNat (slice e.bytes (off % 32) 4)), false)
  | .farStage off => (w32 (leNat (getBytes s.far.stage off 4)), false)
  | .farSlot off => (w32 (leNat (slice (s.slot (off / 256)) (off % 256) 4)), false)
  | .brdBuf off => (w32 (leNat (getBytes s.brd.buf off 4)), false)
  | .shuttle n off => ((s.core n).winRead off, (s.core n).winBad off)
  | .plane cell =>
    let p := s.fget R.TAP_WIN F.TAP_WIN_PLANE
    if cell % 1024 < s.planeCols p ∧ cell / 1024 < s.planeRows p then (w32 (Tab.get (fun _ => 0) (s.plane p).acc cell), false)
    else (0#32, false)
  | .palette e => (w32 (s.palRead e), false)
  | .scan store px =>
    let at_ (i : Nat) : Nat := Tab.get (fun _ => 0) s.pnl.stores (2 ^ 23 * store + i)
    (w32 (s.unsure vPNL (at_ px % 65536 + 65536 * (at_ (px + 1) % 65536))), false)
  | _ => (0#32, false)

/-- A word of a window as written: coefficients under the EG rule; the log, the Farrier store and the scan stores take nothing;
FAR_STAGE takes nothing while Farrier is busy, BRD_BUF while a command is in progress; a write of the plane window while ENABLE
is 1 is an EG write that is not stored (R96, R209, R219, R220, R233, R413, R433, R469). -/
def State.writePlace (s : State) (src : Src) (a : Nat) (p : Place) (v : Word) : State :=
  match p with
  | .coef n m k => s.coefPut src n m k v
  | .farStage off =>
    if s.flag R.FAR_STATUS F.FAR_STATUS_BUSY then s.fon R.FAR_STATUS F.FAR_STATUS_CFG_REJECT
    else { s with far := { s.far with stage := putBytes s.far.stage off (leBytes 4 v.toNat) } }
  | .brdBuf off =>
    if s.flag R.BRD_CMD F.BRD_CMD_GO then s
    else { s with brd := { s.brd with buf := putBytes s.brd.buf off (leBytes 4 v.toNat) } }
  | .shuttle n off => s.setCore n ((s.core n).winWrite off v)
  | .plane cell =>
    let k := s.fget R.TAP_WIN F.TAP_WIN_PLANE
    if ¬(cell % 1024 < s.planeCols k ∧ cell / 1024 < s.planeRows k) then s
    else if v.toNat = Tab.get (fun _ => 0) (s.plane k).acc cell then s
    else if s.egShut vTAP then s.egReject vTAP src a
    else s.setPlane k { s.plane k with acc := Tab.put (fun _ => 0) (s.plane k).acc cell v.toNat }
  | .palette e => s.palWrite e v.toNat
  | _ => s

/-- A write of a window word whose EG rule does not store it. -/
def State.placeShut (s : State) (p : Place) (v : Word) : Bool :=
  match p with
  | .coef n m k => s.egShut (vCND n) && decide (v.toNat % 2 ^ 18 ≠ s.coefWord n m k)
  | .plane _ => s.egShut vTAP && (s.readPlace p).1 != v
  | _ => false

/-- A write of a window word changes nothing (R411). -/
def State.placeKeeps (s : State) (p : Place) (v : Word) : Bool :=
  match p with
  | .coef n m k => s.egShut (vCND n) || decide (v.toNat % 2 ^ 18 = s.coefWord n m k)
  | .farStage _ => s.flag R.FAR_STATUS F.FAR_STATUS_BUSY || (s.readPlace p).1 == v
  | .brdBuf _ => s.flag R.BRD_CMD F.BRD_CMD_GO || (s.readPlace p).1 == v
  | _ => true

/-! ### Words -/

/-- How an access is journalled: the requester's code and JFLAGS of its own (R421). -/
structure Journal where
  src : Nat
  flags : Nat

/-- The bits of a register that are written as RW or EG bits, those of its masks and the words of GLB_START_AT and SHU_MBOX_IN (R268,
R369, R372). -/
def rwBits (r : RegRow) : Nat :=
  if r.base = R.GLB_START_AT_LO ∨ r.base = R.GLB_START_AT_HI then 0xFFFFFFFF
  else if r.base = R.SHU_MBOX_IN 0 then 0xFFFF
  else r.rw ||| r.eg

/-- The word that an alias write of a bit comes to: for a bit of class RW or EG the register with that bit, of
SHU_MBOX_IN a word of that bit alone; for W1C and W1S a 1 in it, for any other class nothing (R371; log entry 270). -/
def State.aliasWord (s : State) (r : RegRow) (a b : Nat) (v : Word) : Option Word :=
  let now := if r.base = R.SHU_MBOX_IN 0 then 0#32 else if isCounter r then s.rd0 a else s.view r a
  let held := now &&& w32 (rwBits r)
  let one (m : Nat) : Bool := m / 2 ^ b % 2 == 1
  if one (rwBits r) then some (if v.getLsbD 0 then setBitW held b else clrBitW held b)
  else if (one r.w1c || one r.w1s) && v.getLsbD 0 then some (setBitW held b)
  else none

/-- A write's REG_WRITE entry, after its requester's run of window writes has closed (R420, R421). -/
def State.writeEntry (s : State) (j : Journal) (flags a : Nat) (v : Word) (keeps : Bool) : State :=
  (s.winAccess j.src a none).jsoft (s.jentry 2 j.src (flags ||| j.flags) a v.toNat) keeps

/-- One 32-bit write to a place takes effect, its entry chained before it (R420, R421). -/
def State.writeWord (s : State) (src : Src) (j : Journal) (a : Nat) (v : Word) : State :=
  match placeOf a with
  | .reg b r => (s.writeEntry j (if s.notStored r b v then 1 else 0) a v (s.keepsSeal r b v)).writeReg src j.src r b v
  | .bit b r n =>
    match s.aliasWord r b n v with
    | some w => (s.writeEntry j (2 + if s.notStored r b w then 1 else 0) a v (s.keepsSeal r b w)).writeReg src j.src r b w
    | none => s.writeEntry j 2 a v true
  | p =>
    let shut := if s.placeShut p v then 1 else 0
    match memWindow a with
    | none => (s.writeEntry j shut a v (s.placeKeeps p v)).writePlace src a p v
    | some _ => (s.winAccess j.src a (some (v, shut ||| j.flags))).writePlace src a p v

/-- One 32-bit read of a place: the state after it, the word, and whether it answers with BUS_ERR all the same (R267). -/
def State.readWord (s : State) (src : Src) (j : Journal) (ecc : Ecc) (a : Nat) : State × Word × Bool :=
  let s1 := s.winAccess j.src a none
  match placeOf a with
  | .reg b r => ((s1.readReg src r b).1, (s1.readReg src r b).2, false)
  | .bit b r n =>
    let x := s1.shown r b (s1.view r b)
    (x.1, if x.2.getLsbD n then 1#32 else 0#32, false)
  | .shuttle n off =>
    let x := s1.winCheck n off a ecc
    (x.1, (s1.readPlace (.shuttle n off)).1, x.2)
  | .scan store px => (if s1.breach.contains vPNL then s1.took else s1, (s1.readPlace (.scan store px)).1, false)
  | p => (s1, (s1.readPlace p).1, false)

/-! ### Accesses -/

/-- An access as answered: the state after it, the status of its completion, and the words that it returns. -/
structure Answer where
  state : State
  status : Status
  data : List Nat

/-- The requester of a Hitch request as the journal codes it. -/
def HitchReq.journal (q : HitchReq) : Journal := ⟨srcCode q.src, 0⟩

/-- A narrow read returns the addressed byte lanes (R367). -/
def State.laneRead (s : State) (src : Src) (a size : Nat) : Nat :=
  let w := a / 4 * 4
  let v := match placeOf w with
    | .reg b r =>
      if shLows.contains (r.base - 4) && decide (4 ≤ r.base) then s.shadow src b
      else s.view r b
    | p => (s.readPlace p).1
  v.toNat / 2 ^ (8 * (a % 4)) % 2 ^ (8 * size)

/-- What a narrow read does beside: nothing, but for the ECC's finding in a word of a Shuttle memory (R267, R367). -/
def State.laneCheck (s : State) (q : HitchReq) : State × Bool :=
  match placeOf (q.addr / 4 * 4) with
  | .shuttle n off => s.winCheck n off q.addr q.ecc
  | _ => (s, false)

/-- The words of a write take effect, low word first (R367). -/
def State.writeWords (s : State) (src : Src) (j : Journal) : List Nat → Nat → State
  | [], _ => s
  | a :: rest, v => (s.writeWord src j a (w32 v)).writeWords src j rest (v / 2 ^ 32)

/-- The words of a read, low word first (R367, R369): the state, the words, and whether one of them is bad; the ECC's finding concerns the
first. -/
def State.readWords (s : State) (src : Src) (j : Journal) (ecc : Ecc) : List Nat → State × List Nat × Bool
  | [] => (s, [], false)
  | a :: rest =>
    let x := s.readWord src j ecc a
    let y := x.1.readWords src j .clean rest
    (y.1, x.2.1.toNat :: y.2.1, x.2.2 || y.2.2)

/-- An access of the register space, a window or an alias: checked, and performed where the checks allow it; an error is latched
(R365 to R371, R377, R380, R385). -/
def State.access (s : State) (q : HitchReq) (j : Journal) : Answer :=
  match s.verdict q with
  | .error kind =>
    ⟨(s.winAccess j.src q.addr none).busErr q.src kind q.write q.addr (inAlias q.addr),
      if kind = 1 then .decodeErr else .busErr, []⟩
  | .retry u =>
    ⟨{ s with pdk := { s.pdk with
        retries := Tab.put (fun _ => 0) s.pdk.retries u (Tab.get (fun _ => 0) s.pdk.retries u + 1) } }, .retry, []⟩
  | .update => ⟨{ s with pwr := { s.pwr with updRetries := s.pwr.updRetries + 1 } }, .retry, []⟩
  | .busy => ⟨s, .retry, []⟩
  | .perform =>
    if q.write then ⟨s.writeWords q.src j (accessWords q.addr q.size) q.data, .ok, []⟩
    else if q.size < 4 then
      let x := (s.winAccess j.src q.addr none).laneCheck q
      let v := [s.laneRead q.src q.addr q.size]
      if x.2 then ⟨x.1.busErr q.src 0 false q.addr (inAlias q.addr), .busErr, v⟩ else ⟨x.1, .ok, v⟩
    else
      let x := s.readWords q.src j q.ecc (accessWords q.addr q.size)
      if x.2.2 then ⟨x.1.busErr q.src 0 false q.addr (inAlias q.addr), .busErr, x.2.1⟩ else ⟨x.1, .ok, x.2.1⟩

/-! ### The Hitch bridge -/

/-- Times the bridge issues a request again that was answered with RETRY (R377). -/
def retryLimit : Nat := 16

/-- A request that reached its target is answered; one answered with RETRY is kept for the bridge to issue again, or after the
last time reported to the core (R377). -/
def State.hitchAnswer (s : State) (q : HitchReq) (tries : Nat) : State :=
  let r := s.access q q.journal
  let s1 := r.state.emit (.completion q.tag r.status r.data)
  if r.status = .retry then
    if retryLimit ≤ tries then s1.emit (.bridgeError q.tag)
    else { s1 with hitch := { s1.hitch with retries := s1.hitch.retries ++ [⟨q, tries, s1.beats⟩] } }
  else s1

/-- The journal entries that a request makes when it takes effect: a REG_WRITE entry for each word of a write outside the memory windows, and a
WINDOW entry where it ends its requester's run of window writes (R421). -/
def State.entriesOf (s : State) (q : HitchReq) : Nat :=
  let ws := accessWords q.addr q.size
  let run := s.brd.windows.find? (fun w => w.src == srcCode q.src)
  let ends := match run with
    | none => 0
    | some _ => 1
  match s.verdict q with
  | .perform =>
    if q.write = false then ends
    else if (memWindow q.addr).isNone then ws.length + ends
    else
      match run with
      | some w =>
        if ws.head? = some w.next ∧ memWindow q.addr = memWindow w.first ∧ w.data.length / 4 + ws.length < runLimit then 0 else 1
      | none => 0
  | .error _ => ends
  | _ => 0

/-- The request is a write of the palette window (R219). -/
def HitchReq.palette (q : HitchReq) : Bool :=
  q.write && (match placeOf (q.addr / 4 * 4) with
    | .palette _ => true
    | _ => false)

/-- The request is one to HBM (R368). -/
def HitchReq.isHbm (q : HitchReq) : Bool := (hbmOffset q.addr).isSome

/-- A request cannot take effect now: the chaining queue has no room for its entries, or the palette is being copied (R220, R420). -/
def State.reqBlocked (s : State) (q : HitchReq) : Bool :=
  (s.entriesOf q != 0 && decide (chainRoom < s.brd.chain.length + s.entriesOf q))
    || (s.verdict q == .perform && q.palette && s.pnl.palCopy)

/-- An earlier access of the same requester that this one may not pass has not taken effect: any, before an access to a register or a window;
a write, before an access to HBM (R378). -/
def State.ownBefore (s : State) (q : HitchReq) : Bool :=
  let mine (src : Src) (write : Bool) : Bool := src == q.src && (write || !q.isHbm)
  s.hitch.retries.any (fun r => mine r.req.src r.req.write)
    || s.bob.pcs.any (fun e => e.2.queue.any (fun r => r.who == .hitch && mine (idSrc r.id) r.write))

/-- Neither module is in operation after boot stage LINK: the link retrains (R374; log entry 268). -/
def State.linkRetrains (s : State) : Bool := decide (s.hitch.modulesUp = 0) && decide (bsLink < s.bootStage)

/-- The HBM requests of the Hitch bridge that are in progress. -/
def State.hitchPending (s : State) : List Nat :=
  s.bob.pcs.foldl (fun ids e => ids ++ (e.2.queue.filter (fun r => r.who == .hitch)).map (fun r => r.id)) []

/-- A request in progress, or one that waits, has this tag (R378). -/
def State.tagOut (s : State) (tag : Nat) : Bool :=
  (s.hitch.retries.map (fun r => r.req.tag) ++ s.hitch.held.map (fun h => h.tag) ++ s.hitchPending).any
    (fun t => t % 1024 == tag % 1024)

/-- A request waits: while the link retrains; for an earlier one of its requester or of its tag; because it cannot take effect now, or behind
one that does not (R220, R374, R378, R420). -/
def State.mustWait (s : State) (q : HitchReq) : Bool :=
  s.linkRetrains || s.tagOut q.tag || s.ownBefore q || s.reqBlocked q || (q.src == firmware && !s.dict.waiting.isEmpty)
    || s.hitch.held.any (fun h => h.src == q.src || (!h.isHbm && !q.isHbm && s.reqBlocked h))

/-- The address is not forwarded over Hitch: it is Chiox-local, or at or above 2^48 (R363). -/
def notForwarded (a : Nat) : Bool := (decide (0x2000000000 ≤ a) && decide (a < 0x4000000000)) || decide (2 ^ 48 ≤ a)

/-- A request to HBM: its form is checked, then it enters its bank queue in class 3 (R166, R175, R365, R368). -/
def State.hitchHbm (s : State) (q : HitchReq) (off : Nat) : State :=
  let id := hitchId q.src q.tag
  let s0 := s.winAccess (srcCode q.src) q.addr none
  let data := if q.write = false then [] else if q.bytes.isEmpty then (leBytes q.size q.data).map some else q.bytes
  if q.size < 4 ∨ 256 < q.size ∨ q.size % 4 ≠ 0 ∨ off % 4 ≠ 0 ∨ 256 < off % 256 + q.size then
    (s0.busErr q.src 2 q.write q.addr false).emit (.completion (q.tag % 1024) .busErr [])
  else
    let r := s0.hbmEnter .hitch q.write off q.size id data
    if r.2 then r.1 else r.1.hbmBusErr id q.write off

/-- A request reaches the bridge: answered there while the link is lost; nothing is sent for an address that is not forwarded; it waits where
it must; otherwise it goes to HBM or is answered (R363, R375, R378, R420). -/
def State.hitch_ (s : State) (q : HitchReq) : State :=
  if notForwarded q.addr then s
  else if s.hitch.linkLost then s.emit (.completion q.tag .busErr [])
  else if s.mustWait q then { s with hitch := { s.hitch with held := s.hitch.held ++ [q] } }
  else
    match hbmOffset q.addr with
    | some off => s.hitchHbm q off
    | none => s.hitchAnswer q 0

/-- The requests that waited, in the order in which they came. -/
def State.hitchResume (s : State) : State :=
  s.hitch.held.foldl (fun x q => x.hitch_ q) { s with hitch := { s.hitch with held := [] } }

/-- The Bridle chains an entry, and requests that waited for room take effect (R420). -/
def State.chainNext (s : State) : State := s.chainOne.hitchResume

/-- An access of the sealed firmware waits until the requests before it have taken effect and the chaining queue has room for
its entries: the Bridle chains what it must (R397, R420). -/
def State.chainFlush (s : State) : Nat → State
  | 0 => s
  | n + 1 => 
    if s.hitch.held.all (fun q => !s.reqBlocked q) && decide (s.brd.chain.length + 4 ≤ chainRoom) then s else s.chainNext.chainFlush n

/-- The bridge is ready for an access of the firmware. -/
def State.bridgeReady (s : State) : State := s.chainFlush (s.brd.chain.length + s.hitch.held.length)

end Sys2Proof.Machine
end

