-- ==== Sys2Proof/Machine/DictOps.lean ====
section
/-!
DEFINITION. The object dictionary: its entries (R398 to R403), what a read of one gives, what a write of one does, the journal of
R404, the application of Oseri images (R410), the CAN ports' NMT states, heartbeats and TPDOs (R389 to R394, R403).
-/

namespace Sys2Proof.Machine

/-! ### Abort codes -/

def abTimeout : Nat := 0x05040000
def abMemory : Nat := 0x05040005
def abAccess : Nat := 0x06010000
def abWriteOnly : Nat := 0x06010001
def abReadOnly : Nat := 0x06010002
def abNoObject : Nat := 0x06020000
def abHardware : Nat := 0x06060000
def abLength : Nat := 0x06070010
def abNoSub : Nat := 0x06090011
def abValue : Nat := 0x06090030
def abBusy : Nat := 0x08000020
def abState : Nat := 0x08000022

/-! ### Entries -/

/-- An entry: its length in bytes, none for one that varies; whether it can be read, be written, and only while IDLE or
CONFIGURED (R399). -/
structure OdEntry where
  size : Option Nat
  read : Bool
  write : Bool
  gated : Bool
  deriving DecidableEq, Repr

/-- Entries of fixed length by access code. -/
def odRo (n : Nat) : Option OdEntry := some ⟨some n, true, false, false⟩
def odRw (n : Nat) : Option OdEntry := some ⟨some n, true, true, false⟩
def odRwG (n : Nat) : Option OdEntry := some ⟨some n, true, true, true⟩
def odWo (n : Nat) : Option OdEntry := some ⟨some n, false, true, false⟩

/-- Entries of varying length. -/
def odText : Option OdEntry := some ⟨none, true, false, false⟩

/-- The mapped objects of TPDO k + 1: index, sub-index, bytes, and whether a change of the value sends the TPDO (R403). -/
def tpdoMap (k : Nat) : List (Nat × Nat × Nat × Bool) :=
  match k with
  | 0 => [(0x2002, 1, 1, true), (0x2002, 2, 1, true), (0x2002, 3, 4, true), (0x2002, 4, 8, false), (0x2003, 1, 1, true)]
  | 1 => [(0x2004, 1, 2, true), (0x2004, 2, 1, true), (0x2004, 3, 1, true), (0x2004, 4, 2, true), (0x2004, 5, 4, false)]
  | 2 => [(0x2005, 1, 2, true), (0x2005, 2, 2, true), (0x2005, 3, 2, true), (0x2005, 4, 2, true), (0x2005, 5, 8, true)]
  | _ => [(0x2006, 1, 4, true), (0x2006, 2, 4, true), (0x2006, 3, 4, true), (0x2006, 4, 4, false)]

/-- The highest sub-index of an object that has several entries; 0 for one that is a single entry; none where the index does not
exist (R398). -/
def odTop (index : Nat) : Option Nat :=
  if [0x1000, 0x1001, 0x1008, 0x1009, 0x100A, 0x1014, 0x1015, 0x1017, 0x2401, 0x2420].contains index then some 0
  else if index = 0x1003 then some 16
  else if index = 0x1018 then some 4
  else if 0x1800 ≤ index ∧ index ≤ 0x1803 then some 5
  else if 0x1A00 ≤ index ∧ index ≤ 0x1A03 then some (tpdoMap (index - 0x1A00)).length
  else
    match index with
    | 0x2001 => some 3
    | 0x2002 => some 7
    | 0x2003 => some 6
    | 0x2004 => some 5
    | 0x2005 => some 5
    | 0x2006 => some 4
    | 0x2100 => some 4
    | 0x2101 => some 2
    | 0x2102 => some 5
    | 0x2402 => some 2
    | 0x2403 => some 4
    | 0x2410 => some 2
    | 0x2F00 => some 4
    | _ => none

/-- The entry at an index and a sub-index that is not the count of an object's entries. -/
def odItem (index sub : Nat) : Option OdEntry :=
  match index, sub with
  | 0x1000, 0 => odRo 4
  | 0x1001, 0 => odRo 1
  | 0x1003, 0 => odRw 4
  | 0x1003, _ => if sub ≤ 16 then odRo 4 else none
  | 0x1008, 0 => odText
  | 0x1009, 0 => odText
  | 0x100A, 0 => odText
  | 0x1014, 0 => odRw 4
  | 0x1015, 0 => odRw 2
  | 0x1017, 0 => odRw 2
  | 0x1018, _ => if 1 ≤ sub ∧ sub ≤ 4 then odRo 4 else none
  | 0x2001, 1 => odWo 1
  | 0x2001, 2 => odRw 1
  | 0x2001, 3 => odRw 8
  | 0x2002, 1 => odRo 1
  | 0x2002, 2 => odRo 1
  | 0x2002, 3 => odRo 4
  | 0x2002, 4 => odRo 8
  | 0x2002, 5 => odRo 4
  | 0x2002, 6 => odRo 4
  | 0x2002, 7 => odRo 1
  | 0x2003, 1 => odRo 1
  | 0x2003, _ => if 2 ≤ sub ∧ sub ≤ 6 then odRo 8 else none
  | 0x2004, 1 => odRo 2
  | 0x2004, 2 => odRo 1
  | 0x2004, 3 => odRo 1
  | 0x2004, 4 => odRo 2
  | 0x2004, 5 => odRo 4
  | 0x2005, 5 => odRo 8
  | 0x2005, _ => if 1 ≤ sub ∧ sub ≤ 4 then odRo 2 else none
  | 0x2006, _ => if 1 ≤ sub ∧ sub ≤ 4 then odRo 4 else none
  | 0x2100, 1 => odRw 2
  | 0x2100, 2 => odRwG 1
  | 0x2100, 3 => odRwG 1
  | 0x2100, 4 => odRo 4
  | 0x2101, _ => if 1 ≤ sub ∧ sub ≤ 2 then odRo 1 else none
  | 0x2102, _ => if 1 ≤ sub ∧ sub ≤ 5 then odRwG 1 else none
  | 0x2401, 0 => odText
  | 0x2402, 1 => odWo 32
  | 0x2402, 2 => odText
  | 0x2403, 4 => odRo 48
  | 0x2403, _ => if 1 ≤ sub ∧ sub ≤ 3 then odRo 4 else none
  | 0x2410, 1 => some ⟨none, false, true, false⟩
  | 0x2410, 2 => odText
  | 0x2420, 0 => some ⟨none, false, true, true⟩
  | 0x2F00, 1 => odRw 4
  | 0x2F00, 2 => odRw 4
  | 0x2F00, 3 => odRw 8
  | 0x2F00, 4 => odRw 1
  | _, _ =>
    if 0x1800 ≤ index ∧ index ≤ 0x1803 then
      (if sub = 1 then odRw 4 else if sub = 2 then odRw 1 else if sub = 3 ∨ sub = 5 then odRw 2 else none)
    else if 0x1A00 ≤ index ∧ index ≤ 0x1A03 then
      (if 1 ≤ sub ∧ sub ≤ (tpdoMap (index - 0x1A00)).length then odRo 4 else none)
    else none

/-- An entry: sub-index 0 of an object with several entries holds the highest sub-index, but for 0x1003. -/
def odEntry (index sub : Nat) : Option OdEntry :=
  match odTop index with
  | none => none
  | some top => if sub = 0 ∧ top ≠ 0 ∧ index ≠ 0x1003 then odRo 1 else odItem index sub

/-! ### Values read -/

/-- A flag as a number. -/
def b2n (b : Bool) : Nat := if b then 1 else 0

/-- The communication object of TPDO k + 1. -/
def State.tpdoObj (s : State) (k : Nat) : TpdoObj := Tab.get (TpdoObj.init s.dict.nodeId) s.dict.tpdo k

/-- Bits of the Linkai ports that meet a condition (R400). -/
def portBits (f : Nat → Bool) : Nat := ((upTo 24).filter f).foldl (fun n p => n + 2 ^ p) 0

/-- The rings that are stalled, bit 16p + r (R400). -/
def State.stalledRings (s : State) : Nat :=
  ((upTo 64).filter (fun k => s.flag (R.HNS_RING_STATUS (k / 16) (k % 16)) F.HNS_RING_STATUS_STALLED)).foldl
    (fun n k => n + 2 ^ k) 0

/-- A hexadecimal digit. -/
def hexDigit (n : Nat) : Byte := BitVec.ofNat 8 (if n % 16 < 10 then 48 + n % 16 else 55 + n % 16)

/-- The number that an entry of fixed length holds, but for those of object 0x2F00 sub-indices 2 and 3 (R389 to R403). -/
def State.odNumber (s : State) (p index sub : Nat) : Nat :=
  let d := s.dict
  match index, sub with
  | 0x1001, _ => s.errorRegister
  | 0x1003, 0 => d.history.length
  | 0x1003, k => d.history.getD (k - 1) 0
  | 0x1014, _ => d.cobEmcy
  | 0x1015, _ => d.inhibitEmcy
  | 0x1017, _ => d.heartbeat
  | 0x1018, 1 => d.vendorId
  | 0x1018, 2 => 0x1932
  | 0x1018, 3 => (s.rd R.GLB_ID).toNat / 2 ^ 16 % 256
  | 0x1018, 4 => leNat (s.brd.serial.take 4)
  | 0x2001, 2 => s.fget R.GLB_RUN F.GLB_RUN_START_MODE
  | 0x2001, 3 => s.pair R.GLB_START_AT_LO R.GLB_START_AT_HI
  | 0x2002, 1 => s.runState
  | 0x2002, 2 => s.fget R.GLB_RUN F.GLB_RUN_STOP_REASON
  | 0x2002, 3 => s.runNumber
  | 0x2002, 4 => s.wt
  | 0x2002, 5 => (s.rd R.GLB_STATUS).toNat
  | 0x2002, 6 => (s.rd R.GLB_BOOT).toNat
  | 0x2002, 7 => b2n s.runBusy
  | 0x2003, 1 => (s.rd R.GLB_DEGRADE).toNat % 32
  | 0x2003, k => if s.bit R.GLB_DEGRADE (k - 2) then s.pair (R.GLB_DEGRADE_WT_LO (k - 2)) (R.GLB_DEGRADE_WT_HI (k - 2)) else 0
  | 0x2004, 1 => s.fget R.MON_T_MAX F.MON_T_MAX_READING % 2 ^ 16
  | 0x2004, 2 => s.fget (R.BOB_SR_STATUS 0) F.BOB_SR_STATUS_TEMP
  | 0x2004, 3 => s.fget (R.BOB_SR_STATUS 1) F.BOB_SR_STATUS_TEMP
  | 0x2004, 4 => s.fget (R.MON_V 0) F.MON_V_READING
  | 0x2004, 5 => d.severe
  | 0x2005, 5 => s.stalledRings
  | 0x2005, k => (s.rd (R.HNS_PORT_STATUS (k - 1))).toNat % 2 ^ 16
  | 0x2006, 1 => portBits (fun n => s.lnkState n == lsActive)
  | 0x2006, 2 => portBits (fun n => s.lnkState n == lsFailed)
  | 0x2006, 3 => portBits (fun n => s.lnkState n == lsActive && decide (s.speed n < s.fget (R.LNK_CFG n) F.LNK_CFG_MAX_SPEED))
  | 0x2006, 4 => d.gaps
  | 0x2100, 1 => d.usdoTimeout
  | 0x2100, 2 => b2n d.stopLink0
  | 0x2100, 3 => b2n d.stopLink1
  | 0x2100, 4 => d.abortedWrites
  | 0x2101, 1 => d.nodeFlags
  | 0x2101, 2 => d.nodeId
  | 0x2102, 5 => d.portEn
  | 0x2102, k => if k ≤ 2 then Tab.get (fun _ => 2) d.nomRate (k - 1) else Tab.get (fun _ => 1) d.dataRate (k - 3)
  | 0x2403, 1 => (s.rd R.BRD_OWNER).toNat
  | 0x2403, 2 => (s.rd R.BRD_DEBUG).toNat
  | 0x2403, 3 => (s.rd R.BRD_JSEQ).toNat
  | 0x2F00, 1 => (s.canPort p).address
  | 0x2F00, 4 => b2n d.autoInc
  | _, _ =>
    if 0x1800 ≤ index ∧ index ≤ 0x1803 then
      let t := s.tpdoObj (index - 0x1800)
      (if sub = 1 then t.cobId else if sub = 2 then t.ttype else if sub = 3 then t.inhibit else t.event)
    else if 0x1A00 ≤ index ∧ index ≤ 0x1A03 then
      match (tpdoMap (index - 0x1A00))[sub - 1]? with
      | some m => m.1 * 2 ^ 16 + m.2.1 * 2 ^ 8 + 8 * m.2.2.1
      | none => 0
    else 0

/-- The bytes of an entry of varying length, or of the chain head; none where there is nothing to give. -/
def State.odBytes (s : State) (index sub : Nat) : Option (List Byte) :=
  match index, sub with
  | 0x1008, _ => some (ascii "KF-1932")
  | 0x1009, _ => some [hexDigit ((s.rd R.GLB_ID).toNat / 2 ^ 20), hexDigit ((s.rd R.GLB_ID).toNat / 2 ^ 16)]
  | 0x100A, _ => some Config.firmwareVersion
  | 0x2401, _ => s.brd.cert
  | 0x2402, _ => some s.dict.attestReport
  | 0x2410, _ => some s.dict.sessionOut
  | _, _ => none

/-- What an access of the dictionary comes to: the state, an abort code or 0, and the data of a read. -/
structure OdRes where
  state : State
  abort : Nat
  data : List Byte

/-- How register accesses made for port p are journalled: the secure domain and hart 0, through the dictionary (R404, R421). -/
def dictJournal (p : Nat) : Journal := ⟨srcCode firmware + 16 * p + 32, 0⟩

/-- An access of the firmware: through the bridge, which answers itself while the link is lost; a RETRY is issued again by the
bridge and then counts as BUS_ERR (R375, R377, R397). -/
def State.firmAccess (s : State) (q : HitchReq) (j : Journal) : Answer :=
  if s.hitch.linkLost then ⟨s, .busErr, []⟩
  else
    let r := s.bridgeReady.access q j
    if r.status = .retry then
      ⟨(upTo retryLimit).foldl (fun (x : State) _ => (x.access q j).state) r.state, .busErr, []⟩
    else r

/-- A request of the firmware. -/
def firmReq (write : Bool) (size addr data : Nat) : HitchReq := ⟨firmware, 0, write, size, addr, data, .clean, []⟩

/-- The entries of object 0x2F00 that make a register access: their width at an ADDRESS, and the abort that answers before
anything is accessed (R402). -/
def State.regAbort (s : State) (p : Nat) (write : Bool) (size : Nat) : Nat :=
  let a := (s.canPort p).address
  let ws := accessWords a size
  if a % size ≠ 0 then abValue
  else if ws.any (fun w => w / 0x10000 = 6 || (write && (w / 0x10000 = 5 || w / 0x10000 = 10 || w = R.GLB_BOOT))) then abAccess
  else 0

/-- A register access through object 0x2F00 (R402). -/
def State.dictReg (s : State) (p : Nat) (write : Bool) (size data : Nat) : OdRes :=
  let ab := s.regAbort p write size
  if ab ≠ 0 then ⟨s, ab, []⟩
  else
    let a := (s.canPort p).address
    let r := s.firmAccess (firmReq write size a data) (dictJournal p)
    if r.status = .ok then
      let x := r.state.canPort p
      let t := if r.state.dict.autoInc then r.state.setCan p { x with address := (x.address + size) % 0x4000000 } else r.state
      ⟨t, 0, r.data.foldl (fun b w => b ++ leBytes 4 w) []⟩
    else ⟨r.state, abHardware, []⟩

/-- Entries that reflect registers, which the firmware reads over the link (R400). -/
def reflects (index : Nat) : Bool := decide (0x2001 ≤ index) && decide (index ≤ 0x2006)

/-- A read of an entry (R398 to R403). -/
def State.odRead (s : State) (p index sub : Nat) : OdRes :=
  match odTop index with
  | none => ⟨s, abNoObject, []⟩
  | some top =>
    match odEntry index sub with
    | none => ⟨s, abNoSub, []⟩
    | some e =>
      if !e.read then ⟨s, abWriteOnly, []⟩
      else if sub = 0 ∧ top ≠ 0 ∧ index ≠ 0x1003 then ⟨s, 0, leBytes 1 top⟩
      else if index = 0x2F00 ∧ (sub = 2 ∨ sub = 3) then s.dictReg p false (if sub = 2 then 4 else 8) 0
      else if reflects index && s.hitch.linkLost then ⟨s, abHardware, []⟩
      else if index = 0x2403 ∧ sub = 4 then ⟨s, 0, s.brd.head⟩
      else
        match e.size with
        | some n => ⟨s, 0, leBytes n (s.odNumber p index sub)⟩
        | none =>
          match s.odBytes index sub with
          | some b => ⟨s, 0, b⟩
          | none => ⟨s.took, 1 + s.free % (2 ^ 32 - 1), []⟩

/-! ### CAN frames and NMT -/

/-- A frame of a port. -/
def State.canSend (s : State) (p cob : Nat) (bytes : List Byte) : State :=
  if s.canOn p then s.emit (.canFrame p cob bytes) else s

/-- An answer of a port's USDO server. -/
def State.usdo (s : State) (p abort : Nat) (bytes : List Byte) : State :=
  if s.canOn p then s.emit (.usdoAnswer p abort bytes) else s

/-- A port's heartbeat or boot-up message (R392, R394). -/
def State.canBeat (s : State) (p code : Nat) : State :=
  (s.setCan p { s.canPort p with lastBeat := s.beats }).canSend p (0x700 + s.dict.nodeId) (leBytes 1 code)

/-- NMT states. -/
def nmtPreOp : Nat := 127
def nmtOperational : Nat := 5
def nmtStopped : Nat := 4

/-- Requests of a port that are not answered are dropped, where its communication ends or starts anew. -/
def State.dictDrop (s : State) (p : Nat) : State :=
  { s with dict := { s.dict with waiting := s.dict.waiting.filter (fun q => q.port ≠ p) } }

/-- A port takes the rates of object 0x2102 (R389). -/
def State.canRates (s : State) (p : Nat) : State :=
  s.setCan p { s.canPort p with
    nomRate := Tab.get (fun _ => 2) s.dict.nomRate p, dataRate := Tab.get (fun _ => 1) s.dict.dataRate p }

/-- A port starts its communication: boot-up, Pre-operational (R392). -/
def State.canStart (s : State) (p : Nat) : State :=
  ((s.dictDrop p).setCan p { s.canPort p with nmt := nmtPreOp, tpdo := [], usdo := none }).canBeat p 0

/-- A port starts with the rates of object 0x2102. -/
def State.canBoot (s : State) (p : Nat) : State := (s.canRates p).canStart p

/-- The communication objects but 0x2102 take their reset values (R392); the counts since NRESET stay. -/
def State.commReset (s : State) : State :=
  let d := DictSt.init
  { s with dict := { s.dict with
    inhibitEmcy := d.inhibitEmcy, heartbeat := d.heartbeat, usdoTimeout := d.usdoTimeout, stopLink0 := false, stopLink1 := false
    cobEmcy := 0x80 + s.dict.nodeId, history := [], tpdo := [] } }

/-- An NMT command that changed a port's state is journalled (R404, R421). -/
def State.nmtJournal (s : State) (p code : Nat) : State :=
  let s1 := s.bridgeReady
  s1.jsoft (s1.jentry 4 (dictJournal p).src 0 0 code) true

/-- The mapped values of TPDO k + 1, as sent (R403). -/
def State.tpdoBytes (s : State) (p k : Nat) : List Byte :=
  (tpdoMap k).foldl (fun b m => b ++ leBytes m.2.2.1 (s.odNumber p m.1 m.2.1)) []

/-- The mapped values whose change sends TPDO k + 1. -/
def State.tpdoSeen (s : State) (p k : Nat) : List Byte :=
  (tpdoMap k).foldl (fun b m => if m.2.2.2 then b ++ leBytes m.2.2.1 (s.odNumber p m.1 m.2.1) else b) []

/-- A port's sending of TPDO k + 1. -/
def State.tpdoTx (s : State) (p k : Nat) : TpdoTx := Tab.get (fun _ => TpdoTx.init) (s.canPort p).tpdo k

/-- A port's sending of TPDO k + 1 replaced. -/
def State.setTpdoTx (s : State) (p k : Nat) (x : TpdoTx) : State :=
  s.setCan p { s.canPort p with tpdo := Tab.put (fun _ => TpdoTx.init) (s.canPort p).tpdo k x }

/-- TPDO k + 1 is sent by a port: Operational, enabled, and the firmware reaches the values (R403). -/
def State.tpdoLive (s : State) (p k : Nat) : Bool :=
  s.canOn p && (s.canPort p).nmt == nmtOperational && decide ((s.tpdoObj k).cobId / 2 ^ 31 % 2 = 0) && !s.hitch.linkLost

/-- TPDO k + 1 of a port is sent. -/
def State.tpdoSend (s : State) (p k : Nat) : State :=
  (s.setTpdoTx p k ⟨s.beats, true, s.tpdoSeen p k⟩).canSend p ((s.tpdoObj k).cobId % 2 ^ 11) (s.tpdoBytes p k)

/-- A port becomes Operational: its event timers start, and changes count from here. -/
def State.tpdoStart (s : State) (p : Nat) : State :=
  (upTo 4).foldl (fun x k => x.setTpdoTx p k ⟨x.beats, false, x.tpdoSeen p k⟩) s

/-- A port goes into an NMT state. -/
def State.nmtGo (s : State) (p st : Nat) : State :=
  let s0 := if st = nmtStopped then s.dictDrop p else s
  let s1 := s0.setCan p { s.canPort p with nmt := st, usdo := if st = nmtStopped then none else (s.canPort p).usdo }
  if st = nmtOperational then s1.tpdoStart p else s1

/-! ### Oseri images -/

/-- An image that a requester, as the journal codes it, has had checked passed (R408). -/
def State.imageBy (s : State) (src : Nat) (image : List Byte) : State :=
  State.imagePassed { s with brd := { s.brd with cmdSrc := src } } image

/-- Entries of an Oseri image written in order, from number i: the state, and the number of the entry that failed (R410). -/
def State.oseriWrite (s : State) (j : Journal) (payload : List Byte) (i : Nat) : Nat → State × Option Nat
  | 0 => (s, none)
  | n + 1 =>
    let a := recNat payload (16 * i) 8
    let value := w32 (recNat payload (16 * i + 8) 4)
    let mask := w32 (recNat payload (16 * i + 12) 4)
    let r := if mask = 0xFFFFFFFF#32 then (⟨s, .ok, [0]⟩ : Answer) else s.firmAccess (firmReq false 4 a 0) j
    if r.status ≠ .ok then (r.state, some i)
    else
      let v := (w32 (r.data.getD 0 0) &&& ~~~mask) ||| (value &&& mask)
      let w := r.state.firmAccess (firmReq true 4 a v.toNat) j
      if w.status ≠ .ok then (w.state, some i) else w.state.oseriWrite j payload (i + 1) n

/-- A verified Oseri image is applied: its writes between OSERI_BEGIN and OSERI_END; the configuration counts as sealed from the
end of an image that was applied whole (R410, R411). -/
def State.oseriApply (s : State) (src : Nat) (image : List Byte) : State × Bool :=
  let payload := imagePayload image
  let n := payload.length / 16
  let digest := recNat image 24 8
  let s0 := s.bridgeReady
  let s1 := s0.jsoft (s0.jentry 9 src 4 digest n) true
  let r := s1.oseriWrite ⟨src, 4⟩ payload 0 n
  let s2 := r.1.bridgeReady
  let e := s2.jentry 10 src 4 digest (match r.2 with
    | none => n
    | some i => n + 2 ^ 32 * i)
  let s3 := s2.jsoft e true
  ({ s3 with brd := { s3.brd with sealed := r.2.isNone } }, r.2.isNone)

/-- The image is an Oseri image that may be applied now: it passed, and the device is IDLE or CONFIGURED (R410). -/
def State.oseriReady (s : State) (image : List Byte) : Bool :=
  s.atRest && !s.hitch.linkLost && s.imageCheck image == some brOk && recNat image 4 1 == 3

/-! ### Values written -/

/-- The firmware runs a command of the Bridle over its buffer for port p: the state it ends in, and whether it ended OK. -/
def State.firmBridle (s : State) (p code : Nat) (input : List Byte) (run : State → Host.Outcome State Fault Refusal) :
    State × Bool :=
  let j := dictJournal p
  let put (x : State) (a v : Nat) : State := (x.firmAccess (firmReq true 4 a v) j).state
  let s1 := (upTo ((input.length + 3) / 4)).foldl (fun x i => put x (0x68000 + 4 * i) (recNat input (4 * i) 4)) s
  let go := (put s1 R.BRD_CMD_LEN input.length).firmAccess (firmReq true 4 R.BRD_CMD (code + 2 ^ 8)) j
  let t := go.state.after (run go.state)
  if go.status = .ok then (t, !t.flag R.BRD_CMD F.BRD_CMD_GO && t.fget R.BRD_CMD F.BRD_CMD_RESULT == brOk) else (go.state, false)

/-- The output of the Bridle's latest command. -/
def State.bridleOut (s : State) : List Byte := getBytes s.brd.buf 0 (s.rd R.BRD_OUT_LEN).toNat

/-- A command of the Bridle through the dictionary; a result that is not OK has an abort code that the spec does not give. -/
def State.dictBridle (s : State) (p code : Nat) (input : List Byte) (run : State → Host.Outcome State Fault Refusal)
    (keep : State → List Byte → State) : State × Nat :=
  if s.flag R.BRD_CMD F.BRD_CMD_GO then (s, abBusy)
  else if s.hitch.linkLost then (s, abHardware)
  else
    let r := s.firmBridle p code input run
    if r.2 then (keep r.1 r.1.bridleOut, 0) else ((keep r.1 []).took, 1 + r.1.free % (2 ^ 32 - 1))

/-- Object 0x2102 sub-index 5: a port that takes part from now on boots, one that does not stops (R389, R392). -/
def State.portEnWrite (s : State) (v : Nat) : State :=
  let stage := s.bootStage
  let served := stage == bsUserLoad || stage == bsUser || (stage == bsFailed && s.fget R.GLB_BOOT F.GLB_BOOT_FAIL_STAGE == bsUserLoad)
  (upTo 2).foldl (fun x p =>
    let on := decide (v / 2 ^ p % 2 = 1)
    if on && served && (x.canPort p).nmt == 0 then x.canBoot p
    else if on then x
    else (x.dictDrop p).setCan p { x.canPort p with nmt := 0, usdo := none }) { s with dict := { s.dict with portEn := v } }

/-- Object 0x2102 takes its reset values, those of the COMM record that boot applied (R389, R392, R432). -/
def State.commRecord (s : State) : State :=
  let v (k : Nat) : Nat := s.dict.comm.getD k 0
  let tab (d a b : Nat) : Tab Nat := Tab.put (fun _ => d) (Tab.put (fun _ => d) [] 0 (v a)) 1 (v b)
  State.portEnWrite { s with dict := { s.dict with nomRate := tab 2 0 1, dataRate := tab 1 2 3 } } (v 4)

/-- GLB_RUN as the firmware writes it: START_MODE kept or given, and a command code (R401). -/
def runWord (mode code : Nat) : Nat := 128 * mode + 16 * code

/-- A run command by the dictionary: refused where GLB_RUN refuses it (R401). -/
def State.dictRun (s : State) (p code : Nat) : State × Nat :=
  if (s.canPort p).nmt = nmtPreOp then (s, abState)
  else if code = 0 ∨ 5 < code then (s, abValue)
  else
    let ready := s.bridgeReady
    let open_ := ready.foff R.GLB_STATUS F.GLB_STATUS_CMD_REFUSED
    let mode := s.fget R.GLB_RUN F.GLB_RUN_START_MODE
    let refused := ((open_.after (match code with
      | 1 => execConfigure open_
      | 2 => execArm open_
      | 3 => execStart open_
      | 4 => execStop open_
      | _ => execAbort open_)).flag R.GLB_STATUS F.GLB_STATUS_CMD_REFUSED)
    let r := s.firmAccess (firmReq true 4 R.GLB_RUN (runWord mode code)) (dictJournal p)
    if r.status ≠ .ok then (r.state, abHardware) else (r.state, if refused then abState else 0)

/-- What a confirmed write of an entry does: the state, and an abort code or 0 (R389 to R403; log entry 271). -/
def State.odAct (s : State) (p index sub : Nat) (bytes : List Byte) : State × Nat :=
  let v := leNat bytes
  let d := s.dict
  let put (d1 : DictSt) : State × Nat := ({ s with dict := d1 }, 0)
  let firm (size a data : Nat) : State × Nat :=
    let r := s.firmAccess (firmReq true size a data) (dictJournal p)
    (r.state, if r.status = .ok then 0 else abHardware)
  match index, sub with
  | 0x1003, _ => if v = 0 then put { d with history := [] } else (s, abValue)
  | 0x1014, _ => if 2 ^ 11 ≤ v % 2 ^ 30 then (s, abValue) else put { d with cobEmcy := v }
  | 0x1015, _ => put { d with inhibitEmcy := v }
  | 0x1017, _ => put { d with heartbeat := v }
  | 0x2001, 1 => s.dictRun p v
  | 0x2001, 2 => if 1 < v then (s, abValue) else firm 4 R.GLB_RUN (runWord v 0)
  | 0x2001, 3 => firm 8 R.GLB_START_AT_LO v
  | 0x2100, 1 => put { d with usdoTimeout := v }
  | 0x2100, 2 => if 1 < v then (s, abValue) else put { d with stopLink0 := decide (v = 1) }
  | 0x2100, 3 => if 1 < v then (s, abValue) else put { d with stopLink1 := decide (v = 1) }
  | 0x2102, 5 => if 3 < v then (s, abValue) else (s.portEnWrite v, 0)
  | 0x2102, k =>
    if k ≤ 2 then
      (if 3 < v then (s, abValue) else put { d with nomRate := Tab.put (fun _ => 2) d.nomRate (k - 1) v })
    else (if 4 < v then (s, abValue) else put { d with dataRate := Tab.put (fun _ => 1) d.dataRate (k - 3) v })
  | 0x2402, _ => s.dictBridle p 3 bytes execAttest (fun x b => { x with dict := { x.dict with attestReport := b } })
  | 0x2410, _ =>
    s.dictBridle p 1 bytes execSessionOpen (fun x b => { x with dict := { x.dict with sessionIn := bytes, sessionOut := b } })
  | 0x2420, _ =>
    if s.imageCheck bytes = some brOk ∧ recNat bytes 4 1 = 3 ∧ s.hitch.linkLost = false then
      let r := (s.imageBy (dictJournal p).src bytes).oseriApply (dictJournal p).src bytes
      (r.1, if r.2 then 0 else abHardware)
    else (s.took, 1 + s.free % (2 ^ 32 - 1))
  | 0x2F00, 1 => if v % 4 ≠ 0 ∨ 0x3FFFFFC < v then (s, abValue) else (s.setCan p { s.canPort p with address := v }, 0)
  | 0x2F00, 2 => ((s.dictReg p true 4 v).state, (s.dictReg p true 4 v).abort)
  | 0x2F00, 3 => ((s.dictReg p true 8 v).state, (s.dictReg p true 8 v).abort)
  | 0x2F00, _ => if 1 < v then (s, abValue) else put { d with autoInc := decide (v = 1) }
  | _, _ =>
    let k := index - 0x1800
    let t := s.tpdoObj k
    let set (t1 : TpdoObj) : State × Nat := put { d with tpdo := Tab.put (TpdoObj.init d.nodeId) d.tpdo k t1 }
    if sub = 1 then (if 2 ^ 11 ≤ v % 2 ^ 30 then (s, abValue) else set { t with cobId := v })
    else if sub = 2 then (if v = 0xFE ∨ v = 0xFF then set { t with ttype := v } else (s, abValue))
    else if sub = 3 then set { t with inhibit := v }
    else set { t with event := v }

/-- The abort that answers a write before it does anything, or 0 (R398, R399). -/
def State.odWriteAbort (s : State) (index sub len : Nat) : Nat :=
  match odTop index, odEntry index sub with
  | none, _ => abNoObject
  | some _, none => abNoSub
  | some _, some e =>
    if !e.write then abReadOnly
    else if (match e.size with
        | some n => decide (len ≠ n)
        | none => decide (4096 < len)) = true then abLength
    else if e.gated && !s.atRest then abState
    else 0

/-- Dictionary writes that leave a sealed configuration sealed (R411). -/
def dictKeeps (index sub : Nat) : Bool := (index == 0x2001 && sub == 1) || (index == 0x2F00 && (sub == 1 || sub == 4))

/-- A dictionary write answered with an abort is counted (R404). -/
def State.writeAborted (s : State) (p abort : Nat) : State :=
  State.usdo { s with dict := { s.dict with abortedWrites := (s.dict.abortedWrites + 1) % 2 ^ 32 } } p abort []

/-- A dictionary write is served: confirmed, with its journal entry before those of the register writes that it causes, or
answered with an abort and counted (R396 to R404). -/
def State.odWrite (s : State) (p client index sub : Nat) (bytes : List Byte) : State :=
  let ab := s.odWriteAbort index sub bytes.length
  if ab ≠ 0 then s.writeAborted p ab
  else
    let s0 := s.bridgeReady
    let e := s0.jentry 4 (dictJournal p).src 0 (index + 2 ^ 16 * sub + 2 ^ 24 * client) (leNat (bytes.take 8))
    let r := (s0.jsoft e (dictKeeps index sub)).odAct p index sub bytes
    if r.2 = 0 then r.1.usdo p 0 []
    else
      let t := s0.odAct p index sub bytes
      t.1.writeAborted p t.2

/-- Bytes that an expedited answer and a segment of an upload carry at most (CiA 1301). -/
def expeditedMax : Nat := 56
def segmentMax : Nat := 60

/-- A read of an entry is served: at once, or as a segmented transfer where it is long (R396). -/
def State.odUpload (s : State) (p client index sub : Nat) : State :=
  let r := s.odRead p index sub
  if r.abort ≠ 0 then r.state.usdo p r.abort []
  else if r.data.length ≤ expeditedMax then r.state.usdo p 0 r.data
  else
    (r.state.setCan p { r.state.canPort p with
      usdo := some ⟨false, index, sub, r.data, r.data.length, r.state.beats, client⟩ }).usdo p 0 []

/-! ### Requests in turn -/

/-- The request reads or writes registers over the link. -/
def DictReq.touches (q : DictReq) : Bool :=
  reflects q.index || (q.index == 0x2F00 && (q.sub == 2 || q.sub == 3)) || [0x2402, 0x2410, 0x2420].contains q.index

/-- The access on whose answer a request waits: that of object 0x2F00, and the GO of a key operation, unless the request is aborted before it
(R377, R402). -/
def State.dictProbe (s : State) (q : DictReq) : Option HitchReq :=
  let size := if q.sub = 2 then 4 else 8
  if (q.data.any (fun b => s.odWriteAbort q.index q.sub b.length != 0)) then none
  else if q.index = 0x2F00 ∧ (q.sub = 2 ∨ q.sub = 3) then
    (if s.regAbort q.port q.data.isSome size ≠ 0 then none
      else some (firmReq q.data.isSome size (s.canPort q.port).address (leNat (q.data.getD []))))
  else if q.data.isNone then none
  else if q.index = 0x2402 then some (firmReq true 4 R.BRD_CMD (3 + 2 ^ 8))
  else if q.index = 0x2410 then some (firmReq true 4 R.BRD_CMD (1 + 2 ^ 8))
  else none

/-- The accesses of a request cannot take effect now: the link retrains, a request that came before waits, or its own does (R220, R374,
R378, R397). -/
def State.dictStuck (s : State) (q : DictReq) : Bool :=
  q.touches && !s.hitch.linkLost
    && (s.linkRetrains || s.hitch.held.any (fun h => !h.isHbm && s.reqBlocked h) || (s.dictProbe q).any (fun r => s.reqBlocked r))

/-- A request waits behind those before it. -/
def State.dictHold (s : State) (q : DictReq) : State := { s with dict := { s.dict with waiting := s.dict.waiting ++ [q] } }

/-- A request is served: a write, or a read where no transfer is open on its port (R396). -/
def State.dictDo (s : State) (q : DictReq) : State :=
  match q.data with
  | some b => s.odWrite q.port q.client q.index q.sub b
  | none => if (s.canPort q.port).usdo.isSome then s.usdo q.port abBusy [] else s.odUpload q.port q.client q.index q.sub

/-- A request whose access the bridge has issued for the last time: BUS_ERR, which GLB_BUSERR latches (R377, R402). -/
def State.dictFail (s : State) (q : DictReq) (r : HitchReq) : State :=
  let s1 := s.busErr firmware 0 r.write r.addr false
  if q.data.isSome then s1.writeAborted q.port abHardware else s1.usdo q.port abHardware []

/-- The firmware serves a request, whose access the bridge has issued again a number of times; it waits where the access does, and where the
answer is RETRY (R377, R397, R402). -/
def State.dictServe (s : State) (q : DictReq) (tries : Nat) : State :=
  let t := if q.touches then s.bridgeReady else s
  if t.dictStuck q then t.dictHold q
  else
    match t.dictProbe q with
    | none => t.dictDo q
    | some r =>
      if !t.hitch.linkLost && (t.verdict r).again then
        let x := (t.access r (dictJournal q.port)).state
        if tries < retryLimit then x.dictHold { q with retry := some (tries, x.beats) } else x.dictFail q r
      else t.dictDo q

/-- A request is served, or waits its turn (R397). -/
def State.dictAsk (s : State) (q : DictReq) : State :=
  if s.dict.waiting.isEmpty && q.retry.isNone then s.dictServe q 0 else s.dictHold q

/-- The requests that waited, in the order in which they came. -/
def State.dictResume (s : State) : State :=
  s.dict.waiting.foldl (fun x q => x.dictAsk q) { s with dict := { s.dict with waiting := [] } }

/-- What waited for the link, for the palette or for the firmware's access goes on. -/
def State.resumeAll (s : State) : State := s.hitchResume.dictResume.hitchResume

/-- The bridge issues the firmware's access again, 64 beats after its RETRY (R377). -/
def State.dictReissue (s : State) : State :=
  match s.dict.waiting with
  | [] => s
  | q :: rest =>
    match q.retry with
    | none => s
    | some (n, b) =>
      if b + 64 ≤ s.beats then
        (rest.foldl (fun x e => x.dictAsk e)
          (State.dictServe { s with dict := { s.dict with waiting := [] } } q (n + 1))).hitchResume
      else s

end Sys2Proof.Machine
end

