-- ==== Sys2Proof/Machine/Dictionary.lean ====
section
/-!
DEFINITION. The commands of the dictionary and its CAN ports (R389 to R404), and the application of an Oseri image (R410).
-/

namespace Sys2Proof.Machine

/-! ### NMT -/

/-- NMT_START_REMOTE_NODE: the port becomes Operational (R392). -/
def execNmtStartRemoteNode (port : Fin 2) (s : State) : Host.Outcome State Fault Refusal :=
  let p := port.val
  .next (
    if s.canOn p ∧ (s.canPort p).nmt ≠ nmtOperational then (s.nmtJournal p 1).nmtGo p nmtOperational else s)

/-- NMT_STOP_REMOTE_NODE: the port becomes Stopped; in RUNNING, with its STOP_LINK, GLB STOP is issued, which is journalled as a run command
that is accepted (R392, R404). -/
def execNmtStopRemoteNode (port : Fin 2) (s : State) : Host.Outcome State Fault Refusal :=
  let p := port.val
  let link := if p = 0 then s.dict.stopLink0 else s.dict.stopLink1
  .next (
    if s.canOn p then
      let s1 := if (s.canPort p).nmt ≠ nmtStopped then (s.nmtJournal p 2).nmtGo p nmtStopped else s
      if link = true ∧ s1.runState = rsRunning then
        ((s1.nmtJournal p rcStop).firmAccess (firmReq true 4 R.GLB_RUN (runWord (s1.fget R.GLB_RUN F.GLB_RUN_START_MODE) rcStop)) (dictJournal p)).state
      else s1
    else s)

/-- NMT_ENTER_PRE_OPERATIONAL (R392). -/
def execNmtEnterPreOperational (port : Fin 2) (s : State) : Host.Outcome State Fault Refusal :=
  let p := port.val
  .next (if s.canOn p ∧ (s.canPort p).nmt ≠ nmtPreOp then (s.nmtJournal p 128).nmtGo p nmtPreOp else s)

/-- NMT_RESET_COMMUNICATION: the port takes the rates written to object 0x2102; the communication objects, that one too, take their reset
values; boot-up, Pre-operational (R389, R392). -/
def execNmtResetCommunication (port : Fin 2) (s : State) : Host.Outcome State Fault Refusal :=
  let p := port.val
  .next (if s.canOn p then 
      let s1 := ((s.nmtJournal p 130).canRates p).commReset.commRecord
      if s1.canOn p then s1.canStart p else s1
    else s)

/-- NMT_RESET_NODE: every object but 0x2102 takes its reset value; in ARMED, RUNNING or STOPPING as Reset Communication (R392). -/
def execNmtResetNode (port : Fin 2) (s : State) : Host.Outcome State Fault Refusal :=
  let p := port.val
  .next (
    if s.canOn p then
      let s1 := (s.nmtJournal p 129).commReset
      if s1.atRest then
          State.canBoot (State.setCan { s1 with dict := { s1.dict with autoInc := false, attestReport := [], sessionIn := [], sessionOut := [] } } p
            { s1.canPort p with address := 0 }) p
      else
        let s2 := (s1.canRates p).commRecord
        if s2.canOn p then s2.canStart p else s2
    else s)

/-! ### USDO -/

/-- The port's USDO server serves requests: Pre-operational and Operational (R393). -/
def State.usdoServes (s : State) (p : Nat) : Bool :=
  s.canOn p && ((s.canPort p).nmt == nmtPreOp || (s.canPort p).nmt == nmtOperational)

/-- USDO_DOWNLOAD: a write of an entry, with its data, or the opening of a segmented one of some length (R396). -/
def execUsdoDownload (port : Fin 2) (client : BitVec 7) (index : BitVec 16) (sub : BitVec 8) (total : Option Nat)
    (data : List (BitVec 8)) (s : State) : Host.Outcome State Fault Refusal :=
  let p := port.val
  .next (
    if !s.usdoServes p then s
    else if (s.canPort p).usdo.isSome then s.writeAborted p abBusy
    else
      match total with
      | none => s.dictAsk ⟨p, client.toNat, index.toNat, sub.toNat, some data, none⟩
      | some n =>
        if 4096 < n then s.writeAborted p abMemory
        else
          (s.setCan p { s.canPort p with
            usdo := some ⟨true, index.toNat, sub.toNat, [], n, s.beats, client.toNat⟩ }).usdo p 0 [])

/-- USDO_UPLOAD (R396). -/
def execUsdoUpload (port : Fin 2) (client : BitVec 7) (index : BitVec 16) (sub : BitVec 8) (s : State) :
    Host.Outcome State Fault Refusal :=
  let p := port.val
  .next (
    if !s.usdoServes p then s
    else if (s.canPort p).usdo.isSome then s.usdo p abBusy []
    else s.dictAsk ⟨p, client.toNat, index.toNat, sub.toNat, none, none⟩)

/-- USDO_SEGMENT: the next segment of the port's open transfer; the last of a download completes its write (R396). -/
def execUsdoSegment (port : Fin 2) (data : List (BitVec 8)) (last : Bool) (s : State) : Host.Outcome State Fault Refusal :=
  let p := port.val
  let x := s.canPort p
  .next (
    match x.usdo with
    | none => s
    | some u =>
      if !s.usdoServes p then s
      else
        let closed := s.setCan p { x with usdo := none }
        if u.download then
          let all := u.bytes ++ data
          if 4096 < all.length then closed.writeAborted p abMemory
          else if last then
            (if all.length = u.expected then closed.dictAsk ⟨p, u.client, u.index, u.sub, some all, none⟩ else closed.writeAborted p abLength)
          else (s.setCan p { x with usdo := some { u with bytes := all, since := s.beats } }).usdo p 0 []
        else
          let rest := u.bytes.drop segmentMax
          (if rest.isEmpty then closed else s.setCan p { x with usdo := some { u with bytes := rest, since := s.beats } }).usdo p 0
            (u.bytes.take segmentMax))

/-- USDO_TIMEOUT: no segment has come for USDO_TIMEOUT ms, and the transfer is aborted (R396). -/
def execUsdoTimeout (port : Fin 2) (s : State) : Host.Outcome State Fault Refusal :=
  let p := port.val
  let x := s.canPort p
  let limit := beatsPerMs * (if s.dict.usdoTimeout = 0 then 1000 else s.dict.usdoTimeout)
  .next (
    match x.usdo with
    | none => s
    | some u =>
      if u.since + limit ≤ s.beats then
        let closed := s.setCan p { x with usdo := none }
        if u.download then closed.writeAborted p abTimeout else closed.usdo p abTimeout []
      else s)

/-- DICT_RUN_CMD: a write of object 0x2001 sub-index 1 (R393, R401). -/
def execDictRunCmd (port : Fin 2) (client : BitVec 7) (data : List (BitVec 8)) (s : State) : Host.Outcome State Fault Refusal :=
  let p := port.val
  .next (
    if !s.usdoServes p then s
    else if (s.canPort p).usdo.isSome then s.writeAborted p abBusy
    else s.dictAsk ⟨p, client.toNat, 0x2001, 1, some data, none⟩)

/-- DICT_REG_ACCESS: a write, with its data, or a read of object 0x2F00 sub-index 2 or 3 (R402). -/
def execDictRegAccess (port : Fin 2) (client : BitVec 7) (wide : Bool) (write : Bool) (data : List (BitVec 8)) (s : State) :
    Host.Outcome State Fault Refusal :=
  let p := port.val
  let sub := if wide then 3 else 2
  .next (
    if !s.usdoServes p then s
    else if (s.canPort p).usdo.isSome then (if write then s.writeAborted p abBusy else s.usdo p abBusy [])
    else s.dictAsk ⟨p, client.toNat, 0x2F00, sub, if write then some data else none, none⟩)

/-- OSERI_APPLY: an image that passed, which may raise the owner version, is applied by the firmware, in IDLE and CONFIGURED (R410). -/
def execOseriApply (image : List (BitVec 8)) (s : State) : Host.Outcome State Fault Refusal :=
  .next (if s.oseriReady image then ((s.imageBy (srcCode firmware) image).oseriApply (srcCode firmware) image).1 else s)

/-! ### Timers and the bus -/

/-- HEARTBEAT: the producer time has passed, at least 10 ms; 0 disables it (R394). -/
def execHeartbeat (port : Fin 2) (s : State) : Host.Outcome State Fault Refusal :=
  let p := port.val
  let x := s.canPort p
  .next (
    if s.canOn p = true ∧ s.dict.heartbeat ≠ 0 ∧ x.lastBeat + beatsPerMs * max 10 s.dict.heartbeat ≤ s.beats then
      s.canBeat p x.nmt
    else s)

/-- EMCY_INHIBIT_END: the oldest EMCY held back is sent (R395). -/
def execEmcyInhibitEnd (port : Fin 2) (s : State) : Host.Outcome State Fault Refusal :=
  let p := port.val
  let x := s.canPort p
  let past := match x.lastEmcy with
    | some b => decide (b + 120000 * s.dict.inhibitEmcy ≤ s.beats)
    | none => true
  .next (
    match x.held with
    | [] => s
    | e :: rest =>
      if past = true ∧ s.canOn p = true then
        (s.setCan p { x with held := rest, lastEmcy := some s.beats }).emit
          (.canFrame p (s.dict.cobEmcy % 2 ^ 11) (e.bytes s.errorRegister))
      else s)

/-- TPDO_EVENT_TIMER: the event timer of TPDO k + 1 expires (R403). -/
def execTpdoEventTimer (port : Fin 2) (k : Fin 4) (s : State) : Host.Outcome State Fault Refusal :=
  let p := port.val
  let t := s.tpdoObj k.val
  .next (
    if s.tpdoLive p k.val = true ∧ t.event ≠ 0 ∧ (s.tpdoTx p k.val).since + beatsPerMs * t.event ≤ s.beats then s.tpdoSend p k.val
    else s)

/-- TPDO_INHIBIT_END: a mapped value has changed, and the inhibit time since the previous sending is over (R403). -/
def execTpdoInhibitEnd (port : Fin 2) (k : Fin 4) (s : State) : Host.Outcome State Fault Refusal :=
  let p := port.val
  let x := s.tpdoTx p k.val
  .next (
    if s.tpdoLive p k.val = true ∧ x.seen ≠ s.tpdoSeen p k.val
        ∧ (x.sent = false ∨ x.since + 120000 * (s.tpdoObj k.val).inhibit ≤ s.beats) then
      s.tpdoSend p k.val
    else s)

/-- CAN_BUS_OFF_RECOVERY: EMCY 0x8140, which ends at once (R389, R395). -/
def execCanBusOffRecovery (port : Fin 2) (s : State) : Host.Outcome State Fault Refusal :=
  let p := port.val
  .next ((s.emcyOn p 0x8140 4 p).emcyOff p 0x8140 p)

/-- CAN_RX_OVERRUN: a receive overrun begins, or clears (R395). -/
def execCanRxOverrun (port : Fin 2) (clear : Bool) (s : State) : Host.Outcome State Fault Refusal :=
  let p := port.val
  .next (
    if clear then s.emcyOff p 0x8110 p
    else if (s.canPort p).active.any (fun c => c.1 = 0x8110) then s
    else s.emcyOn p 0x8110 4 p)

/-- CAN_ERROR_PASSIVE (R395). -/
def execCanErrorPassive (port : Fin 2) (s : State) : Host.Outcome State Fault Refusal :=
  let p := port.val
  .next (if (s.canPort p).active.any (fun c => c.1 = 0x8120) then s else s.emcyOn p 0x8120 4 p)

/-- CAN_ERROR_ACTIVE (R395). -/
def execCanErrorActive (port : Fin 2) (s : State) : Host.Outcome State Fault Refusal :=
  .next (s.emcyOff port.val 0x8120 port.val)

end Sys2Proof.Machine
end

