-- ==== Sys2Proof/Machine/Control.lean ====
section
/-!
DEFINITION. The commands of the register fabric, of the in-package link and of boot (R363 to R388), and the chaining of journal
entries (R420).
-/

namespace Sys2Proof.Machine

/-! ### Accesses -/

/-- PALETTE_COPY_DONE: the pending copy is the active one, and palette writes that waited complete (R220). -/
def execPaletteCopyDone (s : State) : Host.Outcome State Fault Refusal :=
  .next (
    if s.pnl.palCopy then
      let s1 := { s with pnl := { s.pnl with palActive := s.pnl.palPending, palCopy := false, palWaiting := [] } }
      let s2 := s.pnl.palWaiting.foldl (fun x w => x.palWrite w.1 w.2) s1
      s2.resumeAll
    else s)

/-- REGISTER_WRITE: a Hitch write of a register or a window (R365 to R373). -/
def execRegisterWrite (src : Src) (tag : Nat) (addr : BitVec 48) (size : Nat) (data : BitVec 64) (s : State) :
    Host.Outcome State Fault Refusal :=
  .next (s.hitch_ ⟨src, tag, true, size, addr.toNat, data.toNat, .clean, []⟩)

/-- ALIAS_WRITE: a Hitch write of a bit-alias word, at an offset in the window (R371). -/
def execAliasWrite (src : Src) (tag : Nat) (offset : BitVec 29) (size : Nat) (data : BitVec 64) (s : State) :
    Host.Outcome State Fault Refusal :=
  .next (s.hitch_ ⟨src, tag, true, size, aliasBase + offset.toNat, data.toNat, .clean, []⟩)

/-- SH_LOW_READ: a Hitch read of the low word of an SH pair, alone or with its high word (R367, R369). -/
def execShLowRead (src : Src) (tag : Nat) (addr : BitVec 48) (wide : Bool) (s : State) : Host.Outcome State Fault Refusal :=
  .next (s.hitch_ ⟨src, tag, false, if wide then 8 else 4, addr.toNat, 0, .clean, []⟩)

/-- HITCH_READ: a Hitch read of a register, a window or a bit alias (R365, R367, R371) (R267). -/
def execHitchRead (src : Src) (tag : Nat) (addr : BitVec 48) (load : HitchLoad) (s : State) : Host.Outcome State Fault Refusal :=
  .next (s.hitch_ ⟨src, tag, false, load.size, addr.toNat, 0, load.ecc, []⟩)

/-- The bytes of an HBM write with the byte enables of its first and last word (R368). -/
def enabledBytes (be : BitVec 8) (data : List Byte) : List (Option Byte) :=
  let n := data.length
  (upTo n).map (fun i =>
    let on := if i < 4 then be.getLsbD i else if n ≤ i + 4 then be.getLsbD (4 + (i + 4 - n)) else true
    if on then data[i]? else none)

/-- HITCH_HBM_ACCESS: a Hitch request to HBM (R368, R375, R378, R379); at an address outside HBM it is the request that R363 sends there. -/
def execHitchHbmAccess (src : Src) (tag : Nat) (addr : BitVec 48) (len : Nat) (be : BitVec 8)
    (data : Option (List (BitVec 8))) (s : State) : Host.Outcome State Fault Refusal :=
  let bytes := data.getD []
  .next (s.hitch_ ⟨src, tag % 1024, data.isSome, len, addr.toNat, leNat bytes, .clean, enabledBytes be (fit len bytes)⟩)

/-- HBM_ACCESS_DONE: the request that a pseudo-channel serves next completes, where the bank queues given are ready under the timing set;
at most one in a beat. activate: it opened a row (R176, R178 to R181). A poke and
the Hitch requests that waited for it go on (R325, R378). -/
def execHbmAccessDone (pc : Fin 64) (ready : BitVec 48) (how : AccessEnd) (activate : Bool) (s : State) :
    Host.Outcome State Fault Refusal :=
  let q := pc.val
  let x := s.pc q
  .next (
    if (s.srState (q / 32) ≠ srActive ∧ s.srState (q / 32) ≠ srPending) ∨ x.pickedAt = some s.beats then s
    else
      match s.pcNext q ready with
      | none => s
      | some (b, r) =>
        let y : PcSt := { x with
          queue := x.queue.erase r, picked := b, pickedAt := some s.beats,
          acts := if activate then Tab.put (fun _ => 0) x.acts b (Tab.get (fun _ => 0) x.acts b + 1) else x.acts }
        ((s.setPc q y).accessDone q r how.burst.val how.outcome.val).pokesServe.hitchResume)

/-- HITCH_RETRY_REISSUE: 64 beats after a RETRY, the bridge issues the request again; a tag that no request of a hart has stands for the
firmware's access (R377, R402). -/
def execHitchRetryReissue (tag : Nat) (s : State) : Host.Outcome State Fault Refusal :=
  .next (
    match s.hitch.retries.find? (fun r => decide (r.req.tag = tag) && decide (r.since + 64 ≤ s.beats)) with
    | none => s.dictReissue
    | some r =>
      if s.reqBlocked r.req then s
      else
        (State.hitchAnswer { s with hitch := { s.hitch with retries := s.hitch.retries.erase r } } r.req (r.tries + 1)).hitchResume)

/-- HITCH_RESERVED_TYPE: a packet of a TYPE that R376 does not list is discarded, counted and logged. -/
def execHitchReservedType (code : BitVec 8) (s : State) : Host.Outcome State Fault Refusal :=
  .next (
    if 1 ≤ code.toNat ∧ code.toNat ≤ 5 then s
    else
      State.logOpen { s with hitch := { s.hitch with linkErrors := s.hitch.linkErrors + 1 } } vGLB sevError 0 0 0)

/-- JOURNAL_ENTRY: the Bridle chains the oldest entry, and a write that waited for room takes effect (R420). -/
def execJournalEntry (s : State) : Host.Outcome State Fault Refusal := .next s.chainNext

/-! ### The in-package link -/

/-- UCIE_MODULE_FAIL: a module fails to train or to retrain; the link runs on the other, with a WARNING entry (R374). -/
def execUcieModuleFail (unit : Fin 2) (s : State) : Host.Outcome State Fault Refusal :=
  let up := if s.hitch.modulesUp = 0 ∧ s.bootStage ≤ bsLink then 3 else s.hitch.modulesUp
  .next (
    if up / 2 ^ unit.val % 2 = 0 then s
    else
      let left := up - 2 ^ unit.val
      let s1 := { s with hitch := { s.hitch with modulesUp := left } }
      if left = 0 then s1.foff R.GLB_BOOT F.GLB_BOOT_ONE_MODULE
      else (s1.fon R.GLB_BOOT F.GLB_BOOT_ONE_MODULE).logOpen vGLB sevWarning unit.val 0 0)

/-- UCIE_LINK_LOST: no module in operation for 10 ms: the bridge answers every request itself with BUS_ERR; an ERROR entry;
ALERT_N (R375, R462). -/
def execUcieLinkLost (s : State) : Host.Outcome State Fault Refusal :=
  let ids := s.hitchPending
  let tags := s.hitch.retries.map (fun r => r.req.tag) ++ s.hitch.held.map (fun q => q.tag) ++ ids.map (fun i => i % 1024)
  .next (
    if s.hitch.linkLost then s
    else
      let s1 := tags.foldl (fun (x : State) t => x.emit (.completion t .busErr [])) s
      let s2 := { s1 with hitch := { s1.hitch with
        linkLost := true, modulesUp := 0, retries := [], held := [], answered := s1.hitch.answered ++ ids } }
      ((s2.bitOn R.PWR_ALERT 2).logOpen vGLB sevError 0 0 0).dictResume)

/-- UCIE_LINK_RETURN: on both modules or on one. After 10 ms without either, ALERT_N is released and every pending vector sends one MSGI; before
that the requests that waited go on (R374, R375, R382). -/
def execUcieLinkReturn (both : Bool) (s : State) : Host.Outcome State Fault Refusal :=
  .next (
    if s.hitch.linkLost then
      let s1 := { s with hitch := { s.hitch with linkLost := false, modulesUp := if both then 3 else 1 } }
      let s2 := (s1.fset R.GLB_BOOT F.GLB_BOOT_ONE_MODULE (if both then 0 else 1)).bitOff R.PWR_ALERT 2
      (upTo 216).foldl (fun x v => if x.vecPend v then x.sendMsgi v else x) s2
    else if s.linkRetrains then
      State.resumeAll (State.fset { s with hitch := { s.hitch with modulesUp := if both then 3 else 1 } }
        R.GLB_BOOT F.GLB_BOOT_ONE_MODULE (if both then 0 else 1))
    else s)

/-! ### Boot -/

/-- The values of object 0x2102 and the serial number that Farrier's records give (R389, R432). -/
def State.fuseDict (s : State) : State :=
  let s1 := match s.payload 1 0 with
    | some p => { s with brd := { s.brd with serial := slice p 0 8 }, dict := { s.dict with vendorId := recNat p 8 2 } }
    | none => s
  match s1.payload 3 0 with
  | none => s1
  | some p =>
    let tab (d a b : Nat) : Tab Nat := Tab.put (fun _ => d) (Tab.put (fun _ => d) [] 0 (recNat p a 1)) 1 (recNat p b 1)
    { s1 with dict := { s1.dict with nomRate := tab 2 0 1, dataRate := tab 1 2 3, portEn := recNat p 4 1, comm := (upTo 5).map (fun k => recNat p k 1) } }

/-- The node-ID: from the record in force, from the pins, or 127 with a WARNING entry; only after a release of NRESET (R391). -/
def State.fuseNode (s : State) : State :=
  match s.pwr.canid with
  | none => s
  | some pins =>
    let p := (s.payload 3 0).getD []
    let fuse := recNat p 6 1
    let s1 := { s with pwr := { s.pwr with canid := none } }
    let set (x : State) (id flags : Nat) : State := { x with dict := { x.dict with nodeId := id, nodeFlags := flags } }
    if recNat p 5 1 % 2 = 1 ∧ 1 ≤ fuse ∧ fuse ≤ 127 then set s1 fuse 2
    else if 1 ≤ pins then set s1 pins 0
    else (set s1 127 1).logOpen vGLB sevWarning 0 0 0

/-- One entry of an HBM_REPAIR record: a row repaired, a pseudo-channel retired or restored (R183, R184, R432). -/
def State.fuseRepair (s : State) (e : Nat) : State :=
  let bank := e / 2 ^ 14 % 64
  let q := e / 2 ^ 24 % 64
  match e / 2 ^ 30 with
  | 0 =>
    let k := 48 * q + bank
    { s with bob := { s.bob with
      sparesUsed := Tab.put (fun _ => 0) s.bob.sparesUsed k (Tab.get (fun _ => 0) s.bob.sparesUsed k + 1) } }
  | 1 => (s.bitOn (retiredReg q) (q % 32)).fset (R.BOB_PC_STATUS q) F.BOB_PC_STATUS_STATE 2
  | 2 => (s.bitOff (retiredReg q) (q % 32)).fset (R.BOB_PC_STATUS q) F.BOB_PC_STATUS_STATE 0
  | _ => s

/-- The HBM records in force: timing sets, repairs and retirements; the host partition lies over the pseudo-channels of stack 1
that are active now (R164, R183 to R185, R189). -/
def State.fuseHbm (s : State) : State :=
  let s1 := (upTo 3).foldl (fun (x : State) t =>
    match x.payload 5 t with
    | some p => (upTo 32).foldl (fun (y : State) w => y.wr (R.BOB_TSET t w) (w32 (recNat p (4 * w) 4))) x
    | none => x) s
  let s2 := (upTo 2).foldl (fun (x : State) k =>
    match x.payload 6 k with
    | some p => (upTo (recNat p 0 2)).foldl (fun (y : State) i => y.fuseRepair (recNat p (2 + 4 * i) 4)) x
    | none => x) s1
  let s3 := { s2 with bob := { s2.bob with hostMask := 2 ^ 32 - 1 - (s2.rd R.BOB_PC_RETIRED_HI).toNat } }
  let s4 := (s3.fset R.BOB_HOST F.BOB_HOST_M (s3.activePcs 1).length).showLayout
  match (upTo 64).find? (fun q => s4.bit (retiredReg q) (q % 32)) with
  | some q => s4.degradeOn dgPcRetired q
  | none => s4

/-- The records of the monitors, of Tack and of the statistics (R432, R443, R449). -/
def State.fuseCal (s : State) : State :=
  let s1 := match s.payload 9 0 with
    | some p => (upTo 32).foldl (fun (x : State) t => x.fset (R.MON_T_TRIM t) F.MON_T_TRIM_TRIM (recNat p t 1)) s
    | none => s
  let s2 := if (s1.payload 10 0).isSome then { s1 with tck := { s1.tck with corrDue := upTo 24 } } else s1
  match s2.payload 11 0 with
  | some p =>
    (s2.fset R.FAR_STATS_CFG F.FAR_STATS_CFG_WINDOW (recNat p 0 1)).fset R.FAR_STATS_CFG F.FAR_STATS_CFG_TARGET (recNat p 2 2)
  | none => s2

/-- The certificate of the CERT record in force: its parts joined, cut to its DER length (R406, R432). -/
def State.fuseCert (s : State) : State :=
  match s.inForce 2 0 with
  | [] => s
  | r :: rest =>
    let bytes := (r :: rest).foldl (fun b e => b ++ recPayload e.2) []
    { s with brd := { s.brd with cert := some (slice bytes 2 (recNat bytes 0 2)) } }

/-- Farrier's records are applied (R386, R432). -/
def State.applyFuses (s : State) : State := (s.fuseDict.fuseNode.fuseCert.fuseHbm.fuseCal.applyXtal).showStore

/-- The image that a stage has verified: its version may raise the fuse version (R408, R409). -/
def State.bootImage (s : State) (image : List Byte) : State := s.imageBy (srcCode firmware) image

/-- Every unit of both stacks holds zeros, and the enabled CAN ports start (R386, R392). -/
def State.hbmStage (s : State) : State :=
  (upTo 2).foldl (fun x p => if x.dict.portEn / 2 ^ p % 2 = 1 then x.commReset.canBoot p else x) { s with hbm := [] }

/-- What the end of a stage brings (R386). -/
def State.stageEnd (s : State) (st : Nat) (header : List Byte) : State :=
  if st = bsLink then
    { s with hitch := { s.hitch with modulesUp := if s.hitch.modulesUp = 0 then 3 else s.hitch.modulesUp } }
  else if st = bsFuses then s.applyFuses
  else if st = bsSealed then
    let s1 := s.bootImage header
    { s1 with brd := { s1.brd with fwDigest := fit 48 (slice header 24 48) } }
  else if st = bsHbm then s.hbmStage
  else if st = bsUserLoad then
    let s1 := (s.bootImage header).fon R.GLB_BOOT F.GLB_BOOT_USER_RELEASED
    { s1 with brd := { s1.brd with userDigest := fit 48 (slice header 24 48) } }
  else s

/-- The image that a stage reads, with its public key, passes the Bridle's check, or the stage reads none (R408, R409). -/
def State.stageImage (s : State) (st : Nat) (image : List Byte) : Bool :=
  if st = bsSealed then recNat image 4 1 == 1 && s.imageCheck image == some brOk
  else if st = bsUserLoad then recNat image 4 1 == 2 && s.imageCheck image == some brOk
  else true

/-- BOOT_STAGE_DONE: the present stage ends, in order or in failure, where the image that it reads does not pass. Stage FUSES ends only with the
root locked, stage HBM with the host partition fixed (R333, R386, R387, R408, R409). -/
def execBootStageDone (failed : Bool) (image : List (BitVec 8)) (s : State) : Host.Outcome State Fault Refusal :=
  let st := s.bootStage
  .next (
    if bsUser ≤ st ∨ s.released = false then s
    else if failed || !s.stageImage st image then s.bootFail
    else if st = bsFuses ∧ s.flag R.STP_STATUS F.STP_STATUS_LOCKED = false then s
    else if st = bsHbm ∧ s.flag R.GLB_BOOT F.GLB_BOOT_HOST_SET = false then s
    else
      let s1 := (s.stageEnd st image).fset R.GLB_BOOT F.GLB_BOOT_STAGE (st + 1)
      { s1 with hitch := { s1.hitch with stageSince := s1.beats } })

/-- HOST_GIB_DEFAULT: 10 ms of stage HBM without a write give 4 GiB (R387). -/
def execHostGibDefault (s : State) : Host.Outcome State Fault Refusal :=
  .next (
    if s.bootStage = bsHbm ∧ s.flag R.GLB_BOOT F.GLB_BOOT_HOST_SET = false ∧ s.hitch.stageSince + 10 * beatsPerMs ≤ s.beats then
      s.hostGib 4
    else s)

end Sys2Proof.Machine
end

