-- ==== Sys2Proof/Machine/NarrowWrites.lean ====
section
/-!
DEFINITION. The rows that are writes of one register or of one window: each makes the entry of R421 and has the effect that the same write
has as a Hitch request.
-/

namespace Sys2Proof.Machine

/-- The state in which such a write takes effect: the bridge is ready for it, and its entry is made. same: it would change nothing; shut: the
EG rule does not store it (R372, R411, R420, R421). -/
def State.narrowWrite (s : State) (src a : Nat) (v : Word) (shut same : Bool) : State :=
  s.writeEntry ⟨src, 0⟩ (if shut && !same then 1 else 0) a v (shut || same)

/-- The requester of a write that the row names no requester of, as the journal codes it: a hart that is open, of the secure domain or of
either. -/
def State.someSource (s : State) (secure : Bool) : Nat := if secure then 1 + 2 * (s.free % 8) else s.free % 16

/-- COEF_WRITE: a word of the coefficient window (R95 to R97, R372, R421). -/
def execCoefWrite (src : Src) (slice : Fin 24) (set : Fin 4) (word : Fin 256) (value : BitVec 32) (s : State) :
    Host.Outcome State Fault Refusal :=
  let n := slice.val
  let m := set.val
  let k := word.val
  let t := s.bridgeReady
  .next ((t.narrowWrite (srcCode src) (coefAddr n m k) value (t.egShut (vCND n)) (decide (value.toNat % 2 ^ 18 = t.coefWord n m k))).coefPut
    src n m k value)

/-- WIN_DATA_WRITE: SPC_WIN_DATA (R112, R125, R372, R421). -/
def execWinDataWrite (src : Src) (slice : Fin 24) (value : BitVec 32) (s : State) : Host.Outcome State Fault Refusal :=
  let n := slice.val
  let t := s.bridgeReady
  let held := t.tableEntry n (t.fget (R.SPC_WIN_ADDR n) F.SPC_WIN_ADDR_TABLE) (t.fget (R.SPC_WIN_ADDR n) F.SPC_WIN_ADDR_ENTRY)
  .next ((t.narrowWrite (srcCode src) (R.SPC_WIN_DATA n) value (t.egShut (vSPC n)) (decide (value.toNat % 2 ^ 18 = held))).winDataPut
    src n value)

/-- RETIRE_WRITE: SPC_RETIRE (R110, R372, R421). -/
def execRetireWrite (src : Src) (slice : Fin 24) (value : BitVec 32) (s : State) : Host.Outcome State Fault Refusal :=
  let n := slice.val
  let t := s.bridgeReady
  .next ((t.narrowWrite (srcCode src) (R.SPC_RETIRE n) value (t.egShut (vSPC n))
    (decide (value.toNat % 16 = t.fget (R.SPC_RETIRE n) F.SPC_RETIRE_RETIRE))).retirePut src n value)

/-- MASK_DATA_WRITE: STR_MASK_DATA (R133, R161, R372, R421). -/
def execMaskDataWrite (src : Src) (slice : Fin 24) (value : BitVec 32) (s : State) : Host.Outcome State Fault Refusal :=
  let n := slice.val
  let t := s.bridgeReady
  .next ((t.narrowWrite (srcCode src) (R.STR_MASK_DATA n) value (t.egShut (vSTR n))
    (decide (value = t.maskEntry n (t.fget (R.STR_MASK_ADDR n) F.STR_MASK_ADDR_ENTRY)))).maskDataPut src n value)

/-- VEC_MASK_WRITE: word w of GLB_VEC_MASK (R382, R421). -/
def execVecMaskWrite (word : Fin 8) (value : BitVec 32) (s : State) : Host.Outcome State Fault Refusal :=
  let t := s.bridgeReady
  .next ((t.took.narrowWrite (t.someSource false) (R.GLB_VEC_MASK word.val) value false
    (decide (value = t.rd (R.GLB_VEC_MASK word.val)))).vecMask word.val value)

/-- HOST_GIB_WRITE: a write of GLB_BOOT by the secure domain (R387, R421). -/
def execHostGibWrite (value : BitVec 32) (s : State) : Host.Outcome State Fault Refusal :=
  let v := fieldOf value F.GLB_BOOT_HOST_GIB
  let t := s.bridgeReady
  .next ((t.took.narrowWrite (t.someSource true) R.GLB_BOOT value false
    (decide (v = t.fget R.GLB_BOOT F.GLB_BOOT_HOST_GIB))).hostGib v)

/-- PWR_DOM_TARGET_WRITE: a write of PWR_DOM_TARGET by the secure domain (R385, R421, R455). -/
def execPwrDomTargetWrite (value : BitVec 32) (s : State) : Host.Outcome State Fault Refusal :=
  let t := s.bridgeReady
  .next ((t.took.narrowWrite (t.someSource true) R.PWR_DOM_TARGET value false
    (decide (value &&& 0x1FFFFFFF#32 = t.rd R.PWR_DOM_TARGET))).domTargetPut value)

end Sys2Proof.Machine
end

