-- ==== Sys2Proof/Machine/Dispatch.lean ====
section
/-!
DEFINITION. The effect of each command on everything but the queue: one arm per constructor of Instr, each one direct
call of that command's own meaning.
-/

namespace Sys2Proof.Machine

def exec (i : Instr) (s : State) : Host.Outcome State Fault Refusal :=
  match i with
  | .configure => Sys2Proof.Machine.execConfigure s
  | .arm => Sys2Proof.Machine.execArm s
  | .armComplete => Sys2Proof.Machine.execArmComplete s
  | .armTimeout => Sys2Proof.Machine.execArmTimeout s
  | .start => Sys2Proof.Machine.execStart s
  | .timedStart => Sys2Proof.Machine.execTimedStart s
  | .stop => Sys2Proof.Machine.execStop s
  | .abort => Sys2Proof.Machine.execAbort s
  | .stoppingEnd => Sys2Proof.Machine.execStoppingEnd s
  | .linkaiBlock port lane h0 h1 payload => Sys2Proof.Machine.execLinkaiBlock port lane h0 h1 payload s
  | .linkaiFrame port lane frame offset => Sys2Proof.Machine.execLinkaiFrame port lane frame offset s
  | .crcResult port lane => Sys2Proof.Machine.execCrcResult port lane s
  | .crcWindowEnd port lane => Sys2Proof.Machine.execCrcWindowEnd port lane s
  | .convResponse port rtype data => Sys2Proof.Machine.execConvResponse port rtype data s
  | .msgTransmit port => Sys2Proof.Machine.execMsgTransmit port s
  | .msgAckTimeout port => Sys2Proof.Machine.execMsgAckTimeout port s
  | .lossOfSignal port lane => Sys2Proof.Machine.execLossOfSignal port lane s
  | .signalRestored port lane => Sys2Proof.Machine.execSignalRestored port lane s
  | .fwdClockLost port => Sys2Proof.Machine.execFwdClockLost port s
  | .fwdClockRestored port => Sys2Proof.Machine.execFwdClockRestored port s
  | .downHoldEnd port => Sys2Proof.Machine.execDownHoldEnd port s
  | .retStartDone port => Sys2Proof.Machine.execRetStartDone port s
  | .fwdClockDetect port => Sys2Proof.Machine.execFwdClockDetect port s
  | .adaptDone port => Sys2Proof.Machine.execAdaptDone port s
  | .lockDone port => Sys2Proof.Machine.execLockDone port s
  | .verifyPass port => Sys2Proof.Machine.execVerifyPass port s
  | .stepSwitchDone port => Sys2Proof.Machine.execStepSwitchDone port s
  | .alignDone port ta index spread => Sys2Proof.Machine.execAlignDone port ta index spread s
  | .phaseTimeout phase => Sys2Proof.Machine.execPhaseTimeout phase s
  | .bringupRetry port => Sys2Proof.Machine.execBringupRetry port s
  | .bringup port => Sys2Proof.Machine.execBringup port s
  | .drop port => Sys2Proof.Machine.execDrop port s
  | .fwdDoze port => Sys2Proof.Machine.execFwdDoze port s
  | .fwdOff port => Sys2Proof.Machine.execFwdOff port s
  | .fwdWake port => Sys2Proof.Machine.execFwdWake port s
  | .retDoze port => Sys2Proof.Machine.execRetDoze port s
  | .retOff port => Sys2Proof.Machine.execRetOff port s
  | .retWake port => Sys2Proof.Machine.execRetWake port s
  | .sendMsg port => Sys2Proof.Machine.execSendMsg port s
  | .msgRxRead port tag => Sys2Proof.Machine.execMsgRxRead port tag s
  | .prbsLock port lane => Sys2Proof.Machine.execPrbsLock port lane s
  | .prbsLockLoss port lane => Sys2Proof.Machine.execPrbsLockLoss port lane s
  | .prbsErrRead port lane tag => Sys2Proof.Machine.execPrbsErrRead port lane tag s
  | .injectGo port lane => Sys2Proof.Machine.execInjectGo port lane s
  | .tapARelease channel => Sys2Proof.Machine.execTapARelease channel s
  | .captureRelease channel => Sys2Proof.Machine.execCaptureRelease channel s
  | .coefScrub slice set word ue => Sys2Proof.Machine.execCoefScrub slice set word ue s
  | .coefWrite src slice set word value => Sys2Proof.Machine.execCoefWrite src slice set word value s
  | .spectrumDelivery channel mem => Sys2Proof.Machine.execSpectrumDelivery channel mem s
  | .tableScrub slice table entry ue => Sys2Proof.Machine.execTableScrub slice table entry ue s
  | .winDataWrite src slice value => Sys2Proof.Machine.execWinDataWrite src slice value s
  | .retireWrite src slice value => Sys2Proof.Machine.execRetireWrite src slice value s
  | .triggerBusInput => Sys2Proof.Machine.execTriggerBusInput s
  | .maskStop => Sys2Proof.Machine.execMaskStop s
  | .literalDelayExpire term literal => Sys2Proof.Machine.execLiteralDelayExpire term literal s
  | .edgeWindowEnd term literal => Sys2Proof.Machine.execEdgeWindowEnd term literal s
  | .outPulseEnd output => Sys2Proof.Machine.execOutPulseEnd output s
  | .trigInEdge input high phase => Sys2Proof.Machine.execTrigInEdge input high phase s
  | .softTrigger value => Sys2Proof.Machine.execSoftTrigger value s
  | .tmrDisagree copy => Sys2Proof.Machine.execTmrDisagree copy s
  | .copyStuck copy => Sys2Proof.Machine.execCopyStuck copy s
  | .copyRecovered copy => Sys2Proof.Machine.execCopyRecovered copy s
  | .taintRetentionEnd => Sys2Proof.Machine.execTaintRetentionEnd s
  | .shedArm shed => Sys2Proof.Machine.execShedArm shed s
  | .shedDisarm shed => Sys2Proof.Machine.execShedDisarm shed s
  | .shedForce shed => Sys2Proof.Machine.execShedForce shed s
  | .shedPrefillDone shed => Sys2Proof.Machine.execShedPrefillDone shed s
  | .shedPostEnd shed => Sys2Proof.Machine.execShedPostEnd shed s
  | .shedHoldoffEnd shed => Sys2Proof.Machine.execShedHoldoffEnd shed s
  | .maskDataWrite src slice value => Sys2Proof.Machine.execMaskDataWrite src slice value s
  | .partialUnitFlush channel => Sys2Proof.Machine.execPartialUnitFlush channel s
  | .unitCommit channel => Sys2Proof.Machine.execUnitCommit channel s
  | .lookupGo => Sys2Proof.Machine.execLookupGo s
  | .lookupDone => Sys2Proof.Machine.execLookupDone s
  | .hbmRequest who write offset len id data => Sys2Proof.Machine.execHbmRequest who write offset len id data s
  | .hbmAccessDone pc ready how activate => Sys2Proof.Machine.execHbmAccessDone pc ready how activate s
  | .refreshDue pc bank => Sys2Proof.Machine.execRefreshDue pc bank s
  | .rfmThreshold pc bank => Sys2Proof.Machine.execRfmThreshold pc bank s
  | .tempPoll stack temp catastrophic => Sys2Proof.Machine.execTempPoll stack temp catastrophic s
  | .patrolScrub => Sys2Proof.Machine.execPatrolScrub s
  | .pcPendingSet high value => Sys2Proof.Machine.execPcPendingSet high value s
  | .srEnter stack => Sys2Proof.Machine.execSrEnter stack s
  | .srExit stack => Sys2Proof.Machine.execSrExit stack s
  | .freqGo stack => Sys2Proof.Machine.execFreqGo stack s
  | .srIdleExpire stack => Sys2Proof.Machine.execSrIdleExpire stack s
  | .srEntering stack => Sys2Proof.Machine.execSrEntering stack s
  | .sreIssue stack => Sys2Proof.Machine.execSreIssue stack s
  | .srResidencyEnd stack => Sys2Proof.Machine.execSrResidencyEnd stack s
  | .freqSwitchDone stack => Sys2Proof.Machine.execFreqSwitchDone stack s
  | .srExitDone stack => Sys2Proof.Machine.execSrExitDone stack s
  | .framePeriod plane => Sys2Proof.Machine.execFramePeriod plane s
  | .tapFrame value => Sys2Proof.Machine.execTapFrame value s
  | .tapClear value => Sys2Proof.Machine.execTapClear value s
  | .frameClose plane => Sys2Proof.Machine.execFrameClose plane s
  | .sweepDone plane => Sys2Proof.Machine.execSweepDone plane s
  | .planeZeroDone plane => Sys2Proof.Machine.execPlaneZeroDone plane s
  | .pnlEnable => Sys2Proof.Machine.execPnlEnable s
  | .pnlDisable => Sys2Proof.Machine.execPnlDisable s
  | .commit => Sys2Proof.Machine.execCommit s
  | .commit1 => Sys2Proof.Machine.execCommit1 s
  | .pal => Sys2Proof.Machine.execPal s
  | .train0 => Sys2Proof.Machine.execTrain0 s
  | .train1 => Sys2Proof.Machine.execTrain1 s
  | .trainDone output fails => Sys2Proof.Machine.execTrainDone output fails s
  | .vblank output => Sys2Proof.Machine.execVblank output s
  | .paletteCopyDone => Sys2Proof.Machine.execPaletteCopyDone s
  | .composeDone output => Sys2Proof.Machine.execComposeDone output s
  | .hpdPlug output => Sys2Proof.Machine.execHpdPlug output s
  | .hpdUnplug output => Sys2Proof.Machine.execHpdUnplug output s
  | .irqHpd output => Sys2Proof.Machine.execIrqHpd output s
  | .auxGo output => Sys2Proof.Machine.execAuxGo output s
  | .auxDone output reply bytes => Sys2Proof.Machine.execAuxDone output reply bytes s
  | .nop core ecc => Sys2Proof.Machine.execNop core ecc s
  | .halt core ecc => Sys2Proof.Machine.execHalt core ecc s
  | .wait core ecc => Sys2Proof.Machine.execWait core ecc s
  | .waitWake core => Sys2Proof.Machine.execWaitWake core s
  | .trap core ecc => Sys2Proof.Machine.execTrap core ecc s
  | .mov core ecc => Sys2Proof.Machine.execMov core ecc s
  | .movi core ecc => Sys2Proof.Machine.execMovi core ecc s
  | .movc core ecc => Sys2Proof.Machine.execMovc core ecc s
  | .add core ecc => Sys2Proof.Machine.execAdd core ecc s
  | .sub core ecc => Sys2Proof.Machine.execSub core ecc s
  | .adds core ecc => Sys2Proof.Machine.execAdds core ecc s
  | .subs core ecc => Sys2Proof.Machine.execSubs core ecc s
  | .addi core ecc => Sys2Proof.Machine.execAddi core ecc s
  | .shuAnd core ecc => Sys2Proof.Machine.execShuAnd core ecc s
  | .shuOr core ecc => Sys2Proof.Machine.execShuOr core ecc s
  | .shuXor core ecc => Sys2Proof.Machine.execShuXor core ecc s
  | .andi core ecc => Sys2Proof.Machine.execAndi core ecc s
  | .ash core ecc => Sys2Proof.Machine.execAsh core ecc s
  | .lsh core ecc => Sys2Proof.Machine.execLsh core ecc s
  | .cmp core ecc => Sys2Proof.Machine.execCmp core ecc s
  | .cmpi core ecc => Sys2Proof.Machine.execCmpi core ecc s
  | .abs core ecc => Sys2Proof.Machine.execAbs core ecc s
  | .min core ecc => Sys2Proof.Machine.execMin core ecc s
  | .max core ecc => Sys2Proof.Machine.execMax core ecc s
  | .ld core ecc => Sys2Proof.Machine.execLd core ecc s
  | .st core ecc => Sys2Proof.Machine.execSt core ecc s
  | .movx core ecc => Sys2Proof.Machine.execMovx core ecc s
  | .movxi core ecc => Sys2Proof.Machine.execMovxi core ecc s
  | .movfx core ecc => Sys2Proof.Machine.execMovfx core ecc s
  | .mpy core ecc => Sys2Proof.Machine.execMpy core ecc s
  | .mac core ecc => Sys2Proof.Machine.execMac core ecc s
  | .msu core ecc => Sys2Proof.Machine.execMsu core ecc s
  | .macm core ecc => Sys2Proof.Machine.execMacm core ecc s
  | .macsq core ecc => Sys2Proof.Machine.execMacsq core ecc s
  | .aclr core ecc => Sys2Proof.Machine.execAclr core ecc s
  | .acadd core ecc => Sys2Proof.Machine.execAcadd core ecc s
  | .acsh core ecc => Sys2Proof.Machine.execAcsh core ecc s
  | .rnd core ecc => Sys2Proof.Machine.execRnd core ecc s
  | .movh core ecc => Sys2Proof.Machine.execMovh core ecc s
  | .movl core ecc => Sys2Proof.Machine.execMovl core ecc s
  | .movg core ecc => Sys2Proof.Machine.execMovg core ecc s
  | .shuB core ecc => Sys2Proof.Machine.execShuB core ecc s
  | .call core ecc => Sys2Proof.Machine.execCall core ecc s
  | .ret core ecc => Sys2Proof.Machine.execRet core ecc s
  | .reti core ecc => Sys2Proof.Machine.execReti core ecc s
  | .loop core ecc => Sys2Proof.Machine.execLoop core ecc s
  | .loopd core ecc => Sys2Proof.Machine.execLoopd core ecc s
  | .shuIn core ecc => Sys2Proof.Machine.execShuIn core ecc s
  | .out core ecc => Sys2Proof.Machine.execOut core ecc s
  | .pass core ecc => Sys2Proof.Machine.execPass core ecc s
  | .veto core ecc => Sys2Proof.Machine.execVeto core ecc s
  | .interruptEntry core => Sys2Proof.Machine.execInterruptEntry core s
  | .tickExpire core => Sys2Proof.Machine.execTickExpire core s
  | .partWrite core => Sys2Proof.Machine.execPartWrite core s
  | .partTimeout core => Sys2Proof.Machine.execPartTimeout core s
  | .shuRun core => Sys2Proof.Machine.execShuRun core s
  | .shuHalt core => Sys2Proof.Machine.execShuHalt core s
  | .coreHalted core => Sys2Proof.Machine.execCoreHalted core s
  | .shuStep core => Sys2Proof.Machine.execShuStep core s
  | .shuReset core => Sys2Proof.Machine.execShuReset core s
  | .shuIrq core => Sys2Proof.Machine.execShuIrq core s
  | .mboxPush core value => Sys2Proof.Machine.execMboxPush core value s
  | .mboxOutRead src core parity tag => Sys2Proof.Machine.execMboxOutRead src core parity tag s
  | .waveformOpen shed => Sys2Proof.Machine.execWaveformOpen shed s
  | .spectrumRecordTimeout channel => Sys2Proof.Machine.execSpectrumRecordTimeout channel s
  | .sideEntry source unit parity => Sys2Proof.Machine.execSideEntry source unit parity s
  | .sideRecordHold source unit => Sys2Proof.Machine.execSideRecordHold source unit s
  | .runEndEmit stream => Sys2Proof.Machine.execRunEndEmit stream s
  | .userGo => Sys2Proof.Machine.execUserGo s
  | .userCopyDone bad => Sys2Proof.Machine.execUserCopyDone bad s
  | .skeinPacket engine upset again parity => Sys2Proof.Machine.execSkeinPacket engine upset again parity s
  | .decGo dec => Sys2Proof.Machine.execDecGo dec s
  | .decStop dec => Sys2Proof.Machine.execDecStop dec s
  | .decDone dec ue => Sys2Proof.Machine.execDecDone dec ue s
  | .qMaxRead quill tag => Sys2Proof.Machine.execQMaxRead quill tag s
  | .fragmentTag engine => Sys2Proof.Machine.execFragmentTag engine s
  | .ringEntryWrite engine => Sys2Proof.Machine.execRingEntryWrite engine s
  | .notifyHoldExpire port ring => Sys2Proof.Machine.execNotifyHoldExpire port ring s
  | .notifySend port ring => Sys2Proof.Machine.execNotifySend port ring s
  | .notifyTransmitted port ring => Sys2Proof.Machine.execNotifyTransmitted port ring s
  | .perstAssert port => Sys2Proof.Machine.execPerstAssert port s
  | .perstDeassert port => Sys2Proof.Machine.execPerstDeassert port s
  | .hotReset port => Sys2Proof.Machine.execHotReset port s
  | .flr port => Sys2Proof.Machine.execFlr port s
  | .linkUp port gen width x1 => Sys2Proof.Machine.execLinkUp port gen width x1 s
  | .linkDown port => Sys2Proof.Machine.execLinkDown port s
  | .bmeClear port => Sys2Proof.Machine.execBmeClear port s
  | .ringCfgWrite port ring value => Sys2Proof.Machine.execRingCfgWrite port ring value s
  | .ringNotifyNow port ring value => Sys2Proof.Machine.execRingNotifyNow port ring value s
  | .ringRdWrite port ring value => Sys2Proof.Machine.execRingRdWrite port ring value s
  | .partnerDoorbell port value => Sys2Proof.Machine.execPartnerDoorbell port value s
  | .partnerPageWrite port offset size value => Sys2Proof.Machine.execPartnerPageWrite port offset size value s
  | .partnerLatchRead port offset size => Sys2Proof.Machine.execPartnerLatchRead port offset size s
  | .bar2Read port offset len ue => Sys2Proof.Machine.execBar2Read port offset len ue s
  | .bar2Write port => Sys2Proof.Machine.execBar2Write port s
  | .msixSend port value => Sys2Proof.Machine.execMsixSend port value s
  | .partnerDbRead port tag => Sys2Proof.Machine.execPartnerDbRead port tag s
  | .spnStart channel => Sys2Proof.Machine.execSpnStart channel s
  | .spnHalt channel => Sys2Proof.Machine.execSpnHalt channel s
  | .spnStop channel => Sys2Proof.Machine.execSpnStop channel s
  | .spnPoke channel => Sys2Proof.Machine.execSpnPoke channel s
  | .spnEventSet channel value => Sys2Proof.Machine.execSpnEventSet channel value s
  | .spnEnd channel ue => Sys2Proof.Machine.execSpnEnd channel ue s
  | .spnMove channel ue => Sys2Proof.Machine.execSpnMove channel ue s
  | .spnElementDone channel ue given => Sys2Proof.Machine.execSpnElementDone channel ue given s
  | .spnLoop channel ue => Sys2Proof.Machine.execSpnLoop channel ue s
  | .spnWait channel ue => Sys2Proof.Machine.execSpnWait channel ue s
  | .spnWaitPoll channel ue given => Sys2Proof.Machine.execSpnWaitPoll channel ue given s
  | .spnWaitEnd channel => Sys2Proof.Machine.execSpnWaitEnd channel s
  | .spnWaitTimeout channel => Sys2Proof.Machine.execSpnWaitTimeout channel s
  | .spnSignal channel ue => Sys2Proof.Machine.execSpnSignal channel ue s
  | .spnSignalFlushed channel failed => Sys2Proof.Machine.execSpnSignalFlushed channel failed s
  | .spnLink channel ue => Sys2Proof.Machine.execSpnLink channel ue s
  | .spnQuiesceTimeout channel => Sys2Proof.Machine.execSpnQuiesceTimeout channel s
  | .relock => Sys2Proof.Machine.execRelock s
  | .cycleSlip => Sys2Proof.Machine.execCycleSlip s
  | .refinQualifyTimeout => Sys2Proof.Machine.execRefinQualifyTimeout s
  | .relockLockDetect => Sys2Proof.Machine.execRelockLockDetect s
  | .relockRestart => Sys2Proof.Machine.execRelockRestart s
  | .refinLost ppb => Sys2Proof.Machine.execRefinLost ppb s
  | .holdoverLimit => Sys2Proof.Machine.execHoldoverLimit s
  | .refinQualified ppb error => Sys2Proof.Machine.execRefinQualified ppb error s
  | .snapRestart => Sys2Proof.Machine.execSnapRestart s
  | .slewDone => Sys2Proof.Machine.execSlewDone s
  | .syncEvent => Sys2Proof.Machine.execSyncEvent s
  | .syncAction => Sys2Proof.Machine.execSyncAction s
  | .syncArm => Sys2Proof.Machine.execSyncArm s
  | .warpLoad => Sys2Proof.Machine.execWarpLoad s
  | .warpLoadApply => Sys2Proof.Machine.execWarpLoadApply s
  | .hfbEdge input falling tap => Sys2Proof.Machine.execHfbEdge input falling tap s
  | .hfbDllLock input => Sys2Proof.Machine.execHfbDllLock input s
  | .hfbCal => Sys2Proof.Machine.execHfbCal s
  | .hfbCalDone tables => Sys2Proof.Machine.execHfbCalDone tables s
  | .registerWrite src tag addr size data => Sys2Proof.Machine.execRegisterWrite src tag addr size data s
  | .aliasWrite src tag offset size data => Sys2Proof.Machine.execAliasWrite src tag offset size data s
  | .shLowRead src tag addr wide => Sys2Proof.Machine.execShLowRead src tag addr wide s
  | .vecMaskWrite word value => Sys2Proof.Machine.execVecMaskWrite word value s
  | .hitchHbmAccess src tag addr len be data => Sys2Proof.Machine.execHitchHbmAccess src tag addr len be data s
  | .hitchRetryReissue tag => Sys2Proof.Machine.execHitchRetryReissue tag s
  | .hitchReservedType code => Sys2Proof.Machine.execHitchReservedType code s
  | .ucieModuleFail unit => Sys2Proof.Machine.execUcieModuleFail unit s
  | .ucieLinkLost => Sys2Proof.Machine.execUcieLinkLost s
  | .ucieLinkReturn both => Sys2Proof.Machine.execUcieLinkReturn both s
  | .bootStageDone failed header => Sys2Proof.Machine.execBootStageDone failed header s
  | .hostGibWrite value => Sys2Proof.Machine.execHostGibWrite value s
  | .hostGibDefault => Sys2Proof.Machine.execHostGibDefault s
  | .nmtStartRemoteNode port => Sys2Proof.Machine.execNmtStartRemoteNode port s
  | .nmtStopRemoteNode port => Sys2Proof.Machine.execNmtStopRemoteNode port s
  | .nmtEnterPreOperational port => Sys2Proof.Machine.execNmtEnterPreOperational port s
  | .nmtResetCommunication port => Sys2Proof.Machine.execNmtResetCommunication port s
  | .nmtResetNode port => Sys2Proof.Machine.execNmtResetNode port s
  | .usdoDownload port client index sub total data => Sys2Proof.Machine.execUsdoDownload port client index sub total data s
  | .usdoUpload port client index sub => Sys2Proof.Machine.execUsdoUpload port client index sub s
  | .usdoSegment port data last => Sys2Proof.Machine.execUsdoSegment port data last s
  | .usdoTimeout port => Sys2Proof.Machine.execUsdoTimeout port s
  | .dictRunCmd port client data => Sys2Proof.Machine.execDictRunCmd port client data s
  | .dictRegAccess port client wide write data => Sys2Proof.Machine.execDictRegAccess port client wide write data s
  | .oseriApply image => Sys2Proof.Machine.execOseriApply image s
  | .heartbeat port => Sys2Proof.Machine.execHeartbeat port s
  | .emcyInhibitEnd port => Sys2Proof.Machine.execEmcyInhibitEnd port s
  | .tpdoEventTimer port k => Sys2Proof.Machine.execTpdoEventTimer port k s
  | .tpdoInhibitEnd port k => Sys2Proof.Machine.execTpdoInhibitEnd port k s
  | .canBusOffRecovery port => Sys2Proof.Machine.execCanBusOffRecovery port s
  | .canRxOverrun port clear => Sys2Proof.Machine.execCanRxOverrun port clear s
  | .canErrorPassive port => Sys2Proof.Machine.execCanErrorPassive port s
  | .canErrorActive port => Sys2Proof.Machine.execCanErrorActive port s
  | .sessionOpen => Sys2Proof.Machine.execSessionOpen s
  | .sessionClose => Sys2Proof.Machine.execSessionClose s
  | .attest => Sys2Proof.Machine.execAttest s
  | .verifyImage => Sys2Proof.Machine.execVerifyImage s
  | .ownerInstall => Sys2Proof.Machine.execOwnerInstall s
  | .ownerRevoke => Sys2Proof.Machine.execOwnerRevoke s
  | .debugUnlock => Sys2Proof.Machine.execDebugUnlock s
  | .zeroise => Sys2Proof.Machine.execZeroise s
  | .decommission => Sys2Proof.Machine.execDecommission s
  | .getCert => Sys2Proof.Machine.execGetCert s
  | .keyRetire port => Sys2Proof.Machine.execKeyRetire port s
  | .journalEntry => Sys2Proof.Machine.execJournalEntry s
  | .journalExport => Sys2Proof.Machine.execJournalExport s
  | .manifestBegin => Sys2Proof.Machine.execManifestBegin s
  | .manifestPush => Sys2Proof.Machine.execManifestPush s
  | .farProg => Sys2Proof.Machine.execFarProg s
  | .farProgDone readback => Sys2Proof.Machine.execFarProgDone readback s
  | .statsGo => Sys2Proof.Machine.execStatsGo s
  | .statsCancel => Sys2Proof.Machine.execStatsCancel s
  | .statsCountDone channel => Sys2Proof.Machine.execStatsCountDone channel s
  | .statsApply channel => Sys2Proof.Machine.execStatsApply channel s
  | .thermalConversion monitor raw => Sys2Proof.Machine.execThermalConversion monitor raw s
  | .voltageConversion monitor reading => Sys2Proof.Machine.execVoltageConversion monitor reading s
  | .processConversion monitor count => Sys2Proof.Machine.execProcessConversion monitor count s
  | .tckStart => Sys2Proof.Machine.execTckStart s
  | .tckStop => Sys2Proof.Machine.execTckStop s
  | .regGo => Sys2Proof.Machine.execRegGo s
  | .injGo => Sys2Proof.Machine.execInjGo s
  | .periodicStart => Sys2Proof.Machine.execPeriodicStart s
  | .tackGroupDone codes => Sys2Proof.Machine.execTackGroupDone codes s
  | .tckCalGo => Sys2Proof.Machine.execTckCalGo s
  | .tackCalDone codes => Sys2Proof.Machine.execTackCalDone codes s
  | .calCommit => Sys2Proof.Machine.execCalCommit s
  | .pwrDomTargetWrite value => Sys2Proof.Machine.execPwrDomTargetWrite value s
  | .domainPowerDown => Sys2Proof.Machine.execDomainPowerDown s
  | .domainOff => Sys2Proof.Machine.execDomainOff s
  | .domainPowerUp => Sys2Proof.Machine.execDomainPowerUp s
  | .domainOn => Sys2Proof.Machine.execDomainOn s
  | .vstbyBrownoutBegin => Sys2Proof.Machine.execVstbyBrownoutBegin s
  | .vstbyBrownoutEnd lowest => Sys2Proof.Machine.execVstbyBrownoutEnd lowest s
  | .vioBrownoutBegin bank => Sys2Proof.Machine.execVioBrownoutBegin bank s
  | .vioBrownoutEnd bank lowest => Sys2Proof.Machine.execVioBrownoutEnd bank lowest s
  | .vioLost bank => Sys2Proof.Machine.execVioLost bank s
  | .powerOnReset => Sys2Proof.Machine.execPowerOnReset s
  | .nresetAssert => Sys2Proof.Machine.execNresetAssert s
  | .pwrOkLow => Sys2Proof.Machine.execPwrOkLow s
  | .nresetRelease canid vstby vio => Sys2Proof.Machine.execNresetRelease canid vstby vio s
  | .deviceReset => Sys2Proof.Machine.execDeviceReset s
  | .thermalHoldEnd => Sys2Proof.Machine.execThermalHoldEnd s
  | .pwrBlkReset value => Sys2Proof.Machine.execPwrBlkReset value s
  | .pdkGo => Sys2Proof.Machine.execPdkGo s
  | .pdkAbort => Sys2Proof.Machine.execPdkAbort s
  | .pdkTestDone unit signature memInfo repair => Sys2Proof.Machine.execPdkTestDone unit signature memInfo repair s
  | .erlCoalesceCommit => Sys2Proof.Machine.execErlCoalesceCommit s
  | .ageTick => Sys2Proof.Machine.execAgeTick s
  | .driftCheck => Sys2Proof.Machine.execDriftCheck s
  | .prbsErr port lane => Sys2Proof.Machine.execPrbsErr port lane s
  | .scanStoreEcc output x y uncorrectable => Sys2Proof.Machine.execScanStoreEcc output x y uncorrectable s
  | .hitchRead src tag addr load => Sys2Proof.Machine.execHitchRead src tag addr load s
  | .spectrumRecordClose channel => Sys2Proof.Machine.execSpectrumRecordClose channel s
  | .bmeSet port mps mrrs msix => Sys2Proof.Machine.execBmeSet port mps mrrs msix s
  | .completionTimeout channel => Sys2Proof.Machine.execCompletionTimeout channel s
  | .refFreqBad ppb => Sys2Proof.Machine.execRefFreqBad ppb s
  | .dllUnlock input => Sys2Proof.Machine.execDllUnlock input s
  | .reservedOpcode core ecc => Sys2Proof.Machine.execReservedOpcode core ecc s
  | .spnReservedOpcode channel ue => Sys2Proof.Machine.execSpnReservedOpcode channel ue s

end Sys2Proof.Machine
end

