-- ==== Sys2Proof/Machine/Step.lean ====
section
/-!
DEFINITION. One step of the device: the command at the front of the queue takes effect; with no command waiting, one beat
passes (log entry 2).
-/

namespace Sys2Proof.Machine

/-- One step: the oldest command with the rest of the queue, or one beat. -/
def step (s : State) : Host.Outcome State Fault Refusal :=
  match s.pending with
  | [] => .next s.beat
  | c :: rest => exec c { s with pending := rest }

/-- The state with the command that a word spells put at the front of the queue; s itself where it spells none. -/
def State.withFetchWord (s : State) (nbits w : Nat) : State :=
  match decodeTableWord nbits w with
  | some c => { s with pending := c :: s.pending }
  | none => s

end Sys2Proof.Machine
end

