-- ==== Sys2Proof/Safety.lean ====
section
/-!
DEFINITION. What counts as a safe state and a safe step, in the terms that the statements use: the tables that every
address of the device is held in keep their one canonical form, nothing that has left the device is taken back, and a
command answers a next state.
-/

namespace Sys2Proof.Machine

/-- The table of HBM's bytes is in its canonical form: an unlisted byte reads 0. -/
def Memory.wf (t : Tab Byte) : Bool := Tab.wf (fun _ => 0#8) t

/-- The table of the registers is in its canonical form: an unlisted register holds its reset value. -/
def Registers.wf (t : Tab Word) : Bool := Tab.wf resetOf t

/-- The state is plain data in one form: equal registers and equal memories are equal tables. -/
def State.wf (s : State) : Bool := Registers.wf s.regs && Memory.wf s.hbm

/-- What every command keeps, whatever it does: the queue of waiting commands is as it was given, what has left the device
stays sent, time is not turned back, and the tables keep their form. -/
structure State.Follows (s t : State) : Prop where
  pending : t.pending = s.pending
  beats : t.beats = s.beats
  outs : ∃ o, t.outs = o ++ s.outs
  fresh : s.fresh ≤ t.fresh
  regs : Registers.wf s.regs = true → Registers.wf t.regs = true
  hbm : Memory.wf s.hbm = true → Memory.wf t.hbm = true

/-- Every register but those listed reads as it did. -/
def State.sameRegs (s t : State) (xs : List Nat) : Prop := ∀ a, a ∉ xs → t.rd a = s.rd a

/-- The registers that an event of vector v may change: the block's INT_STATUS, and the vector's GLB_VEC_PEND. -/
def raiseRegs (v : Nat) : List Nat := [intStatus v, R.GLB_VEC_PEND (v / 32)]

/-- The registers that a log entry of a severity may change. -/
def logRegs (sev : Nat) : List Nat :=
  [R.ERL_CNT sev, R.ERL_NEXT, R.ERL_OLDEST, R.ERL_STATUS] ++ raiseRegs vERL
    ++ (if sev = sevFatal then [R.PWR_ALERT, R.PWR_LAST_FATAL, R.PWR_LAST_FATAL_WT_LO, R.PWR_LAST_FATAL_WT_HI] else [])

/-- The entry that the log holds under a number (R466, R469). -/
def State.erlEntry (s : State) (n : Nat) : ErlEntry := Tab.get (fun _ => ErlEntry.empty) s.erl.entries (n % erlSlots)

/-- The word at the program counter of core n (R230). -/
def State.coreWord (s : State) (n : Nat) : Word := Tab.get (fun _ => 0#32) (s.core n).prog (s.core n).pc

/-- Core n runs, and nothing but its operands can keep the instruction of opcode k at its program counter from completing: no
breakpoint, no uncorrectable word, no 1 in a bit that must be 0, no branch in a delay slot, no instruction at the end of a
loop that must not stand there (R246, R249, R250, R264, R265, R267). -/
def State.coreRuns (s : State) (n k : Nat) : Prop :=
  s.coreHalted n = false ∧ s.coreWaiting n = false ∧ opOf (s.coreWord n) = k ∧ badBits (s.coreWord n) = false ∧
    ¬(fieldOf (s.rd (R.SHU_BREAK n)) F.SHU_BREAK_EN = 1 ∧ fieldOf (s.rd (R.SHU_BREAK n)) F.SHU_BREAK_ADDR = (s.core n).pc) ∧
    (s.core n).progBad.contains (s.core n).pc = false ∧ (isBranch k = true → (s.core n).delay = none) ∧
    (badAtEnd k = true → (s.core n).loops.head?.map (fun e => e.last) ≠ some (s.core n).pc)

/-- A step that answers a next state. -/
def State.runs (s : State) : Prop := ∃ t, step s = .next t

end Sys2Proof.Machine
end

