-- ==== Sys2Proof/Certificates/Slice0/Obligations.lean ====
section
/-! DEFINITION. The statements for the provers. -/

open Sys2Proof Sys2Proof.Machine

/-- The queue and the beat (log entries 1 and 2: the model's own choice of what drives the device). A beat of a device in which nothing
is under way, and one in which a relock holds the clocks stopped (R335, log entry 103), changes the time alone. -/
def Obligations.StepRunsTheFrontCommand : Prop :=
  (∀ (c : Instr) (s : State), step { s with pending := c :: s.pending } = exec c s) ∧
  (∀ (c : Instr) (s : State), ∃ t, exec c s = .next t) ∧
  (∀ s : State, s.pending = [] → step s = .next s.beat ∧ s.beat.pending = [] ∧
    (s.clk.snap = none → s.tick.again = [] → s.beat.beats = s.beats + 1) ∧
    (s.clk.snap = none → s.tick.again = [] → s.trd.fired = [] →
      (s.clk.stage ≠ 0 ∨ s.run.startNext = false ∧ s.runState ≠ 4 ∧ s.turns = [] ∧ s.cond.chans = [] ∧ s.spec.streams = [] ∧
        s.trd.rises = [] ∧ ∀ p, p < 16 → (s.plane p).forming = [] ∧ (s.plane p).queue = [] ∧ (s.plane p).sweep = none) →
      s.beat = { s with
        now := if s.released = true then s.now + 1#64 else s.now
        beats := s.beats + 1
        tick := ⟨s.wt, s.regs, [], [], [], 0⟩
        trd := { s.trd with upset := [] } }) ∧
    (s.clk.snap ≠ none → s.tick.again = [] → s.trd.fired = [] → s.beat = s))

/-- Reset values that the register tables give. -/
def Obligations.ResetState : Prop :=
  let s := State.reset
  s.wf = true ∧ s.pending = [] ∧ s.outs = [] ∧ s.now = 0#64 ∧ s.runState = 0 ∧ s.bootStage = 0 ∧ s.pwr.nresetLow = true ∧
  s.erl.entries = [] ∧ s.rd R.ERL_NEXT = 0#32 ∧
  s.rd R.PWR_RESET_CAUSE = 1#32 ∧ s.rd R.PWR_DOM_TARGET = 0x1FFFFFFF#32 ∧ s.rd R.PWR_DOM_STATE = 0x1FFFFFFF#32 ∧
  s.rd R.PWR_AGE_CFG = 0x3A98#32 ∧ s.rd R.PWR_AGE_LIMIT = 0x558C00#32 ∧
  s.fget R.FAR_STATS_CFG F.FAR_STATS_CFG_WINDOW = 16 ∧ s.fget R.MON_THERM_CFG F.MON_THERM_CFG_WARN = 100 ∧
  s.fget R.MON_THERM_CFG F.MON_THERM_CFG_CRIT = 110 ∧ s.fget R.MON_THERM_CFG F.MON_THERM_CFG_HYST = 5 ∧
  s.rd R.MON_T_EN = 0xFFFFFFFF#32 ∧ (∀ v < 16, s.fget (R.MON_V_WIN v) F.MON_V_WIN_LO = 50) ∧
  s.rd R.TCK_PERIOD = 0x1D4C0#32 ∧ s.fget R.TCK_CAL_TARGET F.TCK_CAL_TARGET_TARGET = 0xFFFF ∧
  s.fget R.TCK_WR_CFG F.TCK_WR_CFG_LEN = 12 ∧ (∀ i < 24, s.corrNow i = (0, 0x10000)) ∧
  (∀ k < 128, s.slotUsed k = false) ∧ (∀ p < 4, (s.session p).valid = false) ∧ (∀ a, s.hbmByte a = 0#8) ∧
  ∀ a, s.rd a = resetOf a

/-- The invariant of Safety: State.wf, and State.Follows of every command. -/
def Obligations.EveryStepKeepsForm : Prop :=
  (∀ (c : Instr) (s t : State), exec c s = .next t → s.Follows t) ∧
  (∀ s t : State, step s = .next t → (s.wf = true → t.wf = true) ∧ t.pending = s.pending.tail ∧ s.beats ≤ t.beats ∧
    ∃ sent, t.outs = sent ++ s.outs)

/-- R381, R382, R461, R466, R467 and R469. -/
def Obligations.EventsAndEntries : Prop :=
  (∀ (s : State) (v b : Nat) (t : State), v < 256 → b < 32 → t = s.raise v b →
    (∀ i < 32, (t.rd (intStatus v)).getLsbD i = ((s.rd (intStatus v)).getLsbD i || decide (i = b))) ∧
    (t.vecPend v = true ↔ ∃ i < 32, (t.rd (intStatus v)).getLsbD i = true ∧ (s.rd (intEnable v)).getLsbD i = true) ∧
    t.outs = (if t.vecPend v = true ∧ s.vecPend v = false ∧ s.vecMasked v = false ∧ s.hitch.linkLost = false
      then .msgi v :: s.outs else s.outs) ∧
    (∀ w < 256, w ≠ v → t.vecPend w = s.vecPend w) ∧
    t = { s with
      regs := t.regs
      outs := t.outs
      tick := t.tick } ∧ s.sameRegs t (raiseRegs v)) ∧
  (∀ (s : State) (vec num sev unit a0 a1 : Nat) (t : State), vec < 256 → num < 256 → sev < 4 →
    t = s.log vec num sev unit a0 a1 →
    let n := (s.rd R.ERL_NEXT).toNat
    let e : ErlEntry := ⟨s.wt, s.nowFrac, sev, false, false, 256 * vec + num, n, unit % 2 ^ 16, 1, a0 % 2 ^ 32, a1 % 2 ^ 64⟩
    t.erlEntry n = e ∧ (∀ k, k % 1024 ≠ n % 1024 → t.erlEntry k = s.erlEntry k) ∧
    t.rd R.ERL_NEXT = s.rd R.ERL_NEXT + 1#32 ∧ t.rd (R.ERL_CNT sev) = s.rd (R.ERL_CNT sev) + 1#32 ∧
    (t.rd R.ERL_INT_STATUS).getLsbD sev = true ∧
    (1024 ≤ n → n < 2 ^ 32 - 1 → (t.rd R.ERL_OLDEST).toNat = n - 1023) ∧
    (s.fget R.ERL_CFG F.ERL_CFG_EXPORT_MIN ≤ sev → (s.side 0).quill.length < 512 →
      (t.side 0).quill = (s.side 0).quill ++ [⟨s.wt, s.nowFrac, 0, e.bytes, s.beats⟩]) ∧
    (s.fget R.ERL_CFG F.ERL_CFG_EXPORT_MIN ≤ sev → 512 ≤ (s.side 0).quill.length → t.recs = s.recs) ∧
    (sev < s.fget R.ERL_CFG F.ERL_CFG_EXPORT_MIN → t.recs = s.recs ∧ t.turns = s.turns) ∧
    (sev = 3 → t.fget R.PWR_LAST_FATAL F.PWR_LAST_FATAL_CODE = 256 * vec + num ∧
      t.flag R.PWR_LAST_FATAL F.PWR_LAST_FATAL_VALID = true ∧ t.pair R.PWR_LAST_FATAL_WT_LO R.PWR_LAST_FATAL_WT_HI = s.wt ∧
      t.bit R.PWR_ALERT 3 = true ∧ t.flag R.ERL_STATUS F.ERL_STATUS_FATAL_SEEN = true) ∧
    e.bytes.length = 32 ∧ s.sameRegs t (logRegs sev))

/-- The refusals of R17, R20 and R372: CMD_REFUSED and one WARNING entry whose ARG0 holds the command code, the run state and
BUSY (R487); nothing else changes. -/
def Obligations.RunCommandsRefused : Prop :=
  ∀ s : State,
    let refused (code : Nat) : State := (s.fon R.GLB_STATUS F.GLB_STATUS_CMD_REFUSED).event vGLB 1 sevWarning 0
      (code + 16 * s.runState + (if s.flag R.GLB_RUN F.GLB_RUN_BUSY then 128 else 0)) 0
    ((s.flag R.GLB_RUN F.GLB_RUN_BUSY = true ∨ s.runState = 2 ∨ s.runState = 3 ∨ s.runState = 4 ∨ s.pdk.running ≠ []) →
      exec .configure s = .next (refused 1)) ∧
    ((s.flag R.GLB_RUN F.GLB_RUN_BUSY = true ∨ s.runState ≠ 1 ∨ s.flag R.GLB_STATUS F.GLB_STATUS_CFG_DIRTY = true ∨
      s.pdk.running ≠ []) → exec .arm s = .next (refused 2)) ∧
    ((s.flag R.GLB_RUN F.GLB_RUN_BUSY = true ∨ s.runState ≠ 2) → exec .start s = .next (refused 3)) ∧
    (s.flag R.GLB_RUN F.GLB_RUN_BUSY = false → s.run.fatalAt ≠ some s.beats → (s.runState = 0 ∨ s.runState = 4) →
      exec .stop s = .next (refused 4)) ∧
    (s.flag R.GLB_RUN F.GLB_RUN_BUSY = false → s.run.fatalAt ≠ some s.beats → s.runState = 0 →
      exec .abort s = .next (refused 5))

/-- CONFIGURE, ARM and the two ends of an ARM (R17, R18, R19). -/
def Obligations.ConfigureAndArm : Prop :=
  ∀ s : State, s.pdk.running = [] →
    (s.flag R.GLB_RUN F.GLB_RUN_BUSY = false → (s.runState = 0 ∨ s.runState = 1) → s.cfgFails = [] →
      ∃ t, exec .configure s = .next t ∧ t.runState = 1 ∧ t.fget R.GLB_STATUS F.GLB_STATUS_CFG_ERR = 0 ∧
        t.fget R.GLB_STATUS F.GLB_STATUS_CFG_DIRTY = 0 ∧ t.hbm = s.hbm ∧ t.run = { s.run with degUnits := t.run.degUnits }) ∧
    (∀ f rest, s.flag R.GLB_RUN F.GLB_RUN_BUSY = false → (s.runState = 0 ∨ s.runState = 1) → s.cfgFails = f :: rest →
      ∃ t, exec .configure s = .next t ∧ t.runState = 0 ∧ t.fget R.GLB_STATUS F.GLB_STATUS_CFG_ERR = 1 ∧ t.hbm = s.hbm ∧
        t.run = s.run) ∧
    (s.flag R.GLB_RUN F.GLB_RUN_BUSY = false → s.runState = 1 → s.flag R.GLB_STATUS F.GLB_STATUS_CFG_DIRTY = false →
      ∃ t, exec .arm s = .next t ∧ t.runState = 1 ∧ t.flag R.GLB_RUN F.GLB_RUN_BUSY = true ∧
        t.run = { s.run with armSince := some s.beats } ∧ t.hbm = s.hbm) ∧
    (s.run.armSince.isSome = true → s.armReady = true →
      ∃ t, exec .armComplete s = .next t ∧ t.runState = 2 ∧ t.flag R.GLB_RUN F.GLB_RUN_BUSY = false ∧
        t.run.armSince = none ∧ t.hbm = s.hbm) ∧
    (∀ b, s.run.armSince = some b → b + armLimit ≤ s.beats → s.armReady = false →
      ∃ t, exec .armTimeout s = .next t ∧ t.runState = 1 ∧ t.flag R.GLB_RUN F.GLB_RUN_BUSY = false ∧
        t.fget R.GLB_STATUS F.GLB_STATUS_ARM_TIMEOUT = 1 ∧ t.run = { s.run with armSince := none } ∧ t.hbm = s.hbm)

/-- The commands and events that begin and end a run (R17, R20, R21, R22, R23, R25). That a GLB_START_AT equal to the present
warp time has passed is the model's reading (log entry 21). -/
def Obligations.RunStartAndStop : Prop :=
  ∀ s : State,
    (s.runState = 2 → s.flag R.GLB_RUN F.GLB_RUN_BUSY = false → s.run.timedStart = false → s.run.startNext = false →
      exec .start s = .next (
        if s.flag R.GLB_RUN F.GLB_RUN_START_MODE = false then { s with run := { s.run with startNext := true } }
        else if s.wt < s.pair R.GLB_START_AT_LO R.GLB_START_AT_HI then { s with run := { s.run with timedStart := true } }
        else { s.fon R.GLB_STATUS F.GLB_STATUS_LATE_START with run := { s.run with startNext := true } })) ∧
    (s.runState = 2 → s.run.timedStart = true → s.pair R.GLB_START_AT_LO R.GLB_START_AT_HI ≤ s.wt →
      ∃ t, exec .timedStart s = .next t ∧ t.runState = 3 ∧ t.run.startWt = s.wt ∧ t.run.timedStart = false ∧
        t.rd R.GLB_RUN_NUMBER = (if s.rd R.GLB_RUN_NUMBER = 0xFFFFFFFF#32 then 1#32 else s.rd R.GLB_RUN_NUMBER + 1#32) ∧
        t.hbm = s.hbm) ∧
    (∀ c, c = Instr.stop ∨ c = Instr.abort →
      (s.flag R.GLB_RUN F.GLB_RUN_BUSY = false → s.runState = 1 →
        exec c s = .next ((s.fset R.GLB_RUN F.GLB_RUN_STATE 0).raise vGLB 0)) ∧
      ((s.flag R.GLB_RUN F.GLB_RUN_BUSY = true ∨ s.runState = 2) →
        ∃ t, exec c s = .next t ∧ t.runState = 0 ∧ t.flag R.GLB_RUN F.GLB_RUN_BUSY = false ∧ t.run.timedStart = false ∧
          t.run.startNext = false ∧ t.run.armSince = none ∧ t.rd R.GLB_RUN_NUMBER = s.rd R.GLB_RUN_NUMBER ∧
          (s.bob.candidates = [] → t.hbm = s.hbm)) ∧
      (s.flag R.GLB_RUN F.GLB_RUN_BUSY = false → s.runState = 3 →
        ∃ t, exec c s = .next t ∧ t.runState = 4 ∧ t.run.stopWt = s.wt ∧
          t.fget R.GLB_RUN F.GLB_RUN_STOP_REASON = (if c = .abort then 1 else 0) ∧ t.run.aborting = decide (c = .abort) ∧
          t.rd R.GLB_RUN_NUMBER = s.rd R.GLB_RUN_NUMBER)) ∧
    (s.flag R.GLB_RUN F.GLB_RUN_BUSY = false → s.runState = 4 → s.run.fatalAt ≠ some s.beats →
      exec .abort s = .next s.abortDiscard) ∧
    (s.runState = 4 → s.stoppingOver = true →
      ∃ t, exec .stoppingEnd s = .next t ∧ t.runState = 0 ∧
        t.run = { s.run with
          aborting := false
          degUnits := t.run.degUnits } ∧ (s.bob.candidates = [] → t.hbm = s.hbm))

/-- LINKAI_BLOCK, LINKAI_FRAME, CRC_RESULT, CRC_WINDOW_END, LOSS_OF_SIGNAL, SIGNAL_RESTORED, FWD_CLOCK_LOST and
FWD_CLOCK_RESTORED (R35, R36, R42, R48, R64, R66, R68).
MSG_TRANSMIT, MSG_ACK_TIMEOUT, CONV_RESPONSE, SEND_MSG and MSG_RX_READ (R53 to R58, R71, R75).
The layout of a frame, the overrange map and the CRC with its check value (R37, R40, R41, R71). -/
def Obligations.LinkaiReceiver : Prop :=
  (∀ (s : State) (p : Fin 24) (l : Fin 8),
    let x := s.lane p l
    let taken : Prop := s.lnkListening p = true ∧ s.lnkUsed p l = true
    let locked := s.flag (R.LNK_LANE_STATUS p l) F.LNK_LANE_STATUS_BLOCK_LOCK
    (∀ h0 h1 payload, taken → x.inject ≠ 2 → h0 ≠ h1 →
      exec (.linkaiBlock p l h0 h1 payload) s = .next (
        let full := decide (64 ≤ x.winBlocks + 1)
        let gained := decide (64 ≤ x.goodHdrs + 1) && !locked
        let s1 := s.setLane p l { x with
          descr := (descramble x.descr payload).1
          descrBits := min 58 (x.descrBits + 64)
          payload := (descramble x.descr payload).2
          payloadOk := locked && !x.skip
          control := h0 && !h1
          skip := x.skip && !locked || gained
          goodHdrs := min 64 (x.goodHdrs + 1)
          winBlocks := if full then 0 else x.winBlocks + 1
          winBad := if full then 0 else x.winBad }
        if gained then s1.fon (R.LNK_LANE_STATUS p l) F.LNK_LANE_STATUS_BLOCK_LOCK else s1)) ∧
    (∀ h payload, taken → x.inject ≠ 2 → x.winBad < 15 → s.lnkState p ≠ lsVerify →
      exec (.linkaiBlock p l h h payload) s = .next (
        let full := decide (64 ≤ x.winBlocks + 1)
        (s.setLane p l { x with
          descr := (descramble x.descr payload).1
          descrBits := min 58 (x.descrBits + 64)
          payload := (descramble x.descr payload).2
          payloadOk := locked && !x.skip
          control := false
          skip := x.skip && !locked
          goodHdrs := 0
          winBlocks := if full then 0 else x.winBlocks + 1
          winBad := if full then 0 else x.winBad + 1 }).count (R.LNK_LANE_HDR_ERR p l) 1)) ∧
    (∀ f offset, taken → s.flag (R.LNK_LANE_STATUS p l) F.LNK_LANE_STATUS_BLOCK_LOCK = true →
      (x.inject = 0 ∨ s.flag (R.LNK_CFG p) F.LNK_CFG_INJ_ALLOW = false) → s.clk.stage = 0 →
      exec (.linkaiFrame p l f offset) s = .next (s.lnkFrame p l f.toNat offset)) ∧
    (∀ f offset, s.clk.stage ≠ 0 → exec (.linkaiFrame p l f offset) s = .next s) ∧
    (∀ f rest, x.flight = f :: rest → f.crcGood = true → f.markerGood = true → f.training = false → f.indexGood = true →
      f.stale = false →
      ∃ t, exec (.crcResult p l) s = .next t ∧ t.lane p l = { x with
          flight := rest
          clean := if f.verify then x.clean + 1 else x.clean
          misRun := 0 } ∧
        t.rd (R.LNK_LANE_FRAMES p l) = s.rd (R.LNK_LANE_FRAMES p l) + 1#32 ∧
        s.sameRegs t [R.LNK_LANE_FRAMES p l] ∧ t = { s with regs := t.regs, lanes := t.lanes }) ∧
    (∀ f rest, x.flight = f :: rest → f.crcGood = false →
      exec (.crcResult p l) s = .next ((s.setLane p l { x with flight := rest }).lnkFailed p l f)) ∧
    (s.lnkState p = lsActive → x.failSince + 2 ^ s.fget (R.LNK_STEP_CFG p) F.LNK_STEP_CFG_WINDOW * s.lnkFrameBeats p ≤ s.beats →
      exec (.crcWindowEnd p l) s = .next (s.setLane p l { x with
        fails := 0
        failSince := x.failSince + 2 ^ s.fget (R.LNK_STEP_CFG p) F.LNK_STEP_CFG_WINDOW * s.lnkFrameBeats p })) ∧
    (s.lnkUsed p l = true → exec (.lossOfSignal p l) s = .next
      (((s.foff (R.LNK_LANE_STATUS p l) F.LNK_LANE_STATUS_SIGNAL).raise (vLNK p) 2).lnkRecover p)) ∧
    (s.lnkUsed p l = false → exec (.lossOfSignal p l) s = .next
      ((s.foff (R.LNK_LANE_STATUS p l) F.LNK_LANE_STATUS_SIGNAL).raise (vLNK p) 2)) ∧
    exec (.signalRestored p l) s = .next (s.fon (R.LNK_LANE_STATUS p l) F.LNK_LANE_STATUS_SIGNAL) ∧
    exec (.fwdClockLost p) s = .next (((s.setPort p { s.port p with clkLost := true }).raise (vLNK p) 3).lnkRecover p) ∧
    exec (.fwdClockRestored p) s = .next (s.setPort p { s.port p with clkLost := false })) ∧
  ((∀ (s : State) (p : Fin 24),
    let x := s.port p
    (∀ m rest sw, x.outstanding = none → s.lnkReturnFree p = true → (s.lnkV1 p = true → v1Type m.mtype = true) →
      (x.devQueue = m :: rest ∧ sw = x.software ∧ m.mtype ≠ 5 ∧ m.mtype ≠ 9 ∨
        x.devQueue = [] ∧ rest = [] ∧ x.software = some m ∧ sw = none) →
      let tag := if m.tag = 0 then x.tag else m.tag
      ∃ t, exec (.msgTransmit p) s = .next t ∧
        t.port p = { x with
          devQueue := rest
          software := sw
          outstanding := some { m with tag := tag, resends := 0, sent := s.beats }
          tag := if m.tag = 0 then (if x.tag = 255 then 1 else x.tag + 1) else x.tag
          offSince := none } ∧
        (∀ q, q ≠ p.val → t.port q = s.port q) ∧ t.outs = .linkMessage p m.mtype tag m.payload :: s.outs ∧
        t.fget (R.LNK_STATUS p) F.LNK_STATUS_RET_PWR = 0 ∧ t.flag (R.LNK_STATUS p) F.LNK_STATUS_MSG_BUSY = true ∧
        s.sameRegs t [R.LNK_STATUS p]) ∧
    (∀ m rest, x.outstanding = none → s.lnkReturnFree p = true → s.lnkV1 p = true → v1Type m.mtype = false → x.devQueue = m :: rest →
      exec (.msgTransmit p) s = .next ((s.setPort p { x with devQueue := rest }).lnkUnsent p m)) ∧
    ((x.outstanding ≠ none ∨ s.lnkReturnFree p = false ∨ x.devQueue = [] ∧ x.software = none) →
      exec (.msgTransmit p) s = .next s) ∧
    (∀ m, x.outstanding = some m → m.sent + 128 * s.lnkFrameBeats p ≤ s.beats → m.resends < 3 →
      exec (.msgAckTimeout p) s = .next ((s.setPort p { x with
        outstanding := some { m with resends := m.resends + 1, sent := s.beats } }).emit
          (.linkMessage p m.mtype m.tag m.payload))) ∧
    (∀ m, x.outstanding = some m → m.sent + 128 * s.lnkFrameBeats p ≤ s.beats → m.resends = 3 → m.software = true →
      exec (.msgAckTimeout p) s = .next ((((s.setPort p { x with outstanding := none }).lnkBusySync p).raise (vLNK p) 11).foff
        (R.LNK_CTRL p) F.LNK_CTRL_SEND_MSG)) ∧
    (∀ (m : LinkMsg) (d : BitVec 16), s.lnkListening p = true → x.outstanding = some m → m.tag = d.toNat % 256 →
      m.software = true → m.mtype ≠ 6 → s.beats ≤ m.sent + 68 * 66 + 65 * s.lnkFrameBeats p →
      exec (.convResponse p 1#6 d) s = .next
        (((((s.setPort p { x with outstanding := none }).lnkBusySync p).foff (R.LNK_CTRL p) F.LNK_CTRL_SEND_MSG)).lnkLoadRx p 1 d.toNat)) ∧
    (∀ (k : Nat) (d : BitVec 16), k < 8 → s.lnkState p = lsCap →
      exec (.convResponse p (BitVec.ofNat 6 (8 + k)) d) s = .next (s.setPort p { x with caps := Tab.put (fun _ => 0) x.caps k d.toNat })) ∧
    (s.flag (R.LNK_CTRL p) F.LNK_CTRL_SEND_MSG = true → exec (.sendMsg p) s = .next (s.raise (vLNK p) 12)) ∧
    (s.flag (R.LNK_CTRL p) F.LNK_CTRL_SEND_MSG = false → s.lnkV1 p = false →
      exec (.sendMsg p) s = .next (((s.fon (R.LNK_CTRL p) F.LNK_CTRL_SEND_MSG).setPort p
        { x with software := some (s.lnkTxMsg p) }).lnkBusySync p)) ∧
    (∀ tag, s.breach.contains (vLNK p) = false → exec (.msgRxRead p tag) s = .next
      ((s.wr (R.LNK_MSG_RX p) 0#32).emit (.completion tag .ok [(s.rd (R.LNK_MSG_RX p)).toNat])))) ∧
  ((∀ (v1 : Bool) (f k : Nat), k < 132 →
    (frameSamples v1 f)[k]? = some (signed 14 (f / 2 ^ (168 + 14 * k) % 2 ^ 14),
      if v1 then f.testBit 73 && (decide (signed 14 (f / 2 ^ (168 + 14 * k) % 2 ^ 14) = -8192) ||
        decide (signed 14 (f / 2 ^ (168 + 14 * k) % 2 ^ 14) = 8191))
      else f.testBit (80 + k / 2))) ∧
  (∀ f : Nat, frameCrcGood f = ((crc32 (leBytes 252 f)).toNat == f / 2 ^ 2016 % 2 ^ 32)) ∧
  crc32 [0x31#8, 0x32#8, 0x33#8, 0x34#8, 0x35#8, 0x36#8, 0x37#8, 0x38#8, 0x39#8] = 0xCBF43926#32))

/-- DOWN_HOLD_END, RET_START_DONE, FWD_CLOCK_DETECT, ADAPT_DONE, LOCK_DONE, VERIFY_PASS, STEP_SWITCH_DONE, ALIGN_DONE,
PHASE_TIMEOUT and BRINGUP_RETRY (R47, R60 to R64, R489). -/
def Obligations.LinkaiBringup : Prop :=
  ∀ (s : State) (p : Fin 24),
    let x := s.port p
    let go (y : State) (st : Nat) : State :=
      (y.setPort p { y.port p with since := y.beats }).fset (R.LNK_STATUS p) F.LNK_STATUS_STATE st
    (∀ b, s.lnkState p = lsDown → x.attempt ≠ 0 → x.waiting = none → x.offSince = some b → b + 10 * beatsPerUs ≤ s.beats →
      exec (.downHoldEnd p) s = .next (go (((s.setPort p { x with offSince := none }).foff (R.LNK_CTRL p) F.LNK_CTRL_RET_WAKE).fset (R.LNK_STATUS p)
        F.LNK_STATUS_RET_PWR 0) lsRetStart)) ∧
    (s.lnkState p = lsRetStart → x.since + 64 * 66 ≤ s.beats → exec (.retStartDone p) s = .next (go s lsWaitConv)) ∧
    (s.lnkState p = lsWaitConv → exec (.fwdClockDetect p) s = .next
      (go ((s.setPort p { x with clkLost := false }).fset (R.LNK_STATUS p) F.LNK_STATUS_FWD_PWR 0) lsAdapt)) ∧
    (s.lnkState p = lsAdapt → exec (.adaptDone p) s = .next
      (if x.lockFor = .cap then go s lsLock else s.fset (R.LNK_STATUS p) F.LNK_STATUS_STATE lsLock)) ∧
    (s.lnkState p = lsLock → s.lnkLocked p = true → x.lockFor = .cap →
      exec (.lockDone p) s = .next ((go s lsCap).lnkQueue p 1 0)) ∧
    (s.lnkState p = lsLock → s.lnkLocked p = true → x.lockFor = .verify →
      exec (.lockDone p) s = .next (go (s.lnkRecount p) lsVerify)) ∧
    (s.lnkState p = lsVerify → (∀ l ∈ s.lnkLanes p, s.lnkVerifyCount p ≤ (s.lane p l).clean) → x.stepping = false →
      x.fallback = false → s.speed p < x.target →
      exec (.verifyPass p) s = .next (s.lnkSetSpeed p (s.speed p + 1) x.layoutLo x.layoutHi)) ∧
    (s.lnkState p = lsVerify → (∀ l ∈ s.lnkLanes p, s.lnkVerifyCount p ≤ (s.lane p l).clean) → x.stepping = false →
      (x.fallback = true ∨ x.target ≤ s.speed p) → exec (.verifyPass p) s = .next (s.lnkSettle p)) ∧
    (s.lnkState p = lsVerify → (∀ l ∈ s.lnkLanes p, s.lnkVerifyCount p ≤ (s.lane p l).clean) → x.stepping = true →
      exec (.verifyPass p) s = .next (go ((s.setPort p { x with stepping := false }).lnkRecount p) lsActive)) ∧
    (s.lnkState p = lsStep → x.outstanding = none → x.devQueue = [] → x.wantSpeed = s.speed p →
      exec (.stepSwitchDone p) s = .next (((s.setPort p { x with
        layoutLo := x.wantLo
        layoutHi := x.wantHi
        layoutDone := x.layoutDone || (decide (x.wantLo ≠ x.layoutLo) || decide (x.wantHi ≠ x.layoutHi)) }).lnkUnlock p).fset
          (R.LNK_STATUS p) F.LNK_STATUS_STATE lsLock)) ∧
    (∀ ta spread (index : BitVec 48), s.lnkState p = lsAlign → x.indexReady = true → x.recovery = false →
      s.run.armSince = none → s.gangCode p 0 = 0 →
      ∃ t, exec (.alignDone p ta index spread) s = .next t ∧ t.lnkState p = lsActive ∧
        t.place p = (((ta : Int) - signed 16 (s.rd (R.LNK_SKEW p)).toNat - s.lnkDeclared p - 256 * index.toNat + 2 ^ 71) % 2 ^ 72 - 2 ^ 71) ∧
        t.flag (R.LNK_STATUS p) F.LNK_STATUS_ALIGNED = true ∧ t.bit (R.LNK_INT_STATUS p) 0 = true ∧
        ∀ l, l < 8 → t.fget (R.LNK_LANE_STATUS p l) F.LNK_LANE_STATUS_EB_OFFSET = 0 ∧ (t.lane p l).ref = some index.toNat) ∧
    (∀ lim given, s.lnkState p ≠ lsWaitConv → s.lnkLimit p = some lim → (s.lnkState p = lsAlign → x.indexReady = true) →
      (x.since + lim < s.beats → x.stepping = false → exec (.phaseTimeout ⟨p, given⟩) s = .next (s.lnkAttemptFail p)) ∧
      (x.since + lim < s.beats → x.stepping = true → exec (.phaseTimeout ⟨p, given⟩) s = .next (s.lnkFail p true)) ∧
      (s.beats ≤ x.since + lim → exec (.phaseTimeout ⟨p, given⟩) s = .next s)) ∧
    (s.lnkState p = lsWaitConv → x.stepping = false →
      (x.since + 100 * beatsPerUs < s.beats → exec (.phaseTimeout ⟨p, none⟩) s = .next (s.lnkAttemptFail p)) ∧
      (∀ n, 10 * beatsPerUs < n → x.since + n ≤ s.beats → exec (.phaseTimeout ⟨p, some n⟩) s = .next (s.lnkAttemptFail p))) ∧
    (∀ b, x.waiting = some b → b + 100 * beatsPerUs ≤ s.beats →
      exec (.bringupRetry p) s = .next (s.lnkAttempt p (x.attempt + 1)))

/-- BRINGUP, DROP, FWD_DOZE, FWD_OFF, FWD_WAKE, RET_DOZE, RET_OFF, RET_WAKE, PRBS_LOCK, PRBS_LOCK_LOSS, PRBS_ERR,
PRBS_ERR_READ and INJECT_GO (R63, R69, R71, R73, R74). That a forward sleep command outside ACTIVE is refused is the model's
reading (log entry 31). -/
def Obligations.LinkaiCommands : Prop :=
  ∀ (s : State) (p : Fin 24) (l : Fin 8),
    let refused : State := s.raise (vLNK p) 13
    let dropped : State := ((s.setPort p { s.port p with attempt := 0, waiting := none }).lnkCtrlDone p).foff (R.LNK_CTRL p)
      F.LNK_CTRL_RET_WAKE
    let prbs : Prop := s.lnkState p = lsPrbs ∧ s.lnkEnabled p = false ∧
      s.flag (R.LNK_PRBS_CTRL p l) F.LNK_PRBS_CTRL_CHK_EN = true
    ((s.lnkEnabled p = true ∨ s.runState = 4) → exec (.bringup p) s = .next refused ∧ exec (.drop p) s = .next refused) ∧
    (s.lnkEnabled p = true →
      exec (.fwdDoze p) s = .next refused ∧ exec (.fwdOff p) s = .next refused ∧ exec (.fwdWake p) s = .next refused) ∧
    (s.lnkEnabled p = false →
      (s.runState ≠ 4 → s.flag (R.LNK_CTRL p) F.LNK_CTRL_BRINGUP = false →
        exec (.bringup p) s = .next ((s.fon (R.LNK_CTRL p) F.LNK_CTRL_BRINGUP).lnkBringup p false true)) ∧
      (s.runState ≠ 4 → s.flag (R.LNK_CTRL p) F.LNK_CTRL_DROP = false → s.lnkState p = lsActive → s.lnkV1 p = false →
        exec (.drop p) s = .next (((dropped.fon (R.LNK_CTRL p) F.LNK_CTRL_DROP).lnkQueue p 4
          (if s.bit (R.LNK_CAP p 0) 9 then 1 else 0)).lnkQueue p 9 1)) ∧
      (s.runState ≠ 4 → s.flag (R.LNK_CTRL p) F.LNK_CTRL_DROP = false → ¬(s.lnkState p = lsActive ∧ s.lnkV1 p = false) →
        exec (.drop p) s = .next (if s.lnkState p = lsSleep then (dropped.fon (R.LNK_CTRL p) F.LNK_CTRL_DROP).lnkQueue p 9 1
          else dropped.lnkDropNow p)) ∧
      (s.lnkState p = lsActive → s.lnkV1 p = false → s.flag (R.LNK_CTRL p) F.LNK_CTRL_FWD_DOZE = false →
        exec (.fwdDoze p) s = .next ((s.fon (R.LNK_CTRL p) F.LNK_CTRL_FWD_DOZE).lnkQueue p 4 0)) ∧
      (s.lnkState p = lsActive → s.lnkV1 p = false → s.flag (R.LNK_CTRL p) F.LNK_CTRL_FWD_OFF = false →
        exec (.fwdOff p) s = .next (if s.bit (R.LNK_CAP p 0) 9 then (s.fon (R.LNK_CTRL p) F.LNK_CTRL_FWD_OFF).lnkQueue p 4 1
          else refused)) ∧
      (s.flag (R.LNK_CTRL p) F.LNK_CTRL_FWD_WAKE = false →
        (s.fget (R.LNK_STATUS p) F.LNK_STATUS_FWD_PWR = 1 → s.lnkState p = lsSleep →
          exec (.fwdWake p) s = .next ((s.fon (R.LNK_CTRL p) F.LNK_CTRL_FWD_WAKE).lnkQueue p 5 0)) ∧
        (s.fget (R.LNK_STATUS p) F.LNK_STATUS_FWD_PWR ≠ 0 →
          ¬(s.fget (R.LNK_STATUS p) F.LNK_STATUS_FWD_PWR = 1 ∧ s.lnkState p = lsSleep) →
          exec (.fwdWake p) s = .next ((s.fon (R.LNK_CTRL p) F.LNK_CTRL_FWD_WAKE).lnkBringup p false true)))) ∧
    (s.lnkV1 p = true → s.fget (R.LNK_STATUS p) F.LNK_STATUS_RET_PWR = 0 →
      (s.flag (R.LNK_CTRL p) F.LNK_CTRL_RET_DOZE = false →
        exec (.retDoze p) s = .next (s.fset (R.LNK_STATUS p) F.LNK_STATUS_RET_PWR 1)) ∧
      (s.flag (R.LNK_CTRL p) F.LNK_CTRL_RET_OFF = false →
        exec (.retOff p) s = .next (s.fset (R.LNK_STATUS p) F.LNK_STATUS_RET_PWR 1))) ∧
    (s.lnkV1 p = false → s.fget (R.LNK_STATUS p) F.LNK_STATUS_RET_PWR = 0 →
      (s.flag (R.LNK_CTRL p) F.LNK_CTRL_RET_DOZE = false →
        exec (.retDoze p) s = .next ((s.fon (R.LNK_CTRL p) F.LNK_CTRL_RET_DOZE).lnkQueue p 9 0)) ∧
      (s.flag (R.LNK_CTRL p) F.LNK_CTRL_RET_OFF = false →
        exec (.retOff p) s = .next ((s.fon (R.LNK_CTRL p) F.LNK_CTRL_RET_OFF).lnkQueue p 9 1))) ∧
    (¬(s.lnkState p = lsDown ∧ (s.port p).attempt ≠ 0) →
      exec (.retWake p) s = .next (((s.setPort p { s.port p with offSince := none }).foff (R.LNK_CTRL p) F.LNK_CTRL_RET_WAKE).fset
        (R.LNK_STATUS p) F.LNK_STATUS_RET_PWR 0)) ∧
    (s.lnkState p = lsDown → (s.port p).attempt ≠ 0 →
      exec (.retWake p) s = .next (s.fon (R.LNK_CTRL p) F.LNK_CTRL_RET_WAKE)) ∧
    (prbs → exec (.prbsLock p l) s = .next (s.fon (R.LNK_LANE_STATUS p l) F.LNK_LANE_STATUS_PRBS_LOCK) ∧
      (∃ t, exec (.prbsLockLoss p l) s = .next t ∧ t.flag (R.LNK_LANE_STATUS p l) F.LNK_LANE_STATUS_PRBS_LOCK = false ∧
        (t.lane p l).prbs.good = 0 ∧ s.sameRegs t [R.LNK_LANE_STATUS p l] ∧ t = { s with regs := t.regs, lanes := t.lanes }) ∧
      exec (.prbsErr p l) s = .next (if s.flag (R.LNK_LANE_STATUS p l) F.LNK_LANE_STATUS_PRBS_LOCK then
        (s.wr (R.LNK_PRBS_ERR p l) (BitVec.ofNat 32 (min 0xFFFFFFFF ((s.rd (R.LNK_PRBS_ERR p l)).toNat + 1)))).raise (vLNK p) 15
        else s)) ∧
    (∀ tag, s.breach.contains (vLNK p) = false → exec (.prbsErrRead p l tag) s = .next
      ((s.wr (R.LNK_PRBS_ERR p l) 0#32).emit (.completion tag .ok [(s.rd (R.LNK_PRBS_ERR p l)).toNat]))) ∧
    (s.flag (R.LNK_CFG p) F.LNK_CFG_INJ_ALLOW = false → exec (.injectGo p l) s = .next s) ∧
    (s.flag (R.LNK_CFG p) F.LNK_CFG_INJ_ALLOW = true →
      (s.fget (R.LNK_INJ p l) F.LNK_INJ_MODE = 4 → ∃ t, exec (.injectGo p l) s = .next t ∧ (t.lane p l).prbs.errs = true ∧
        t.flag (R.LNK_INJ p l) F.LNK_INJ_GO = true) ∧
      (5 ≤ s.fget (R.LNK_INJ p l) F.LNK_INJ_MODE → exec (.injectGo p l) s = .next refused) ∧
      ((s.fget (R.LNK_INJ p l) F.LNK_INJ_MODE = 1 ∨ s.fget (R.LNK_INJ p l) F.LNK_INJ_MODE = 2 ∨
          s.fget (R.LNK_INJ p l) F.LNK_INJ_MODE = 3) →
        exec (.injectGo p l) s = .next (((s.setLane p l { s.lane p l with inject := s.fget (R.LNK_INJ p l) F.LNK_INJ_MODE }).log
          (vLNK p) ecInject sevInfo l ((s.rd (R.LNK_INJ p l)).toNat % 2 ^ 16) 0).fon (R.LNK_INJ p l) F.LNK_INJ_GO)))

/-- TAP_A_RELEASE, CAPTURE_RELEASE, COEF_SCRUB and COEF_WRITE (R78, R82, R85 to R97, R372, R437).
SPECTRUM_DELIVERY, TABLE_SCRUB, WIN_DATA_WRITE and RETIRE_WRITE (R110, R112, R114 to R123, R372). -/
def Obligations.ConditionersAndReeds : Prop :=
  (∀ (s : State) (c : Fin 192) (n : Fin 24) (m : Fin 4) (k : Fin 256),
    let x := s.cch c
    let en := s.flag (R.CND_CH_CFG (c / 8) (c % 8)) F.CND_CH_CFG_EN
    let addr := 0x00102000 + 0x10000 * n.val + 0x1000 + 0x400 * m.val + 4 * k.val
    (x.store = [] → exec (.tapARelease c) s = .next s) ∧
    (∀ y rest, x.store = y :: rest →
      ((s.wt : Int) < y.stamp / 256 + s.lambda c → exec (.tapARelease c) s = .next s) ∧
      (y.stamp / 256 + s.lambda c ≤ (s.wt : Int) → en = false →
        exec (.tapARelease c) s = .next (s.setCch c { x with store := rest })) ∧
      (y.stamp / 256 + s.lambda c ≤ (s.wt : Int) → en = true → (s.runState ≠ 3 ∨ s.analysed (s.takenAt y.stamp) = false ∨ y.taint = true ∨ y.ovr = true) →
        exec (.tapARelease c) s = .next ((s.setCch c { x with store := rest }).condition c y))) ∧
    (x.capture = [] → exec (.captureRelease c) s = .next s) ∧
    (∀ w rest, x.capture = w :: rest →
      (s.beats < w.due → exec (.captureRelease c) s = .next s) ∧
      (w.due ≤ s.beats → exec (.captureRelease c) s = .next ((s.setCch c { x with capture := rest }).captureOut c w))) ∧
    exec (.coefScrub n m k false) s = .next ((s.count (R.CND_COEF_CE_CNT n) 1).raise (vCND n) 6) ∧
    (∃ t, exec (.coefScrub n m k true) s = .next t ∧ t.regs =
        ((s.bitOn (R.CND_STATUS n) (4 + m)).event (vCND n) 7 sevError m 0 addr).regs ∧ t.cond.coef = s.cond.coef) ∧
    (∀ src (v : BitVec 32),
      let b := s.bridgeReady
      exec (.coefWrite src n m k v) s = .next ((b.narrowWrite (srcCode src) addr v (b.egShut (vCND n))
        (decide (v.toNat % 2 ^ 18 = b.coefWord n m k))).coefPut src n m k v)) ∧
    (∀ src (v : BitVec 32), v.toNat < 2 ^ 18 →
      (s.egShut (vCND n) = true → v.toNat % 2 ^ 18 ≠ s.coefWord n m k →
        s.coefPut src n m k v = s.egReject (vCND n) src addr) ∧
      (s.egShut (vCND n) = false → v.toNat % 2 ^ 18 ≠ s.coefWord n m k → s.bit (R.CND_STATUS n) (4 + m) = false →
        ∃ t, s.coefPut src n m k v = t ∧ t.coefWord n m k = v.toNat % 2 ^ 18 ∧
          (∀ n' m' k', k' < 256 → m' < 4 → (n' ≠ n.val ∨ m' ≠ m.val ∨ k' ≠ k.val) → t.coefWord n' m' k' = s.coefWord n' m' k') ∧
          s.sameRegs t [R.GLB_STATUS] ∧ t = { s with regs := t.regs, tick := t.tick, cond := { s.cond with coef := t.cond.coef } })) ∧
    (∀ src (v : BitVec 32), 2 ^ 18 ≤ v.toNat → s.breach.contains (vCND n) = false →
      s.coefPut src n m k v = State.coefPut { s with breach := vCND n :: s.breach } src n m k v)) ∧
  (∀ (s : State) (c : Fin 192) (n : Fin 24) (t : Fin 2) (k : Fin 16384),
    let x := s.strm c
    let addr := R.SPC_WIN_ADDR n
    (∀ m, x.pend = [] → exec (.spectrumDelivery c m) s = .next s) ∧
    (∀ w rest, x.pend = w :: rest →
      (∀ m, (s.beats < w.due ∨ w.placed = false) → exec (.spectrumDelivery c m) s = .next s) ∧
      (w.due ≤ s.beats → w.placed = true →
        exec (.spectrumDelivery c 0) s = .next ((s.setStrm c { x with
          pend := rest
          left := ⟨s.beats, w.index, w.lo, w.hi⟩ :: x.left.filter (fun y => decide (s.beats ≤ y.beat + 1024)) }).specDeliver c w) ∧
        exec (.spectrumDelivery c 2) s =
          .next (((s.setStrm c { x with pend := rest }).raise (vSPC (c / 8)) 3).specSkip c 1))) ∧
    exec (.tableScrub n t k false) s = .next ((s.count (R.SPC_MEM_CE_CNT n) 1).raise (vSPC n) 2) ∧
    (∃ y : State, y.regs = ((s.bitOn (R.SPC_STATUS n) (4 + t)).event (vSPC n) 4 sevError t 0 0).regs ∧
      exec (.tableScrub n t k true) s = .next ((y.tableUsers n t).foldl (fun z c => z.dropLoading c) y)) ∧
    (∀ src (v : BitVec 32),
      let b := s.bridgeReady
      let held := b.tableEntry n (b.fget addr F.SPC_WIN_ADDR_TABLE) (b.fget addr F.SPC_WIN_ADDR_ENTRY)
      exec (.winDataWrite src n v) s = .next ((b.narrowWrite (srcCode src) (R.SPC_WIN_DATA n) v (b.egShut (vSPC n))
        (decide (v.toNat % 2 ^ 18 = held))).winDataPut src n v)) ∧
    (∀ src (v : BitVec 32), s.fget addr F.SPC_WIN_ADDR_TABLE = t → s.fget addr F.SPC_WIN_ADDR_ENTRY = k →
      v.toNat % 2 ^ 18 ≠ s.tableEntry n t k →
      (s.egShut (vSPC n) = true → s.winDataPut src n v = s.egReject (vSPC n) src (R.SPC_WIN_DATA n)) ∧
      (s.egShut (vSPC n) = false → s.bit (R.SPC_STATUS n) (4 + t) = false →
        ∃ z, s.winDataPut src n v = z ∧ z.tableEntry n t k = v.toNat % 2 ^ 18 ∧
          z.fget addr F.SPC_WIN_ADDR_ENTRY = (k + 1) % 16384 ∧ z.fget addr F.SPC_WIN_ADDR_TABLE = t ∧
          s.sameRegs z [addr, R.GLB_STATUS] ∧
          z = { s with regs := z.regs, tick := z.tick, spec := { s.spec with tables := z.spec.tables } })) ∧
    (∀ src (v : BitVec 32),
      let old := s.fget (R.SPC_RETIRE n) F.SPC_RETIRE_RETIRE
      let fail := s.fget (R.SPC_RETIRE n) F.SPC_RETIRE_PDK_FAIL
      let b := s.bridgeReady
      exec (.retireWrite src n v) s = .next ((b.narrowWrite (srcCode src) (R.SPC_RETIRE n) v (b.egShut (vSPC n))
        (decide (v.toNat % 16 = b.fget (R.SPC_RETIRE n) F.SPC_RETIRE_RETIRE))).retirePut src n v) ∧
      (v.toNat % 16 = old → s.retirePut src n v = s) ∧
      (v.toNat % 16 ≠ old → s.egShut (vSPC n) = true → s.retirePut src n v = s.egReject (vSPC n) src (R.SPC_RETIRE n)) ∧
      (v.toNat % 16 ≠ old → s.egShut (vSPC n) = false →
        s.retirePut src n v = (s.fset (R.SPC_RETIRE n) F.SPC_RETIRE_RETIRE ((v.toNat % 16) ||| (old &&& fail))).egStored)))

/-- The arithmetic that the stages share (R84, R85, R87, R89). -/
def Obligations.ConditionerArithmetic : Prop :=
  (∀ (v : Int) (k : Nat), 2 * (v - roundConv v k * 2 ^ k).natAbs ≤ 2 ^ k ∧
    (2 * (v - roundConv v k * 2 ^ k).natAbs = 2 ^ k → k ≠ 0 → roundConv v k % 2 = 0)) ∧
  (∀ (k : Nat) (xs : List Int), 1 ≤ k → k ≤ xs.length →
    kthSmallest k xs ∈ xs ∧ (xs.filter (fun v => decide (v < kthSmallest k xs))).length < k ∧
      k ≤ (xs.filter (fun v => decide (v ≤ kthSmallest k xs))).length) ∧
  (∀ (s : State) (c : Fin 192) (x taken : Int), -8192 ≤ x → x ≤ 8191 → s.breach.contains (vCND (c / 8)) = false →
    let off := (s.calFor c taken).1
    let gain := (s.calFor c taken).2
    (s.correct c x taken).1 = max (-32768) (min 32767 (roundConv ((4 * x + off) * gain) 16)) ∧
    ((s.correct c x taken).2 = true ↔ (s.correct c x taken).1 ≠ roundConv ((4 * x + off) * gain) 16) ∧
    (off = 0 → gain = 65536 → s.correct c x taken = (4 * x, false)) ∧
    ((s.run.startBeat : Int) ≤ taken / 256 →
      s.calFor c taken = (signed 16 (s.fget (R.CND_OFFSET (c / 8) (c % 8)) F.CND_OFFSET_OFFSET),
        s.fget (R.CND_GAIN (c / 8) (c % 8)) F.CND_GAIN_GAIN))) ∧
  (∀ (s : State) (c : Fin 192) (n : Int),
    (s.ncoPhase c n : Int) = (s.fget (R.CND_NCO_PHASE (c / 8) (c % 8)) F.CND_NCO_PHASE_PHASE * 2 ^ 32 +
      ((s.rd (R.CND_NCO_FREQ_LO (c / 8) (c % 8))).toNat + 2 ^ 32 * s.fget (R.CND_NCO_FREQ_HI (c / 8) (c % 8))
        F.CND_NCO_FREQ_HI_FREQ) * n) % 2 ^ 48)

/-- What every placement of the allocator satisfies (R106 to R110). -/
def Obligations.PlacementHoldsLimits : Prop :=
  ∀ (retired : Nat → Bool) (xs : List AllocStream) (fuel : Nat) (x : Alloc) (ys : List AllocStream),
    (∀ y ∈ xs, y.mem ≤ 32768 ∧ y.load ≤ 8 * oneSlot) → allocate retired xs fuel = .ok (x, ys) →
    (∀ r, (x.reed r).load ≤ 4 * oneSlot ∧ (x.reed r).mem ≤ 32768 ∧ (retired r = true → (x.reed r).streams = []) ∧
      ((x.reed r).paired = true → (x.reed r).streams.length = 1)) ∧
    (∀ y ∈ xs, ∃ r pair, (y.ch, r, pair) ∈ x.puts ∧ y.ch ∈ (x.reed r).streams) ∧
    ys.map (fun y => (y.ch, y.base, y.mem, y.keep)) = xs.map (fun y => (y.ch, y.base, y.mem, y.keep)) ∧
    (∀ y ∈ xs, y.keep = true → (∀ z ∈ xs, z.ch = y.ch → z = y) → y ∈ ys)

/-- TRIGGER_BUS_INPUT, LITERAL_DELAY_EXPIRE, EDGE_WINDOW_END, OUT_PULSE_END, TRIG_IN_EDGE, SOFT_TRIGGER, MASK_STOP and
TAINT_RETENTION_END (R126, R135 to R141, R147).
TMR_DISAGREE, COPY_STUCK and COPY_RECOVERED (R145, R146). -/
def Obligations.TriggerCommands : Prop :=
  (∀ (s : State) (m : Fin 64) (j : Fin 8) (o : Fin 16) (i : Fin 8) (ph : Fin 8),
    exec .triggerBusInput s = .next s.matrix ∧
    exec (.literalDelayExpire m j) s = .next (if s.flag (R.TRD_LIT_A m j) F.TRD_LIT_A_EN then s.matrix else s) ∧
    exec (.edgeWindowEnd m j) s = .next (if s.flag (R.TRD_LIT_A m j) F.TRD_LIT_A_MODE then s.matrix else s) ∧
    (s.flag (R.TRD_OUT_CFG o) F.TRD_OUT_CFG_MODE = true → Tab.get (fun _ => 0) s.trd.pulses o ≤ s.beats →
      ∃ t, exec (.outPulseEnd o) s = .next t ∧ nbit t.trd.pins o = s.flag (R.TRD_OUT_CFG o) F.TRD_OUT_CFG_POL ∧
        t = { s with trd := { s.trd with pulses := t.trd.pulses, pins := t.trd.pins } }) ∧
    (∀ high, s.bankLost 4 = false → ∃ u : State, u = { s with trd := { s.trd with inPins := u.trd.inPins } } ∧
      (∀ k, nbit u.trd.inPins k = if k = i.val then high else nbit s.trd.inPins k) ∧
      (nbit (s.fget R.TRD_IN_CFG F.TRD_IN_CFG_EN) i = false → exec (.trigInEdge i high ph) s = .next u) ∧
      (nbit (s.fget R.TRD_IN_CFG F.TRD_IN_CFG_EN) i = true → nbit s.trd.inPins i = high → exec (.trigInEdge i high ph) s = .next u) ∧
      (nbit (s.fget R.TRD_IN_CFG F.TRD_IN_CFG_EN) i = true → nbit s.trd.inPins i ≠ high →
        exec (.trigInEdge i high ph) s = .next (u.pushBus (608 + i)
          (if high = nbit (s.fget R.TRD_IN_CFG F.TRD_IN_CFG_POL) i then ⟨s.beats + 1, false, none, .plain, false⟩
            else ⟨s.beats + 1, true, some ((s.wt256 : Int) + 32 * ph.val - 32 * s.fget R.TRD_IN_CFG F.TRD_IN_CFG_DLY),
              .plain, false⟩)))) ∧
    (∀ high, s.bankLost 4 = true → exec (.trigInEdge i high ph) s = .next s) ∧
    exec (.softTrigger (BitVec.ofNat 8 (2 ^ i.val))) s =
      .next (s.pulseBus (616 + i) s.beats (s.wt256 : Int) .plain false) ∧
    (∀ b u, s.trd.maskRise = some (b, u) →
      ((s.beats < b + 16 ∨ s.runState ≠ 3 ∨ s.maskAwaits b = true) → exec .maskStop s = .next s) ∧
      (b + 16 ≤ s.beats → s.runState = 3 → s.maskAwaits b = false → exec .maskStop s = .next
        (((s.fon R.TRD_STATUS F.TRD_STATUS_MASK_STOP).event vTRD 8 sevWarning u 0 0).stopFor stopMask))) ∧
    exec .taintRetentionEnd s = .next { s with trd := { s.trd with
      firings := s.trd.firings.filter (fun f => decide (s.beats ≤ f.beat + 1024)) } }) ∧
  (∀ (s : State) (k : Fin 3),
    let x := s.copy k
    ((x.bad = 0 ∨ x.lastBad ≠ s.beats) →
      exec (.tmrDisagree k) s = .next (((((s.upsets k).setCopy k ⟨if x.bad ≠ 0 ∧ x.lastBad + 1 = s.beats then x.bad + 1 else 1,
        s.beats⟩).count (R.TRD_TMR_CNT k) 1).raise vTRD 0).logCoalesce vTRD 0 sevInfo k 0)) ∧
    (x.bad ≠ 0 → x.lastBad = s.beats → exec (.tmrDisagree k) s = .next s) ∧
    (4096 ≤ x.bad → s.beats ≤ x.lastBad + 1 → s.bit R.TRD_STATUS (2 + k) = false →
      let s1 := (s.bitOn R.TRD_STATUS (2 + k)).event vTRD 1 sevError k 0 0
      exec (.copyStuck k) s = .next
        (if (upTo 3).any (fun j => decide (j ≠ k.val) && s.bit R.TRD_STATUS (2 + j)) then s1.fatal vTRD 1 k 0 0 else s1)) ∧
    ((x.bad < 4096 ∨ x.lastBad + 1 < s.beats) → exec (.copyStuck k) s = .next s) ∧
    (s.bit R.TRD_STATUS (2 + k) = true → x.lastBad + 4096 ≤ s.beats →
      exec (.copyRecovered k) s = .next ((s.bitOff R.TRD_STATUS (2 + k)).setCopy k CopySt.init)) ∧
    (s.beats < x.lastBad + 4096 → exec (.copyRecovered k) s = .next s))

/-- Terms, sum lines and pins after an evaluation (R136 to R141). -/
def Obligations.MatrixIsSumOfProducts : Prop :=
  ∀ s : State,
    let b := s.busApply
    let t := s.matrix
    ((s.runState = 3 ∨ s.runState = 4) →
      (∀ m, m < 64 → (nbit t.trd.terms m = true ↔
        (∃ j, j < 8 ∧ s.flag (R.TRD_LIT_A m j) F.TRD_LIT_A_EN = true) ∧
          ∀ j, j < 8 → s.flag (R.TRD_LIT_A m j) F.TRD_LIT_A_EN = true → b.litValue m j s.beats = true)) ∧
      (∀ l, l < 80 → (nbit t.trd.sums l = true ↔
        ∃ m, m < 64 ∧ nbit (s.pair (R.TRD_SUM_MASK_LO l) (R.TRD_SUM_MASK_HI l)) m = true ∧ nbit t.trd.terms m = true))) ∧
    (∀ o, o < 16 → nbit t.trd.pins o = t.outPin o) ∧
    (s.runState ≠ 3 → ∀ o, o < 16 → nbit t.trd.pins o = s.flag (R.TRD_OUT_CFG o) F.TRD_OUT_CFG_POL)

/-- SHED_ARM, SHED_DISARM, SHED_FORCE, SHED_PREFILL_DONE, SHED_POST_END, SHED_HOLDOFF_END and MASK_DATA_WRITE (R149 to
R158, R161, R372). -/
def Obligations.ShedCommands : Prop :=
  ∀ (s : State) (k : Fin 64) (n : Fin 24),
    let st := s.shedState k
    let armable := (s.runState = 2 ∨ s.runState = 3) ∧ (st = 0 ∨ st = 6)
    (¬ armable → exec (.shedArm k) s = .next (s.raise vTRD 9)) ∧
    (armable → s.shedChans k ≠ [] → (∀ c ∈ s.shedChans k, s.shedNeeds k c ≤ s.ringHolds c) →
      ∃ t, exec (.shedArm k) s = .next t ∧
        t.shedState k = (if s.runState = 2 then 1
          else if s.shedPre k = 0 ∨ s.flag (R.TRD_SHED_CFG k) F.TRD_SHED_CFG_PRE_MODE = true then 3 else 2) ∧
        (t.shed k).acq = (s.shed k).acq + 1 ∧ (t.shed k).segment = 0 ∧ (t.shed k).armWt = s.wt256) ∧
    (armable → (s.shedChans k = [] ∨ ∃ c ∈ s.shedChans k, s.ringHolds c < s.shedNeeds k c) →
      ∃ t, exec (.shedArm k) s = .next t ∧ t.shedState k = 0 ∧
        t.flag (R.TRD_SHED_STATUS k) F.TRD_SHED_STATUS_CFG_BAD = true ∧ t.bit R.TRD_INT_STATUS 5 = true) ∧
    (st ≠ 4 → exec (.shedDisarm k) s = .next ((s.setShed k { s.shed k with disarmAt := some s.beats }).shedGo k 0)) ∧
    (s.shedAtStart k = 3 → st = 3 → (s.shed k).disarmAt ≠ some s.beats →
      ∃ t, exec (.shedForce k) s = .next t ∧ t.shedState k = 4 ∧ (t.shed k).firedBeat = s.beats ∧
        t.pair (R.TRD_SHED_TRIG_LO k) (R.TRD_SHED_TRIG_HI k) = s.wt256 / 256 % 2 ^ 64 ∧
        t.rd (R.TRD_SHED_TRIG_FRAC k) = w32 (s.wt256 % 256) ∧
        t.rd (R.TRD_SHED_COUNT k) = s.rd (R.TRD_SHED_COUNT k) + 1#32 ∧ t.trd.fired = s.trd.fired ++ [k.val] ∧
        ∃ w, t.recs.waves = s.recs.waves ++ [w] ∧ w.shed = k.val ∧ w.t = (s.wt256 : Int) ∧ w.forced = true ∧
          w.missed = (s.shed k).missed) ∧
    (s.trd.fired ≠ [] → s.shedsFired.bit R.TRD_INT_STATUS 3 = true) ∧
    ((s.shedAtStart k ≠ 3 ∨ st ≠ 3 ∨ (s.shed k).disarmAt = some s.beats) → exec (.shedForce k) s = .next (s.shedMiss k)) ∧
    (st = 2 → s.prefilled k = true → exec (.shedPrefillDone k) s = .next (s.shedGo k 3)) ∧
    (st = 4 → (s.shed k).firedBeat < s.beats → s.postReleased k = true →
      exec (.shedPostEnd k) s = .next (s.shedPosted k)) ∧
    (st = 5 → s.holdMet k = true → exec (.shedHoldoffEnd k) s = .next (s.shedGo k 3)) ∧
    (∀ src (v : Word) e, s.fget (R.STR_MASK_ADDR n) F.STR_MASK_ADDR_ENTRY = e → s.maskEntry n e ≠ v →
      (let b := s.bridgeReady
      exec (.maskDataWrite src n v) s = .next ((b.narrowWrite (srcCode src) (R.STR_MASK_DATA n) v (b.egShut (vSTR n))
        (decide (v = b.maskEntry n (b.fget (R.STR_MASK_ADDR n) F.STR_MASK_ADDR_ENTRY)))).maskDataPut src n v)) ∧
      (s.egShut (vSTR n) = true → s.maskDataPut src n v = s.egReject (vSTR n) src (R.STR_MASK_DATA n)) ∧
      (s.egShut (vSTR n) = false → ∃ t, s.maskDataPut src n v = t ∧ t.maskEntry n e = v ∧
        t.fget (R.STR_MASK_ADDR n) F.STR_MASK_ADDR_ENTRY = (e + 1) % 32768 ∧ s.sameRegs t [R.STR_MASK_ADDR n, R.GLB_STATUS] ∧
        t = { s with regs := t.regs, tick := t.tick, trd := { s.trd with masks := t.trd.masks } }))

/-- The states of a unit, its events and their taint (R128, R129, R147). -/
def Obligations.PrimitiveUnit : Prop :=
  ∀ (cfg thr width : Word) (hyst due : Nat) (p : PrimSt) (x : PrimVal),
    let a := signed 16 (fieldOf thr F.STR_PRIM_THR_THR_A)
    let kind := fieldOf cfg F.STR_PRIM_CFG_KIND
    let qual := fieldOf cfg F.STR_PRIM_CFG_QUAL
    let q := (primStep cfg thr width hyst due p x).1
    let e := (primStep cfg thr width hyst due p x).2
    (p.st = 0 → q.st ≠ 2) ∧
    (kind = 1 → p.st = 1 → (q.st = 2 ↔ a ≤ x.v)) ∧
    (kind = 1 → p.st = 2 → (q.st = 1 ↔ x.v < a - hyst)) ∧
    (kind = 2 → p.st = 1 → (q.st = 2 ↔ x.v ≤ a)) ∧
    (kind = 2 → p.st = 2 → (q.st = 1 ↔ a + hyst < x.v)) ∧
    (qual = 0 → (e.event = true ↔ q.st = 2 ∧ p.st ≠ 2)) ∧
    (qual = 2 → (e.event = true ↔ p.st = 2 ∧ q.st ≠ 2 ∧ p.width ≤ fieldOf width F.STR_PRIM_WIDTH_WMAX)) ∧
    (qual = 3 → (e.event = true ↔ p.st = 2 ∧ q.st ≠ 2 ∧ fieldOf width F.STR_PRIM_WIDTH_WMIN ≤ p.width ∧
      p.width ≤ fieldOf width F.STR_PRIM_WIDTH_WMAX)) ∧
    (q.st = 2 → p.st = 2 → q.width = min 65535 (p.width + 1)) ∧ (q.st = 2 → p.st ≠ 2 → q.width = 1) ∧
    (x.taint = true → e.taint = true) ∧
    (qual ≠ 0 → p.st = 2 → p.taint = true → e.taint = true)

/-- PARTIAL_UNIT_FLUSH, UNIT_COMMIT, LOOKUP_GO, LOOKUP_DONE, REFRESH_DUE, RFM_THRESHOLD, TEMP_POLL, PATROL_SCRUB and
PC_PENDING_SET (R169, R173, R178, R182, R184, R490).
SR_ENTER, SR_EXIT, FREQ_GO, SR_IDLE_EXPIRE, SR_ENTERING, SRE_ISSUE, SR_RESIDENCY_END, FREQ_SWITCH_DONE and SR_EXIT_DONE
(R186, R187, R188). -/
def Obligations.BobbinUpkeep : Prop :=
  (∀ (s : State) (c : Fin 192) (q : Fin 64) (bank : Fin 48) (k : Fin 2),
    let x := s.ring c
    let p := s.pc q
    let owed := Tab.get (fun _ => 0) p.owed bank
    let busy := p.queue.any (fun r => decide (r.unit % 48 = bank) && decide (s.classNow r ≤ 3))
    (x.buf ≠ [] → x.since.headD s.beats + 65536 ≤ s.beats → x.buf.length < s.unitRoom c →
      exec (.partialUnitFlush c) s = .next (s.ringCommit c x.buf.length)) ∧
    (s.beats < x.since.headD s.beats + 65536 → exec (.partialUnitFlush c) s = .next s) ∧
    (s.unitRoom c ≤ x.buf.length → exec (.unitCommit c) s = .next (s.ringCommit c (s.unitRoom c))) ∧
    (x.buf.length < s.unitRoom c → exec (.unitCommit c) s = .next s) ∧
    (s.flag R.BOB_LOOKUP_CTRL F.BOB_LOOKUP_CTRL_GO = true → ∃ t, exec .lookupGo s = .next t ∧
      t = { s with tick := t.tick } ∧ t.tick.again = s.tick.again ++ [(R.BOB_LOOKUP_CTRL, 16, 0)]) ∧
    (s.flag R.BOB_LOOKUP_CTRL F.BOB_LOOKUP_CTRL_GO = false → exec .lookupGo s =
      .next (let y := s.fon R.BOB_LOOKUP_CTRL F.BOB_LOOKUP_CTRL_GO; { y with bob := { y.bob with lookup := some ⟨s.fget R.BOB_LOOKUP_CTRL F.BOB_LOOKUP_CTRL_CH,
        (s.pair R.BOB_LOOKUP_WT_LO R.BOB_LOOKUP_WT_HI : Nat) * 256 + s.fget R.BOB_LOOKUP_CTRL F.BOB_LOOKUP_CTRL_FRAC⟩ } })) ∧
    (∀ l, s.bob.lookup = some l → ∃ t, exec .lookupDone s = .next t ∧ t.bob.lookup = none ∧
      t.flag R.BOB_LOOKUP_CTRL F.BOB_LOOKUP_CTRL_GO = false ∧
      t.fget R.BOB_LOOKUP_STATUS F.BOB_LOOKUP_STATUS_RESULT = (s.lookupResult l.ch l.time).1 % 8 ∧
      t.pair R.BOB_LOOKUP_POS_LO R.BOB_LOOKUP_POS_HI = (s.lookupResult l.ch l.time).2 % 2 ^ 64 ∧
      s.sameRegs t [R.BOB_LOOKUP_CTRL, R.BOB_LOOKUP_STATUS, R.BOB_LOOKUP_POS_LO, R.BOB_LOOKUP_POS_HI]) ∧
    (s.srState (q / 32) = srActive → busy = true → owed < 8 → exec (.refreshDue q bank) s =
      .next (s.setPc q { p with owed := Tab.put (fun _ => 0) p.owed bank (owed + 1) })) ∧
    (s.srState (q / 32) = srActive → busy = true → owed = 8 →
      exec (.refreshDue q bank) s = .next (s.emit (.hbmCommand q 0 bank))) ∧
    (s.srState (q / 32) = srActive → busy = false → owed = 0 → exec (.refreshDue q bank) s =
      .next ((s.setPc q { p with owed := Tab.put (fun _ => 0) p.owed bank 0 }).emit (.hbmCommand q 0 bank))) ∧
    exec (.rfmThreshold q bank) s =
      .next ((s.setPc q { p with acts := Tab.put (fun _ => 0) p.acts bank 0 }).emit (.hbmCommand q 1 bank)) ∧
    (∀ temp : BitVec 8, temp.toNat < 128 → ∃ t, exec (.tempPoll k temp false) s = .next t ∧
      t.fget (R.BOB_SR_STATUS k) F.BOB_SR_STATUS_TEMP = temp.toNat ∧
      (s.fget R.BOB_CFG F.BOB_CFG_HOT_C ≤ temp.toNat → t.flag (R.BOB_SR_STATUS k) F.BOB_SR_STATUS_HOT = true) ∧
      (temp.toNat + 3 ≤ s.fget R.BOB_CFG F.BOB_CFG_HOT_C → t.flag (R.BOB_SR_STATUS k) F.BOB_SR_STATUS_HOT = false) ∧
      (temp.toNat < s.fget R.BOB_CFG F.BOB_CFG_HOT_C → s.fget R.BOB_CFG F.BOB_CFG_HOT_C < temp.toNat + 3 →
        t.flag (R.BOB_SR_STATUS k) F.BOB_SR_STATUS_HOT = s.flag (R.BOB_SR_STATUS k) F.BOB_SR_STATUS_HOT) ∧
      s.sameRegs t (R.BOB_SR_STATUS k :: raiseRegs vBOB)) ∧
    (s.fget R.BOB_SCRUB_CFG F.BOB_SCRUB_CFG_HOURS = 0 → exec .patrolScrub s = .next s) ∧
    (s.fget R.BOB_SCRUB_CFG F.BOB_SCRUB_CFG_HOURS ≠ 0 → s.bob.patrol < s.hostBytes / 256 →
      ∀ u, s.hbmUnit (s.hostBase + 256 * s.bob.patrol) = some u → exec .patrolScrub s = .next
        (State.hbmEnter { s with bob := { s.bob with patrol := s.bob.patrol + 1 } } .scrub false (s.hostBase + 256 * s.bob.patrol) 256 0 []).1) ∧
    (∀ (i : Fin 32) high, exec (.pcPendingSet high (BitVec.ofNat 32 (2 ^ i.val))) s =
      .next (s.pendPc (i + if high then 32 else 0)))) ∧
  (∀ (s : State) (k : Fin 2),
    let x := s.stack k
    let st := s.srState k
    let ctrl := R.BOB_SR_CTRL k
    let fsel := s.fget (R.BOB_SR_CFG k) F.BOB_SR_CFG_FSEL
    (st = srActive → exec (.srEnter k) s = .next ((s.fon ctrl F.BOB_SR_CTRL_SR_ENTER).srGo k srPending)) ∧
    (st ≠ srActive → exec (.srEnter k) s = .next s) ∧
    (st = srActive → exec (.srExit k) s = .next s) ∧
    (st ≠ srActive → exec (.srExit k) s =
      .next ((s.fon ctrl F.BOB_SR_CTRL_SR_EXIT).setStack k { x with exitWanted := true })) ∧
    ((s.atRest = false ∨ fsel = 3) → exec (.freqGo k) s = .next (s.raise vBOB 8)) ∧
    (s.atRest = true → fsel ≠ 3 → st = srActive → exec (.freqGo k) s =
      .next (((s.fon ctrl F.BOB_SR_CTRL_FREQ_GO).setStack k { x with freqWanted := some fsel }).srGo k srPending)) ∧
    (s.flag (R.BOB_SR_CFG k) F.BOB_SR_CFG_AUTO = true → st = srActive →
      x.idleSince + max 1 (s.fget (R.BOB_SR_CFG k) F.BOB_SR_CFG_IDLE_BEATS) ≤ s.beats →
      exec (.srIdleExpire k) s = .next (s.srGo k srPending)) ∧
    (s.flag (R.BOB_SR_CFG k) F.BOB_SR_CFG_AUTO = false → exec (.srIdleExpire k) s = .next s) ∧
    (st = srPending → s.stackIdle k = true → (∀ j, j < 64 → s.shedArmed j = false) →
      exec (.srEntering k) s = .next (s.srGo k srEntering)) ∧
    ((s.stackIdle k = false ∨ ∃ j, j < 64 ∧ s.shedArmed j = true) → exec (.srEntering k) s = .next s) ∧
    (st = srEntering → exec (.sreIssue k) s =
      .next (((s.srGo k (if x.freqWanted = none then srRefresh else srSwitch)).foff ctrl F.BOB_SR_CTRL_SR_ENTER).raise vBOB 6)) ∧
    (st = srRefresh → x.since + 96 ≤ s.beats → x.exitWanted = true → s.clk.stage = 0 →
      exec (.srResidencyEnd k) s = .next (s.srGo k srExiting)) ∧
    (s.beats < x.since + 96 → exec (.srResidencyEnd k) s = .next s) ∧
    (∀ f, x.freqWanted = some f → st = srSwitch →
      let y := (s.setStack k { x with freqWanted := none, exitWanted := true }).fset (R.BOB_SR_STATUS k) F.BOB_SR_STATUS_FCUR f
      (x.since + 96 ≤ s.beats → exec (.freqSwitchDone k) s = .next (y.srGo k srExiting)) ∧
      (s.beats < x.since + 96 → exec (.freqSwitchDone k) s = .next (y.srShow k srRefresh))) ∧
    (st = srExiting → x.since + 480 ≤ s.beats → s.run.armSince = none → exec (.srExitDone k) s =
      .next ((((s.setStack k { x with exitWanted := false, idleSince := s.beats }).srGo k srActive).srCtrlDone k).raise
        vBOB 7)) ∧
    (st = srExiting → x.since + 480 ≤ s.beats → exec (.srExitDone k) s =
      .next (((((s.setStack k { x with exitWanted := false, idleSince := s.beats }).srGo k srActive).srCtrlDone k).raise
        vBOB 7).stackSpeed k)) ∧
    (s.beats < x.since + 480 → exec (.srExitDone k) s = .next s))

/-- HBM_REQUEST and HBM_ACCESS_DONE (R166, R175, R176, R179 to R181). Writes held by POKE and Hitch requests that waited for the access
go on after it (R325, R378). -/
def Obligations.HbmRequests : Prop :=
  ∀ (s : State) (who : Requester) (write : Bool) (off : BitVec 36) (len id : Nat) (data : List (Option (BitVec 8)))
    (q : Fin 64) (ready : BitVec 48) (burst : Fin 8) (act : Bool),
    let x := s.pc q
    let serves : Prop := (s.srState (q / 32) = srActive ∨ s.srState (q / 32) = srPending) ∧ x.pickedAt ≠ some s.beats
    (∀ p w, s.hbmUnit off.toNat = some (p, w) → exec (.hbmRequest who write off len id data) s =
      .next ((s.setPc p { s.pc p with queue := (s.pc p).queue ++
        [⟨who, classOf who, write, off.toNat, len, w, data, id, s.beats, none⟩] }).stackTouch (p / 32))) ∧
    (s.hbmUnit off.toNat = none → exec (.hbmRequest who write off len id data) s =
      .next (if who = .hitch then (s.holeAccess off.toNat).hbmBusErr id write off.toNat else s.holeAccess off.toNat)) ∧
    (¬ serves → ∀ out, exec (.hbmAccessDone q ready ⟨burst, out⟩ act) s = .next s) ∧
    (s.pcNext q ready = none → ∀ out, exec (.hbmAccessDone q ready ⟨burst, out⟩ act) s = .next s) ∧
    (∀ b r, s.pcNext q ready = some (b, r) → ready.getLsbD b = true ∧ r ∈ x.queue ∧ r.unit % 48 = b ∧
      (∀ b' r', b' < 48 → ready.getLsbD b' = true → s.bankNext q b' = some r' →
        ∃ r1, r1 ∈ x.queue ∧ r1.unit % 48 = b ∧ s.classNow r1 ≤ s.classNow r')) ∧
    (∀ b r, serves → s.pcNext q ready = some (b, r) →
      let y := s.setPc q { x with
        queue := x.queue.erase r
        picked := b
        pickedAt := some s.beats
        acts := if act then Tab.put (fun _ => 0) x.acts b (Tab.get (fun _ => 0) x.acts b + 1) else x.acts }
      let done (out : Fin 5) (t : State) : Prop :=
        exec (.hbmAccessDone q ready ⟨burst, out⟩ act) s = .next t.pokesServe.hitchResume
      (r.early = none → r.write = true → r.who ≠ .hitch → r.who ≠ .writeBack → r.data.length ≠ 256 → done 0 (y.hbmStore r.off r.data)) ∧
      (r.early = none → r.write = true → r.who = .hitch → r.data.length ≠ 256 → done 0 ((y.hbmStore r.off r.data).hbmAnswer r.id .ok [])) ∧
      (r.write = false → r.who = .hitch → r.off < s.hostBase → x.lost.contains r.unit = false →
        done 0 (y.hbmAnswer r.id .ok (words32 (r.early.getD (y.hbmRead r.off r.len))))) ∧
      (r.write = false → r.who = .hitch → x.lost.contains r.unit = false →
        done 2 ((y.badBurst q r.unit (r.burstAt burst) (y.classNow r) 0).hbmBusErr r.id false r.off)) ∧
      (r.write = false → r.who = .builder → x.lost.contains r.unit = false →
        done 2 ((y.badBurst q r.unit (r.burstAt burst) (y.classNow r) 0).builderBurst r.id (r.burstAt burst))) ∧
      (r.write = false → r.who = .hitch → x.lost.contains r.unit = true → ∀ out : Fin 5, out ≠ 1 →
        done out ((y.badBurst q r.unit (r.burstAt burst) (y.classNow r) 3).hbmBusErr r.id false r.off)))

/-- The cells of R164, R165 and R491, and what a write of a byte changes. -/
def Obligations.HbmLayoutOneToOne : Prop :=
  ∀ (s : State) (a b : Nat) (v : Byte), s.bob.hostMask = 2 ^ 32 - 1 → s.hostBytes ≤ stack1Base →
    (∀ x, s.hbmCell a = some x → s.hbmCell b = some x → a = b) ∧
    (s.hbmCell a ≠ none → (s.hbmPut a v).hbmByte a = v) ∧
    (a ≠ b → (s.hbmPut a v).hbmByte b = s.hbmByte b)

/-- FRAME_PERIOD, TAP_FRAME, TAP_CLEAR, FRAME_CLOSE, SWEEP_DONE and PLANE_ZERO_DONE (R199 to R206). -/
def Obligations.DensityFrames : Prop :=
  ∀ (s : State) (p : Fin 16),
    let x := s.plane p
    let fsrc := s.fget (R.TAP_PL_CFG p) F.TAP_PL_CFG_FSRC
    let half := s.flag (R.TAP_PL_STATUS p) F.TAP_PL_STATUS_HALF_RATE
    let open' := s.runState = rsRunning ∧ s.planeOn p = true
    (open' → fsrc = 0 → x.nextBoundary ≤ s.beats → exec (.framePeriod p) s =
      .next ((s.setPlane p { x with nextBoundary := x.nextBoundary + (s.rd (R.TAP_PL_PERIOD p)).toNat }).planeBoundary p)) ∧
    (s.beats < x.nextBoundary → exec (.framePeriod p) s = .next s) ∧
    (open' → fsrc = 3 → exec (.tapFrame (BitVec.ofNat 16 (2 ^ p.val))) s = .next (s.planeBoundary p)) ∧
    (fsrc ≠ 3 → exec (.tapFrame (BitVec.ofNat 16 (2 ^ p.val))) s = .next s) ∧
    (∀ f, x.frame = some f → x.closing = none → x.sweep = none → s.bit R.GLB_DEGRADE dgThermal = half →
      let t := s.planeBoundary p
      t.regs = s.regs ∧ (∀ q, q ≠ p.val → t.plane q = s.plane q) ∧
        t.plane p = { x with
          acc := x.other
          other := x.acc
          closing := some ⟨f, s.wt, false, x.clearAsked, s.rd (R.TAP_PL_PERSIST p), s.rd (R.TAP_PL_MAP p),
            s.rd (R.TAP_PL_MAP_GAIN p)⟩
          frame := some ⟨f.number + 1, s.wt, 0, 0, 0, 0, 0, 0, false, false, false, none, none, half, false⟩
          stopped := none
          clearAsked := false }) ∧
    (∀ f, x.frame = some f → (x.closing ≠ none ∨ x.sweep ≠ none) →
      let t := s.planeBoundary p
      t.tap = s.tap ∧
        t.rd (R.TAP_PL_SKIP_CNT p) = s.rd (R.TAP_PL_SKIP_CNT p) + 1 ∧
        s.sameRegs t (R.TAP_PL_SKIP_CNT p :: raiseRegs vTAP ++ logRegs sevInfo)) ∧
    (∃ t, exec (.tapClear (BitVec.ofNat 16 (2 ^ p.val))) s = .next t ∧ (t.plane p).clearAsked = true ∧
      t.flag (R.TAP_PL_STATUS p) F.TAP_PL_STATUS_CLEAR_PENDING = true ∧ t.bit R.TAP_CTRL (16 + p) = true ∧
      s.sameRegs t [R.TAP_PL_STATUS p, R.TAP_CTRL]) ∧
    (∀ cf, x.closing = some cf → x.frameAbsorbed cf.cnt.number = false → exec (.frameClose p) s = .next s) ∧
    (x.closing = none → x.stopped = none → exec (.frameClose p) s = .next s) ∧
    (∀ cf, x.closing = some cf → x.frameAbsorbed cf.cnt.number = true → cf.cnt.drop = 0 →
      let b := s.densityBegin p cf
      let most := bankMax (s.planePart p true x.other)
      let gain := autoGain cf.map (s.rd (R.TAP_PL_MAP_GAIN p)) most
      (fieldOf cf.persist F.TAP_PL_PERSIST_EVERY = 0 → b = (s, none)) ∧ ∃ t, exec (.frameClose p) s = .next t ∧
        (∀ q, q ≠ p.val → t.plane q = b.1.plane q) ∧
        t.plane p = { x with
          closing := none
          sweep := some ⟨cf, 0, [], b.2⟩
          stopped := (t.plane p).stopped } ∧
        (∀ last, x.stopped = some last → (t.plane p).stopped = some { last with
          gain := if autoLoads cf.map most then gain else last.gain }) ∧
        (x.stopped = none → (t.plane p).stopped = none) ∧
        t.rd (R.TAP_PL_FRAME_NO p) = w32 cf.cnt.number ∧ t.rd (R.TAP_PL_SPECTRA p) = w32 cf.cnt.spectra ∧
        t.rd (R.TAP_PL_DROP p) = 0 ∧ t.rd (R.TAP_PL_SAT p) = w32 cf.cnt.sat ∧ t.rd (R.TAP_PL_OOR p) = w32 cf.cnt.oor ∧
        t.rd (R.TAP_PL_TAINT p) = w32 (min 65535 cf.cnt.taint + 65536 * min 65535 cf.cnt.late) ∧
        t.rd (R.TAP_PL_MAX p) = w32 most ∧
        t.pair (R.TAP_PL_CLOSE_LO p) (R.TAP_PL_CLOSE_HI p) = cf.boundary % 2 ^ 64 ∧
        t.rd (R.TAP_PL_MAP_GAIN p) = (if autoLoads cf.map most then gain else b.1.rd (R.TAP_PL_MAP_GAIN p)) ∧
        t.flag (R.TAP_PL_STATUS p) F.TAP_PL_STATUS_SWEEPING = true ∧
        t.flag (R.TAP_PL_STATUS p) F.TAP_PL_STATUS_OPEN = !cf.last ∧
        b.1.sameRegs t ([R.TAP_PL_FRAME_NO p, R.TAP_PL_SPECTRA p, R.TAP_PL_DROP p, R.TAP_PL_SAT p, R.TAP_PL_OOR p,
          R.TAP_PL_TAINT p, R.TAP_PL_MAX p, R.TAP_PL_CLOSE_LO p, R.TAP_PL_CLOSE_HI p, R.TAP_PL_MAP_GAIN p,
          R.TAP_PL_STATUS p, R.TAP_CTRL] ++ raiseRegs vTAP)) ∧
    (∀ w, x.sweep = some w → s.planeCols p * s.planeRows p ≤ w.next → s.planeStalls p w = false →
      exec (.sweepDone p) s = .next ((s.planeSwept p w).displaySwept p)) ∧
    (∀ w, x.sweep = some w → (w.next < s.planeCols p * s.planeRows p ∨ s.planeStalls p w = true) → exec (.sweepDone p) s = .next s) ∧
    (x.sweep = none → exec (.sweepDone p) s = .next s) ∧
    (x.zeroUntil ≠ none → ∃ t, exec (.planeZeroDone p) s = .next t ∧ (∀ q, q ≠ p.val → t.plane q = s.plane q) ∧
      t.plane p = { x with
        acc := []
        other := []
        zeroUntil := none
        carryTaint := false } ∧
      (t.flag R.TAP_STATUS F.TAP_STATUS_READY = true ↔
        ∀ q, q < 16 → q ≠ p.val → s.planeOn q = true → (s.plane q).zeroUntil = none) ∧
      s.sameRegs t [R.TAP_STATUS])

/-- R194 to R198: the columns of a spectrum, its admission whole or not at all, and what the plane absorbs: each increment adds one to its
own cell. -/
def Obligations.SpectrumCountsOnce : Prop :=
  ∀ (s : State) (p : Nat) (codes : List Nat) (f : FormSpec) (f0 : FrameCnt),
    let x := s.plane p
    let cfg := R.TAP_PL_CFG p
    let tainted := nbit f.flags 0
    let taint := if tainted then f0.taint + 1 else f0.taint
    let t := (s.planeAdmit p f).1
    let goes := (s.planeAdmit p f).2
    let cell (b : Tab Nat) (k : Nat) := Tab.get (fun _ => 0) b k
    ((s.columnRows p codes).map (fun e => e.1) = upTo (s.planeCols p)) ∧
    (∀ e r, e ∈ s.columnRows p codes → e.2 = some r → 0 < s.planeRows p → r < s.planeRows p) ∧
    (s.flag cfg F.TAP_PL_CFG_UNDER = false → s.flag cfg F.TAP_PL_CFG_OVER = false →
      ∀ e, e ∈ s.columnRows p codes → e.2 ≠ none) ∧
    (x.frame = some f0 → tainted = true → s.flag cfg F.TAP_PL_CFG_TAINT_SKIP = true →
      goes = none ∧ t.plane p = { x with frame := some { f0 with taint := taint } } ∧ t.regs = s.regs) ∧
    (x.frame = some f0 → (tainted = false ∨ s.flag cfg F.TAP_PL_CFG_TAINT_SKIP = false) →
      (x.queued + s.planeCols p ≤ 16384 →
        goes = some { f with frame := some f0.number } ∧ t.regs = s.regs ∧
        t.plane p = { x with frame := some { f0 with
          taint := taint
          spectra := f0.spectra + 1
          reduced := f0.reduced || nbit f.flags 3
          gap := f0.gap || nbit f.flags 2
          stepped := f0.stepped || nbit f.flags 4
          tainted := f0.tainted || tainted
          first := some (f0.first.getD f.stamp)
          newest := some f.stamp } }) ∧
      (16384 < x.queued + s.planeCols p →
        goes = none ∧ s.sameRegs t (raiseRegs vTAP) ∧ t.bit R.TAP_INT_STATUS 2 = true ∧
        t.plane p = { x with frame := some { f0 with taint := taint, drop := f0.drop + s.planeCols p } })) ∧
    (∀ q : List (Nat × Nat × Nat), x.frame = some f0 → x.closing = none → (∀ k, cell x.acc k + q.length ≤ maxCount) →
      let y := q.foldl PlaneSt.absorb x
      (∀ k, cell y.acc k = cell x.acc k + (q.filter (fun e => decide (cellOf e.2.1 e.2.2 = k))).length) ∧
      y = { x with acc := y.acc })

/-- R201 and R206. -/
def Obligations.PaletteAndDecay : Prop :=
  ∀ (map gain persist : BitVec 32) (c d : Nat) (clear last : Bool),
    (paletteIndex map gain c = 0 ↔ c = 0) ∧
    paletteIndex map gain c ≤ 4095 ∧
    (c ≤ d → paletteIndex map gain c ≤ paletteIndex map gain d) ∧
    carried persist clear last c ≤ c ∧
    carried persist true last c = 0 ∧
    carried persist false true c = c ∧
    (fieldOf persist F.TAP_PL_PERSIST_MODE = 2 → 0 < c → carried persist false false c < c) ∧
    (2 ≤ c → paletteIndex map (autoGain map gain c) c = 4095)

/-- PNL_ENABLE, PNL_DISABLE, COMMIT, COMMIT1, PAL, VBLANK, PALETTE_COPY_DONE and COMPOSE_DONE (R215 to R217, R220, R224 to
R227).
TRAIN0, TRAIN1, TRAIN_DONE, HPD_PLUG, HPD_UNPLUG, IRQ_HPD, AUX_GO, AUX_DONE and SCAN_STORE_ECC (R212 to R214, R218). -/
def Obligations.DisplayCommands : Prop :=
  (∀ (s : State) (o : Fin 2),
    let out := s.output o
    let line := s.currentLine o
    let vact := activeOf (s.rd (R.PNL_VACT o))
    let start (x : State) (i : Nat) := (x.setOutput i { x.output i with
      running := true
      stopAsked := false
      lineBeat := x.beats
      lineBase := 0 }).composeBegin i
    (s.flag R.PNL_STATUS F.PNL_STATUS_ENABLE = false → (∀ u, u ∈ s.usedOutputs → s.outputFits u.1 u.2 = true) →
      (s.independent = false → s.fget R.PNL_CFG F.PNL_CFG_OUT_EN ≠ 0 →
        exec .pnlEnable s = .next (start (s.fon R.PNL_STATUS F.PNL_STATUS_ENABLE) 0)) ∧
      (s.independent = true → s.fget R.PNL_CFG F.PNL_CFG_OUT_EN = 3 →
        exec .pnlEnable s = .next (start (start (s.fon R.PNL_STATUS F.PNL_STATUS_ENABLE) 0) 1)) ∧
      (s.independent = true → s.fget R.PNL_CFG F.PNL_CFG_OUT_EN = 2 ^ o.val →
        exec .pnlEnable s = .next (start (s.fon R.PNL_STATUS F.PNL_STATUS_ENABLE) o))) ∧
    (∀ u, s.flag R.PNL_STATUS F.PNL_STATUS_ENABLE = false → u ∈ s.usedOutputs → s.outputFits u.1 u.2 = false →
      ∃ t, exec .pnlEnable s = .next t ∧ t.flag R.PNL_STATUS F.PNL_STATUS_CFG_BAD = true ∧
        t.flag R.PNL_STATUS F.PNL_STATUS_ENABLE = false ∧ t.pnl = s.pnl) ∧
    (s.flag R.PNL_STATUS F.PNL_STATUS_ENABLE = true → exec .pnlEnable s = .next s) ∧
    (out.running = true → ∃ t, exec .pnlDisable s = .next t ∧ t.output o = { out with stopAsked := true } ∧
      t.bit R.PNL_CTRL 1 = true ∧ s.sameRegs t [R.PNL_CTRL]) ∧
    ((∀ i, i < 2 → (s.output i).running = false) →
      exec .pnlDisable s = .next (s.foff R.PNL_STATUS F.PNL_STATUS_ENABLE)) ∧
    exec .commit s = .next (s.commitFor 0) ∧
    (s.independent = true → exec .commit1 s = .next (s.commitFor 1)) ∧
    (s.independent = false → exec .commit1 s = .next s) ∧
    (let t := s.commitFor o;
      t.output o = { out with commit := some ⟨s.snapshot, decide (s.pnl.palAt = some s.beats), s.beats,
        out.running && decide (vact ≤ line + 2) && decide (line < vact)⟩ } ∧
      t.flag R.PNL_STATUS (pendingField o) = true ∧
      (out.commit = none → s.sameRegs t [R.PNL_STATUS]) ∧
      (out.commit ≠ none → t.rd R.PNL_COMMIT_REPL_CNT = s.rd R.PNL_COMMIT_REPL_CNT + 1 ∧
        s.sameRegs t (R.PNL_STATUS :: R.PNL_COMMIT_REPL_CNT :: raiseRegs vPNL))) ∧
    (∀ c, out.commit = some c → ∃ t, exec .pal s = .next t ∧ t.regs = s.regs ∧ t.pnl.palAt = some s.beats ∧
      t.output o = { out with commit := some { c with pal := c.pal || decide (c.at_ = s.beats) } }) ∧
    (out.running = false → exec (.vblank o) s = .next s) ∧
    (out.running = true → out.stopAsked = false →
      let s1 := (s.count (R.PNL_VBLANK_CNT o) 1).setOutput o { out with
        lineBeat := s.beats
        lineBase := vact }
      (out.composed = true → exec (.vblank o) s = .next (((s1.flip o).commitAges o).planesBlank o)) ∧
      (out.composed = false → exec (.vblank o) s =
        .next ((((s1.count (R.PNL_LATE_CNT o) 1).raise vPNL (2 + o)).commitAges o).planesBlank o))) ∧
    (out.running = true → out.stopAsked = true → out.composed = false → s.runState ≠ rsRunning →
      ∃ t, exec (.vblank o) s = .next t ∧ (t.output o).running = false ∧ (t.output (1 - o)) = s.output (1 - o)) ∧
    ((∀ r, r ∈ out.snap.rects → fieldOf r.corner1 F.PNL_CRC_RECT1_X1 < fieldOf r.corner0 F.PNL_CRC_RECT0_X0) →
      s.flag R.PNL_CFG F.PNL_CFG_FLIP_REC = false → (∀ c, out.commit = some c → c.late = true) →
      let t := s.flip o
      t.rd (R.PNL_FRAME o) = w32 out.composing ∧ t.pair (R.PNL_FLIP_WT_LO o) (R.PNL_FLIP_WT_HI o) = s.wt % 2 ^ 64 ∧
      (t.output o).front = 1 - out.front ∧ (t.output o).composing = (out.composing % 2 ^ 32 + 1) % 2 ^ 32 ∧
      (t.output o).composed = false ∧ (t.output o).commit = out.commit ∧ (t.output o).snap = out.snap ∧
      t.pnl.palCopy = (s.pnl.palCopy || out.snapPal) ∧
      s.sameRegs t ([R.PNL_FRAME o, R.PNL_FLIP_WT_LO o, R.PNL_FLIP_WT_HI o] ++ raiseRegs vPNL)) ∧
    (∀ c, let t := s.latch o c
      (t.output o).snap = c.snap ∧ (t.output o).snapPal = c.pal ∧ (t.output o).commit = none ∧
      t.flag R.PNL_STATUS (pendingField o) = false ∧
      (∀ k, k < 8 → let a := out.snap.layer k
        let b := c.snap.layer k
        let mine (l : LayerSet) : Prop := s.independent = false ∨ fieldOf l.cfg F.PNL_LAYER_CFG_OUT = o
        ((mine a ∨ mine b) → (a.base ≠ b.base ∨ fieldOf a.cfg F.PNL_LAYER_CFG_KIND ≠ fieldOf b.cfg F.PNL_LAYER_CFG_KIND) →
          t.rd (R.PNL_LAYER_RETIRE k) = s.rd (R.PNL_FRAME o)) ∧
        (a = b → t.rd (R.PNL_LAYER_RETIRE k) = s.rd (R.PNL_LAYER_RETIRE k))) ∧
      s.sameRegs t (R.PNL_STATUS :: (upTo 8).map (fun k => R.PNL_LAYER_RETIRE k))) ∧
    (s.pnl.palCopy = true → s.pnl.palWaiting = [] → exec .paletteCopyDone s = .next (State.resumeAll { s with pnl := { s.pnl with
      palActive := s.pnl.palPending
      palCopy := false
      palWaiting := [] } })) ∧
    (s.pnl.palCopy = true → s.hitch.held = [] → s.dict.waiting = [] → ∃ t, exec .paletteCopyDone s = .next t ∧ t.pnl.palActive = s.pnl.palPending ∧
      t.pnl.palWaiting = [] ∧ t.pnl.palCopy = false ∧ t.regs = s.regs ∧
      ∀ e v, s.pnl.palWaiting = [(e, v)] → e ≠ 4096 → t.palRead e = v % 2 ^ 30) ∧
    (s.pnl.palCopy = false → exec .paletteCopyDone s = .next s) ∧
    (out.running = true → out.composed = false → s.clk.stage = 0 → ∃ t, exec (.composeDone o) s = .next t ∧
      (t.output o).composed = true ∧ (t.output o).front = out.front ∧
      ((∀ k, k < 8 → s.layerKind out.snap o k = 0) → t.regs = s.regs ∧ t.hbm = s.hbm)) ∧
    ((out.composed = true ∨ s.clk.stage ≠ 0) → exec (.composeDone o) s = .next s)) ∧
  (∀ (s : State) (o : Fin 2),
    let out := s.output o
    let a := R.PNL_OSTATUS o
    let c := R.PNL_AUX_CTRL o
    let trained (x : State) : State := (x.setOutput o { out with training := none }).bitOff R.PNL_CTRL (5 + o)
    exec .train0 s = .next ((s.bitOn R.PNL_CTRL 5).train 0) ∧
    exec .train1 s = .next ((s.bitOn R.PNL_CTRL 6).train 1) ∧
    (let t := s.train o;
      t.flag a F.PNL_OSTATUS_TRAINED = false ∧
      (s.linkCombos o ≠ [] → t = (s.foff a F.PNL_OSTATUS_TRAINED).setOutput o { out with training := some (s.linkCombos o) }) ∧
      (s.linkCombos o = [] → out.auxWaits = false →
        t = (trained (s.foff a F.PNL_OSTATUS_TRAINED)).event vPNL (9 + o) sevWarning o 0 0)) ∧
    (out.training = none → ∀ n, exec (.trainDone o n) s = .next s) ∧
    (∀ cs n rate lanes, out.training = some cs → cs[n]? = some (rate, lanes) → out.auxWaits = false → rate < 4 → lanes < 8 →
      ∃ t, exec (.trainDone o n) s = .next t ∧ t.output o = { out with training := none } ∧
        t.flag a F.PNL_OSTATUS_TRAINED = true ∧ t.fget a F.PNL_OSTATUS_RATE = rate ∧ t.fget a F.PNL_OSTATUS_LANES = lanes ∧
        t.flag a F.PNL_OSTATUS_LINK_LOST = false ∧ t.flag a F.PNL_OSTATUS_HPD = s.flag a F.PNL_OSTATUS_HPD ∧
        t.bit R.PNL_CTRL (5 + o) = false ∧ s.sameRegs t [a, R.PNL_CTRL]) ∧
    (∀ cs n, out.training = some cs → cs[n]? = none → out.auxWaits = false →
      exec (.trainDone o n) s = .next ((trained s).event vPNL (9 + o) sevWarning o 0 0)) ∧
    (s.flag (R.PNL_LINK o) F.PNL_LINK_AUTO_TRAIN = false →
      exec (.hpdPlug o) s = .next ((s.fon a F.PNL_OSTATUS_HPD).raise vPNL (5 + o))) ∧
    (s.flag (R.PNL_LINK o) F.PNL_LINK_AUTO_TRAIN = true →
      exec (.hpdPlug o) s = .next (((s.fon a F.PNL_OSTATUS_HPD).raise vPNL (5 + o)).train o)) ∧
    (∃ t, exec (.hpdUnplug o) s = .next t ∧ t.flag a F.PNL_OSTATUS_HPD = false ∧ t.flag a F.PNL_OSTATUS_TRAINED = false ∧
      t.flag a F.PNL_OSTATUS_LINK_LOST = (s.flag a F.PNL_OSTATUS_LINK_LOST || s.flag a F.PNL_OSTATUS_TRAINED) ∧
      t.pnl = s.pnl ∧ s.sameRegs t (a :: raiseRegs vPNL)) ∧
    exec (.irqHpd o) s = .next (s.raise vPNL (7 + o)) ∧
    ((out.auxBusy || out.auxWaits) = true → ∃ t, exec (.auxGo o) s = .next t ∧ t = { s with tick := t.tick } ∧
      t.tick.again = s.tick.again ++ [(c, 8, 0)]) ∧
    (out.auxBusy = false → out.auxWaits = false →
      (out.training = none → exec (.auxGo o) s = .next ((s.fon c F.PNL_AUX_CTRL_GO).auxSend o)) ∧
      (out.training ≠ none → exec (.auxGo o) s =
        .next ((s.fon c F.PNL_AUX_CTRL_GO).setOutput o { out with auxWaits := true }))) ∧
    (out.auxBusy = false → ∀ reply bytes, exec (.auxDone o reply bytes) s = .next s) ∧
    (out.auxBusy = true → out.auxDefers < 7 → ∀ bytes, exec (.auxDone o 2 bytes) s =
      .next ((s.setOutput o { out with auxDefers := out.auxDefers + 1 }).auxSend o)) ∧
    (out.auxBusy = true → ∀ (reply : Fin 4) bytes, (reply ≠ 2 ∨ 7 ≤ out.auxDefers) → ∃ t, exec (.auxDone o reply bytes) s = .next t ∧
      t.output o = { out with
        auxBusy := false
        auxDefers := 0 } ∧
      t.fget c F.PNL_AUX_CTRL_RESULT = reply.val ∧ t.flag c F.PNL_AUX_CTRL_GO = false ∧
      ((reply.val ≠ 0 ∨ s.fget c F.PNL_AUX_CTRL_CMD % 2 = 0) → s.sameRegs t (c :: raiseRegs vPNL)) ∧
      (reply.val = 0 → s.fget c F.PNL_AUX_CTRL_CMD % 2 = 1 → s.fget c F.PNL_AUX_CTRL_LEN = 15 → bytes.length = 16 →
        ∀ j, j < 4 → t.rd (R.PNL_AUX_DATA o j) = w32 (leNat ((bytes.drop (4 * j)).take 4))) ∧
      s.sameRegs t (c :: (upTo 4).map (fun j => R.PNL_AUX_DATA o j) ++ raiseRegs vPNL)) ∧
    (∀ x y, exec (.scanStoreEcc o x y false) s = .next (s.count R.PNL_ECC_CE_CNT 1)) ∧
    (∀ (x : Fin 1920) (y : Fin 1200), ∃ t, exec (.scanStoreEcc o x y true) s = .next t ∧
      t.colour (s.output (if s.independent then o else 0)).front (1920 * o + x) y = Tab.get (fun _ => 0) s.pnl.palActive 0 ∧
      t.pnl.stores = s.pnl.stores ∧ s.sameRegs t (raiseRegs vPNL ++ logRegs sevWarning)))

/-- COMPOSE_DONE (R216, R218, R221, R222) and the order of R212. -/
def Obligations.ComposedFrame : Prop :=
  ∀ (s : State) (o : Fin 2),
    let out := s.output o
    let width := if s.independent then 1920 else 3840
    let left := if s.independent then 1920 * o.val else 0
    (out.running = true → out.composed = false → s.clk.stage = 0 → out.front < 2 → ∃ t, exec (.composeDone o) s = .next t ∧
      (∀ x y, x < width → y < 1200 →
        (∀ k v, k < 8 → s.layerPixel out o k x y = some v → (∀ j, k < j → j < 8 → s.layerPixel out o j x y = none) →
          t.pixel (1 - out.front) (left + x) y = v) ∧
        ((∀ k, k < 8 → s.layerPixel out o k x y = none) →
          t.pixel (1 - out.front) (left + x) y = out.snap.bg.toNat % 65536)) ∧
      (∀ x y, x < 3840 → y < 1200 → t.pixel out.front x y = s.pixel out.front x y) ∧
      (∀ x y, x < 3840 → y < 1200 → (x < left ∨ left + width ≤ x) → t.pixel (1 - out.front) x y = s.pixel (1 - out.front) x y)) ∧
    (let rate := s.fget (R.PNL_LINK o) F.PNL_LINK_RATE;
      let code := s.fget (R.PNL_LINK o) F.PNL_LINK_LANES;
      (∀ r n, (r, n) ∈ s.linkCombos o ↔
        r ≤ rate ∧ code ≠ 3 ∧ (n = 1 ∨ n = 2 ∧ 1 ≤ code ∨ n = 4 ∧ code = 2) ∧ s.offers o (r, n) = true) ∧
      (s.linkCombos o).Nodup)

/-- NOP, MOV, MOVI, MOVC, ADD, SUB, ADDS, SUBS, ADDI, AND, OR, XOR, ANDI, ASH, LSH, CMP, CMPI, ABS, MIN and MAX (R243, R246 to
R248). -/
def Obligations.ShuttleArithmetic : Prop :=
  ∀ (s : State) (n : Fin 24),
    let c := s.core n
    let w := s.coreWord n
    let x := c.dr (fS w)
    let y := c.dr (fT w)
    let i := BitVec.ofNat 16 (fImm w)
    let runs (k : Nat) (i : Instr) (r : CoreSt) : Prop :=
      s.coreRuns n k → exec i s = .next ((s.setCore n r).coreNext n k 1 none c)
    let past (v : Int) : Bool := decide (v < -32768) || decide (32767 < v)
    let held (v : Int) : BitVec 16 := BitVec.ofInt 16 (if v < -32768 then -32768 else if 32767 < v then 32767 else v)
    let into (r : BitVec 16) (carry v : Bool) : CoreSt := (c.setD (fD w) r).zncv r carry v
    runs 0x00 (.nop n .clean) c ∧
    runs 0x04 (.mov n .clean) (c.setD (fD w) x) ∧
    runs 0x05 (.movi n .clean) (c.setD (fD w) i) ∧
    (condOf c.sr (fT w) = some true → runs 0x06 (.movc n .clean) (c.setD (fD w) x)) ∧
    (condOf c.sr (fT w) = some false → s.coreRuns n 0x06 → exec (.movc n .clean) s = .next (s.coreNext n 0x06 1 none c)) ∧
    (condOf c.sr (fT w) = none → s.coreRuns n 0x06 → exec (.movc n .clean) s = .next (s.coreFault n fcIllegal none)) ∧
    runs 0x07 (.add n .clean) (into (x + y) (decide (65536 ≤ x.toNat + y.toNat)) (past (x.toInt + y.toInt))) ∧
    runs 0x08 (.sub n .clean) (into (x - y) (decide (y.toNat ≤ x.toNat)) (past (x.toInt - y.toInt))) ∧
    runs 0x09 (.adds n .clean)
      (into (held (x.toInt + y.toInt)) (decide (65536 ≤ x.toNat + y.toNat)) (past (x.toInt + y.toInt))) ∧
    runs 0x0A (.subs n .clean) (into (held (x.toInt - y.toInt)) (decide (y.toNat ≤ x.toNat)) (past (x.toInt - y.toInt))) ∧
    runs 0x0B (.addi n .clean) (into (x + i) (decide (65536 ≤ x.toNat + i.toNat)) (past (x.toInt + i.toInt))) ∧
    runs 0x0C (.shuAnd n .clean) (into (x &&& y) false false) ∧
    runs 0x0D (.shuOr n .clean) (into (x ||| y) false false) ∧
    runs 0x0E (.shuXor n .clean) (into (x ^^^ y) false false) ∧
    runs 0x0F (.andi n .clean) (into (x &&& i) false false) ∧
    (let k := signed 5 (fImm w);
      (0 ≤ k → runs 0x10 (.ash n .clean) (into (x <<< k.toNat) (decide (0 < k.toNat) && x.getLsbD (16 - k.toNat))
        (decide ((x <<< k.toNat).toInt ≠ x.toInt * 2 ^ k.toNat)))) ∧
      (k < 0 → runs 0x10 (.ash n .clean) (into (x.sshiftRight (-k).toNat) (x.getLsbD ((-k).toNat - 1)) false)) ∧
      (0 ≤ k → runs 0x11 (.lsh n .clean) (into (x <<< k.toNat) (decide (0 < k) && x.getLsbD (16 - k.toNat)) false)) ∧
      (k < 0 → runs 0x11 (.lsh n .clean) (into (x >>> (-k).toNat) (x.getLsbD ((-k).toNat - 1)) false))) ∧
    runs 0x12 (.cmp n .clean) (c.zncv (x - y) (decide (y.toNat ≤ x.toNat)) (past (x.toInt - y.toInt))) ∧
    runs 0x13 (.cmpi n .clean) (c.zncv (x - i) (decide (i.toNat ≤ x.toNat)) (past (x.toInt - i.toInt))) ∧
    runs 0x14 (.abs n .clean) (into (held (if x.toInt < 0 then -x.toInt else x.toInt)) false
      (past (if x.toInt < 0 then -x.toInt else x.toInt))) ∧
    runs 0x15 (.min n .clean) (let r := if x.toInt ≤ y.toInt then x else y; (c.setD (fD w) r).zn r) ∧
    runs 0x16 (.max n .clean) (let r := if x.toInt ≤ y.toInt then y else x; (c.setD (fD w) r).zn r)

/-- LD, ST, MOVX, MOVXI, MOVFX, MPY, MAC, MSU, MACM, MACSQ, ACLR, ACADD, ACSH, RND, MOVH, MOVL and MOVG (R231, R232, R235, R237,
R239 to R244, R247, R267). -/
def Obligations.ShuttleMemoryAndAccumulators : Prop :=
  ∀ (s : State) (n : Fin 24),
    let c := s.core n
    let w := s.coreWord n
    let k := fAC w
    let p := c.product (c.dr (fAS w)) (c.dr (fAT w))
    let runs (k : Nat) (i : Instr) (r : CoreSt) : Prop :=
      s.coreRuns n k → exec i s = .next ((s.setCore n r).coreNext n k 1 none c)
    let mode := bitsOf w 18 16
    let a := bitsOf w 21 19
    let off := BitVec.ofNat 16 (fImm w)
    let addr := if mode = 0 then regAt c.a a + off else if mode = 7 then off else regAt c.a a
    let after := if mode = 0 ∨ mode = 7 then c else { c with
      a := c.a.set a (c.postMod mode a off)
      modded := a :: c.modded }
    let ma := bitsOf w 24 22
    let mb := bitsOf w 19 17
    let modeA := shortMode (bitsOf w 21 20)
    let modeB := shortMode (bitsOf w 16 15)
    let wordA := regAt c.a ma
    let wordB := regAt c.a mb
    let bothAfter := ((c.address modeA ma 0#16).2.address modeB mb 0#16).2
    (badOffset mode (fImm w) = false → c.badWord addr = false →
      runs 0x17 (.ld n .clean) (after.setD (fD w) (c.load addr))) ∧
    (badOffset mode (fImm w) = false → c.badWord addr = true → s.coreRuns n 0x17 →
      exec (.ld n .clean) s = .next ((s.setCore n c).coreFault n fcEcc none)) ∧
    (badOffset mode (fImm w) = false → addr.msb = false →
      runs 0x18 (.st n .clean) (after.store addr.toNat (c.dr (fD w)))) ∧
    (badOffset mode (fImm w) = false → addr.msb = true → s.coreRuns n 0x18 →
      exec (.st n .clean) s = .next (s.coreFault n fcWindow none)) ∧
    (badOffset mode (fImm w) = true → (s.coreRuns n 0x17 → exec (.ld n .clean) s = .next (s.coreFault n fcIllegal none)) ∧
      (s.coreRuns n 0x18 → exec (.st n .clean) s = .next (s.coreFault n fcIllegal none))) ∧
    (∀ r, c.extWrite (fX w) (c.dr (fXD w)) s.beats = some r → runs 0x19 (.movx n .clean) r) ∧
    (∀ r, c.extWrite (fX w) (BitVec.ofNat 16 (fImm w)) s.beats = some r → runs 0x1A (.movxi n .clean) r) ∧
    (35 ≤ fX w → (s.coreRuns n 0x19 → exec (.movx n .clean) s = .next (s.coreFault n fcIllegal none)) ∧
      (s.coreRuns n 0x1A → exec (.movxi n .clean) s = .next (s.coreFault n fcIllegal none))) ∧
    (∀ v, c.extRead (fX w) = some v → runs 0x1B (.movfx n .clean) (c.setD (fXD w) v)) ∧
    (39 ≤ fX w → s.coreRuns n 0x1B → exec (.movfx n .clean) s = .next (s.coreFault n fcIllegal none)) ∧
    runs 0x1C (.mpy n .clean) (c.setAc k p) ∧
    runs 0x1D (.mac n .clean) (c.accum k (c.ac k + p)) ∧
    runs 0x1E (.msu n .clean) (c.accum k (c.ac k - p)) ∧
    (ma ≠ mb → c.badWord wordA = false → c.badWord wordB = false → s.coreRuns n 0x1F →
      (c.stBefore = none → (wordA.msb && wordB.msb) = false → exec (.macm n .clean) s = .next
        ((s.setCore n (bothAfter.accum k (c.ac k + c.product (c.load wordA) (c.load wordB)))).took.coreNext n 0x1F 1 none c)) ∧
      ((wordA.msb && wordB.msb) = true → exec (.macm n .clean) s = .next
        ((s.setCore n (bothAfter.accum k (c.ac k + c.product (c.load wordA) (c.load wordB)))).took.coreNext n 0x1F 2 none c))) ∧
    (c.badWord wordA = false → runs 0x20 (.macsq n .clean)
      ((c.address modeA ma 0#16).2.accum k (c.ac k + c.product (c.load wordA) (c.load wordA)))) ∧
    runs 0x21 (.aclr n .clean) (c.setAc k 0) ∧
    (bitsOf w 4 0 ≤ 16 → runs 0x22 (.acadd n .clean) (c.accum k (c.ac k + (c.dr (fAS w)).toInt * 2 ^ bitsOf w 4 0))) ∧
    (16 < bitsOf w 4 0 → s.coreRuns n 0x22 → exec (.acadd n .clean) s = .next (s.coreFault n fcIllegal none)) ∧
    (let j := signed 6 (bitsOf w 5 0);
      (0 ≤ j → runs 0x23 (.acsh n .clean) (c.accum k (c.ac k * 2 ^ j.toNat))) ∧
      (j < 0 → runs 0x23 (.acsh n .clean) (c.accum k (c.ac k / 2 ^ (-j).toNat)))) ∧
    runs 0x24 (.rnd n .clean) (c.accum k (roundConv (c.ac k) 16 * 2 ^ 16)) ∧
    (let v := roundConv (c.ac k) 16;
      runs 0x25 (.movh n .clean) ((c.setD (fAS w) (BitVec.ofInt 16 (clampInt (-32768) 32767 v))).setSb 3
        (decide (v < -32768) || decide (32767 < v)))) ∧
    runs 0x26 (.movl n .clean) (c.setD (fAS w) (BitVec.ofInt 16 (c.ac k))) ∧
    runs 0x27 (.movg n .clean) (c.setD (fAS w) (BitVec.ofInt 16 (c.ac k / 2 ^ 32)))

/-- HALT, WAIT, TRAP, B, CALL, RET, RETI, LOOP, LOOPD, RESERVED_OPCODE, IN, OUT, PASS and VETO (R244, R247 to R252, R254, R262,
R264). -/
def Obligations.ShuttleControl : Prop :=
  ∀ (s : State) (n : Fin 24),
    let c := s.core n
    let w := s.coreWord n
    let runs (k : Nat) (i : Instr) (r : CoreSt) : Prop :=
      s.coreRuns n k → exec i s = .next ((s.setCore n r).coreNext n k 1 none c)
    let faults (k : Nat) (i : Instr) (cause : Nat) : Prop := s.coreRuns n k → exec i s = .next (s.coreFault n cause none)
    let cond := condOf c.srBefore (fD w)
    let port := bitsOf w 2 0
    let last := bitsOf w 25 12
    let took (v : Option (BitVec 16)) : CoreSt := (c.setD (fD w) (v.getD 0#16)).setSb 2 v.isSome
    runs 0x01 (.halt n .clean) c ∧
    (c.wakes = true → s.coreRuns n 0x02 → exec (.wait n .clean) s = .next (s.coreNext n 0x02 1 none c)) ∧
    (c.wakes = false → s.coreRuns n 0x02 →
      exec (.wait n .clean) s = .next ((s.fon (R.SHU_STATUS n) F.SHU_STATUS_WAITING).coreNext n 0x02 1 none c)) ∧
    (s.coreRuns n 0x03 → exec (.trap n .clean) s = .next (s.coreFault n fcBreak (some (fImm w % 256)))) ∧
    (∀ k, 0x32 ≤ k → s.coreRuns n k → exec (.reservedOpcode n .clean) s = .next (s.coreFault n fcIllegal none)) ∧
    (cond = none → faults 0x28 (.shuB n .clean) fcIllegal ∧ faults 0x29 (.call n .clean) fcIllegal ∧
      faults 0x2A (.ret n .clean) fcIllegal) ∧
    (cond = some false → runs 0x28 (.shuB n .clean) { c with delay := some .notTaken } ∧
      runs 0x29 (.call n .clean) { c with delay := some .notTaken } ∧
      runs 0x2A (.ret n .clean) { c with delay := some .notTaken }) ∧
    (cond = some true → runs 0x28 (.shuB n .clean) { c with delay := some (.jump (bitsOf w 13 0)) } ∧
      (c.calls.length < 8 → runs 0x29 (.call n .clean) { c with
        delay := some (.jump (bitsOf w 13 0))
        calls := (c.pc + 2) % 16384 :: c.calls }) ∧
      (8 ≤ c.calls.length → faults 0x29 (.call n .clean) fcStack) ∧
      (∀ r rest, c.calls = r :: rest → runs 0x2A (.ret n .clean) { c with
        delay := some (.jump r)
        calls := rest }) ∧
      (c.calls = [] → faults 0x2A (.ret n .clean) fcStack)) ∧
    (c.sr.getLsbD 10 = true → runs 0x2B (.reti n .clean) { c with delay := some .reti }) ∧
    (c.sr.getLsbD 10 = false → faults 0x2B (.reti n .clean) fcIllegal) ∧
    (last ≤ c.pc → faults 0x2C (.loop n .clean) fcIllegal ∧ faults 0x2D (.loopd n .clean) fcIllegal) ∧
    (c.pc < last → c.loops.length < 4 →
      (∀ k, (bitsOf w 11 0 = 0 ∧ k = 4096 ∨ bitsOf w 11 0 ≠ 0 ∧ k = bitsOf w 11 0) →
        runs 0x2C (.loop n .clean) { c with loops := ⟨(c.pc + 1) % 16384, last, k⟩ :: c.loops }) ∧
      (∀ k, k = (regAt c.dBefore (bitsOf w 3 0)).toNat → k ≠ 0 →
        runs 0x2D (.loopd n .clean) { c with loops := ⟨(c.pc + 1) % 16384, last, k⟩ :: c.loops })) ∧
    (c.pc < last → 4 ≤ c.loops.length → faults 0x2C (.loop n .clean) fcLoopStack) ∧
    (c.pc < last → regAt c.dBefore (bitsOf w 3 0) = 0#16 → s.coreRuns n 0x2D →
      exec (.loopd n .clean) s = .next (s.coreNext n 0x2D 1 (some ((last + 1) % 16384)) c)) ∧
    (port = 0 → ∀ p v, c.held = some p → p.desc[c.descAt]? = some v →
      runs 0x2E (.shuIn n .clean) { took (some v) with descAt := c.descAt + 1 }) ∧
    (port = 0 → (c.held = none ∨ ∃ p, c.held = some p ∧ p.desc[c.descAt]? = none) →
      runs 0x2E (.shuIn n .clean) { took none with descAt := c.descAt }) ∧
    (port = 1 → c.mboxIn = [] → runs 0x2E (.shuIn n .clean) (took none)) ∧
    (port = 1 → s.popValid (qnMboxIn n) c.mboxIn.length = false → runs 0x2E (.shuIn n .clean) (took none)) ∧
    (port = 1 → ∀ v rest, c.mboxIn = v :: rest → s.popValid (qnMboxIn n) c.mboxIn.length = true → s.coreRuns n 0x2E →
      let r := s.turnPop (qnMboxIn n) c.mboxIn.length
      exec (.shuIn n .clean) s =
        .next (((r.1.setCore n (took (some v))).setMboxIn n (rest ++ halvesOf r.2)).coreNext n 0x2E 1 none c)) ∧
    (port = 4 → runs 0x2E (.shuIn n .clean) { took (some (BitVec.ofNat 16 s.wt)) with latched := s.wt }) ∧
    (port = 5 → runs 0x2E (.shuIn n .clean) (took (some (BitVec.ofNat 16 (c.latched / 2 ^ 16))))) ∧
    (port = 6 → runs 0x2E (.shuIn n .clean) (took (some (BitVec.ofNat 16 (c.latched / 2 ^ 32))))) ∧
    (port = 7 → runs 0x2E (.shuIn n .clean) (took (some (BitVec.ofNat 16 (c.latched / 2 ^ 48))))) ∧
    (port = 2 ∨ port = 3 → faults 0x2E (.shuIn n .clean) fcPort) ∧
    (port ≠ 2 → faults 0x2F (.out n .clean) fcPort) ∧
    (port = 2 → 8 ≤ c.mboxOut.length → s.coreRuns n 0x2F → exec (.out n .clean) s =
      .next (((s.setCore n (c.setSb 2 false)).turnWait (qnMboxOut n) c.mboxOut.length (.half (c.dr (fD w)))).coreNext n 0x2F 1 none c)) ∧
    (port = 2 → c.mboxOut.length < 8 → s.coreRuns n 0x2F →
      let u := (s.setCore n { c.setSb 2 true with mboxOut := c.mboxOut ++ [c.dr (fD w)] }).turnPush (qnMboxOut n) c.mboxOut.length
      exec (.out n .clean) s = .next ((if s.fillsQuill (qnMboxOut n) c.mboxOut.length = true then u.raise (vSHU n) 2 else u).coreNext
        n 0x2F 1 none c)) ∧
    (let first := (c.dr (fD w)).toNat;
      let len := (c.dr (fS w)).toNat;
      let block := (upTo len).map (fun i => Tab.get (fun _ => 0#16) c.data (first + i));
      ((0x8000 < first + len ∨ 1024 < len) → faults 0x30 (.pass n .clean) fcVerdict) ∧
      (first + len ≤ 0x8000 → len ≤ 1024 → s.coreRuns n 0x30 →
        (c.held = none → exec (.pass n .clean) s = .next ((s.verdictStale n).coreNext n 0x30 ((len + 1) / 2 + 4) none c)) ∧
        (c.held ≠ none → c.dataBad = [] → exec (.pass n .clean) s =
          .next ((s.partEnd n (some block) false false).coreNext n 0x30 ((len + 1) / 2 + 4) none c)))) ∧
    (s.coreRuns n 0x31 →
      (c.held = none → exec (.veto n .clean) s = .next ((s.verdictStale n).coreNext n 0x31 1 none c)) ∧
      (c.held ≠ none → exec (.veto n .clean) s =
        .next (((s.partEnd n none false true).count (R.SHU_VETO_CNT n) 1).coreNext n 0x31 1 none c)))

/-- WAIT_WAKE, INTERRUPT_ENTRY, TICK_EXPIRE, PART_WRITE, PART_TIMEOUT, SHU_RUN, SHU_HALT, CORE_HALTED, SHU_STEP, SHU_RESET,
SHU_IRQ, MBOX_PUSH and MBOX_OUT_READ (R251, R256, R257, R260, R261, R263, R265, R266). -/
def Obligations.ShuttleEvents : Prop :=
  ∀ (s : State) (n : Fin 24),
    let c := s.core n
    let st := R.SHU_STATUS n
    let halted := s.coreHalted n
    let kIn := qnMboxIn n
    let kOut := qnMboxOut n
    (s.coreWaiting n = true → c.wakes = true →
      exec (.waitWake n) s = .next ((s.setCore n c.settle).foff st F.SHU_STATUS_WAITING)) ∧
    (s.coreWaiting n = false ∨ c.wakes = false → exec (.waitWake n) s = .next s) ∧
    (∀ i : Fin 4, halted = false → c.stepping = false → c.sr.getLsbD 9 = true → c.sr.getLsbD 10 = false → c.delay = none →
      nbit c.ipend i = true → c.sr.getLsbD (12 + i) = true →
      (∀ j, j < i.val → nbit c.ipend j = false ∨ c.sr.getLsbD (12 + j) = false) →
      ∃ t, exec (.interruptEntry n) s = .next t ∧ (t.core n).pc = 4 * (i + 1) ∧ (t.core n).ipc = c.pc ∧
        (t.core n).ipend = c.ipend - 2 ^ i.val ∧ (t.core n).sr.getLsbD 10 = true ∧
        (t.core n).d = c.settle.d.take 8 ++ c.sd ∧ (t.core n).ac1 = c.sac1 ∧ (t.core n).sac1 = c.settle.ac1 ∧
        (t.core n).ac0 = c.settle.ac0 ∧ (t.core n).calls = c.settle.calls ∧ (t.core n).loops = c.settle.loops ∧
        (t.core n).data = c.data ∧ t.flag st F.SHU_STATUS_IN_HANDLER = true ∧ t.flag st F.SHU_STATUS_WAITING = false ∧
        t.rd (R.SHU_CYCLE_CNT n) = s.rd (R.SHU_CYCLE_CNT n) + 1 ∧
        s.sameRegs t [st, R.SHU_CTRL n, R.SHU_CYCLE_CNT n]) ∧
    (halted = true ∨ c.sr.getLsbD 9 = false ∨ c.sr.getLsbD 10 = true ∨ c.delay ≠ none ∨ c.ipend % 16 = 0 →
      exec (.interruptEntry n) s = .next s) ∧
    (c.tick ≠ 0#16 → c.tickBeat + 2 * c.tick.toNat ≤ s.beats → exec (.tickExpire n) s = .next (s.setCore n { c with
      tickBeat := c.tickBeat + 2 * c.tick.toNat
      ipend := if nbit c.ipend 2 then c.ipend else c.ipend + 4 })) ∧
    ((c.tick = 0#16 ∨ s.beats < c.tickBeat + 2 * c.tick.toNat) → exec (.tickExpire n) s = .next s) ∧
    ((∀ r, r ∈ s.recs.waves → r.partsLeft.contains n.val = false) → exec (.partWrite n) s = .next s) ∧
    (∀ r, s.recs.waves = [r] → r.partsLeft = [n.val] → r.cause ≠ none → c.hasPart r = false →
      (∀ x, x ∈ r.chans → x.ch / 8 ≠ n.val) → s.waveOverrun { r with chans := r.chans } = r →
      (halted = true ∨ s.flag st F.SHU_STATUS_ENABLE = false → exec (.partWrite n) s =
        .next (((s.mapWaves (fun y => if y.shed = r.shed ∧ y.fired = r.fired then r else y)).setCore n { c with
          tag := c.tag + 1 }).partBypass n r.shed r.fired)) ∧
      (halted = false → s.flag st F.SHU_STATUS_ENABLE = true → c.held = none →
        ∃ t p, exec (.partWrite n) s = .next t ∧ (t.core n).held = some p ∧ p.shed = r.shed ∧ p.fired = r.fired ∧
          p.tag = c.tag % 65536 ∧ p.slot = 0 ∧ p.since = s.beats ∧ (t.core n).tag = c.tag + 1 ∧ (t.core n).descAt = 0 ∧
          nbit (t.core n).ipend 0 = true ∧ t.flag st F.SHU_STATUS_PART_HELD = true ∧
          t.rd (R.SHU_PART_CNT n) = s.rd (R.SHU_PART_CNT n) + 1)) ∧
    (∀ limit, limit = s.fget (R.SHU_CFG n) F.SHU_CFG_TIMEOUT →
      (∀ p, c.held = some p → limit ≠ 0 → (p.since + 128 * limit) / 2 < s.beats / 2 → exec (.partTimeout n) s =
        .next (((s.partEnd n none true false).count (R.SHU_TIMEOUT_CNT n) 1).event (vSHU n) 3 sevWarning 0 0 0)) ∧
      (∀ p, c.held = some p → (limit = 0 ∨ s.beats / 2 ≤ (p.since + 128 * limit) / 2) → exec (.partTimeout n) s = .next s)) ∧
    (halted = true → exec (.shuRun n) s = .next ((s.foff st F.SHU_STATUS_HALTED).foff st F.SHU_STATUS_FAULTED)) ∧
    (halted = false → exec (.shuRun n) s = .next (s.setCore n { c with runBeat := some s.beats }) ∧ exec (.shuStep n) s = .next s) ∧
    (halted = false → c.held = none → c.queued = none →
      let t := s.coreStop n
      (c.runBeat = some s.beats → t.coreHalted n = false) ∧ (c.runBeat ≠ some s.beats → t = s.coreHalt n)) ∧
    (halted = false → s.coreWaiting n = true → exec (.shuHalt n) s = .next (s.coreHalt n)) ∧
    (halted = false → s.coreWaiting n = false →
      exec (.shuHalt n) s = .next ((s.setCore n { c with haltAsked := true }).bitOn (R.SHU_CTRL n) 1)) ∧
    (halted = true → exec (.shuHalt n) s = .next s ∧ exec (.coreHalted n) s = .next s) ∧
    (c.haltAsked = true → c.delay = none → halted = false → exec (.coreHalted n) s = .next (s.coreHalt n)) ∧
    (c.delay ≠ none → exec (.coreHalted n) s = .next s) ∧
    (c.held = none → c.queued = none →
      let t := s.coreHalt n
      t.coreHalted n = true ∧ t.coreWaiting n = false ∧ t.rd (R.SHU_PC n) = w32 c.pc ∧
      t.core n = { c.settle with
        haltAsked := false
        stepping := false
        held := none
        queued := none
        descAt := 0 } ∧
      s.sameRegs t (st :: R.SHU_PC n :: R.SHU_CTRL n :: raiseRegs (vSHU n))) ∧
    (halted = true → exec (.shuStep n) s =
      .next (((s.setCore n { c with stepping := true }).foff st F.SHU_STATUS_HALTED).bitOn (R.SHU_CTRL n) 2)) ∧
    (halted = true → let start := s.fget (R.SHU_START n) F.SHU_START_START
      ∃ t, exec (.shuReset n) s = .next t ∧ t.core n = { CoreSt.init with
          prog := c.prog
          data := c.data
          buf := c.buf
          progBad := c.progBad
          dataBad := c.dataBad
          pc := start
          tag := c.tag
          mboxIn := [] } ∧
        t.rd (R.SHU_PC n) = w32 start ∧ t.rd (R.SHU_CTRL n) = 0 ∧ t.coreHalted n = true ∧
        t.flag st F.SHU_STATUS_FAULTED = false ∧ t.flag st F.SHU_STATUS_IN_HANDLER = false ∧
        t.flag st F.SHU_STATUS_ENABLE = s.flag st F.SHU_STATUS_ENABLE ∧ t.rd (R.SHU_INT_STATUS n) = 0 ∧
        t.rd (R.SHU_PART_CNT n) = 0 ∧ t.rd (R.SHU_VETO_CNT n) = 0 ∧ t.rd (R.SHU_BYPASS_CNT n) = 0 ∧
        t.rd (R.SHU_TIMEOUT_CNT n) = 0 ∧ t.rd (R.SHU_STALE_CNT n) = 0 ∧ t.rd (R.SHU_CYCLE_CNT n) = 0 ∧
        t.rd (R.SHU_MEM_CE_CNT n) = 0 ∧ t.fget (R.SHU_MBOX_IN n) F.SHU_MBOX_IN_DEPTH = 0) ∧
    exec (.shuIrq n) s = .next ((s.setCore n { c with
      ipend := if nbit c.ipend 3 then c.ipend else c.ipend + 8 }).bitOn (R.SHU_CTRL n) 4) ∧
    (s.refusal (qnMboxIn n) = s.fon st F.SHU_STATUS_MBOX_OVF) ∧
    (∀ v, (8 ≤ c.mboxIn.length → ∃ t, exec (.mboxPush n v) s = .next t ∧ t = { s with turns := t.turns } ∧
        (t.turn kIn c.mboxIn.length).refused = (s.turn kIn c.mboxIn.length).refused ++ [.half v] ∧
        ((s.turn kIn c.mboxIn.length).refused = [] → (t.turnPop kIn c.mboxIn.length).2 = some (.half v))) ∧
      (c.mboxIn = [] → Tab.get (fun _ => none) s.turns kIn = none →
        ∃ t, exec (.mboxPush n v) s = .next t ∧ t.popValid kIn (t.core n).mboxIn.length = false) ∧
      (c.mboxIn.length < 8 → ∃ t, exec (.mboxPush n v) s = .next t ∧ (t.core n).mboxIn = c.mboxIn ++ [v] ∧
        t.fget (R.SHU_MBOX_IN n) F.SHU_MBOX_IN_DEPTH = c.mboxIn.length + 1 ∧
        (t.core n).ipend = (if s.fillsQuill kIn c.mboxIn.length = true ∧ nbit c.ipend 1 = false then c.ipend + 2 else c.ipend) ∧
        s.sameRegs t [R.SHU_MBOX_IN n])) ∧
    (∀ src tag, (c.mboxOut = [] ∨ halted = true ∨ s.popValid kOut c.mboxOut.length = false → exec (.mboxOutRead src n false tag) s =
        .next (s.emit (.completion tag .ok [0]))) ∧
      (∀ v rest, c.mboxOut = v :: rest → halted = false → s.popValid kOut c.mboxOut.length = true →
        ∃ t, exec (.mboxOutRead src n false tag) s = .next t ∧ t.outs = .completion tag .ok [v.toNat + 2 ^ 31] :: s.outs ∧
          ((s.turn kOut c.mboxOut.length).refused = [] → t.core n = { c with mboxOut := rest }) ∧
          (∀ w more, (s.turn kOut c.mboxOut.length).refused = .half w :: more → (t.core n).mboxOut = rest ++ [w]) ∧
          t.regs = s.regs))

/-- R244 to R246, R249, R250, R262, R264 and R265, over all the instructions of R247. The model's choice: entry 201. -/
def Obligations.ShuttleInstructionRules : Prop :=
  ∀ (s : State) (n : Fin 24) (e : Ecc),
    let c := s.core n
    let w := s.coreWord n
    let brk := fieldOf (s.rd (R.SHU_BREAK n)) F.SHU_BREAK_EN = 1 ∧ fieldOf (s.rd (R.SHU_BREAK n)) F.SHU_BREAK_ADDR = c.pc
    let runs := s.coreHalted n = false ∧ s.coreWaiting n = false
    (∀ p : Instr × Nat, p ∈ ([(.nop n e, 0x00), (.halt n e, 0x01), (.wait n e, 0x02), (.trap n e, 0x03), (.mov n e, 0x04),
        (.movi n e, 0x05), (.movc n e, 0x06), (.add n e, 0x07), (.sub n e, 0x08), (.adds n e, 0x09), (.subs n e, 0x0A),
        (.addi n e, 0x0B), (.shuAnd n e, 0x0C), (.shuOr n e, 0x0D), (.shuXor n e, 0x0E), (.andi n e, 0x0F), (.ash n e, 0x10),
        (.lsh n e, 0x11), (.cmp n e, 0x12), (.cmpi n e, 0x13), (.abs n e, 0x14), (.min n e, 0x15), (.max n e, 0x16),
        (.ld n e, 0x17), (.st n e, 0x18)] : List (Instr × Nat)) ∨
      p ∈ ([(.movx n e, 0x19), (.movxi n e, 0x1A), (.movfx n e, 0x1B), (.mpy n e, 0x1C), (.mac n e, 0x1D), (.msu n e, 0x1E),
        (.macm n e, 0x1F), (.macsq n e, 0x20), (.aclr n e, 0x21), (.acadd n e, 0x22), (.acsh n e, 0x23), (.rnd n e, 0x24),
        (.movh n e, 0x25), (.movl n e, 0x26), (.movg n e, 0x27), (.shuB n e, 0x28), (.call n e, 0x29), (.ret n e, 0x2A),
        (.reti n e, 0x2B), (.loop n e, 0x2C), (.loopd n e, 0x2D), (.shuIn n e, 0x2E), (.out n e, 0x2F), (.pass n e, 0x30),
        (.veto n e, 0x31)] : List (Instr × Nat)) →
      ((s.coreHalted n = true ∨ s.coreWaiting n = true ∨ opOf w ≠ p.2) → exec p.1 s = .next s) ∧
      (runs → opOf w = p.2 → brk → exec p.1 s = .next (s.coreFault n fcBreak none)) ∧
      (runs → opOf w = p.2 → ¬brk → e ≠ .program → c.progBad.contains c.pc = false →
        (badBits w = true ∨ isBranch p.2 = true ∧ c.delay ≠ none → exec p.1 s = .next (s.coreFault n fcIllegal none)) ∧
        (badBits w = false → ¬(isBranch p.2 = true ∧ c.delay ≠ none) → badAtEnd p.2 = true →
          c.loops.head?.map (fun e => e.last) = some c.pc → exec p.1 s = .next (s.coreFault n fcLoopEnd none))) ∧
      (runs → opOf w = p.2 → ¬brk → (e = .program ∨ c.progBad.contains c.pc = true) →
        exec p.1 s = .next (State.coreFault (s.setCore n { c with
          progBad := c.pc :: c.progBad.filter (fun x => decide (x ≠ c.pc)) }) n fcEcc none))) ∧
    (∀ (cause : Nat) (code : Option Nat), cause < 16 → c.pc < 16384 → c.held = none → c.queued = none →
      c.runBeat ≠ some s.beats →
      let t := s.coreFault n cause code
      t.coreHalted n = true ∧ t.flag (R.SHU_STATUS n) F.SHU_STATUS_FAULTED = true ∧
      t.fget (R.SHU_FAULT n) F.SHU_FAULT_CAUSE = cause ∧ t.fget (R.SHU_FAULT n) F.SHU_FAULT_ADDR = c.pc ∧
      (∀ v, code = some v → t.fget (R.SHU_FAULT n) F.SHU_FAULT_CODE = v % 256) ∧
      (t.core n).pc = c.pc ∧ (t.core n).d = c.d ∧ (t.core n).data = c.data ∧ (t.core n).ac0 = c.ac0 ∧ t.hbm = s.hbm ∧
      s.sameRegs t ([R.SHU_FAULT n, R.SHU_STATUS n, R.SHU_PC n, R.SHU_CTRL n] ++ raiseRegs (vSHU n) ++ logRegs sevError)) ∧
    (∀ (op : Nat) (r : CoreSt), op ≠ 1 → c.stepping = false → r.late = [] → r.loops = c.loops →
      let t := (s.setCore n r).coreNext n op 1 none c
      let u : CoreSt := { r with
        modded := []
        srBefore := c.sr
        dBefore := c.d
        stBefore := if op = 0x18 then r.stBefore else none }
      (c.delay = none → (∀ l, c.loops.head? = some l → l.last ≠ c.pc) →
        t.core n = { u with pc := (c.pc + 1) % 16384 }) ∧
      (c.delay = none → ∀ l rest, c.loops = l :: rest → l.last = c.pc →
        (1 < l.count → t.core n = { u with
          pc := l.start
          loops := { l with count := l.count - 1 } :: rest }) ∧
        (l.count ≤ 1 → rest = [] → t.core n = { u with
          pc := (c.pc + 1) % 16384
          loops := [] })) ∧
      (c.delay = some .notTaken → (∀ l, c.loops.head? = some l → l.last ≠ c.pc) → t.core n = { u with
        pc := (c.pc + 1) % 16384
        delay := none }) ∧
      (∀ target, c.delay = some (.jump target) → t.core n = { u with
        pc := target
        delay := none }) ∧
      (c.delay = some .reti → (t.core n).pc = r.ipc ∧ (t.core n).sr.getLsbD 10 = false ∧
        t.flag (R.SHU_STATUS n) F.SHU_STATUS_IN_HANDLER = false ∧
        ∀ x : Lent, r.found = some x → x ≠ r.lent → vSHU n ∈ t.breach) ∧
      t.rd (R.SHU_PC n) = w32 c.pc ∧ t.rd (R.SHU_CYCLE_CNT n) = s.rd (R.SHU_CYCLE_CNT n) + 1 ∧
      (∀ m, m ≠ n.val → t.core m = s.core m) ∧ t.hbm = s.hbm ∧ t.recs = s.recs ∧ t.outs = s.outs ∧
      s.sameRegs t [R.SHU_PC n, R.SHU_CYCLE_CNT n, R.SHU_STATUS n])

/-- R243 and R248. -/
def Obligations.ShuttleConditions : Prop :=
  ∀ (c : CoreSt) (x y : BitVec 16),
    let f := (c.subFlags x y).sr
    (condOf f 0 = some true) ∧
    (condOf f 1 = some (decide (x = y))) ∧ (condOf f 2 = some (decide (x ≠ y))) ∧
    (condOf f 3 = some (decide (x.toInt < y.toInt))) ∧ (condOf f 4 = some (decide (y.toInt ≤ x.toInt))) ∧
    (condOf f 5 = some (decide (y.toInt < x.toInt))) ∧ (condOf f 6 = some (decide (x.toInt ≤ y.toInt))) ∧
    (condOf f 7 = some (decide (y.toNat ≤ x.toNat))) ∧ (condOf f 8 = some (decide (x.toNat < y.toNat))) ∧
    (condOf f 9 = some (decide ((x - y).toInt ≠ x.toInt - y.toInt))) ∧
    (condOf f 10 = some (decide ((x - y).toInt = x.toInt - y.toInt))) ∧
    (condOf f 11 = some (c.sr.getLsbD 4)) ∧ (condOf f 12 = some (c.sr.getLsbD 5)) ∧
    (∀ code, 13 ≤ code → condOf f code = none) ∧
    (∀ d, d < 16 → c.d.length = 16 →
      (c.addTo d x y).dr d = x + y ∧
      ((c.addTo d x y).sr.getLsbD 3 = true ↔ (x + y).toInt ≠ x.toInt + y.toInt) ∧
      ((c.addTo d x y).sr.getLsbD 2 = true ↔ (x + y).toNat ≠ x.toNat + y.toNat) ∧
      (∀ e, e ≠ d → (c.addTo d x y).dr e = c.dr e) ∧
      (∀ b, 4 ≤ b → (c.addTo d x y).sr.getLsbD b = c.sr.getLsbD b)) ∧
    (∀ k : Nat, k < 16 → (ashOf x k).1 = x <<< k ∧ ((ashOf x k).2.2 = true ↔ (x <<< k).toInt ≠ x.toInt * 2 ^ k)) ∧
    (∀ k : Nat, 1 ≤ k → k ≤ 16 → (ashOf x (-(k : Int))).1.toInt = x.toInt / 2 ^ k ∧ (ashOf x (-(k : Int))).2.2 = false)

/-- R238: bitRev k reverses the k low bits. -/
def Obligations.CircularAndReversed : Prop :=
  ∀ (c : CoreSt) (i : Nat),
    let a := regAt c.a i
    let b := regAt c.b i
    let l := (regAt c.l i).toNat
    let m := regAt c.m i
    let k := Nat.log2 (if l = 0 then 2 ^ 15 else l)
    (l = 0 → c.circ i = a + m) ∧
    (l ≠ 0 → (c.circ i).toNat =
      ((b.toNat : Int) + ((a.toNat : Int) - b.toNat + m.toInt) % l).toNat % 2 ^ 16) ∧
    (c.rev i = b + BitVec.ofNat 16
      (bitRev k ((bitRev k ((a - b).toNat % 2 ^ k) + bitRev k (m.toNat % 2 ^ k)) % 2 ^ k))) ∧
    (∀ v j, v < 2 ^ k → j < k → (bitRev k v).testBit j = v.testBit (k - 1 - j)) ∧
    (1 ≤ k → l = 2 ^ k → m.toNat = 2 ^ (k - 1) → i < c.a.length →
      let step (x : CoreSt) : CoreSt := { x with a := x.a.set i (x.rev i) }
      let after (j : Nat) : CoreSt := (upTo j).foldl (fun x _ => step x) { c with a := c.a.set i b }
      ∀ j, j < 2 ^ k → regAt (after j).a i = b + BitVec.ofNat 16 (bitRev k j))

/-- R241. -/
def Obligations.AccumulatorOverflow : Prop :=
  (∀ (c : CoreSt) (k : Fin 2) (v : Int),
    let inside := -(2 ^ 39) ≤ v ∧ v ≤ 2 ^ 39 - 1
    let r := c.accum k v
    (inside → r.ac k = v ∧ r.sr = c.sr) ∧
    (¬inside → r.sr.getLsbD (4 + k) = true ∧ (∀ b, b ≠ 4 + k.val → r.sr.getLsbD b = c.sr.getLsbD b)) ∧
    (¬inside → c.sr.getLsbD (6 + k) = false →
      (r.ac k - v) % 2 ^ 40 = 0 ∧ -(2 ^ 39) ≤ r.ac k ∧ r.ac k ≤ 2 ^ 39 - 1) ∧
    (v < -(2 ^ 39) → c.sr.getLsbD (6 + k) = true → r.ac k = -(2 ^ 39)) ∧
    (2 ^ 39 - 1 < v → c.sr.getLsbD (6 + k) = true → r.ac k = 2 ^ 39 - 1) ∧
    r.ac (1 - k) = c.ac (1 - k) ∧ r.d = c.d) ∧
  (∀ (c : CoreSt) (k : Fin 2) (xs : List Int), c.sr.getLsbD (6 + k) = false → -(2 ^ 39) ≤ c.ac k → c.ac k ≤ 2 ^ 39 - 1 →
    ∀ total, total = xs.foldl (· + ·) (c.ac k) → -(2 ^ 39) ≤ total → total ≤ 2 ^ 39 - 1 → (xs.foldl (fun x v => x.accum k (x.ac k + v)) c).ac k = total) ∧
  (∀ (c : CoreSt) (x y : BitVec 16), -(2 ^ 39) ≤ c.product x y ∧ c.product x y ≤ 2 ^ 39 - 1) ∧
  (∃ v : Int, -(2 ^ 39) ≤ v ∧ v ≤ 2 ^ 39 - 1 ∧ 2 ^ 39 - 1 < v * 2 ^ 1) ∧
  (∃ (v : Int) (x : BitVec 16), -(2 ^ 39) ≤ v ∧ v ≤ 2 ^ 39 - 1 ∧ 2 ^ 39 - 1 < v + x.toInt * 2 ^ 16)

/-- WAVEFORM_OPEN, SPECTRUM_RECORD_TIMEOUT, SPECTRUM_RECORD_CLOSE, SIDE_ENTRY, SIDE_RECORD_HOLD, RUN_END_EMIT, USER_GO,
USER_COPY_DONE and Q_MAX_READ (R270, R278, R281, R283 to R287, R294). -/
def Obligations.RecordCommands : Prop :=
  ∀ (s : State) (d : Fin 64) (c : Fin 192) (i : Fin 5) (u : Fin 32) (k : Fin 256) (q : Fin 32) (tag : Nat),
    let x := s.side (sideKey i u)
    let batch := s.fget (R.QUL_CH_CFG (c / 8) (c % 8)) F.QUL_CH_CFG_SPEC_BATCH
    (∀ w, s.recs.waves = [w] → w.shed = d → w.seq = none → w.partsLeft = [] → w.vetoed = false → s.waveWaits w = false →
      (w.fired + 1024 ≤ s.beats → exec (.waveformOpen d) s = .next (s.waveBegin w)) ∧
      (s.beats < w.fired + 1024 → exec (.waveformOpen d) s = .next s)) ∧
    (∀ w, s.recs.waves = [w] → (w.shed ≠ d ∨ w.seq ≠ none ∨ w.partsLeft ≠ [] ∨ w.vetoed = true ∨ s.waveWaits w = true) →
      exec (.waveformOpen d) s = .next s) ∧
    (∀ m ty, let t := s.takeSeq m ty; t.1 = (s.stream m).seq ∧ (t.2.stream m).seq = (s.stream m).seq + 1 ∧
      (t.2.stream m).sent = (s.stream m).sent + (if ty = rtManifest then 0 else 1) ∧
      t.2.rd (R.REC_STREAM_REC_CNT m) = s.rd (R.REC_STREAM_REC_CNT m) + (if ty = rtManifest then 0#32 else 1#32) ∧
      s.sameRegs t.2 [R.REC_STREAM_REC_CNT m]) ∧
    (s.specRecs c = [] → exec (.spectrumRecordTimeout c) s = .next s ∧ exec (.spectrumRecordClose c) s = .next s) ∧
    (∀ r rest, s.specRecs c = r :: rest →
      let close (code : Nat) := (s.setSpecRecs c rest).specClose c code r
      (s.beats < r.newest + 512 → exec (.spectrumRecordTimeout c) s = .next s ∧ exec (.spectrumRecordClose c) s = .next s) ∧
      (r.newest + 512 ≤ s.beats →
        (r.oldest + 1048576 ≤ s.beats → exec (.spectrumRecordTimeout c) s = .next (close clHold)) ∧
        (s.beats < r.oldest + 1048576 → exec (.spectrumRecordTimeout c) s = .next s) ∧
        (batch + 1 ≤ r.items.length → exec (.spectrumRecordClose c) s = .next (close clNormal)) ∧
        (r.items.length < batch + 1 → s.runState = rsStopping → s.streamDone c = true →
          exec (.spectrumRecordClose c) s = .next (close clStopped)) ∧
        (r.items.length < batch + 1 → s.runState ≠ rsStopping → exec (.spectrumRecordClose c) s = .next s))) ∧
    ((x.quill = [] ∨ s.sideOpen i u = false ∨ s.popValid (qnSide (sideKey i u)) x.quill.length = false) →
      ∀ parity, exec (.sideEntry i u parity) s = .next s) ∧
    (∀ e rest parity, x.quill = e :: rest → s.sideOpen i u = true →
      s.popValid (qnSide (sideKey i u)) x.quill.length = true →
      let s1 := (s.setSide (sideKey i u) { x with
        quill := rest
        memErr := if parity then some (x.memErr.getD x.gathered.length) else x.memErr }).sidePopped (sideKey i u) x.quill.length
      let s2 := if parity then s1.event vREC 0 sevError (sideKey i u) 0 0 else s1
      (i.val ≠ 3 → exec (.sideEntry i u parity) s = .next (s2.sideGather i u e)) ∧
      (i.val = 3 → exec (.sideEntry i u parity) s = .next ((s2.noteSuspect u e.wt e.taken).sideGather i u e))) ∧
    (∀ e, x.gathered ≠ [] → i.val ≠ 4 → x.gathered.length + 1 < 2 ^ min 10 (fieldOf x.cfg F.REC_SIDE_CFG_BATCH_EXP) →
      s.sideGather i u e = s.setSide (sideKey i u) { x with gathered := x.gathered ++ [e] }) ∧
    (x.gathered = [] → exec (.sideRecordHold i u) s = .next s) ∧
    (x.gathered ≠ [] →
      (x.since + 1024 * max 1 (fieldOf x.cfg F.REC_SIDE_CFG_HOLD) ≤ s.beats →
        exec (.sideRecordHold i u) s = .next (s.sideClose i u clHold)) ∧
      (s.beats < x.since + 1024 * max 1 (fieldOf x.cfg F.REC_SIDE_CFG_HOLD) → exec (.sideRecordHold i u) s = .next s)) ∧
    (s.runState = rsStopping → s.streamOn k = true → (s.stream k).runEnd = false →
      (s.drainAll.streamIdle k = true → exec (.runEndEmit k) s = .next (s.drainAll.runEndPush k)) ∧
      (s.drainAll.streamIdle k = false → exec (.runEndEmit k) s = .next s.drainAll)) ∧
    ((s.runState ≠ rsStopping ∨ s.streamOn k = false ∨ (s.stream k).runEnd = true) → exec (.runEndEmit k) s = .next s) ∧
    (s.flag R.REC_USER_CTRL F.REC_USER_CTRL_GO = true → exec .userGo s = .next (s.again R.REC_USER_CTRL 8)) ∧
    (∀ n, n = fieldOf (s.rd R.REC_USER_LEN) ⟨0, 17⟩ → s.flag R.REC_USER_CTRL F.REC_USER_CTRL_GO = false → 1 ≤ n → n ≤ 65536 →
      ∃ t, exec .userGo s = .next t ∧ t.recs = { s.recs with user := some ⟨s.wt, s.nowFrac,
          s.fget R.REC_USER_CTRL F.REC_USER_CTRL_STREAM, s.fget R.REC_USER_CTRL F.REC_USER_CTRL_SOURCE,
          s.pair R.REC_USER_ADDR_LO R.REC_USER_ADDR_HI, n, (s.rd R.REC_USER_TAG).toNat⟩ } ∧
        t.flag R.REC_USER_CTRL F.REC_USER_CTRL_GO = true ∧ s.sameRegs t [R.REC_USER_CTRL]) ∧
    (s.recs.user = none → ∀ bad, exec (.userCopyDone bad) s = .next s) ∧
    (∀ v, s.recs.user = some v →
      (s.streamOn v.stream = false → ∃ t, exec (.userCopyDone []) s = .next t ∧ t.recs = { s.recs with user := none } ∧
        t.flag R.REC_USER_CTRL F.REC_USER_CTRL_GO = false ∧ t.fget R.REC_USER_CTRL F.REC_USER_CTRL_RESULT = 1 ∧
        s.sameRegs t (R.REC_USER_CTRL :: raiseRegs vREC)) ∧
      (s.streamOn v.stream = true → hbmOffset v.addr = none → ∃ t, exec (.userCopyDone []) s = .next t ∧
        t.recs = { s.recs with user := none } ∧ t.fget R.REC_USER_CTRL F.REC_USER_CTRL_RESULT = 2 ∧
        t.flag R.REC_USER_CTRL F.REC_USER_CTRL_GO = false) ∧
      (∀ off bad, s.streamOn v.stream = true → s.hbmRange v.addr v.len = some off →
        let s1 := State.foff { s with recs := { s.recs with user := none } } R.REC_USER_CTRL F.REC_USER_CTRL_GO
        let lost := (upTo ((off % 32 + v.len + 31) / 32)).filter (fun n => s1.unitLost (off / 32 * 32 + 32 * n))
        let s2 := lost.foldl (fun y n => y.badBurstAt (off / 32 * 32 + 32 * n) 2 3)
          (bad.foldl (fun y n => y.badRead (off / 32 * 32 + 32 * n) 2) (s1.hbmTouch off v.len))
        let time : Int := (v.wt : Int) * 256 + v.frac
        exec (.userCopyDone bad) s = .next
          (((s2.pushRecord
            { rtype := rtUser, stream := v.stream, source := v.source, flags := 0,
              content := fun n => if (bad ++ lost).any (fun j => decide (32 * j < n + off % 32)) then fMemErr else 0,
              t := time, endAt := fun _ => time, rate := 0, close := clNormal, thLen := 8 }
            (spoilBursts off (bad ++ lost) (s1.hbmLook off v.len) ++ leBytes 4 v.tag ++ leBytes 4 0)).fset R.REC_USER_CTRL
              F.REC_USER_CTRL_RESULT 0).raise vREC 2))) ∧
    exec (.qMaxRead q tag) s =
      .next ((s.wr (R.REC_Q_MAX q) 0#32).emit (.completion tag .ok [(s.rd (R.REC_Q_MAX q)).toNat]))

/-- SKEIN_PACKET, DEC_GO, DEC_STOP and DEC_DONE (R286, R290 to R293, R296). -/
def Obligations.SkeinCommands : Prop :=
  ∀ (s : State) (k : Fin 32) (d : Fin 4) (f : Nat × Nat),
    let q := s.quill k
    let idle := (s.engine k).held = none ∧ s.flag (R.SKN_ENG_STATUS k) F.SKN_ENG_STATUS_FAILED = false
    let dec := Tab.get (fun _ => none) s.recs.decs d
    let x := s.decSettings d
    (q.packets = [] → ∀ upset again parity, exec (.skeinPacket k upset again parity) s = .next s) ∧
    (¬idle → ∀ upset again parity, exec (.skeinPacket k upset again parity) s = .next s) ∧
    (∀ p rest upset again parity, q.packets = p :: rest → s.beats / 2 ≤ p.closed →
      exec (.skeinPacket k upset again parity) s = .next s) ∧
    (∀ p rest upset again parity, idle → q.packets = p :: rest → p.closed < s.beats / 2 →
      let poison := p.poison || parity
      let s1 := s.quillPop k parity p rest
      let s2 := if poison then s1.event vSKN 2 sevError k 0 0 else s1
      let note := (s2.engine k).notePoison p poison
      let s3 := s2.setEngine k note.1
      let form := s3.skeinForm p.hdr.cls poison p.body
      let flags := p.slotFlags + (if note.2 = true ∧ nbit p.slotFlags 3 = false then fMemErr else 0)
      let out := upset.getD form.1
      let stored := again.getD (storedForm p.body)
      (p.abort = true → exec (.skeinPacket k upset again parity) s = .next s1) ∧
      (p.abort = false →
        (form.2 = false → exec (.skeinPacket k upset again parity) s =
          .next (s3.skeinEmit k p.hdr p.body.length p.body false flags)) ∧
        (form.2 = true → checkOutput p.body out = none → exec (.skeinPacket k upset again parity) s =
          .next (s3.skeinEmit k p.hdr p.body.length out true flags)) ∧
        (∀ f, form.2 = true → checkOutput p.body out = some f →
          (checkOutput p.body stored = none → exec (.skeinPacket k upset again parity) s =
            .next ((s3.skeinFallback k p.hdr f).skeinEmit k p.hdr p.body.length stored true (flags + fStoredFallback))) ∧
          (∀ g, checkOutput p.body stored = some g → exec (.skeinPacket k upset again parity) s =
            .next (((s3.skeinFallback k p.hdr f).skeinCount k p.body.length 0).skeinFail k p.hdr g))))) ∧
    (∀ (body out : List (BitVec 8)), checkOutput body out = none ↔
      (inflate (2 ^ 32) out).1 = 0 ∧ (inflate (2 ^ 32) out).2.1 = body) ∧
    (∀ (cls : Nat) (poison : Bool) (body : List (BitVec 8)), 1 ≤ body.length → body.length ≤ 65536 →
      (s.skeinForm cls poison body).2 = true → checkOutput body (s.skeinForm cls poison body).1 = none) ∧
    (∀ (h : FragHdr) raw out deflated flags,
      let t := s.skeinEmit k h raw out deflated flags
      (t.engine k).held = some ⟨{ h with
        rawLen := raw
        wireLen := out.length
        enc := if deflated then 1 else 0
        flags := (w32 h.flags ||| w32 flags).toNat }, out, none, none⟩ ∧
      t.flag (R.SKN_ENG_STATUS k) F.SKN_ENG_STATUS_BUSY = true ∧
      t.rd (R.SKN_RAW_CNT k) = s.rd (R.SKN_RAW_CNT k) + w32 (((s.engine k).rawRest + raw) / 64) ∧
      t.rd (R.SKN_WIRE_CNT k) = s.rd (R.SKN_WIRE_CNT k) + w32 (((s.engine k).wireRest + out.length) / 64) ∧
      s.sameRegs t [R.SKN_ENG_STATUS k, R.SKN_RAW_CNT k, R.SKN_WIRE_CNT k]) ∧
    (∀ (h : FragHdr), let t := s.skeinFail k h f
      t.flag (R.SKN_ENG_STATUS k) F.SKN_ENG_STATUS_FAILED = true ∧
      (t.stream h.stream).discAbort = (s.stream h.stream).discAbort + 1) ∧
    (s.flag (R.SKN_DEC_STATUS d) F.SKN_DEC_STATUS_BUSY = true →
      exec (.decGo d) s = .next (s.fon (R.SKN_DEC_STATUS d) F.SKN_DEC_STATUS_REFUSED)) ∧
    (s.flag (R.SKN_DEC_STATUS d) F.SKN_DEC_STATUS_BUSY = false →
      (rangesMeet x.src x.srcLen x.dst x.dstLen = true → exec (.decGo d) s = .next (s.decEnd d 12 0 0)) ∧
      (rangesMeet x.src x.srcLen x.dst x.dstLen = false → exec (.decGo d) s =
        .next (((s.setDec d (some x)).fon (R.SKN_DEC_CTRL d) F.SKN_DEC_CTRL_GO).fon (R.SKN_DEC_STATUS d)
          F.SKN_DEC_STATUS_BUSY))) ∧
    (dec = none → exec (.decStop d) s = .next s ∧ ∀ ue, exec (.decDone d ue) s = .next s) ∧
    (∀ y, dec = some y → ∃ n used, let r := s.decode y none
      n ≤ r.2.1.length ∧ used ≤ r.2.2 ∧
      exec (.decStop d) s = .next ((s.took.took.decWrite y (r.2.1.take n)).decEnd d 13 n used)) ∧
    (∀ y ue, dec = some y → let r := s.decode y ue
      exec (.decDone d ue) s = .next ((((s.decRead y ue r.1 r.2.2).decHole y r.1).decWrite y r.2.1).decEnd d r.1 r.2.1.length r.2.2)) ∧
    (∀ code outLen used, code < 16 →
      let t := s.decEnd d code outLen used
      t.fget (R.SKN_DEC_STATUS d) F.SKN_DEC_STATUS_ERR = code ∧ t.flag (R.SKN_DEC_STATUS d) F.SKN_DEC_STATUS_BUSY = false ∧
      t.flag (R.SKN_DEC_CTRL d) F.SKN_DEC_CTRL_GO = false ∧ t.rd (R.SKN_DEC_OUT_LEN d) = w32 outLen ∧
      t.rd (R.SKN_DEC_IN_USED d) = w32 used ∧ Tab.get (fun _ => none) t.recs.decs d = none ∧ t.hbm = s.hbm ∧
      s.sameRegs t ([R.SKN_DEC_STATUS d, R.SKN_DEC_CTRL d, R.SKN_DEC_OUT_LEN d, R.SKN_DEC_IN_USED d] ++ raiseRegs vSKN))

/-- R270, R272, R290 and R292. -/
def Obligations.RecordsRebuild : Prop :=
  (∀ (s : State) (r : RecIn) (body : List (BitVec 8)), s.streamOn r.stream = true → s.aborts r.rtype = false →
    s.streamEnded r.stream = false → (s.quill (s.quillOf r.stream)).waiting = [] →
    (s.quill (s.quillOf r.stream)).opened = none → (∀ n, r.content n % 1024 < 512) →
    let k := s.quillOf r.stream
    let size := 2 ^ s.fget (R.REC_STREAM_CFG r.stream) F.REC_STREAM_CFG_FRAG_EXP
    let seq := (s.stream r.stream).seq
    let t := s.pushRecord r body
    ∃ (ps : List Packet) (j : Nat), j ≤ ps.length ∧ ps ≠ [] ∧
      (t.quill k).packets = (s.quill k).packets ++ ps.take j ∧
      (t.quill k).waiting.map (fun w => w.packet) = (ps.drop j).map some ∧
      (j < ps.length → s.quillRoom (t.quill k) r.stream = false) ∧
      (s.quillRoom (s.quill k) r.stream = true → 1 ≤ j) ∧
      (t.stream r.stream).seq = (if j = 0 then seq else seq + 1) ∧
      ps.foldl (fun b p => b ++ p.body) [] = body ∧
      (∀ i, ∀ h : i < ps.length,
        let upto := ((ps.take (i + 1)).map (fun p => p.body.length)).sum
        (ps[i]).hdr.frag = i ∧ (i < j → (ps[i]).hdr.seq = seq) ∧ (ps[i]).hdr.stream = r.stream ∧
        (ps[i]).hdr.rawLen = (ps[i]).body.length ∧ (ps[i]).hdr.endWt = unsigned 64 (r.endAt upto / 256) ∧
        (i + 1 < ps.length → (ps[i]).body.length = size ∧ (ps[i]).hdr.thLen = 0 ∧ nbit (ps[i]).flags 9 = false) ∧
        (i + 1 = ps.length → (ps[i]).body.length ≤ size ∧ (ps[i]).hdr.thLen = r.thLen ∧ (ps[i]).close = r.close ∧
          nbit (ps[i]).flags 9 = true))) ∧
  (∀ body : List (BitVec 8), 1 ≤ body.length → body.length ≤ 65536 →
    (storedForm body).length = body.length + 5 * ((body.length + 65534) / 65535) ∧
    inflate body.length (storedForm body) = (0, body, (storedForm body).length)) ∧
  (∀ (s : State) (cls : Nat) (poison : Bool) (body : List (BitVec 8)), 1 ≤ body.length →
    ((s.skeinForm cls poison body).1).length ≤ body.length + 5 * ((body.length + 65534) / 65535) + 1)

/-- FRAGMENT_TAG, RING_ENTRY_WRITE, NOTIFY_HOLD_EXPIRE, NOTIFY_SEND, NOTIFY_TRANSMITTED, RING_CFG_WRITE, RING_NOTIFY_NOW and
RING_RD_WRITE (R275, R302 to R307, R419). What is open: entries 84, 85 and 102 of the log. -/
def Obligations.PartnerRings : Prop :=
  ∀ (s : State) (p : Fin 4) (r : Fin 16) (k : Fin 32) (v : BitVec 32),
    let x := s.pring p r
    let e := s.engine k
    let a := R.HNS_RING_STATUS p r
    let hold := 1024 * max 1 (s.fget a F.HNS_RING_STATUS_HOLD)
    let rd := (s.pageWord p (ringOff r + 0x18)).toNat + 2 ^ 32 * v.toNat
    (e.held = none → exec (.fragmentTag k) s = .next s ∧ exec (.ringEntryWrite k) s = .next s) ∧
    (∀ f, e.held = some f → f.trailer.isSome = true → exec (.fragmentTag k) s = .next s) ∧
    (∀ f, e.held = some f → f.trailer = none →
      let m := f.hdr.stream
      exec (.ringEntryWrite k) s = .next s ∧
      (s.flag (R.REC_STREAM_CFG m) F.REC_STREAM_CFG_AUTH = false →
        exec (.fragmentTag k) s = .next (s.setEngine k { e with held := some (crcFragment f) })) ∧
      (s.flag (R.REC_STREAM_CFG m) F.REC_STREAM_CFG_AUTH = true →
        (s.tagKeys (s.streamPort m) = none →
          exec (.fragmentTag k) s = .next ((s.raise vBRD 4).ringStall (s.streamPort m) (s.streamRing m))) ∧
        (∀ keyId key run, s.tagKeys (s.streamPort m) = some (keyId, key, run) →
          (f.hdr.seq < 2 ^ 56 → exec (.fragmentTag k) s = .next (((s.setEngine k { e with
            held := some (tagFragment f keyId key run (s.flag (R.REC_STREAM_CFG m) F.REC_STREAM_CFG_ENCRYPT)) }).keyUsed
              (s.streamPort m) key).count (R.BRD_FRAG_CNT (s.streamPort m)) 1)) ∧
          (2 ^ 56 ≤ f.hdr.seq → ∃ code, exec (.fragmentTag k) s = .next ((s.log vBRD code sevFatal m 0 0).took).fatalStop)))) ∧
    (∀ f w, e.held = some f → f.trailer = some w →
      let fp := s.streamPort f.hdr.stream
      let fr := s.streamRing f.hdr.stream
      (s.ringTakes fp fr f.entryLen = true →
        s.entryTurn fp ≠ some k.val → exec (.ringEntryWrite k) s = .next s) ∧
      (s.ringTakes fp fr f.entryLen = true → s.entryTurn fp = some k.val → ∃ t, exec (.ringEntryWrite k) s = .next t ∧
        (t.engine k).held = none ∧ (t.hport fp).lastEngine = k ∧ (t.hport fp).entryEngine = none ∧ (t.hport fp).entryTlps = 0 ∧
        t.outs = (s.sendWrites fp ((s.ringWrites fp fr (s.pring fp fr).written (f.entry w)).drop (s.hport fp).entryTlps)).outs ∧
        (t.pring fp fr).written = (s.pring fp fr).written + f.entryLen ∧
        (t.pring fp fr).entries = (s.pring fp fr).entries + 1 ∧
        (t.pring fp fr).open_ = (s.pring fp fr).open_ ++ [⟨f.entryLen, f.hdr.stream, f.hdr.seq, s.beats⟩] ∧
        (2 ^ s.fget (R.HNS_RING_STATUS fp fr) F.HNS_RING_STATUS_NB_EXP ≤ (s.pring fp fr).written + f.entryLen - s.ringWr fp fr →
          (t.pring fp fr).due = true) ∧ s.sameRegs t [R.HNS_RING_STATUS fp fr]) ∧
      (s.ringTakes fp fr f.entryLen = false → exec (.ringEntryWrite k) s = .next (s.ringStall fp fr))) ∧
    (∀ n, s.ringTakes p r n = true ↔
      s.ringEn p r = true ∧ s.portWriting p = true ∧ x.written + n ≤ s.ringRd p r + s.ringSize p r) ∧
    (s.flag a F.HNS_RING_STATUS_STALLED = true → s.ringStall p r = s) ∧
    (s.flag a F.HNS_RING_STATUS_STALLED = false → ∀ t, t = s.ringStall p r →
      t.flag a F.HNS_RING_STATUS_STALLED = true ∧ t.rd (R.HNS_RING_STALL_CNT p r) = s.rd (R.HNS_RING_STALL_CNT p r) + 1#32 ∧
      (t.pring p r).stallSince = true ∧ (s.ringWr p r < x.written → (t.pring p r).due = true) ∧
      s.sameRegs t ([a, R.HNS_RING_STALL_CNT p r] ++ raiseRegs vHNS)) ∧
    (∀ n, x.out = some n → exec (.notifySend p r) s = .next s ∧
      exec (.notifyTransmitted p r) s = .next (s.setPring p r { x with
        out := none
        sentWr := n.wr
        sentCount := x.sentCount + 1
        open_ := x.open_.drop n.covers })) ∧
    (x.out = none → exec (.notifyTransmitted p r) s = .next s ∧
      (x.due = false ∨ s.portWriting p = false → exec (.notifySend p r) s = .next s) ∧
      (x.open_ = [] → exec (.notifyHoldExpire p r) s = .next s) ∧
      (∀ y ys, x.open_ = y :: ys →
        (y.at_ + hold ≤ s.beats → exec (.notifyHoldExpire p r) s = .next (s.setPring p r { x with due := true })) ∧
        (s.beats < y.at_ + hold → exec (.notifyHoldExpire p r) s = .next s)) ∧
      (x.due = true → s.portWriting p = true → x.written < 2 ^ 64 → ∃ t, exec (.notifySend p r) s = .next t ∧
        t.outs = (s.partnerPut p ((s.pageWord p (ringOff r + 0x10)).toNat + 2 ^ 32 * (s.pageWord p (ringOff r + 0x14)).toNat)
          (leBytes 8 x.written ++ leBytes 8 x.entries ++ leBytes 8 s.wt ++ leBytes 4 (x.sentCount + 1) ++
            leBytes 1 ((if x.lossSince then 1 else 0) + (if x.stallSince then 2 else 0)) ++ leBytes 3 0) 33).outs ∧
        t.ringWr p r = x.written ∧ (t.pring p r).due = false ∧ (t.pring p r).lossSince = false ∧
        (t.pring p r).stallSince = false ∧ (t.pring p r).out = some ⟨x.written, x.open_.length⟩ ∧
        (s.ringEn p r = false → t.flag a F.HNS_RING_STATUS_ACTIVE = false) ∧
        s.sameRegs t [a, R.HNS_RING_WR_LO p r, R.HNS_RING_WR_HI p r])) ∧
    (s.portOpen p = false → exec (.ringCfgWrite p r v) s = .next s ∧ exec (.ringRdWrite p r v) s = .next s ∧
      exec (.ringNotifyNow p r v) s = .next s) ∧
    (s.portOpen p = true →
      (s.ringEn p r = false →
        (v.getLsbD 0 = false → exec (.ringCfgWrite p r v) s = .next (s.ringFields p r v)) ∧
        (v.getLsbD 0 = true →
          ((18 ≤ v.toNat / 2 % 64 ∧ v.toNat / 2 % 64 ≤ 32 ∧ 12 ≤ v.toNat / 128 % 32 ∧ v.toNat / 128 % 32 ≤ 24 ∧
              v.toNat / 128 % 32 < v.toNat / 2 % 64 ∧ (s.rd (R.HNS_RING_BASE_LO p r)).toNat % 4096 = 0 ∧
              (s.pageWord p (ringOff r + 0x10)).toNat % 32 = 0) →
            exec (.ringCfgWrite p r v) s = .next ((s.ringFields p r v).ringBegin p r)) ∧
          ((v.toNat / 2 % 64 < 18 ∨ 32 < v.toNat / 2 % 64 ∨ v.toNat / 128 % 32 < 12 ∨ 24 < v.toNat / 128 % 32 ∨
              v.toNat / 2 % 64 ≤ v.toNat / 128 % 32 ∨ (s.rd (R.HNS_RING_BASE_LO p r)).toNat % 4096 ≠ 0 ∨
              (s.pageWord p (ringOff r + 0x10)).toNat % 32 ≠ 0) →
            exec (.ringCfgWrite p r v) s = .next ((s.ringFields p r v).ringBad p r)))) ∧
      (s.ringEn p r = true → v.getLsbD 0 = true → ∃ t, exec (.ringCfgWrite p r v) s = .next t ∧
        t.fget a F.HNS_RING_STATUS_HOLD = v.toNat / 65536 ∧
        t.fget a F.HNS_RING_STATUS_SIZE_EXP = s.fget a F.HNS_RING_STATUS_SIZE_EXP ∧
        t.fget a F.HNS_RING_STATUS_NB_EXP = s.fget a F.HNS_RING_STATUS_NB_EXP ∧ t.ringEn p r = true ∧
        ((t.pring p r).cfgBad = true ↔ x.cfgBad = true ∨ v.toNat / 2 % 64 ≠ s.fget a F.HNS_RING_STATUS_SIZE_EXP ∨
          v.toNat / 128 % 32 ≠ s.fget a F.HNS_RING_STATUS_NB_EXP) ∧ s.sameRegs t [a]) ∧
      (s.ringEn p r = true → v.getLsbD 0 = false → ∃ t, exec (.ringCfgWrite p r v) s = .next t ∧ t.ringEn p r = false ∧
        (s.ringWr p r < x.written → (t.pring p r).due = true ∧
          t.flag a F.HNS_RING_STATUS_ACTIVE = s.flag a F.HNS_RING_STATUS_ACTIVE) ∧
        (x.written ≤ s.ringWr p r → x.due = false → t.flag a F.HNS_RING_STATUS_ACTIVE = false) ∧
        (s.ringNamed p r = true → t.flag a F.HNS_RING_STATUS_STALLED = true ∧
          s.sameRegs t ([a, R.HNS_RING_STALL_CNT p r] ++ raiseRegs vHNS)) ∧
        (s.ringNamed p r = false → s.sameRegs t [a])) ∧
      (v.getLsbD 0 = false ∨ s.flag a F.HNS_RING_STATUS_ACTIVE = false → exec (.ringNotifyNow p r v) s = .next s) ∧
      (v.getLsbD 0 = true → s.flag a F.HNS_RING_STATUS_ACTIVE = true →
        exec (.ringNotifyNow p r v) s = .next (s.setPring p r { x with due := true })) ∧
      (rd % 64 = 0 → s.ringRd p r ≤ rd → rd ≤ s.ringWr p r → exec (.ringRdWrite p r v) s =
        .next ((s.setPair (R.HNS_RING_RD_LO p r) (R.HNS_RING_RD_HI p r) rd).ringResume p r)) ∧
      (rd % 64 ≠ 0 ∨ rd < s.ringRd p r ∨ s.ringWr p r < rd → ∃ t, exec (.ringRdWrite p r v) s = .next t ∧
        t.flag a F.HNS_RING_STATUS_RD_BAD = true ∧ t.flag R.HNS_INT_STATUS F.HNS_INT_STATUS_RD_BAD = true ∧
        s.sameRegs t (a :: (raiseRegs vHNS ++ logRegs sevWarning)))) ∧
    (∀ t, t = s.ringBegin p r →
      (t.pring p r).written = 0 ∧ (t.pring p r).entries = 0 ∧ (t.pring p r).open_ = [] ∧ t.ringWr p r = 0 ∧ t.ringRd p r = 0 ∧
      t.ringEn p r = true ∧ t.flag a F.HNS_RING_STATUS_ACTIVE = true ∧
      s.sameRegs t ([a, R.HNS_RING_WR_LO p r, R.HNS_RING_WR_HI p r, R.HNS_RING_RD_LO p r, R.HNS_RING_RD_HI p r,
        R.HNS_RING_STALL_CNT p r] ++ raiseRegs vHNS))

/-- PERST_ASSERT, PERST_DEASSERT, HOT_RESET, FLR, LINK_UP, LINK_DOWN, BME_SET, BME_CLEAR, PARTNER_DOORBELL,
PARTNER_PAGE_WRITE, PARTNER_LATCH_READ, BAR2_READ, BAR2_WRITE, MSIX_SEND and PARTNER_DB_READ (R298 to R301, R308, R311, R312,
R314, R315). What the spec leaves open there: entries 81 to 83 and 87 to 92 of the log. -/
def Obligations.HarnessPorts : Prop :=
  ∀ (s : State) (p : Fin 4) (gen : Fin 8) (width : Fin 4) (x1 : Bool) (mps mrrs : Fin 8) (msix : MsixMode) (v : BitVec 32)
      (o : BitVec 16) (size : Nat) (w : BitVec 64) (ue : Option Nat) (n tag : Nat),
    let a := R.HNS_PORT_STATUS p
    let y := s.hport p
    let off := w.toNat
    let lost := (s.portLoss p).portPageReset p
    let reset := (lost.foff a F.HNS_PORT_STATUS_BME).foff a F.HNS_PORT_STATUS_MSIX_EN
    let down := (s.foff a F.HNS_PORT_STATUS_LINK_UP).foff a F.HNS_PORT_STATUS_L1
    let refused := s.count (R.HNS_PORT_ERR_CNT p) 1
    let bar2 := refused.raise vHNS 16
    exec (.perstAssert p) s = .next (if s.flag a F.HNS_PORT_STATUS_LINK_UP then (lost.wr a 0x200#32).linkFell p
      else lost.wr a 0x200#32) ∧
    exec (.perstDeassert p) s = .next (if s.flag a F.HNS_PORT_STATUS_PERST then
      ((s.foff a F.HNS_PORT_STATUS_PERST).portApply p).resetEnded vHNS p 0 else s) ∧
    exec (.hotReset p) s = .next (if s.portOpen p then (reset.portApply p).resetEnded vHNS p 0 else s) ∧
    exec (.flr p) s = .next (if s.portOpen p then reset.resetEnded vHNS p 0 else s) ∧
    exec (.linkDown p) s = .next (if s.flag a F.HNS_PORT_STATUS_LINK_UP then
      ((down.portLoss p).portStall p).linkFell p else s) ∧
    (s.flag a F.HNS_PORT_STATUS_PERST = true ∨ s.flag a F.HNS_PORT_STATUS_LINK_UP = true →
      exec (.linkUp p gen width x1) s = .next s) ∧
    (s.flag a F.HNS_PORT_STATUS_PERST = false → s.flag a F.HNS_PORT_STATUS_LINK_UP = false → gen.val ≠ 0 → gen.val ≠ 7 →
      ∃ t, exec (.linkUp p gen width x1) s = .next t ∧ t.flag a F.HNS_PORT_STATUS_LINK_UP = true ∧
        t.fget a F.HNS_PORT_STATUS_GEN ≤ gen ∧ 1 ≤ t.fget a F.HNS_PORT_STATUS_GEN ∧
        (1 ≤ fieldOf y.cfg F.HNS_PORT_CFG_MAX_GEN → t.fget a F.HNS_PORT_STATUS_GEN ≤ fieldOf y.cfg F.HNS_PORT_CFG_MAX_GEN) ∧
        (width.val ≠ 3 → t.fget a F.HNS_PORT_STATUS_WIDTH ≤ min width.val (fieldOf y.cfg F.HNS_PORT_CFG_MAX_WIDTH)) ∧
        (width.val = 3 → t.fget a F.HNS_PORT_STATUS_WIDTH = 3 ∧ t.flag a F.HNS_PORT_STATUS_X1 = x1) ∧
        s.sameRegs t ([a] ++ (List.range 16).map (fun r => R.HNS_RING_STATUS p r) ++ raiseRegs vHNS)) ∧
    exec (.bmeClear p) s = .next (if s.portOpen p = true ∧ s.flag a F.HNS_PORT_STATUS_BME = true then
      ((s.foff a F.HNS_PORT_STATUS_BME).portLoss p).portStall p else s) ∧
    (s.portOpen p = true → ∃ t, exec (.bmeSet p mps mrrs msix) s = .next t ∧ t.portWriting p = true ∧
      t.fget a F.HNS_PORT_STATUS_MPS = mps ∧ t.fget a F.HNS_PORT_STATUS_MRRS = mrrs ∧
      t.flag a F.HNS_PORT_STATUS_MSIX_EN = decide (msix ≠ .off) ∧ (t.hport p).msixMask = decide (msix = .masked) ∧
      s.sameRegs t ([a] ++ (List.range 16).map (fun r => R.HNS_RING_STATUS p r))) ∧
    (∀ t, t = s.portLoss p →
      (∀ r < 16, (t.pring p r).open_ = [] ∧ (t.pring p r).due = false ∧ (t.pring p r).out = none ∧
        (t.pring p r).written = (s.pring p r).sentWr ∧
        (t.pring p r).lost = min 0xFFFFFFFF ((s.pring p r).lost + (s.pring p r).open_.length +
          (if (s.partEntry p r).isSome then 1 else 0)) ∧
        (∀ e, s.partEntry p r = some e → (t.engine e.1).held = none) ∧
        (s.ringEn p r = false → t.flag (R.HNS_RING_STATUS p r) F.HNS_RING_STATUS_ACTIVE = false) ∧
        ((s.pring p r).open_ ≠ [] ∨ (s.partEntry p r).isSome = true → t.flag (R.HNS_RING_STATUS p r) F.HNS_RING_STATUS_LOSS = true))) ∧
    (∀ t, t = s.portPageReset p →
      (∀ r < 16, t.ringEn p r = false ∧ t.flag (R.HNS_RING_STATUS p r) F.HNS_RING_STATUS_STALLED = s.ringNamed p r ∧
        t.flag (R.HNS_RING_STATUS p r) F.HNS_RING_STATUS_ACTIVE = false ∧ t.rd (R.HNS_RING_BASE_LO p r) = 0#32 ∧
        (t.pring p r).written = 0 ∧ (t.pring p r).open_ = [] ∧
        (s.ringNamed p r = false → t.rd (R.HNS_RING_STATUS p r) = 0#32 ∧ t.pring p r = PRing.init)) ∧
      (∀ i < 8, ∀ k b dir, 1 ≤ k → t.windowBus p i b k dir = none) ∧ (t.hport p).pba = 0#32) ∧
    (s.portOpen p = false →
      exec (.partnerDoorbell p v) s = .next s ∧ exec (.partnerPageWrite p o size w) s = .next s ∧
      exec (.partnerLatchRead p o size) s = .next s ∧ exec (.bar2Read p w n ue) s = .next s ∧
      exec (.bar2Write p) s = .next s ∧ exec (.hotReset p) s = .next s ∧ exec (.flr p) s = .next s ∧
      exec (.bmeSet p mps mrrs msix) s = .next s) ∧
    (s.portOpen p = true →
      (y.door.length < 8 →
        let pushed := (s.setHport p { y with door := y.door ++ [v.setWidth 16] }).turnPush (qnDoor p) y.door.length
        (y.door = [] → (s.turn (qnDoor p) 0).depth = 0 → exec (.partnerDoorbell p v) s = .next (pushed.raise vHNS (8 + p))) ∧
        (y.door ≠ [] ∨ (s.turn (qnDoor p) 0).depth ≠ 0 → exec (.partnerDoorbell p v) s = .next pushed)) ∧
      (8 ≤ y.door.length →
        exec (.partnerDoorbell p v) s = .next (s.turnWait (qnDoor p) y.door.length (.half (v.setWidth 16)))) ∧
      (pageAccessOk o.toNat size = false → exec (.partnerPageWrite p o size w) s = .next refused ∧
        exec (.partnerLatchRead p o size) s = .next (refused.emit (.partnerCompletion p none false))) ∧
      (size = 4 → pageListed o.toNat = true →
        exec (.partnerPageWrite p o size w) s = .next (s.pageWrite p o.toNat (w.setWidth 32)) ∧
        exec (.partnerLatchRead p o size) s = .next ((s.pageLatch p o.toNat).took.emit
          (.partnerCompletion p (some (leBytes 4 (s.pageRead p o.toNat).toNat)) false))) ∧
      (size = 8 → o.toNat % 8 = 0 → pageListed o.toNat = true → pageListed (o.toNat + 4) = true →
        exec (.partnerPageWrite p o size w) s =
          .next ((s.pageWrite p o.toNat (w.setWidth 32)).pageWrite p (o.toNat + 4) ((w >>> 32).setWidth 32)) ∧
        exec (.partnerLatchRead p o size) s = .next ((s.pageLatch p o.toNat).took.emit
          (.partnerCompletion p (some (leBytes 4 (s.pageRead p o.toNat).toNat ++
            leBytes 4 ((s.pageLatch p o.toNat).pageRead p (o.toNat + 4)).toNat)) false))) ∧
      exec (.bar2Write p) s = .next bar2 ∧
      (fieldOf y.cfg F.HNS_PORT_CFG_BAR2_EN = 0 ∨ s.granted p off n = false →
        exec (.bar2Read p w n ue) s = .next (bar2.emit (.partnerCompletion p none false))) ∧
      (fieldOf y.cfg F.HNS_PORT_CFG_BAR2_EN = 1 → off + n ≤ 2 ^ 36 → s.granted p off n = true →
        s.reach (0x4000000000 + off) n = n →
        exec (.bar2Read p w n ue) s = .next ((s.readReach (0x4000000000 + off) n ue).emit
          (.partnerCompletion p (some (s.hbmLook off n)) (ue.isSome || (s.lostAfter off n).isSome))))) ∧
    (s.pageRead p 0 = w32 (0x101932 + 65536 * p) ∧ s.pageRead p 8 = s.rd R.GLB_RUN_NUMBER ∧ s.pageRead p 0x10 = lo32 s.wt ∧
      (s.pageLatch p 0x10).pageRead p 0x14 = hi32 s.wt) ∧
    (s.flag a F.HNS_PORT_STATUS_MSIX_EN = false → exec (.msixSend p v) s = .next s) ∧
    (∀ i : Fin 32, v = 1#32 <<< i.val → s.flag a F.HNS_PORT_STATUS_MSIX_EN = true → exec (.msixSend p v) s =
      .next (if (s.pageWord p (0x2000 + 16 * i + 12)).getLsbD 0 || y.msixMask || !s.portWriting p then
          s.setHport p { y with pba := setBitW y.pba i }
        else (s.setHport p { y with pba := clrBitW y.pba i }).emit (.msix p i))) ∧
    (y.door = [] ∨ s.popValid (qnDoor p) y.door.length = false →
      exec (.partnerDbRead p tag) s = .next (s.emit (.completion tag .ok [0]))) ∧
    (∀ d ds, y.door = d :: ds → s.popValid (qnDoor p) y.door.length = true →
      let r := s.turnPop (qnDoor p) y.door.length
      exec (.partnerDbRead p tag) s =
        .next ((r.1.setHport p { y with door := ds ++ halvesOf r.2 }).emit (.completion tag .ok [d.toNat + 2 ^ 31])) ∧
      ((s.turn (qnDoor p) y.door.length).refused = [] → r.2 = none) ∧
      (∀ h more, (s.turn (qnDoor p) y.door.length).refused = .half h :: more → halvesOf r.2 = [h])) ∧
    (∀ t, t = s.doorRefusal p → (t.hport p).doorOver = true ∧ (t.hport p).door = y.door ∧ s.sameRegs t (raiseRegs vHNS))

/-- SPN_START, SPN_HALT, SPN_STOP, SPN_POKE, SPN_EVENT_SET, SPN_END, SPN_LINK, SPN_RESERVED_OPCODE and SPN_QUIESCE_TIMEOUT
(R317 to R319, R325, R327 to R329). Entry 98 of the log: a channel halted in END_WAIT parks again. -/
def Obligations.SpindleControl : Prop :=
  ∀ (s : State) (k : Fin 64) (ue : Bool) (v : BitVec 8),
    let x := s.spch k
    let pc := s.spnPc k
    let st := s.spnState k
    let poke := s.flag (R.SPN_CH_CTRL k) F.SPN_CH_CTRL_POKE
    let ready := st = 1 ∧ x.work = none
    let moving := st = 1 ∧ ∃ i done, x.work = some (.move i done)
    let fresh : SpnCh := { x with
      work := none
      pcWritten := false }
    let again : SpnCh := { x with asked := s.beats }
    let stopBeat := x.stopped = some s.beats
    let beside := st = 5 ∧ ∃ h, x.halted = some (s.beats, h)
    let fetched := s.readReach pc 32 none
    let alone := s.stopAlone k
    (stopBeat → exec (.spnStart k) s = .next s ∧ exec (.spnPoke k) s = .next s) ∧
    (¬stopBeat →
      (1 ≤ st ∧ st ≤ 4 → exec (.spnStart k) s = .next (s.fon R.SPN_STATUS F.SPN_STATUS_CMD_REFUSED)) ∧
      (st = 0 → exec (.spnStart k) s = .next (s.spnGo k 1 { fresh with
        loop0 := none
        loop1 := none })) ∧
      (st = 5 ∨ st = 6 →
        (x.pcWritten = true → exec (.spnStart k) s = .next (s.spnGo k 1 fresh)) ∧
        (x.pcWritten = false →
          (x.work = none → exec (.spnStart k) s = .next (s.spnGo k 1 again)) ∧
          (∀ i done, x.work = some (.move i done) → exec (.spnStart k) s = .next (s.spnGo k 1 again)) ∧
          (∀ i, x.work = some (.signal i) → exec (.spnStart k) s = .next (s.spnGo k 1 again)) ∧
          (∀ i b c m, x.work = some (.wait i b c m) → exec (.spnStart k) s = .next (s.spnGo k 2 again)) ∧
          (x.work = some .parked → exec (.spnStart k) s = .next ((s.spnGo k 3 x).pokeOne k)))) ∧
      exec (.spnPoke k) s = .next (((s.setSpch k { x with poked := some s.beats, pokeFree := false }).fon (R.SPN_CH_CTRL k)
        F.SPN_CH_CTRL_POKE).pokeOne k)) ∧
    (st = 3 → poke = true → s.pokeHeld k = false →
      s.pokeOne k = (s.pokeDone k).spnGo k 1 { (s.pokeDone k).spch k with work := none }) ∧
    (st ≠ 3 ∨ poke = false ∨ s.pokeHeld k = true → s.pokeOne k = s) ∧
    (∀ t, t = s.pokeDone k → t.flag (R.SPN_CH_CTRL k) F.SPN_CH_CTRL_POKE = false ∧ t.spch k = { x with poked := none } ∧
      (∀ j, j ≠ k.val → t.spch j = s.spch j) ∧ s.sameRegs t [R.SPN_CH_CTRL k]) ∧
    (st = 0 ∨ 5 ≤ st → exec (.spnHalt k) s = .next s) ∧
    (moving → exec (.spnHalt k) s = .next (s.spnGo k 1 { x with haltAsked := true }) ∧
      exec (.spnStop k) s = .next (alone.spnGo k 1 { alone.spch k with stopAsked := true })) ∧
    (1 ≤ st ∧ st ≤ 4 → ¬moving → exec (.spnHalt k) s = .next (s.spnGo k 5 { x with
      pausedIn := none
      quiesce := none
      pcWritten := false
      halted := some (s.beats, st) })) ∧
    (¬moving → exec (.spnStop k) s = .next (alone.spnGo k 0 { alone.spch k with
      work := none
      pausedIn := none
      quiesce := none
      pcWritten := false
      haltAsked := false })) ∧
    (x.poked ≠ some s.beats → alone = s.setSpch k { x with stopped := some s.beats }) ∧
    (x.poked = some s.beats → alone = (s.pokeDone k).setSpch k { (s.pokeDone k).spch k with stopped := some s.beats }) ∧
    exec (.spnEventSet k v) s = .next (s.wr (R.SPN_CH_EVENT k) (s.rd (R.SPN_CH_EVENT k) ||| v.setWidth 32)) ∧
    (∀ f : State → State,
      (¬beside → s.spnBeside k f = f s) ∧
      (∀ h, st = 5 → x.halted = some (s.beats, h) →
        ((f (s.spnGo k h x)).spnState k = 6 → s.spnBeside k f = f (s.spnGo k h x)) ∧
        ((f (s.spnGo k h x)).spnState k ≠ 6 → s.spnBeside k f = s))) ∧
    (¬ready → ¬beside → exec (.spnEnd k ue) s = .next s ∧ exec (.spnLink k ue) s = .next s ∧
      exec (.spnReservedOpcode k ue) s = .next s) ∧
    (ready → pc % 32 = 0 → s.reach pc 32 = 32 → ue = false → s.lostAfter (pc - 0x4000000000) 32 = none →
      ∀ w0 w1 w2 w3, words64 4 (s.hbmLook (pc - 0x4000000000) 32) = [w0, w1, w2, w3] →
        let bad := exec (.spnReservedOpcode k ue) s = .next (fetched.spnFault k 1 0 pc)
        (6 ≤ w0 % 16 → bad) ∧
        (w0 % 16 < 6 → exec (.spnReservedOpcode k ue) s = .next s) ∧
        (w0 = 0 → w1 = 0 → w2 = 0 → w3 = 0 →
          (fetched.pokeReady k = true → exec (.spnEnd k ue) s = .next (fetched.pokeDone k)) ∧
          (fetched.pokeReady k = false →
            exec (.spnEnd k ue) s = .next (fetched.spnGo k 3 { fetched.spch k with work := some .parked }))) ∧
        (w0 % 16 = 0 → w0 ≠ 0 ∨ w1 ≠ 0 ∨ w2 ≠ 0 ∨ w3 ≠ 0 → w0 < 2 ^ 64 →
          exec (.spnEnd k ue) s = .next (fetched.spnFault k 1 0 pc)) ∧
        (w0 = 5 → w2 = 0 → w3 = 0 → w1 < 2 ^ 64 → ∃ t, exec (.spnLink k ue) s = .next t ∧ t.spnPc k = w1 ∧ t.spn = fetched.spn ∧
          fetched.sameRegs t [R.SPN_CH_PC_LO k, R.SPN_CH_PC_HI k])) ∧
    (ready → pc % 32 ≠ 0 → exec (.spnEnd k ue) s = .next (s.spnFault k 2 0 pc)) ∧
    (ready → pc % 32 = 0 → s.reach pc 32 ≠ 32 → exec (.spnEnd k ue) s =
      .next ((s.spnHole (pc + s.reach pc 32)).spnFault k 3 0 pc)) ∧
    (ready → pc % 32 = 0 → s.reach pc 32 = 32 →
      exec (.spnEnd k true) s = .next ((s.readReach pc 32 (some 0)).spnFault k 6 0 pc) ∧
      (∀ d, s.lostAfter (pc - 0x4000000000) 32 = some d → exec (.spnEnd k false) s = .next (fetched.spnFault k 6 0 pc))) ∧
    (x.quiesce = none → exec (.spnQuiesceTimeout k) s = .next s) ∧
    (∀ b d, x.quiesce = some (b, d) →
      (s.beats < b + 12000 → exec (.spnQuiesceTimeout k) s = .next s) ∧
      (∀ addr dir, b + 12000 ≤ s.beats → s.spnTouches k d = some (addr, dir) →
        exec (.spnQuiesceTimeout k) s = .next ((s.spnFault k 7 dir addr).raise vPWR 7))) ∧
    (∀ n y, n < 8 → ∀ t, t = s.spnGo k n y → t.spnState k = n ∧ t.spch k = y ∧ (∀ j, j ≠ k.val → t.spch j = s.spch j) ∧
      t.hbm = s.hbm ∧ t.outs = s.outs ∧ s.sameRegs t [R.SPN_CH_STATUS k, R.SPN_CH_CTRL k, R.SPN_STATUS]) ∧
    (∀ code dir addr, code < 16 → dir < 4 → addr < 2 ^ 64 → ∀ t, t = s.spnFault k code dir addr →
      t.spnState k = (if x.stopAsked then 0 else 6) ∧
      t.pair (R.SPN_CH_ERR_ADDR_LO k) (R.SPN_CH_ERR_ADDR_HI k) = addr ∧
      t.rd (R.SPN_CH_ERR_INFO k) = w32 (code + 16 * dir + 256 * (pc / 32 % 2 ^ 24)) ∧
      t.bit (if k.val < 32 then R.SPN_ERR_STATUS_LO else R.SPN_ERR_STATUS_HI) (k.val % 32) = true ∧ t.spnPc k = pc ∧
      t.hbm = s.hbm ∧ (t.spch k).work = (if x.stopAsked then none else x.work) ∧
      s.sameRegs t ([R.SPN_CH_STATUS k, R.SPN_CH_CTRL k, R.SPN_STATUS, R.SPN_CH_ERR_ADDR_LO k, R.SPN_CH_ERR_ADDR_HI k,
        R.SPN_CH_ERR_INFO k, R.SPN_ERR_STATUS_LO, R.SPN_ERR_STATUS_HI] ++ raiseRegs vSPN ++ logRegs sevError))

/-- SPN_MOVE, SPN_ELEMENT_DONE, SPN_LOOP, SPN_WAIT, SPN_WAIT_POLL, SPN_WAIT_END, SPN_WAIT_TIMEOUT, SPN_SIGNAL,
SPN_SIGNAL_FLUSHED and COMPLETION_TIMEOUT (R299, R319 to R324). Entries 95, 96 and 99 of the log. -/
def Obligations.SpindleInstructions : Prop :=
  ∀ (s : State) (k : Fin 64) (given : Option (List (BitVec 8))) (ue : Bool) (at_ : Option Nat) (w0 w1 w2 : Nat),
    let x := s.spch k
    let pc := s.spnPc k
    let i : SpnIns := ⟨w0, w1, w2⟩
    let ready := s.spnState k = 1 ∧ x.work = none ∧ pc % 32 = 0 ∧ s.reach pc 32 = 32 ∧
      s.lostAfter (pc - 0x4000000000) 32 = none ∧
      words64 4 (s.hbmLook (pc - 0x4000000000) 32) = [w0, w1, w2, 0] ∧ spnReserved w0 w1 w2 0 = false
    let jump := unsigned 64 ((pc : Int) + 32 * signed 32 w1)
    let lv := w0 / 16 % 2
    let y := s.readReach pc 32 none
    let xy := y.spch k
    (ready → w0 % 16 = 1 →
      (w0 / 2 ^ 32 = 0 → exec (.spnMove k false) s = .next (y.spnFault k 1 0 pc)) ∧
      (w0 / 2 ^ 32 ≠ 0 → y.spnMoveBad k i 0 = none → exec (.spnMove k false) s =
        .next (y.spnGo k 1 { xy with work := some (.move i 0), asked := y.beats })) ∧
      (∀ dir a, w0 / 2 ^ 32 ≠ 0 → y.spnMoveBad k i 0 = some (dir, a) → exec (.spnMove k false) s = .next (y.spnFault k 2 dir a))) ∧
    (s.spnTurn ≠ some k.val → exec (.spnElementDone k at_ given) s = .next s) ∧
    (s.spnState k ≠ 1 ∨ x.work = none → s.spnTurn ≠ some k.val) ∧
    (∀ j, s.spnTurn = some j → j < 64 ∧ s.spnReady j = true ∧
      (s.spnPrio j = false → ∀ h < 64, s.spnReady h = true → s.spnPrio h = false) ∧
      let last := if s.spnPrio j then s.spnTurns.last1 else s.spnTurns.last0
      (last < 64 → ∀ h < 64, h ≠ j → s.spnReady h = true → s.spnPrio h = s.spnPrio j →
        (j + 63 - last) % 64 < (h + 63 - last) % 64)) ∧
    (∀ done, s.spnTurn = some k.val → x.work = some (.move i done) →
      let n := s.spnElement k i done
      let src := s.spnSrc k i done
      (∀ dir a, s.spnMoveBad k i done = some (dir, a) → exec (.spnElementDone k at_ given) s =
        .next ((s.spnServed k).spnFault k 2 dir a)) ∧
      (∀ c, s.spnMoveBad k i done = none → s.spnRead src n at_.isSome given = .error c → exec (.spnElementDone k at_ given) s =
        .next ((s.spnServed k).spnReadFault k src n at_ c)) ∧
      (∀ bs, s.spnMoveBad k i done = none → s.spnRead src n at_.isSome given = .ok bs →
        let z := ((s.spnServed k).readReach src n none).spnAsk src n
        let dst := z.spnDst k i done
        (∀ c, z.spnMayWrite dst n = some c → exec (.spnElementDone k at_ given) s =
          .next ((if c = 3 then z.spnHole (dst + z.reach dst n) else z).spnFault k c 2 dst)) ∧
        (z.spnMayWrite dst n = none → exec (.spnElementDone k at_ given) s =
          .next (let u := (z.spnWrite k dst bs).spnAdvance k i n
            if i.len ≤ done + n then u.spnNext k else u.spnBoundary k (some (.move i (done + n))))))) ∧
    (ready → w0 % 16 = 2 →
      (w0 / 2 ^ 32 = 0 ∨ 0 ≤ signed 32 w1 → exec (.spnLoop k false) s = .next (y.spnFault k 1 0 pc)) ∧
      (w0 / 2 ^ 32 ≠ 0 → signed 32 w1 < 0 →
        (xy.loop lv = none → w0 / 2 ^ 32 = 1 → exec (.spnLoop k false) s = .next (y.spnNext k)) ∧
        (xy.loop lv = none → w0 / 2 ^ 32 ≠ 1 → exec (.spnLoop k false) s =
          .next ((y.setSpnPc k jump).spnGo k 1 (xy.setLoop lv (some ⟨w0 / 2 ^ 32 - 1, pc⟩)))) ∧
        (∀ e, xy.loop lv = some e →
          (e.addr ≠ pc → exec (.spnLoop k false) s = .next (y.spnFault k 1 0 pc)) ∧
          (e.addr = pc → e.count ≤ 1 → exec (.spnLoop k false) s = .next ((y.setSpch k (xy.setLoop lv none)).spnNext k)) ∧
          (e.addr = pc → 1 < e.count → exec (.spnLoop k false) s =
            .next ((y.setSpnPc k jump).spnGo k 1 (xy.setLoop lv (some ⟨e.count - 1, pc⟩))))))) ∧
    (ready → w0 % 16 = 3 →
      (w0 / 16 % 4 = 3 → exec (.spnWait k false) s = .next (y.spnFault k 1 0 pc)) ∧
      (w0 / 16 % 4 ≠ 3 → exec (.spnWait k false) s = .next (y.spnGo k 2 { xy with
        work := some (.wait i y.beats none false)
        asked := y.beats }))) ∧
    (∀ since polled met, s.spnState k = 2 → x.work = some (.wait i since polled met) →
      let holds := (w0 / 16 % 4 = 0 ∧ w1 ≤ s.wt) ∨ (w0 / 16 % 4 = 1 ∧ s.rd (R.SPN_CH_EVENT k) &&& w32 (w0 / 256 % 256) ≠ 0#32) ∨
        (2 ≤ w0 / 16 % 4 ∧ met = true)
      (∀ b, polled = some b → s.beats < b + 16 * max 1 (w0 / 2 ^ 16 % 2 ^ 16) →
        exec (.spnWaitPoll k ue given) s = .next s) ∧
      (∀ bs, polled = none → w0 / 16 % 4 = 2 → met = false → s.spnRead w1 8 ue given = .ok bs →
        exec (.spnWaitPoll k ue given) s = .next (((s.readReach w1 8 none).spnAsk w1 8).setSpch k { x with
          work := some (.wait i since (some s.beats)
            (decide (0 ≤ signed 64 (unsigned 64 ((leNat bs : Int) - (s.spnXcnt k + w2 : Nat))))))
          asked := s.beats + 16 * max 1 (w0 / 2 ^ 16 % 2 ^ 16) })) ∧
      (∀ c, polled = none → w0 / 16 % 4 = 2 → met = false → s.spnRead w1 8 ue given = .error c →
        exec (.spnWaitPoll k ue given) s = .next (s.spnReadFault k w1 8 (if ue then some 0 else none) c)) ∧
      (¬holds → exec (.spnWaitEnd k) s = .next s) ∧
      (holds → exec (.spnWaitEnd k) s = .next (if w0 / 16 % 4 = 1 then
          (s.wr (R.SPN_CH_EVENT k) (s.rd (R.SPN_CH_EVENT k) &&& ~~~(w32 (w0 / 256 % 256)))).spnNext k else s.spnNext k)) ∧
      (w0 / 2 ^ 32 = 0 ∨ s.beats < since + 1024 * (w0 / 2 ^ 32) ∨ holds → exec (.spnWaitTimeout k) s = .next s) ∧
      (w0 / 2 ^ 32 ≠ 0 → since + 1024 * (w0 / 2 ^ 32) ≤ s.beats → ¬holds → ∃ dir a, exec (.spnWaitTimeout k) s =
        .next ((if w0 / 16 % 4 = 2 then s else s.took.took).spnFault k 8 dir a))) ∧
    (ready → w0 % 16 = 4 →
      (w0 / 32 % 2 = 1 → w1 % 32 ≠ 0 → exec (.spnSignal k false) s = .next (y.spnFault k 2 3 w1)) ∧
      (w0 / 32 % 2 = 0 ∨ w1 % 32 = 0 → exec (.spnSignal k false) s = .next (y.spnFlush k i))) ∧
    (let t := s.spnFlush k i
     t.spch k = { x with
        work := some (.signal i)
        asked := s.beats } ∧ t.spnState k = 1 ∧ t.hbm = s.hbm ∧
      s.sameRegs t [R.SPN_CH_STATUS k, R.SPN_CH_CTRL k, R.SPN_STATUS] ∧ (x.touched = [] → t.outs = s.outs) ∧
      ∀ p a, (p, a) ∈ x.touched → s.portWriting p = true → Out.partnerRead p (a % 2 ^ 64) 4 ∈ t.outs) ∧
    (s.spnState k = 1 → x.work = some (.signal i) →
      let behind := s.spnPrio k = false ∧ ((partnerOf w1).bind s.entryTurn).isSome = true
      (x.touched = [] →
        (w0 / 32 % 2 = 0 → exec (.spnSignalFlushed k false) s = .next (s.spnSignalled k i)) ∧
        (w0 / 32 % 2 = 1 → behind → exec (.spnSignalFlushed k false) s = .next s) ∧
        (w0 / 32 % 2 = 1 → ¬behind → s.spnMayWrite w1 32 = none → exec (.spnSignalFlushed k false) s =
          .next ((s.spnWrite k w1 (s.signalBytes k i)).spnSignalled k i)) ∧
        (∀ c, w0 / 32 % 2 = 1 → ¬behind → s.spnMayWrite w1 32 = some c → exec (.spnSignalFlushed k false) s =
          .next ((if c = 3 then s.spnHole (w1 + s.reach w1 32) else s).spnFault k c 3 w1)) ∧
        exec (.completionTimeout k) s = .next s) ∧
      (∀ p a rest, x.touched = (p, a) :: rest → exec (.spnSignalFlushed k true) s = .next (s.spnFault k 5 1 a) ∧
        exec (.completionTimeout k) s = .next (if x.asked + s.cto p ≤ s.beats then s.spnFault k 5 1 a else s))) ∧
    (∀ done, s.spnState k = 1 → x.work = some (.move i done) →
      (∀ p, partnerOf (s.spnSrc k i done) = some p → exec (.completionTimeout k) s =
        .next (if x.asked + s.cto p ≤ s.beats then s.spnFault k 5 1 (s.spnSrc k i done) else s)) ∧
      (partnerOf (s.spnSrc k i done) = none → exec (.completionTimeout k) s = .next s)) ∧
    (∀ since polled met, s.spnState k = 2 → x.work = some (.wait i since polled met) →
      (∀ p, w0 / 16 % 4 = 2 → partnerOf w1 = some p → exec (.completionTimeout k) s =
        .next (if x.asked + s.cto p ≤ s.beats then s.spnFault k 5 1 w1 else s)) ∧
      (w0 / 16 % 4 ≠ 2 ∨ partnerOf w1 = none → exec (.completionTimeout k) s = .next s)) ∧
    (∀ t, t = s.spnSignalled k i →
      t.rd (R.SPN_CH_EVENT (w0 / 2 ^ 32 % 64)) = s.rd (R.SPN_CH_EVENT (w0 / 2 ^ 32 % 64)) ||| w32 (w0 / 2 ^ 40 % 256) ∧
      (w0 / 16 % 2 = 1 → t.bit (if k.val < 32 then R.SPN_SIG_STATUS_LO else R.SPN_SIG_STATUS_HI) (k.val % 32) = true) ∧
      t.rd (R.SPN_CH_SIG_WT_LO k) = lo32 s.wt ∧ t.rd (R.SPN_CH_SIG_WT_HI k) = hi32 s.wt)

/-- R299, R306, R320 and R321. -/
def Obligations.TransfersKeepPages : Prop :=
  (∀ (s : State) (p addr : Nat) (bytes : List (BitVec 8)), ∃ ws : List (List (BitVec 8)),
    ws.foldl (fun b x => b ++ x) [] = bytes ∧
    (s.partnerPut p addr bytes (bytes.length + 1)).outs =
      ((List.range ws.length).map (fun i => Out.partnerWrite p ((addr + ((ws.take i).map List.length).sum) % 2 ^ 64)
        (ws.getD i []))).reverse ++ s.outs ∧
    ∀ i < ws.length, 1 ≤ (ws.getD i []).length ∧ (ws.getD i []).length ≤ min 512 (128 * 2 ^ s.fget (R.HNS_PORT_STATUS p) F.HNS_PORT_STATUS_MPS) ∧
      (addr + ((ws.take i).map List.length).sum) % 4096 + (ws.getD i []).length ≤ 4096) ∧
  (∀ (s : State) (k : Fin 64) (i : SpnIns) (done : Nat), done < i.len →
    let n := s.spnElement k i done
    1 ≤ n ∧ n ≤ 4096 ∧ done + n ≤ i.len ∧ s.spnSrc k i done % 4096 + n ≤ 4096 ∧ s.spnDst k i done % 4096 + n ≤ 4096 ∧
    (i.sCirc = true → s.spnSptr k < 2 ^ s.spnSlen k → s.spnSptr k + n ≤ 2 ^ s.spnSlen k) ∧
    (i.dCirc = true → s.spnDptr k < 2 ^ s.spnDlen k → s.spnDptr k + n ≤ 2 ^ s.spnDlen k) ∧
    (let t := s.spnAdvance k i n
     t.spnXcnt k = (s.spnXcnt k + n) % 2 ^ 64 ∧
      (i.sCirc = true → s.spnSlen k ≤ 40 → t.spnSptr k = (s.spnSptr k + n) % 2 ^ s.spnSlen k) ∧
      (i.dCirc = true → s.spnDlen k ≤ 40 → t.spnDptr k = (s.spnDptr k + n) % 2 ^ s.spnDlen k))) ∧
  (∀ (s : State) (p : Fin 4) (r : Fin 16) (hi : BitVec 32), s.ringRd p r ≤ s.ringWr p r →
    ∀ t, t = s.ringRdWrite p r hi → s.ringRd p r ≤ t.ringRd p r ∧ t.ringRd p r ≤ t.ringWr p r ∧ t.ringWr p r = s.ringWr p r)

/-- RELOCK, CYCLE_SLIP, REFIN_QUALIFY_TIMEOUT, RELOCK_LOCK_DETECT, RELOCK_RESTART, REFIN_LOST, HOLDOVER_LIMIT,
REFIN_QUALIFIED, SNAP_RESTART, SLEW_DONE and REF_FREQ_BAD (R332 to R342). The model's readings: entries 103 to 108. -/
def Obligations.RelocksAndHoldover : Prop :=
  ∀ (s : State) (ppb error : Int),
    let c := s.clk
    let held := s.flag R.STP_STATUS F.STP_STATUS_HOLDOVER
    let limit := (s.rd R.STP_HOLD_LIMIT).toNat % 2 ^ 16
    let ms := 1200000
    let refin := s.flag R.STP_CFG F.STP_CFG_REF_SEL
    let lost := s.foff R.STP_STATUS F.STP_STATUS_REF_QUAL
    let shown := s.wr R.STP_REF_PPB (w32 (unsigned 32 ppb))
    let seen := (s.refMeasured ppb).fon R.STP_STATUS F.STP_STATUS_REF_QUAL
    let bad := held = true ∧ s.flag R.STP_STATUS F.STP_STATUS_REF_QUAL = false
    let onRefin := s.flag R.STP_STATUS F.STP_STATUS_ON_REFIN
    let slewing := s.flag R.STP_STATUS F.STP_STATUS_SLEWING
    let phase := seen.fset R.STP_PHASE ⟨0, 16⟩ (unsigned 16 (phaseIn error))
    (s.atRest = false → exec .relock s = .next (s.raise vSTP siCmdRefused)) ∧
    (s.atRest = true →
      (c.stage ≠ 0 → exec .relock s = .next (s.again R.STP_CTRL 0)) ∧
      (c.stage = 0 → exec .relock s = .next ((s.fon R.STP_CTRL F.STP_CTRL_RELOCK).relockStart refin))) ∧
    (∀ (x : State) b t, t = x.relockStart b →
      t.clk.since = x.beats ∧ t.clk.toRefin = b ∧ t.clk.stopWt = x.wt256 ∧ t.now = x.now ∧
      (b = true → x.flag R.STP_STATUS F.STP_STATUS_REF_QUAL = false → t.clk.stage = 1) ∧
      (b = false ∨ x.flag R.STP_STATUS F.STP_STATUS_REF_QUAL = true → t.clk.stage = 2) ∧
      t.flag R.STP_STATUS F.STP_STATUS_LOCKED = false ∧ t.flag R.STP_STATUS F.STP_STATUS_RELOCKING = true ∧
      t.flag R.STP_STATUS F.STP_STATUS_HOLDOVER = false ∧
      ∀ p < 24, t.flag (R.LNK_STATUS p) F.LNK_STATUS_ALIGNED = false) ∧
    (c.stage ≠ 0 → exec .cycleSlip s = .next s) ∧
    (c.stage = 0 → s.atRest = true →
      exec .cycleSlip s = .next (if held then ((s.raise vSTP siUnlock).refFail).relockStart false
        else (s.raise vSTP siUnlock).relockStart refin)) ∧
    (c.stage = 0 → s.atRest = false → ∃ t, exec .cycleSlip s = .next t ∧ t.clk.since = s.beats ∧
      (s.runState = rsRunning → s.softStopNow = none → t.runState = rsStopping) ∧ t.flag R.STP_STATUS F.STP_STATUS_RELOCKING = true) ∧
    (c.stage = 1 → c.since + 10 * ms ≤ s.beats → exec .refinQualifyTimeout s = .next (((s.setClk { c with
      stage := 2
      since := s.beats
      toRefin := false }).fon R.STP_STATUS F.STP_STATUS_REF_FAIL).raise vSTP siRefFail)) ∧
    (c.stage ≠ 1 ∨ s.beats < c.since + 10 * ms → exec .refinQualifyTimeout s = .next s) ∧
    (c.stage ≠ 2 → exec .relockLockDetect s = .next s) ∧
    (c.stage = 2 → ∃ t, exec .relockLockDetect s = .next t ∧ t.clk = { c with
        stage := 3
        since := s.beats
        freqs := if c.toRefin then [(s.beats, signed 32 (s.rd R.STP_REF_PPB).toNat)] else [] } ∧
      t.flag R.STP_STATUS F.STP_STATUS_LOCKED = true ∧
      t.flag R.STP_STATUS F.STP_STATUS_ON_REFIN = c.toRefin ∧
      (c.toRefin = true → t.flag R.STP_STATUS F.STP_STATUS_REF_FAIL = false) ∧
      s.sameRegs t ([R.STP_STATUS, R.STP_PHASE] ++ raiseRegs vSTP)) ∧
    (c.stage ≠ 3 ∨ s.beats < c.since + 122880 → exec .relockRestart s = .next s) ∧
    (c.stage = 3 → c.since + 122880 ≤ s.beats → exec .relockRestart s = .next s.relockEnd ∧ s.relockEnd.clk.stage = 0 ∧
      s.relockEnd.now = s.now ∧ s.relockEnd.flag R.STP_STATUS F.STP_STATUS_RELOCKING = false ∧
      (s.nowFrac < 256 → s.relockEnd.pair R.WRP_STEP_AFTER_LO R.WRP_STEP_AFTER_HI = s.wt) ∧
      (s.relockEnd.rd R.WRP_STEP_INFO).toNat / 65536 = 3) ∧
    (c.stage = 2 → c.toRefin = true → exec (.refinLost none) s = .next (lost.setClk { c with
      stage := 1
      since := s.beats })) ∧
    (c.stage = 0 ∨ c.stage = 3 → onRefin = true → held = false ∨ slewing = true →
      ∃ t, exec (.refinLost none) s = .next t ∧ t.clk = { c with
          holdSince := s.beats
          holdLogged := false
          holdPpb := t.clk.holdPpb
          freqs := [(s.beats, t.clk.holdPpb)] } ∧
        t.flag R.STP_STATUS F.STP_STATUS_HOLDOVER = true ∧ t.flag R.STP_STATUS F.STP_STATUS_REF_QUAL = false ∧
        t.flag R.STP_STATUS F.STP_STATUS_LOCKED = false ∧ t.flag R.STP_STATUS F.STP_STATUS_SLEWING = false ∧
        t.flag R.STP_INT_STATUS F.STP_INT_STATUS_HOLDOVER_ON = true ∧ t.now = s.now ∧
        (slewing = false → ∀ b x, c.freqs = [(b, x)] → (t.clk.holdPpb - x).natAbs ≤ 20)) ∧
    (onRefin = false ∨ (held = true ∧ slewing = false) → c.stage = 0 ∨ c.stage = 3 →
      exec (.refinLost none) s = .next lost) ∧
    (exec (.refinLost (some ppb)) s =
      if s.refWindow ppb then .next (s.refMeasured ppb) else exec (.refinLost none) shown) ∧
    ((onRefin = false ∨ s.flag R.STP_STATUS F.STP_STATUS_LOCKED = false → s.refMeasured ppb = shown) ∧
      (onRefin = true → s.flag R.STP_STATUS F.STP_STATUS_LOCKED = true → ∃ before,
        s.refMeasured ppb = shown.setClk { c with freqs := (s.beats, ppb) :: before } ∧ before <+: c.freqs ∧
        ∀ e ∈ c.freqs.takeWhile (fun e => decide (s.beats < e.1 + 16 * ms)), e ∈ before)) ∧
    (held = false ∨ limit = 0 ∨ c.holdLogged = true ∨ s.beats ≤ c.holdSince + limit * 1000 * ms →
      exec .holdoverLimit s = .next s) ∧
    (held = true → limit ≠ 0 → c.holdLogged = false → c.holdSince + limit * 1000 * ms < s.beats →
      (s.flag R.STP_CFG F.STP_CFG_HOLD_STOPS = true ∧ (s.runState = rsArmed ∨ s.runState = rsRunning) →
        ∃ code, exec .holdoverLimit s =
          .next ((((s.setClk { c with holdLogged := true }).took).log vSTP code sevFatal 0 0 0).fatalStop)) ∧
      (¬(s.flag R.STP_CFG F.STP_CFG_HOLD_STOPS = true ∧ (s.runState = rsArmed ∨ s.runState = rsRunning)) →
        ∃ code, exec .holdoverLimit s =
          .next (((s.setClk { c with holdLogged := true }).took).log vSTP code sevError 0 0 0))) ∧
    (s.refWindow ppb = false → exec (.refinQualified ppb error) s = exec (.refFreqBad ppb) s) ∧
    (s.refWindow ppb = true → c.stage = 1 → exec (.refinQualified ppb error) s = .next (seen.setClk { seen.clk with
      stage := 2
      since := s.beats })) ∧
    (s.refWindow ppb = true → c.stage ≠ 1 → held = false ∨ c.snap ≠ none ∨ slewing = true →
      exec (.refinQualified ppb error) s = .next seen) ∧
    (s.refWindow ppb = true → c.stage ≠ 1 → held = true → c.snap = none → slewing = false →
      exec (.refinQualified ppb error) s = .next (if s.flag R.STP_CFG F.STP_CFG_RECOVER then phase.setClk { phase.clk with
          snap := some (phaseIn error)
          phases := [] }
        else phase.fon R.STP_STATUS F.STP_STATUS_SLEWING)) ∧
    (-3840 < phaseIn error ∧ phaseIn error ≤ 3840 ∧ (phaseIn error - error) % 7680 = 0) ∧
    (c.snap = none → exec .snapRestart s = .next s) ∧
    (∀ e, c.snap = some e → ∃ t, exec .snapRestart s = .next t ∧ t.wt256 = unsigned 72 ((s.wt256 : Int) - e) ∧
      t.clk.snap = none ∧ t.flag R.STP_INT_STATUS F.STP_INT_STATUS_SNAP = true) ∧
    (slewing = false → exec .slewDone s = .next s) ∧
    (slewing = true → ∃ t, exec .slewDone s = .next t ∧ t.now = s.now ∧
      t.flag R.STP_STATUS F.STP_STATUS_SLEWING = false ∧ t.flag R.STP_STATUS F.STP_STATUS_HOLDOVER = false ∧
      t.flag R.STP_STATUS F.STP_STATUS_LOCKED = true ∧ s.sameRegs t ([R.STP_STATUS, R.STP_PHASE] ++ raiseRegs vSTP)) ∧
    (s.refWindow ppb = false → bad → ∃ code, exec (.refFreqBad ppb) s =
      .next (((shown.fon R.STP_STATUS F.STP_STATUS_REF_FREQ_BAD).took).log vSTP code sevWarning 0 0 0)) ∧
    (s.refWindow ppb = false → ¬bad → exec (.refFreqBad ppb) s = .next shown) ∧
    (s.refWindow ppb = true → exec (.refFreqBad ppb) s = .next (s.refMeasured ppb))

/-- SYNC_EVENT, SYNC_ACTION, SYNC_ARM, WARP_LOAD and WARP_LOAD_APPLY (R341, R346 to R351). The model's readings: entries 109
to 114 and 241. Then the outputs (R343 to R345, R347; entry 264).
HFB_EDGE, HFB_DLL_LOCK, DLL_UNLOCK, HFB_CAL and HFB_CAL_DONE (R352 to R357). The model's readings: entries 115, 116, 266 and
267. -/
def Obligations.SyncLoadAndHoofbeat : Prop :=
  (∀ (s : State),
    let c := s.clk
    let lat := max 4 (s.fget R.STP_SYNC_CFG F.STP_SYNC_CFG_LAT)
    let armed := s.flag R.STP_CTRL F.STP_CTRL_SYNC_ARM
    let oneshot := s.flag R.STP_SYNC_CFG F.STP_SYNC_CFG_ONESHOT
    let pre := s.pair R.WRP_PRELOAD_LO R.WRP_PRELOAD_HI
    let refused := (s.atRest = false ∧ s.flag R.WRP_CFG F.WRP_CFG_RUN_STEP = false) ∨
      ∃ w ∈ c.syncs, w.beat = s.beats + 2 ∧ w.wrpAct = 2
    exec .syncArm s = .next (s.fon R.STP_CTRL F.STP_CTRL_SYNC_ARM) ∧
    (s.bankLost 4 = true → exec .syncEvent s = .next s) ∧
    (s.bankLost 4 = false →
      (oneshot = false ∨ armed = true → exec .syncEvent s = .next ((s.foff R.STP_CTRL F.STP_CTRL_SYNC_ARM).setClk { c with
        syncs := c.syncs ++ [⟨s.beats + 30 * lat, s.fget R.STP_SYNC_CFG F.STP_SYNC_CFG_DIV_ACT,
          s.fget R.STP_SYNC_CFG F.STP_SYNC_CFG_WRP_ACT⟩] })) ∧
      (oneshot = true → armed = false → exec .syncEvent s = .next ((s.foff R.STP_CTRL F.STP_CTRL_SYNC_ARM).setClk { c with
        syncs := c.syncs ++ [⟨s.beats + 30 * lat, 0, 0⟩] }))) ∧
    (c.syncs = [] → exec .syncAction s = .next s) ∧
    (∀ w rest, c.syncs = w :: rest →
      (s.beats < w.beat → exec .syncAction s = .next s) ∧
      (w.beat ≤ s.beats → c.snap = none → exec .syncAction s = .next (State.syncWarp (State.syncDiv
        (((s.setClk { c with syncs := rest }).setPair R.WRP_SYNC_WT_LO R.WRP_SYNC_WT_HI s.wt).raise vWRP wiSync)
        w.divAct) w.wrpAct)) ∧
      (∀ e, w.beat ≤ s.beats → c.snap = some e → w.wrpAct = 0 → ∃ t, exec .syncAction s = .next t ∧
        t.pair R.WRP_SYNC_WT_LO R.WRP_SYNC_WT_HI = unsigned 72 ((s.wt256 : Int) - e) / 256 ∧ t.clk.syncs = rest)) ∧
    (s.syncDiv 0 = s ∧ s.syncWarp 0 = s) ∧
    (s.atRest = true ∨ s.flag R.WRP_CFG F.WRP_CFG_RUN_STEP = true → s.syncWarp 2 = s.warpStep wkSync (pre * 256)) ∧
    (s.atRest = false → s.flag R.WRP_CFG F.WRP_CFG_RUN_STEP = false → s.syncWarp 2 = s.syncRefuse.syncWarp 1) ∧
    (s.atRest = false → s.syncDiv 2 = s.syncOuts.foldl (fun x i => x.checkOut i) s.syncRefuse) ∧
    (s.atRest = true →
      s.syncDiv 2 = (s.syncOuts.foldl (fun x i => x.applyOut i) s).unalign) ∧
    (let t := s.syncWarp 1
     t.pair R.WRP_SYNC_DIFF_LO R.WRP_SYNC_DIFF_HI = unsigned 64 ((pre : Int) - s.wt) ∧ t.now = s.now ∧
      s.sameRegs t ([R.WRP_SYNC_DIFF_LO, R.WRP_SYNC_DIFF_HI] ++ raiseRegs vWRP)) ∧
    (∀ i < 8, let t := s.applyOut i
      t.bit R.STP_OUT_STATUS i = false ∧ Tab.get (fun _ => none) t.clk.phases i = some s.beats ∧
        s.sameRegs t [R.STP_OUT_STATUS]) ∧
    (refused → exec .warpLoad s = .next (s.raise vWRP wiRefused)) ∧
    (¬refused → c.load ≠ none → exec .warpLoad s = .next (s.again R.WRP_CTRL 0)) ∧
    (¬refused → c.load = none →
      exec .warpLoad s = .next ((s.fon R.WRP_CTRL F.WRP_CTRL_LOAD).setClk { c with load := some (pre, s.beats + 2) })) ∧
    (c.load = none → exec .warpLoadApply s = .next s) ∧
    (∀ v b, c.load = some (v, b) →
      (s.beats < b → exec .warpLoadApply s = .next s) ∧
      (b ≤ s.beats → v < 2 ^ 64 → ∃ t, exec .warpLoadApply s = .next t ∧ t.wt = v ∧ t.nowFrac = 0 ∧ t.clk.load = none ∧
        t.flag R.WRP_CTRL F.WRP_CTRL_LOAD = false))) ∧
  (∀ (s : State) (i : Fin 8),
    let cfg := R.STP_OUT_CFG i
    let div := if s.fget cfg F.STP_OUT_CFG_DIV = 0 then 4096 else s.fget cfg F.STP_OUT_CFG_DIV
    let depth := s.fget cfg F.STP_OUT_CFG_DEPTH
    let hz := (s.rd (R.STP_OUT_FREQ i)).toNat
    let rise := 8 * min (s.fget (R.STP_OUT_PHASE i) F.STP_OUT_PHASE_COARSE) (div - 1) +
      s.fget (R.STP_OUT_PHASE i) F.STP_OUT_PHASE_FINE
    let driven := s.flag cfg F.STP_OUT_CFG_EN = true ∧ s.bit R.STP_OUT_STATUS (16 + i) = false
    let held := s.clk.stage ≠ 0 ∨ s.clk.snap ≠ none ∨ (s.atRest = true ∧ i.val ∈ s.syncOuts ∧
      ∃ w ∈ s.clk.syncs, w.divAct = 2 ∧ w.beat ≤ s.beats + 8)
    (¬driven ∨ held → s.clkOut i = .low ∧ ∀ e, s.outLevel i e = some false) ∧
    (driven → ¬held → s.flag cfg F.STP_OUT_CFG_MODE = false → s.clkOut i = .divided (8 * div) rise ∧
      (∀ b e, Tab.get (fun _ => none) s.clk.phases i = some b → b ≤ s.beats →
        let t := 64 * (s.beats - b) + e
        (t < rise → s.outLevel i e = some false) ∧
        ∀ q o, t = rise + 8 * div * q + o → o < 8 * div → s.outLevel i e = some (decide (o < 4 * div)))) ∧
    (driven → ¬held → s.flag cfg F.STP_OUT_CFG_MODE = true → 10000000 ≤ hz → hz ≤ 800000000 →
      (s.fget cfg F.STP_OUT_CFG_SPREAD = 0 → s.clkOut i = .synth hz 0 0) ∧
      (s.fget cfg F.STP_OUT_CFG_SPREAD = 1 → s.clkOut i = .synth hz (2 * depth) 0) ∧
      (s.fget cfg F.STP_OUT_CFG_SPREAD = 2 → s.clkOut i = .synth hz depth depth))) ∧
  (∀ (s : State) (i : Fin 32) (falling : Bool) (tap : Fin 256),
    let cfg := R.HFB_IN_CFG i
    let x := s.hfbIn i
    let edge := s.fget cfg F.HFB_IN_CFG_EDGE
    let picked := edge = 2 ∨ edge = (if falling then 1 else 0)
    let used := s.bankLost (i.val / 8) = false ∧ s.hfbOn i = true ∧ s.flag R.HFB_STATUS F.HFB_STATUS_ENABLE = true ∧
      s.runState = rsRunning ∧ picked ∧ s.clk.stage = 0
    let weight := if s.flag cfg F.HFB_IN_CFG_PS_EN then 2 ^ s.fget cfg F.HFB_IN_CFG_PS else 1
    let through := used ∧ weight ≤ x.scaled + 1
    let x0 : HfbIn := { x with scaled := 0 }
    let counted := (s.setHfbIn i x0).count (R.HFB_EDGE_CNT i) weight
    let group := 2 ^ s.fget cfg F.HFB_IN_CFG_DECIM
    let now := s.beats * 256 + (s.hfbFraction i tap).1
    (¬used → exec (.hfbEdge i falling tap) s = .next s) ∧
    (used → x.scaled + 1 < weight →
      exec (.hfbEdge i falling tap) s = .next (s.setHfbIn i { x with scaled := x.scaled + 1 })) ∧
    (through → x.skipped + 1 < group →
      exec (.hfbEdge i falling tap) s = .next (counted.setHfbIn i { x0 with skipped := x.skipped + 1 })) ∧
    (∀ b, through → group ≤ x.skipped + 1 → x.lastAt = some b → now < b + 1024 → exec (.hfbEdge i falling tap) s =
      .next (((counted.setHfbIn i { x0 with skipped := 0 }).setHfbIn i { x0 with
        skipped := 0
        deadBefore := true }).count (R.HFB_DEAD_CNT i) 1)) ∧
    (∀ b, through → group ≤ x.skipped + 1 → x.lastAt = some b → b + 1024 ≤ now → exec (.hfbEdge i falling tap) s =
      .next ((counted.setHfbIn i { x0 with skipped := 0 }).stamp i falling tap)) ∧
    (through → group ≤ x.skipped + 1 → x.lastAt = none → exec (.hfbEdge i falling tap) s =
      .next ((counted.setHfbIn i { x0 with skipped := 0 }).stamp i falling tap)) ∧
    (∀ f, (s.bit R.HFB_DLL_LOCK i = true → s.stampTime i f = (s.wt256 : Int) + f - signed 16 (s.fget (R.HFB_DLY i) F.HFB_DLY_DLY)) ∧
      (s.bit R.HFB_DLL_LOCK i = false → s.stampTime i f % 256 = 0)) ∧
    (∀ t, t = s.stamp i falling tap → (t.hfbIn i).lastAt = some now ∧ (t.hfbIn i).deadBefore = false ∧
      (t.hfbIn i).warpStep = false ∧ (t.rd (R.HFB_STAMP_CNT i)) = s.rd (R.HFB_STAMP_CNT i) + 1#32 ∧
      (s.flag cfg F.HFB_IN_CFG_REC = true → (s.side (8 + i)).quill.length < 4096 →
        (t.side (8 + i)).quill.length = (s.side (8 + i)).quill.length + 1 ∧ (t.hfbIn i).dropBefore = false) ∧
      (s.flag cfg F.HFB_IN_CFG_REC = true → 4096 ≤ (s.side (8 + i)).quill.length →
        (t.side (8 + i)).quill = (s.side (8 + i)).quill ∧
        ∃ e, (t.turn (qnSide (8 + i)) (s.side (8 + i)).quill.length).refused =
          (s.turn (qnSide (8 + i)) (s.side (8 + i)).quill.length).refused ++ [.entry e]) ∧
      (s.flag cfg F.HFB_IN_CFG_REC = false → t.recs = s.recs)) ∧
    (∀ t, t = s.stampRefusal i → (t.hfbIn i).dropBefore = true ∧ (t.side (8 + i)).quill = (s.side (8 + i)).quill ∧
      t.rd (R.HFB_DROP_CNT i) = s.rd (R.HFB_DROP_CNT i) + 1#32 ∧ t.flag R.HFB_INT_STATUS F.HFB_INT_STATUS_DROP = true) ∧
    exec (.hfbDllLock i) s = .next (s.bitOn R.HFB_DLL_LOCK i).hfbReady ∧
    (s.bit R.HFB_DLL_LOCK i = false → exec (.dllUnlock i) s = .next s) ∧
    (s.bit R.HFB_DLL_LOCK i = true →
      exec (.dllUnlock i) s = .next ((s.bitOff R.HFB_DLL_LOCK i).raise vHFB hiUnlock).hfbReady) ∧
    (s.hfbReady.flag R.HFB_STATUS F.HFB_STATUS_READY = true ↔
      ∀ j < 32, s.hfbOn j = true → s.bit R.HFB_DLL_LOCK j = true) ∧
    (s.flag R.HFB_STATUS F.HFB_STATUS_CALIBRATING = true → exec .hfbCal s = .next (s.again R.HFB_CTRL 0)) ∧
    (s.flag R.HFB_STATUS F.HFB_STATUS_CALIBRATING = false →
      (s.atRest = true → exec .hfbCal s = .next (s.fon R.HFB_CTRL F.HFB_CTRL_CAL).hfbCalStart) ∧
      (s.atRest = false → exec .hfbCal s =
        .next ((s.fon R.HFB_CTRL F.HFB_CTRL_CAL).fon R.HFB_STATUS F.HFB_STATUS_CAL_PENDING)) ∧
      ∀ tables, exec (.hfbCalDone tables) s = .next s) ∧
    (∀ table, s.flag R.HFB_STATUS F.HFB_STATUS_CALIBRATING = true → s.hfb.calibrating = [i.val] → table.length = 256 →
      ∃ t, exec (.hfbCalDone [table]) s = .next t ∧ (t.hfbIn i).table = table.map (fun v => v.toNat) ∧
        (t.hfbIn i).inForce = x.inForce ∧ t.bit R.HFB_CAL_VALID i = true ∧
        t.flag R.HFB_STATUS F.HFB_STATUS_CALIBRATING = false ∧ t.flag R.HFB_CTRL F.HFB_CTRL_CAL = false ∧
        s.sameRegs t ([R.HFB_CAL_VALID, R.HFB_STATUS, R.HFB_CTRL] ++ raiseRegs vHFB)))

/-- R50, R76 and R351. -/
def Obligations.StepsMoveAlike : Prop :=
  ∀ (s : State) (kind after : Nat), kind < 8 → after < 2 ^ 72 → s.nowFrac < 256 →
    let d : Int := (after : Int) - s.wt256
    ∀ t, t = s.warpStep kind after →
      t.wt256 = after ∧ t.beats = s.beats ∧ t.hbm = s.hbm ∧
      (∀ p < 24, ∀ l < 8, (t.cch (8 * p + l)).store.map (fun y => y.stamp) =
        (s.cch (8 * p + l)).store.map (fun y => y.stamp + d)) ∧
      (∀ p < 24, t.place p = (s.setPlace p (s.place p + d)).place p) ∧
      (∀ i < 32, (t.hfbIn i).warpStep = true ∧ (t.hfbIn i).lastAt = (s.hfbIn i).lastAt) ∧
      (∀ ch < 192, s.ringOn ch = true → (t.ring ch).brk = true) ∧
      t.pair R.WRP_STEP_BEFORE_LO R.WRP_STEP_BEFORE_HI = s.wt ∧ t.pair R.WRP_STEP_AFTER_LO R.WRP_STEP_AFTER_HI = after / 256 ∧
      t.rd R.WRP_STEP_INFO = w32 (s.nowFrac + 256 * (after % 256) + 65536 * kind) ∧
      t.rd R.WRP_STEP_CNT = s.rd R.WRP_STEP_CNT + 1#32 ∧ t.flag R.WRP_INT_STATUS F.WRP_INT_STATUS_STEP = true

/-- REGISTER_WRITE, ALIAS_WRITE, SH_LOW_READ, HITCH_READ, HITCH_HBM_ACCESS, HITCH_RETRY_REISSUE, HITCH_RESERVED_TYPE and
JOURNAL_ENTRY (R363, R365, R367, R368, R371, R375 to R378, R380, R420). The model's readings: entries 118 to 134, 242, 247 and
268. -/
def Obligations.HitchAccesses : Prop :=
  ∀ (s : State) (src : Src) (tag size : Nat) (addr : BitVec 48) (o : BitVec 29) (data : BitVec 64) (be code : BitVec 8)
      (bytes : Option (List (BitVec 8))) (ecc : Ecc),
    let toHbm : HitchReq := ⟨src, tag % 1024, bytes.isSome, size, addr.toNat, leNat (bytes.getD []), .clean,
      enabledBytes be (fit size (bytes.getD []))⟩
    (exec (.registerWrite src tag addr size data) s = .next (s.hitch_ ⟨src, tag, true, size, addr.toNat, data.toNat, .clean, []⟩) ∧
      exec (.aliasWrite src tag o size data) s =
        .next (s.hitch_ ⟨src, tag, true, size, 0x1000000000 + o.toNat, data.toNat, .clean, []⟩) ∧
      exec (.shLowRead src tag addr false) s = .next (s.hitch_ ⟨src, tag, false, 4, addr.toNat, 0, .clean, []⟩) ∧
      exec (.shLowRead src tag addr true) s = .next (s.hitch_ ⟨src, tag, false, 8, addr.toNat, 0, .clean, []⟩) ∧
      exec (.hitchRead src tag addr ⟨size, ecc⟩) s = .next (s.hitch_ ⟨src, tag, false, size, addr.toNat, 0, ecc, []⟩) ∧
      exec (.hitchHbmAccess src tag addr size be bytes) s = .next (s.hitch_ toHbm)) ∧
    (∀ q : HitchReq, 0x2000000000 ≤ q.addr ∧ q.addr < 0x4000000000 ∨ 2 ^ 48 ≤ q.addr → s.hitch_ q = s) ∧
    (∀ q : HitchReq, notForwarded q.addr = false →
      (s.hitch.linkLost = true → s.hitch_ q = s.emit (.completion q.tag .busErr [])) ∧
      (s.hitch.linkLost = false →
        (s.mustWait q = true → s.hitch_ q = { s with hitch := { s.hitch with held := s.hitch.held ++ [q] } }) ∧
        (s.mustWait q = false → hbmOffset q.addr = none → s.hitch_ q = s.hitchAnswer q 0))) ∧
    (∀ q : HitchReq,
      ((∃ r ∈ s.hitch.retries, r.req.src = q.src ∧ (r.req.write = true ∨ hbmOffset q.addr = none)) → s.mustWait q = true) ∧
      ((∃ h ∈ s.hitch.held, h.src = q.src) → s.mustWait q = true) ∧
      ((∃ t ∈ s.hitch.retries.map (fun r => r.req.tag) ++ s.hitch.held.map (fun h => h.tag) ++ s.hitchPending,
        t % 1024 = q.tag % 1024) → s.mustWait q = true) ∧
      (s.hitch.modulesUp = 0 → 2 < s.bootStage → s.mustWait q = true) ∧
      (s.verdict q = .perform → q.write = true → (memWindow q.addr).isNone = true →
        240 < s.brd.chain.length + (accessWords q.addr q.size).length → s.mustWait q = true) ∧
      (∀ e, s.verdict q = .perform → q.write = true → placeOf (q.addr / 4 * 4) = .palette e → s.pnl.palCopy = true →
        s.mustWait q = true) ∧
      (s.hitch.retries = [] → s.hitch.held = [] → (∀ e ∈ s.bob.pcs, ∀ r ∈ e.2.queue, r.who ≠ .hitch) → s.pnl.palCopy = false →
        s.dict.waiting = [] → s.hitch.modulesUp ≠ 0 → s.brd.chain.length + s.entriesOf q ≤ 240 → s.mustWait q = false) ∧
      s.entriesOf q ≤ 3) ∧
    (∀ v, s.pwr.brownout ≠ none → s.flag R.BRD_CMD F.BRD_CMD_GO = false → s.testedUnit R.BRD_CMD = none → src.secure = true →
      v / 256 % 2 = 1 → fieldOf (w32 v) F.BRD_CMD_CODE ∈ keyOps →
      s.verdict ⟨src, tag, true, 4, R.BRD_CMD, v, .clean, []⟩ = .busy) ∧
    (∀ (q : HitchReq) (n : Nat),
      (∀ kind, s.verdict q = .error kind → s.hitchAnswer q n =
        ((s.winAccess (srcCode q.src) q.addr none).busErr q.src kind q.write q.addr (inAlias q.addr)).emit
          (.completion q.tag (if kind = 1 then .decodeErr else .busErr) [])) ∧
      (∀ u, s.verdict q = .retry u → Tab.get (fun _ => 0) (s.hitchAnswer q n).pdk.retries u =
        Tab.get (fun _ => 0) s.pdk.retries u + 1) ∧
      (s.verdict q = .update → (s.hitchAnswer q n).pwr.updRetries = s.pwr.updRetries + 1) ∧
      (∀ t, (s.verdict q).again = true → t = s.hitchAnswer q n → t.regs = s.regs ∧ t.hbm = s.hbm ∧
        (n < 16 → t.hitch.retries = s.hitch.retries ++ [⟨q, n, s.beats⟩] ∧
          t.outs = .completion q.tag .retry [] :: s.outs) ∧
        (16 ≤ n → t.hitch = s.hitch ∧ t.outs = .bridgeError q.tag :: .completion q.tag .retry [] :: s.outs)) ∧
      (s.verdict q = .perform → q.write = true → s.hitchAnswer q n =
        (s.writeWords q.src ⟨srcCode q.src, 0⟩ (accessWords q.addr q.size) q.data).emit (.completion q.tag .ok [])) ∧
      (s.verdict q = .perform → q.write = false → 4 ≤ q.size →
        let r := s.readWords q.src ⟨srcCode q.src, 0⟩ q.ecc (accessWords q.addr q.size)
        s.hitchAnswer q n = if r.2.2 then (r.1.busErr q.src 0 false q.addr (inAlias q.addr)).emit (.completion q.tag .busErr r.2.1)
          else r.1.emit (.completion q.tag .ok r.2.1)) ∧
      (s.verdict q = .perform → q.write = false → q.size < 4 →
        let r := (s.winAccess (srcCode q.src) q.addr none).laneCheck q
        let v := [s.laneRead q.src q.addr q.size]
        s.hitchAnswer q n = if r.2 then (r.1.busErr q.src 0 false q.addr (inAlias q.addr)).emit (.completion q.tag .busErr v)
          else r.1.emit (.completion q.tag .ok v))) ∧
    (∀ (kind : Nat) (write al : Bool) (a : Nat), a < 2 ^ 64 → ∀ t, t = s.busErr src kind write a al →
      t.pair R.GLB_BUSERR_ADDR_LO R.GLB_BUSERR_ADDR_HI = a ∧ t.rd R.GLB_BUSERR_CNT = s.rd R.GLB_BUSERR_CNT + 1#32 ∧
      t.flag R.GLB_INT_STATUS F.GLB_INT_STATUS_BUS_ERR = true ∧
      s.sameRegs t ([R.GLB_BUSERR_ADDR_LO, R.GLB_BUSERR_ADDR_HI, R.GLB_BUSERR_INFO, R.GLB_BUSERR_CNT] ++ raiseRegs vGLB)) ∧
    (∀ off, notForwarded addr.toNat = false → s.hitch.linkLost = false → s.mustWait toHbm = false →
      hbmOffset addr.toNat = some off → ∀ x, x = s.winAccess (srcCode src) addr.toNat none →
        (size < 4 ∨ 256 < size ∨ size % 4 ≠ 0 ∨ off % 4 ≠ 0 ∨ 256 < off % 256 + size →
          exec (.hitchHbmAccess src tag addr size be bytes) s =
            .next ((x.busErr src 2 bytes.isSome addr.toNat false).emit (.completion (tag % 1024) .busErr []))) ∧
        (4 ≤ size → size ≤ 256 → size % 4 = 0 → off % 4 = 0 → off % 256 + size ≤ 256 →
          let id := hitchId src (tag % 1024)
          (x.hbmUnit off = none → exec (.hitchHbmAccess src tag addr size be bytes) s =
            .next ((x.holeAccess off).hbmBusErr id bytes.isSome off)) ∧
          (∀ k w, x.hbmUnit off = some (k, w) →
            (bytes = none → exec (.hitchHbmAccess src tag addr size be bytes) s = .next ((x.setPc k { x.pc k with
              queue := (x.pc k).queue ++ [⟨.hitch, classOf .hitch, false, off, size, w, [], id, x.beats, none⟩] }).stackTouch
                (k / 32))) ∧
            (∀ bs, bytes = some bs → exec (.hitchHbmAccess src tag addr size be bytes) s = .next ((x.setPc k { x.pc k with
              queue := (x.pc k).queue ++ [⟨.hitch, classOf .hitch, true, off, size, w, enabledBytes be (fit size bs),
                id, x.beats, none⟩] }).stackTouch (k / 32)))))) ∧
    (s.dict.waiting = [] → s.dictReissue = s) ∧
    (s.hitch.retries = [] → exec (.hitchRetryReissue tag) s = .next s.dictReissue) ∧
    (∀ r, s.hitch.retries = [r] → r.req.tag = tag →
      (s.beats < r.since + 64 → exec (.hitchRetryReissue tag) s = .next s.dictReissue) ∧
      (r.since + 64 ≤ s.beats → s.reqBlocked r.req = true → exec (.hitchRetryReissue tag) s = .next s) ∧
      (r.since + 64 ≤ s.beats → s.reqBlocked r.req = false → exec (.hitchRetryReissue tag) s = .next
        (State.hitchResume (State.hitchAnswer { s with hitch := { s.hitch with retries := [] } } r.req (r.tries + 1))))) ∧
    (1 ≤ code.toNat → code.toNat ≤ 5 → exec (.hitchReservedType code) s = .next s) ∧
    (code.toNat = 0 ∨ 5 < code.toNat → ∃ (n : Nat) (t : State), exec (.hitchReservedType code) s = .next (t.log vGLB n sevError 0 0 0) ∧
      t.hitch = { s.hitch with linkErrors := s.hitch.linkErrors + 1 } ∧ t.regs = s.regs ∧ t.hbm = s.hbm) ∧
    (s.brd.chain = [] → s.hitch.held = [] → exec .journalEntry s = .next s) ∧
    (∀ e rest, s.brd.chain = e :: rest →
      exec .journalEntry s = .next ((s.chainLeft rest).chainEntry e).hitchResume)

/-- UCIE_MODULE_FAIL, UCIE_LINK_LOST, UCIE_LINK_RETURN, BOOT_STAGE_DONE, HOST_GIB_WRITE, HOST_GIB_DEFAULT and VEC_MASK_WRITE
(R374, R375, R382, R386, R387). The model's readings: entries 118, 130, 131, 135 to 137 and 268. -/
def Obligations.LinkBootAndMasks : Prop :=
  ∀ (s : State) (unit : Fin 2) (both : Bool) (header : List (BitVec 8)) (v : BitVec 32) (w : Fin 8) (i : Fin 32),
    let h := s.hitch
    let st := s.bootStage
    let gib := v.toNat % 16
    let set := s.flag R.GLB_BOOT F.GLB_BOOT_HOST_SET
    let waits := (st = 3 ∧ s.flag R.STP_STATUS F.STP_STATUS_LOCKED = false) ∨ (st = 5 ∧ set = false)
    let fixed (n : Nat) := (((s.fset R.GLB_BOOT F.GLB_BOOT_HOST_GIB n).fon R.GLB_BOOT F.GLB_BOOT_HOST_SET).fset R.BOB_HOST
      F.BOB_HOST_GIB n).showLayout
    let ready := s.bridgeReady
    (h.modulesUp = 3 → ∃ (t : State) (n : Nat), exec (.ucieModuleFail unit) s = .next (t.log vGLB n sevWarning unit 0 0) ∧
      t.hitch = { h with modulesUp := 3 - 2 ^ unit.val } ∧ t.flag R.GLB_BOOT F.GLB_BOOT_ONE_MODULE = true ∧
      s.sameRegs t [R.GLB_BOOT] ∧ t.hbm = s.hbm) ∧
    (h.modulesUp = 2 ^ unit.val → exec (.ucieModuleFail unit) s =
      .next (State.foff { s with hitch := { h with modulesUp := 0 } } R.GLB_BOOT F.GLB_BOOT_ONE_MODULE)) ∧
    (h.linkLost = true → exec .ucieLinkLost s = .next s) ∧
    (h.linkLost = false → h.retries = [] → h.held = [] → s.hitchPending = [] →
      ∃ (t : State) (n : Nat), exec .ucieLinkLost s = .next (t.log vGLB n sevError 0 0 0).dictResume ∧ t.hitch = { h with
          linkLost := true
          modulesUp := 0 } ∧ t.outs = s.outs ∧ t.bit R.PWR_ALERT 2 = true ∧ s.sameRegs t [R.PWR_ALERT]) ∧
    (∀ q, h.linkLost = false → h.retries = [] → h.held = [q] → s.hitchPending = [] →
      ∃ (t : State) (n : Nat), exec .ucieLinkLost s = .next (t.log vGLB n sevError 0 0 0).dictResume ∧ t.hitch.held = [] ∧
        t.outs = .completion q.tag .busErr [] :: s.outs) ∧
    (s.dict.waiting = [] → s.dictResume = s) ∧
    (h.linkLost = false → h.modulesUp ≠ 0 ∨ st ≤ 2 → exec (.ucieLinkReturn both) s = .next s) ∧
    (h.linkLost = false → h.modulesUp = 0 → 2 < st → ∃ t, exec (.ucieLinkReturn both) s = .next t.resumeAll ∧ t.hitch = { h with
        modulesUp := if both then 3 else 1 } ∧ t.flag R.GLB_BOOT F.GLB_BOOT_ONE_MODULE = !both ∧ s.sameRegs t [R.GLB_BOOT] ∧
      t.outs = s.outs ∧ t.brd = s.brd) ∧
    (h.held = [] → s.dict.waiting = [] → s.resumeAll = s) ∧
    (h.linkLost = true → ∃ t, exec (.ucieLinkReturn both) s = .next t ∧ t.hitch = { h with
        linkLost := false
        modulesUp := if both then 3 else 1 } ∧ t.bit R.PWR_ALERT 2 = false ∧
      t.flag R.GLB_BOOT F.GLB_BOOT_ONE_MODULE = !both ∧ s.sameRegs t [R.PWR_ALERT, R.GLB_BOOT] ∧
      (∀ x < 216, s.vecPend x = true → s.vecMasked x = false → Out.msgi x ∈ t.outs)) ∧
    (7 ≤ st ∨ s.released = false → ∀ f, exec (.bootStageDone f header) s = .next s) ∧
    (st < 7 → s.released = true →
      exec (.bootStageDone true header) s = .next s.bootFail ∧
      (s.stageImage st header = false → exec (.bootStageDone false header) s = .next s.bootFail) ∧
      (waits → exec (.bootStageDone false header) s = .next s) ∧
      (s.stageImage st header = true → ¬waits → ∃ t, exec (.bootStageDone false header) s = .next t ∧ t.bootStage = st + 1 ∧
        t.hitch.stageSince = t.beats ∧ (st = 5 → t.hbm = []) ∧
        (st = 6 → t.flag R.GLB_BOOT F.GLB_BOOT_USER_RELEASED = true ∧ t.brd.userDigest = fit 48 (slice header 24 48)) ∧
        (st = 4 → t.brd.fwDigest = fit 48 (slice header 24 48)) ∧
        (st ≤ 1 → s.sameRegs t [R.GLB_BOOT] ∧ t.hbm = s.hbm))) ∧
    (s.stageImage 4 header = true ↔ recNat header 4 1 = 1 ∧ s.imageCheck header = some brOk) ∧
    (s.stageImage 6 header = true ↔ recNat header 4 1 = 2 ∧ s.imageCheck header = some brOk) ∧
    (∀ n, n ≠ 4 → n ≠ 6 → s.stageImage n header = true) ∧
    (∀ t, t = s.bootFail → t.bootStage = 15 ∧ t.fget R.GLB_BOOT F.GLB_BOOT_FAIL_STAGE = st ∧ t.bit R.PWR_ALERT 0 = true) ∧
    ((∀ q ∈ h.held, s.reqBlocked q = false) → s.brd.chain.length + 4 ≤ 240 → ready = s) ∧
    (∃ x, exec (.hostGibWrite v) s = .next ((ready.took.narrowWrite x R.GLB_BOOT v false
      (decide (gib = ready.fget R.GLB_BOOT F.GLB_BOOT_HOST_GIB))).hostGib gib) ∧ x < 16 ∧ x % 2 = 1) ∧
    ((gib = 2 ∨ gib = 4 ∨ gib = 6 ∨ gib = 8) → set = false → s.hostGib gib = fixed gib) ∧
    (set = true ∨ (gib ≠ 2 ∧ gib ≠ 4 ∧ gib ≠ 6 ∧ gib ≠ 8) → s.hostGib gib = s.fon R.GLB_STATUS F.GLB_STATUS_CFG_REJECT) ∧
    (st = 5 → set = false → h.stageSince + 12000000 ≤ s.beats → exec .hostGibDefault s = .next (fixed 4)) ∧
    (st ≠ 5 ∨ set = true ∨ s.beats < h.stageSince + 12000000 → exec .hostGibDefault s = .next s) ∧
    (∃ x, exec (.vecMaskWrite w v) s = .next ((ready.took.narrowWrite x (R.GLB_VEC_MASK w) v false
      (decide (v = ready.rd (R.GLB_VEC_MASK w)))).vecMask w v) ∧ x < 16) ∧
    (∀ (x a : Nat) (shut same : Bool) (t : State), t = s.narrowWrite x a v shut same →
      ((∀ y ∈ s.brd.windows, y.src ≠ x) → t = { s with
        brd := { s.brd with
          chain := s.brd.chain ++ [⟨s.wt, s.nowFrac, 2, x, if shut = true ∧ same = false then 1 else 0, a, v.toNat⟩]
          sealed := s.brd.sealed && (shut || same) }
        tick := { s.tick with soft := s.tick.soft + 1 } }) ∧
      t = { s with
        brd := { s.brd with
          chain := t.brd.chain
          sealed := t.brd.sealed
          windows := s.brd.windows.filter (fun y => y.src ≠ x) }
        tick := { s.tick with soft := t.tick.soft } } ∧
      ((∃ y ∈ s.brd.windows, y.src = x) → t.brd.chain.length = s.brd.chain.length + 2 ∧ t.brd.sealed = false)) ∧
    (∀ t, t = s.vecMask w v → t.rd (R.GLB_VEC_MASK w) = v ∧ s.sameRegs t [R.GLB_VEC_MASK w] ∧
      (s.hitch.linkLost = false → (s.rd (R.GLB_VEC_MASK w)).getLsbD i = true → v.getLsbD i = false →
        s.vecPend (32 * w + i) = true → Out.msgi (32 * w + i) ∈ t.outs) ∧
      (s.rd (R.GLB_VEC_MASK w) = v → t.outs = s.outs))

/-- R7, R366, R369, R371 and R372, over all registers of the map. The model's choice: entry 270. -/
def Obligations.FieldsUnderTheirClass : Prop :=
  (∀ (s : State) (r : RegRow) (a : Nat) (v : BitVec 32), regRowAt a = some r →
    let has (m n : Nat) : Bool := m / 2 ^ n % 2 == 1
    let w := s.counted r a v
    (isCounter r = false → w = v) ∧ (isCounter r = true → w = v + (s.rd a - s.rd0 a)) ∧
    (∀ n < 32,
      (has r.rw n = true → (s.loaded a).getLsbD n = false → (s.stored r a v).getLsbD n = w.getLsbD n) ∧
      (has r.eg n = true → s.gateShut a = false → (s.loaded a).getLsbD n = false →
        (s.stored r a v).getLsbD n = w.getLsbD n) ∧
      (has r.eg n = true → s.gateShut a = true → (s.stored r a v).getLsbD n = (s.rd a).getLsbD n) ∧
      (has r.rw n = true ∨ has r.eg n = true → (s.loaded a).getLsbD n = true →
        (s.stored r a v).getLsbD n = (s.rd a).getLsbD n) ∧
      (has r.w1c n = true → (s.stored r a v).getLsbD n = ((s.rd a).getLsbD n && (!v.getLsbD n || (s.hit a).getLsbD n))) ∧
      (has r.rw n = false → has r.eg n = false → has r.w1c n = false → (s.stored r a v).getLsbD n = (s.rd a).getLsbD n)) ∧
    (∀ b < 32, ∀ x, s.aliasWord r a b v = some x → s.view r a = s.rd a → s.rd0 a = s.rd a →
      (∀ n < 32, n ≠ b → (s.stored r a x).getLsbD n = (s.rd a).getLsbD n) ∧
      (has r.rw b = true → (s.loaded a).getLsbD b = false → (s.stored r a x).getLsbD b = v.getLsbD 0) ∧
      (has r.w1c b = true → v.getLsbD 0 = true ∧ ((s.hit a).getLsbD b = false → (s.stored r a x).getLsbD b = false))) ∧
    (∀ b < 32, r.base = R.GLB_START_AT_LO ∨ r.base = R.GLB_START_AT_HI →
      s.aliasWord r a b v = some (if v.getLsbD 0 then setBitW (s.view r a) b else clrBitW (s.view r a) b)) ∧
    (∀ b < 16, r.base = R.SHU_MBOX_IN 0 → s.aliasWord r a b v = some (if v.getLsbD 0 then setBitW 0#32 b else clrBitW 0#32 b)) ∧
    (∀ b < 32, s.aliasWord r a b v = none → has r.rw b = false ∧ has r.eg b = false ∧
      ((has r.w1c b = true ∨ has r.w1s b = true) → v.getLsbD 0 = false))) ∧
  (∀ (s : State) (src other : Src) (r r' q : RegRow) (a c : Nat), regRowAt a = some r → regRowAt (a + 4) = some r' →
    regRowAt c = some q → shLows.contains r.base = true → src.hart < 8 → other.hart < 8 → other ≠ src →
    s.breach.contains (vectorOf a) = false → s.breach.contains (vectorOf (a + 4)) = false →
    let t := (s.readReg src r a).1
    (s.readReg src r a).2 = s.pairView r a ∧ (t.readReg src r' (a + 4)).2 = s.pairView r (a + 4) ∧
    (((t.readReg other q c).1).readReg src r' (a + 4)).2 = s.pairView r (a + 4)) ∧
  (∀ (s : State) (r : RegRow) (a : Nat), a = R.WRP_NOW_LO ∨ a = R.WRP_NOW_HI → regRowAt a = some r →
    s.pairView r a = if a = R.WRP_NOW_LO then lo32 s.wt else hi32 s.wt)

/-- NMT_START_REMOTE_NODE, NMT_STOP_REMOTE_NODE, NMT_ENTER_PRE_OPERATIONAL, NMT_RESET_COMMUNICATION, NMT_RESET_NODE,
EMCY_INHIBIT_END, TPDO_EVENT_TIMER, TPDO_INHIBIT_END, CAN_BUS_OFF_RECOVERY, CAN_RX_OVERRUN, CAN_ERROR_PASSIVE and
CAN_ERROR_ACTIVE (R389, R392, R395, R403). The model's readings: entries 139 to 151. -/
def Obligations.NmtAndCan : Prop :=
  ∀ (s : State) (p : Fin 2) (k : Fin 4),
    let x := s.canPort p
    let on := s.canOn p = true
    let link := if p.val = 0 then s.dict.stopLink0 else s.dict.stopLink1
    let stopped := if x.nmt = 4 then s else (s.nmtJournal p 2).nmtGo p 4
    let sent := (s.tpdoTx p k).since
    let obj := s.tpdoObj k
    let live := s.tpdoLive p k = true
    let active (c : Nat) : Bool := x.active.any (fun y => y.1 = c)
    let start (t : State) : State := if t.canOn p then t.canStart p else t
    let others : List DictReq := s.dict.waiting.filter (fun q => q.port ≠ p.val)
    (¬on → exec (.nmtStartRemoteNode p) s = .next s ∧ exec (.nmtStopRemoteNode p) s = .next s ∧
      exec (.nmtEnterPreOperational p) s = .next s ∧ exec (.nmtResetCommunication p) s = .next s ∧
      exec (.nmtResetNode p) s = .next s) ∧
    (on →
      (x.nmt = 5 → exec (.nmtStartRemoteNode p) s = .next s) ∧
      (x.nmt ≠ 5 → exec (.nmtStartRemoteNode p) s = .next ((s.nmtJournal p 1).nmtGo p 5)) ∧
      (x.nmt = 127 → exec (.nmtEnterPreOperational p) s = .next s) ∧
      (x.nmt ≠ 127 → exec (.nmtEnterPreOperational p) s = .next ((s.nmtJournal p 128).nmtGo p 127)) ∧
      (link = false ∨ stopped.runState ≠ rsRunning → exec (.nmtStopRemoteNode p) s = .next stopped) ∧
      (link = true → stopped.runState = rsRunning → exec (.nmtStopRemoteNode p) s = .next ((stopped.nmtJournal p rcStop).firmAccess
        (firmReq true 4 R.GLB_RUN (runWord (stopped.fget R.GLB_RUN F.GLB_RUN_START_MODE) rcStop)) (dictJournal p)).state) ∧
      exec (.nmtResetCommunication p) s = .next (start (((s.nmtJournal p 130).canRates p).commReset.commRecord)) ∧
      (let t := (s.nmtJournal p 129).commReset;
        (t.atRest = false → exec (.nmtResetNode p) s = .next (start ((t.canRates p).commRecord))) ∧
        (t.atRest = true → exec (.nmtResetNode p) s = .next ((State.setCan { t with dict := { t.dict with
          autoInc := false
          attestReport := []
          sessionIn := []
          sessionOut := [] } } p { t.canPort p with address := 0 }).canBoot p)))) ∧
    (∀ st, st = 4 ∨ st = 5 ∨ st = 127 → ∀ t, t = s.nmtGo p st → (t.canPort p).nmt = st ∧ (st = 4 → (t.canPort p).usdo = none) ∧
      (∀ q : Fin 2, q ≠ p → t.canPort q = s.canPort q) ∧ t.regs = s.regs ∧ t.hbm = s.hbm ∧
      t.dict = { s.dict with waiting := if st = 4 then others else s.dict.waiting }) ∧
    (∀ t, t = s.commReset → t.dict.heartbeat = 1000 ∧ t.dict.inhibitEmcy = 10 ∧ t.dict.usdoTimeout = 1000 ∧
      t.dict.stopLink0 = false ∧ t.dict.stopLink1 = false ∧ t.dict.history = [] ∧ t.dict.nomRate = s.dict.nomRate ∧
      t.dict.dataRate = s.dict.dataRate ∧ t.dict.abortedWrites = s.dict.abortedWrites ∧ t.regs = s.regs) ∧
    (∀ t, t = s.commRecord → (∀ n < 2, Tab.get (fun _ => 2) t.dict.nomRate n = s.dict.comm.getD n 0 ∧
        Tab.get (fun _ => 1) t.dict.dataRate n = s.dict.comm.getD (2 + n) 0) ∧ t.dict.portEn = s.dict.comm.getD 4 0 ∧
      t.regs = s.regs ∧ t.hbm = s.hbm) ∧
    (s.canRates p = s.setCan p { x with
      nomRate := Tab.get (fun _ => 2) s.dict.nomRate p
      dataRate := Tab.get (fun _ => 1) s.dict.dataRate p }) ∧
    (s.canBoot p = (s.canRates p).canStart p) ∧
    (∀ t, t = s.canStart p → (t.canPort p).nmt = 127 ∧ (t.canPort p).usdo = none ∧ t.regs = s.regs ∧ t.hbm = s.hbm ∧
      t.dict = { s.dict with waiting := others } ∧
      (s.bankLost 5 = false → s.dict.portEn / 2 ^ p.val % 2 = 1 →
        t.outs = .canFrame p (0x700 + s.dict.nodeId) (leBytes 1 0) :: s.outs)) ∧
    (x.held = [] → exec (.emcyInhibitEnd p) s = .next s) ∧
    (∀ e rest b, x.held = e :: rest → x.lastEmcy = some b →
      (s.beats < b + 120000 * s.dict.inhibitEmcy ∨ ¬on → exec (.emcyInhibitEnd p) s = .next s) ∧
      (b + 120000 * s.dict.inhibitEmcy ≤ s.beats → on → exec (.emcyInhibitEnd p) s = .next ((s.setCan p { x with
        held := rest
        lastEmcy := some s.beats }).emit (.canFrame p (s.dict.cobEmcy % 2 ^ 11) (e.bytes s.errorRegister))))) ∧
    (¬live → exec (.tpdoEventTimer p k) s = .next s ∧ exec (.tpdoInhibitEnd p k) s = .next s) ∧
    (live →
      (obj.event = 0 ∨ s.beats < sent + 1200000 * obj.event → exec (.tpdoEventTimer p k) s = .next s) ∧
      (obj.event ≠ 0 → sent + 1200000 * obj.event ≤ s.beats → exec (.tpdoEventTimer p k) s = .next (s.tpdoSend p k)) ∧
      ((s.tpdoTx p k).seen = s.tpdoSeen p k → exec (.tpdoInhibitEnd p k) s = .next s) ∧
      ((s.tpdoTx p k).seen ≠ s.tpdoSeen p k → sent + 120000 * obj.inhibit ≤ s.beats →
        exec (.tpdoInhibitEnd p k) s = .next (s.tpdoSend p k))) ∧
    (live → ∃ t, s.tpdoSend p k = t ∧ t.outs = .canFrame p (obj.cobId % 2 ^ 11) (s.tpdoBytes p k) :: s.outs ∧
      (t.tpdoTx p k).since = s.beats ∧ t.regs = s.regs ∧ t.dict = s.dict) ∧
    ((∀ j : Fin 4, j.val = 0 → (s.tpdoBytes p j).length = 15) ∧ (∀ j : Fin 4, j.val = 1 → (s.tpdoBytes p j).length = 10) ∧
      (∀ j : Fin 4, 2 ≤ j.val → (s.tpdoBytes p j).length = 16)) ∧
    exec (.canBusOffRecovery p) s = .next ((s.emcyOn p 0x8140 4 p).emcyOff p 0x8140 p) ∧
    exec (.canRxOverrun p true) s = .next (s.emcyOff p 0x8110 p) ∧
    exec (.canRxOverrun p false) s = .next (if active 0x8110 then s else s.emcyOn p 0x8110 4 p) ∧
    exec (.canErrorPassive p) s = .next (if active 0x8120 then s else s.emcyOn p 0x8120 4 p) ∧
    exec (.canErrorActive p) s = .next (s.emcyOff p 0x8120 p) ∧
    (∀ code bit unit t, t = s.emcyOn p code bit unit → (code, bit) ∈ (t.canPort p).active ∧ t.regs = s.regs ∧ t.hbm = s.hbm ∧
      (on → s.dict.cobEmcy < 2 ^ 31 → x.held = [] → x.lastEmcy = none →
        t.outs = .canFrame p (s.dict.cobEmcy % 2 ^ 11)
          (Emcy.bytes ⟨code, code, s.runState, unit, s.wt⟩ t.errorRegister) :: s.outs ∧
        t.dict.history = (code :: s.dict.history).take 16) ∧
      (on → s.dict.cobEmcy < 2 ^ 31 → x.held ≠ [] → t.outs = s.outs ∧
        (t.canPort p).held = x.held ++ [⟨code, code, s.runState, unit, s.wt⟩]))

/-- USDO_DOWNLOAD, USDO_UPLOAD, USDO_SEGMENT, USDO_TIMEOUT, DICT_RUN_CMD, DICT_REG_ACCESS and OSERI_APPLY (R396 to R404, R410). The
model's readings: entries 138 to 153, 268 and 271. -/
def Obligations.DictionaryService : Prop :=
  ∀ (s : State) (p : Fin 2) (client : BitVec 7) (index : BitVec 16) (sub : BitVec 8) (data : List (BitVec 8)) (n : Nat)
      (wide last : Bool) (q : DictReq),
    let x := s.canPort p
    let i := index.toNat
    let j := sub.toNat
    let c := client.toNat
    let free := s.usdoServes p = true ∧ x.usdo = none
    let limit := 1200000 * (if s.dict.usdoTimeout = 0 then 1000 else s.dict.usdoTimeout)
    let width := if wide then 8 else 4
    (free →
      exec (.usdoDownload p client index sub none data) s = .next (s.dictAsk ⟨p, c, i, j, some data, none⟩) ∧
      (4096 < n → exec (.usdoDownload p client index sub (some n) data) s = .next (s.writeAborted p abMemory)) ∧
      (n ≤ 4096 → exec (.usdoDownload p client index sub (some n) data) s = .next
        ((s.setCan p { x with usdo := some ⟨true, i, j, [], n, s.beats, c⟩ }).usdo p 0 [])) ∧
      exec (.usdoUpload p client index sub) s = .next (s.dictAsk ⟨p, c, i, j, none, none⟩) ∧
      exec (.dictRunCmd p client data) s = .next (s.dictAsk ⟨p, c, 0x2001, 1, some data, none⟩) ∧
      exec (.dictRegAccess p client wide true data) s =
        .next (s.dictAsk ⟨p, c, 0x2F00, if wide then 3 else 2, some data, none⟩) ∧
      exec (.dictRegAccess p client wide false data) s =
        .next (s.dictAsk ⟨p, c, 0x2F00, if wide then 3 else 2, none, none⟩)) ∧
    ((s.dict.waiting ≠ [] ∨ q.retry ≠ none → s.dictAsk q = s.dictHold q) ∧
      (s.dict.waiting = [] → q.retry = none → s.dictAsk q = s.dictServe q 0) ∧
      s.dictHold q = { s with dict := { s.dict with waiting := s.dict.waiting ++ [q] } }) ∧
    (let t := if q.touches then s.bridgeReady else s
     (t.dictStuck q = true → s.dictServe q n = t.dictHold q) ∧
      (t.dictStuck q = false → t.dictProbe q = none ∨ t.hitch.linkLost = true → s.dictServe q n = t.dictDo q) ∧
      (∀ a, t.dictStuck q = false → t.dictProbe q = some a → t.hitch.linkLost = false →
        ((t.verdict a).again = false → s.dictServe q n = t.dictDo q) ∧
        ((t.verdict a).again = true → n < 16 → ∃ u : State, s.dictServe q n = u.dictHold { q with retry := some (n, t.beats) } ∧
          u.regs = t.regs ∧ u.hbm = t.hbm ∧ u.dict = t.dict ∧ u.outs = t.outs ∧ u.brd = t.brd) ∧
        ((t.verdict a).again = true → 16 ≤ n → ∃ u, s.dictServe q n = u ∧
          (a.addr < 2 ^ 64 → u.pair R.GLB_BUSERR_ADDR_LO R.GLB_BUSERR_ADDR_HI = a.addr) ∧
          (t.canOn q.port = true → ∃ o, u.outs = .usdoAnswer q.port 0x06060000 [] :: o)))) ∧
    ((q.touches = false → s.dictStuck q = false ∧ s.dictProbe q = none) ∧
      (s.linkRetrains = false → s.hitch.held = [] → s.dictProbe q = none → s.dictStuck q = false) ∧
      (∀ b, q.data = some b → s.dictDo q = s.odWrite q.port q.client q.index q.sub b) ∧
      (q.data = none → (s.canPort q.port).usdo = none → s.dictDo q = s.odUpload q.port q.client q.index q.sub) ∧
      (q.data = none → (s.canPort q.port).usdo ≠ none → s.dictDo q = s.usdo q.port 0x08000020 [])) ∧
    (∀ rest m b, s.dict.waiting = q :: rest → q.retry = some (m, b) →
      (s.beats < b + 64 → s.dictReissue = s) ∧
      (b + 64 ≤ s.beats → s.dictReissue = (rest.foldl (fun z e => z.dictAsk e)
        (State.dictServe { s with dict := { s.dict with waiting := [] } } q (m + 1))).hitchResume)) ∧
    (∀ v, v < 2 ^ 32 → (2048 ≤ v % 2 ^ 30 → s.odAct p 0x1014 0 (leBytes 4 v) = (s, 0x06090030)) ∧
      (v % 2 ^ 30 < 2048 → (s.odAct p 0x1014 0 (leBytes 4 v)).1.dict.cobEmcy = v)) ∧
    (s.usdoServes p = true → x.usdo ≠ none →
      exec (.usdoDownload p client index sub none data) s = .next (s.writeAborted p 0x08000020) ∧
      exec (.usdoUpload p client index sub) s = .next (s.usdo p 0x08000020 []) ∧
      exec (.dictRunCmd p client data) s = .next (s.writeAborted p 0x08000020)) ∧
    (let r := s.odRead p i j;
      (r.abort ≠ 0 → s.odUpload p c i j = r.state.usdo p r.abort []) ∧
      (r.abort = 0 → r.data.length ≤ 56 → s.odUpload p c i j = r.state.usdo p 0 r.data) ∧
      (r.abort = 0 → 56 < r.data.length → s.odUpload p c i j = (r.state.setCan p { r.state.canPort p with
        usdo := some ⟨false, i, j, r.data, r.data.length, r.state.beats, c⟩ }).usdo p 0 [])) ∧
    (odTop i = none → s.odRead p i j = ⟨s, 0x06020000, []⟩ ∧ s.odWriteAbort i j n = 0x06020000) ∧
    (odTop i ≠ none → odEntry i j = none → s.odRead p i j = ⟨s, 0x06090011, []⟩ ∧ s.odWriteAbort i j n = 0x06090011) ∧
    (∀ top e, odTop i = some top → odEntry i j = some e →
      (e.write = false → s.odWriteAbort i j n = 0x06010002) ∧
      (∀ m, e.write = true → e.size = some m → n ≠ m → s.odWriteAbort i j n = 0x06070010) ∧
      (e.write = true → e.size = some n → e.gated = true → s.atRest = false → s.odWriteAbort i j n = 0x08000022) ∧
      (e.write = true → e.size = some n → e.gated = false ∨ s.atRest = true → s.odWriteAbort i j n = 0)) ∧
    (∀ a t, s.odWriteAbort i j data.length = a → a ≠ 0 → t = s.odWrite p c i j data → t = s.writeAborted p a ∧
      t.dict = { s.dict with abortedWrites := (s.dict.abortedWrites + 1) % 2 ^ 32 } ∧ t.regs = s.regs ∧ t.brd = s.brd) ∧
    (s.odWriteAbort i j data.length = 0 →
      let y := s.bridgeReady
      let r := (y.jsoft (y.jentry 4 (dictJournal p).src 0 (i + 2 ^ 16 * j + 2 ^ 24 * c) (leNat (data.take 8)))
        (dictKeeps i j)).odAct p i j data
      (r.2 = 0 → s.odWrite p c i j data = r.1.usdo p 0 []) ∧
      (r.2 ≠ 0 → s.odWrite p c i j data = (y.odAct p i j data).1.writeAborted p (y.odAct p i j data).2)) ∧
    (let a := x.address
     (a % width ≠ 0 → s.dictReg p true width n = ⟨s, 0x06090030, []⟩) ∧
      (a % width = 0 → a / 0x10000 = 6 → ∀ w, s.dictReg p w width n = ⟨s, 0x06010000, []⟩) ∧
      (s.hitch.linkLost = true → s.regAbort p true width = 0 → s.dictReg p true width n = ⟨s, 0x06060000, []⟩)) ∧
    (x.usdo = none → exec (.usdoSegment p data last) s = .next s ∧ exec (.usdoTimeout p) s = .next s) ∧
    (∀ u, x.usdo = some u →
      (s.beats < u.since + limit → exec (.usdoTimeout p) s = .next s) ∧
      (u.since + limit ≤ s.beats → exec (.usdoTimeout p) s = .next (if u.download then
          (s.setCan p { x with usdo := none }).writeAborted p 0x05040000
        else (s.setCan p { x with usdo := none }).usdo p 0x05040000 [])) ∧
      (s.usdoServes p = true → u.download = true → (u.bytes ++ data).length ≤ 4096 →
        (last = false → exec (.usdoSegment p data last) s = .next ((s.setCan p { x with usdo := some { u with
          bytes := u.bytes ++ data
          since := s.beats } }).usdo p 0 [])) ∧
        (last = true → (u.bytes ++ data).length = u.expected → exec (.usdoSegment p data last) s =
          .next ((s.setCan p { x with usdo := none }).dictAsk ⟨p, u.client, u.index, u.sub, some (u.bytes ++ data), none⟩)) ∧
        (last = true → (u.bytes ++ data).length ≠ u.expected → exec (.usdoSegment p data last) s =
          .next ((s.setCan p { x with usdo := none }).writeAborted p 0x06070010))) ∧
      (s.usdoServes p = true → u.download = false → 60 < u.bytes.length → exec (.usdoSegment p data last) s =
        .next ((s.setCan p { x with usdo := some { u with
          bytes := u.bytes.drop 60
          since := s.beats } }).usdo p 0 (u.bytes.take 60))) ∧
      (s.usdoServes p = true → u.download = false → u.bytes.length ≤ 60 → exec (.usdoSegment p data last) s =
        .next ((s.setCan p { x with usdo := none }).usdo p 0 (u.bytes.take 60)))) ∧
    (s.oseriReady data = false → exec (.oseriApply data) s = .next s) ∧
    (s.oseriReady data = true → exec (.oseriApply data) s = .next ((s.imageBy (srcCode firmware) data).oseriApply
      (srcCode firmware) data).1) ∧
    (let t := s.imageBy (srcCode firmware) data
     t.hbm = s.hbm ∧ t.dict = s.dict ∧ t.runState = s.runState)

/-- R393, its table and its sentence. -/
def Obligations.NmtStateGoverns : Prop :=
  ∀ (s : State) (p : Fin 2) (k : Fin 4) (client : BitVec 7) (index : BitVec 16) (sub : BitVec 8) (data : List (BitVec 8)),
    s.canOn p = true →
    let x := s.canPort p
    let read := exec (.usdoUpload p client index sub) s
    let write := exec (.usdoDownload p client index sub none data) s
    let run := exec (.dictRunCmd p client data) s
    let ready := s.dict.waiting = [] ∧ s.bridgeReady = s ∧ s.linkRetrains = false ∧ s.hitch.held = []
    let served := read = .next (s.dictAsk ⟨p, client.toNat, index.toNat, sub.toNat, none, none⟩) ∧
      write = .next (s.dictAsk ⟨p, client.toNat, index.toNat, sub.toNat, some data, none⟩) ∧
      run = .next (s.dictAsk ⟨p, client.toNat, 0x2001, 1, some data, none⟩) ∧
      (ready → s.dictProbe ⟨p, client.toNat, index.toNat, sub.toNat, none, none⟩ = none →
        read = .next (s.odUpload p client.toNat index.toNat sub.toNat)) ∧
      (ready → s.dictProbe ⟨p, client.toNat, index.toNat, sub.toNat, some data, none⟩ = none →
        write = .next (s.odWrite p client.toNat index.toNat sub.toNat data)) ∧
      (ready → run = .next (s.odWrite p client.toNat 0x2001 1 data))
    (x.nmt = 127 → x.usdo = none → served ∧
      (data.length = 1 → ready → run = .next (s.writeAborted p 0x08000022)) ∧
      exec (.tpdoEventTimer p k) s = .next s ∧ exec (.tpdoInhibitEnd p k) s = .next s) ∧
    (x.nmt = 5 → x.usdo = none → served ∧
      (s.hitch.linkLost = false → (s.tpdoObj k).cobId < 2 ^ 31 → (s.tpdoObj k).event ≠ 0 →
        (s.tpdoTx p k).since + 1200000 * (s.tpdoObj k).event ≤ s.beats →
        exec (.tpdoEventTimer p k) s = .next (s.tpdoSend p k))) ∧
    (x.nmt = 4 → read = .next s ∧ write = .next s ∧ run = .next s ∧ exec (.tpdoEventTimer p k) s = .next s ∧
      exec (.tpdoInhibitEnd p k) s = .next s) ∧
    (∃ t, exec (.nmtStartRemoteNode p) s = .next t ∧ (t.canPort p).nmt = 5) ∧
    (∃ t, exec (.nmtEnterPreOperational p) s = .next t ∧ (t.canPort p).nmt = 127) ∧
    (s.dict.stopLink0 = false → s.dict.stopLink1 = false →
      ∃ t, exec (.nmtStopRemoteNode p) s = .next t ∧ (t.canPort p).nmt = 4) ∧
    (s.dict.heartbeat ≠ 0 → x.lastBeat + 1200000 * max 10 s.dict.heartbeat ≤ s.beats →
      ∃ t, exec (.heartbeat p) s = .next t ∧ t.outs = .canFrame p (0x700 + s.dict.nodeId) (leBytes 1 x.nmt) :: s.outs)

/-- R394: HEARTBEAT. That no command receives a heartbeat is the table's: it has no row for one. -/
def Obligations.HeartbeatProducer : Prop :=
  State.reset.dict.heartbeat = 1000 ∧ State.reset.odNumber 0 0x1017 0 = 1000 ∧
  ∀ (s : State) (p : Fin 2) (ms : BitVec 16),
    (s.odAct p 0x1017 0 (leBytes 2 ms.toNat)).1.dict.heartbeat = ms.toNat ∧
    (s.dict.heartbeat = 0 → exec (.heartbeat p) s = .next s) ∧
    (s.canOn p = false → exec (.heartbeat p) s = .next s) ∧
    (s.beats < (s.canPort p).lastBeat + 1200000 * max 10 s.dict.heartbeat → exec (.heartbeat p) s = .next s) ∧
    (s.canOn p = true → s.dict.heartbeat ≠ 0 → (s.canPort p).lastBeat + 1200000 * max 10 s.dict.heartbeat ≤ s.beats →
      ∃ t, exec (.heartbeat p) s = .next t ∧
        t.outs = .canFrame p (0x700 + s.dict.nodeId) (leBytes 1 (s.canPort p).nmt) :: s.outs ∧
        (t.canPort p).lastBeat = s.beats ∧ t.regs = s.regs ∧ t.hbm = s.hbm ∧ t.dict = s.dict)

/-- SESSION_OPEN, SESSION_CLOSE, ATTEST, VERIFY_IMAGE, OWNER_INSTALL, OWNER_REVOKE, DEBUG_UNLOCK, ZEROISE, DECOMMISSION, GET_CERT,
KEY_RETIRE, JOURNAL_EXPORT, MANIFEST_BEGIN and MANIFEST_PUSH (R406, R412 to R417, R422 to R425). The model's readings: entries 154
to 166. -/
def Obligations.BridleCommands : Prop :=
  ∀ (s : State) (p : Fin 4),
    let b := s.brd
    let go := s.flag R.BRD_CMD F.BRD_CMD_GO = true
    let input := getBytes b.buf 0 b.cmdLen
    let has (c : Nat) : Prop := go ∧ b.cmdCode = c ∧ b.cmdLen ≤ 16384 ∧ s.pwr.brownout = none ∧ s.far.prog = none
    let signed (keys : List (List (BitVec 8))) : Bool := Config.requestSigned input b.serial b.nonce keys
    (∀ i : Instr, ∀ c, (i, c) ∈ [(Instr.sessionOpen, 1), (.sessionClose, 2), (.attest, 3), (.verifyImage, 4),
        (.ownerInstall, 5), (.ownerRevoke, 6), (.debugUnlock, 7), (.zeroise, 8), (.decommission, 9), (.getCert, 10)] →
      (¬go ∨ b.cmdCode ≠ c → exec i s = .next s) ∧
      (go → b.cmdCode = c → c ∈ keyOps → s.pwr.brownout ≠ none → exec i s = .next s.brdRetry) ∧
      (go → b.cmdCode = c → c ∉ keyOps ∨ s.pwr.brownout = none → c ∈ fuseOps → s.far.prog ≠ none → exec i s = .next s) ∧
      (go → b.cmdCode = c → s.pwr.brownout = none → s.far.prog = none → 16384 < b.cmdLen →
        exec i s = .next (s.brdFail brBadFormat))) ∧
    (∀ r t, r < 8 → t = s.brdFail r → t.fget R.BRD_CMD F.BRD_CMD_RESULT = r ∧ t.flag R.BRD_CMD F.BRD_CMD_GO = false ∧
      t.rd R.BRD_OUT_LEN = 0#32 ∧ t.brd = s.brd ∧ s.sameRegs t ([R.BRD_CMD, R.BRD_OUT_LEN] ++ raiseRegs vBRD)) ∧
    (∀ bytes t, t = s.brdOut bytes → bytes.length < 2 ^ 32 → t.fget R.BRD_CMD F.BRD_CMD_RESULT = 0 ∧
      t.flag R.BRD_CMD F.BRD_CMD_GO = false ∧ (t.rd R.BRD_OUT_LEN).toNat = bytes.length ∧
      t.brd = { s.brd with buf := putBytes s.brd.buf 0 bytes } ∧
      s.sameRegs t ([R.BRD_CMD, R.BRD_OUT_LEN] ++ raiseRegs vBRD)) ∧
    (has 1 → ∀ q, q = recNat input 0 1 →
      let bare := s.brdIsOpen = true ∧ input.length = 325
      let formed := (input.length = 421 ∨ bare) ∧ q < 4
      let owner := recNat input 228 1
      let proved (at_ : Nat) : Bool := Config.verify (slice input 130 97)
        (sha384 (slice input 1 97 ++ slice input 98 32 ++ b.serial ++ leBytes 1 q)) (slice input at_ 96)
      let opened := exec .sessionOpen s = .next (s.sessionOpened q (slice input 1 97) (slice input 98 32))
      (¬formed → exec .sessionOpen s = .next (s.brdFail 2)) ∧
      (formed → s.dikOff = true → exec .sessionOpen s = .next s.dikFail) ∧
      (formed → s.dikOff = false → s.brdIsOpen = false →
        (4 ≤ owner ∨ s.ownerState owner ≠ 1 → exec .sessionOpen s = .next (s.brdFail 6)) ∧
        (owner < 4 → s.ownerState owner = 1 →
          let granted := Config.verify (s.ownerKey owner) (sha384 (slice input 130 98)) (slice input 229 96)
          (granted = false → exec .sessionOpen s = .next (s.brdFail 1)) ∧
          (granted = true → recNat input 227 1 / 2 ^ q % 2 = 1 →
            (proved 325 = false → exec .sessionOpen s = .next (s.brdFail 1)) ∧ (proved 325 = true → opened)))) ∧
      (formed → s.dikOff = false → s.brdIsOpen = true → recNat input 227 1 / 2 ^ q % 2 = 1 →
        let at_ := if input.length = 325 then 229 else 325
        (proved at_ = false → exec .sessionOpen s = .next (s.brdFail 1)) ∧ (proved at_ = true → opened))) ∧
    (∀ q qp np t, q < 4 → t = s.sessionOpened q qp np → (t.session q).valid = true ∧
      ((t.session q).keyId = if (s.session q).keyId = 255 then 1 else (s.session q).keyId + 1) ∧
      (s.pwr.brownout = none → (t.session q).runKey = some (Config.runKey (t.session q).key s.runNumber, s.runNumber)) ∧
      (∀ k : Fin 4, k.val ≠ q → t.session k = s.session k) ∧ t.fget R.BRD_CMD F.BRD_CMD_RESULT = 0 ∧
      t.flag R.BRD_STATUS F.BRD_STATUS_ZEROISED = false) ∧
    (has 2 → ∀ q, q = recNat input 0 1 →
      (input.length ≠ 1 ∨ 4 ≤ q → exec .sessionClose s = .next (s.brdFail 2)) ∧
      (input.length = 1 → q < 4 → (s.session q).valid = false → exec .sessionClose s = .next (s.brdFail 6)) ∧
      (input.length = 1 → q < 4 → (s.session q).valid = true → exec .sessionClose s = .next (((s.keysGone q).journal
        (s.jentry 6 b.cmdSrc 0 (q + 256 * (s.session q).keyId) 2)).brdOut []))) ∧
    (∀ t, t = s.keysGone p → ((t.session p).valid = false ∨ t = s) ∧ ((s.session p).valid = true → (t.session p).valid = false ∧
      (t.session p).runKey = none ∧ (t.session p).old = [] ∧ (t.session p).keyId = (s.session p).keyId)) ∧
    (has 3 → (input.length ≠ 32 → exec .attest s = .next (s.brdFail 2)) ∧
      (input.length = 32 → s.dikOff = true → exec .attest s = .next s.dikFail) ∧
      (input.length = 32 → s.dikOff = false → exec .attest s = .next (s.brdOut (s.attestReport input)))) ∧
    (has 4 → 16128 + 97 < input.length → ∃ r < 7, r ≠ 0 ∧ exec .verifyImage s = .next (s.took.brdFail r)) ∧
    (has 4 → input.length ≤ 16128 + 97 → (s.imageCheck input = some 0 → exec .verifyImage s = .next ((s.imagePassed input).brdOut [])) ∧
      (∀ r, r ≠ 0 → s.imageCheck input = some r → exec .verifyImage s = .next (s.brdFail r)) ∧
      (s.imageCheck input = none → ∃ r < 7, r ≠ 0 ∧ exec .verifyImage s = .next (s.took.brdFail r))) ∧
    (has 5 ∨ has 6 → s.atRest = false → exec .ownerInstall s = .next (if b.cmdCode = 5 then s.brdFail 4 else s) ∧
      exec .ownerRevoke s = .next (if b.cmdCode = 6 then s.brdFail 4 else s)) ∧
    (has 5 → s.atRest = true → (signed (s.activeKeys 4) = false → exec .ownerInstall s = .next (s.brdFail 1)) ∧
      (∀ k, signed (s.activeKeys 4) = true → (upTo 4).find? (fun j => s.ownerState j == 0) = some k →
        exec .ownerInstall s = .next (State.brdOut ((State.setOwner { s with brd := { b with
          owners := Tab.put (fun _ => []) b.owners k (fit 48 (Config.requestKey input)) } } k 1).keyEvent 5) []))) ∧
    (has 6 → s.atRest = true → ∀ k, k = Config.requestSlot input % 4 →
      (s.ownerState k ≠ 1 → exec .ownerRevoke s = .next (s.brdFail 6)) ∧
      (s.ownerState k = 1 → s.activeKeys k = [] → exec .ownerRevoke s = .next (s.brdFail 4)) ∧
      (s.ownerState k = 1 → s.activeKeys k ≠ [] → signed (s.activeKeys k) = true →
        exec .ownerRevoke s = .next (((s.setOwner k 2).keyEvent 6).brdOut []))) ∧
    (∀ k v t, k < 4 → v < 4 → t = s.setOwner k v → t.ownerState k = v ∧ (∀ j < 4, j ≠ k → t.ownerState j = s.ownerState j) ∧
      (t.flag R.BRD_STATUS F.BRD_STATUS_OPEN = true ↔ ∀ j < 4, t.ownerState j ≠ 1) ∧
      s.sameRegs t [R.BRD_OWNER, R.BRD_STATUS]) ∧
    (has 7 → ∀ want, want = Config.requestState input →
      (want ≠ 1 ∧ want ≠ 2 → exec .debugUnlock s = .next (s.brdFail 2)) ∧
      (want = 1 ∨ want = 2 → want ≤ s.fget R.BRD_DEBUG F.BRD_DEBUG_STATE → exec .debugUnlock s = .next (s.brdFail 4)) ∧
      (want = 1 → s.fget R.BRD_DEBUG F.BRD_DEBUG_STATE = 0 →
        (s.activeKeys 4 = [] → exec .debugUnlock s = .next (s.brdFail 6)) ∧
        (s.activeKeys 4 ≠ [] → signed (s.activeKeys 4) = true → ∃ t,
          exec .debugUnlock s = .next t ∧ t.fget R.BRD_DEBUG F.BRD_DEBUG_STATE = 1 ∧
          t.brd.sessions = b.sessions ∧ t.fget R.BRD_CMD F.BRD_CMD_RESULT = 0)) ∧
      (want = 2 → s.fget R.BRD_DEBUG F.BRD_DEBUG_STATE < 2 → ∀ keys, keys = [0xF0, 0xF1].filterMap s.signerKey →
        (signed keys = false → exec .debugUnlock s = .next (s.brdFail 1)) ∧
        (signed keys = true → ∃ t, exec .debugUnlock s = .next t ∧ t.fget R.BRD_DEBUG F.BRD_DEBUG_STATE = 2 ∧
          t.dikOff = true ∧ t.fget R.BRD_CMD F.BRD_CMD_RESULT = 0 ∧
          ∀ q : Fin 4, (s.session q).valid = true → (t.session q).valid = false))) ∧
    (has 8 → exec .zeroise s = .next (s.zeroise.brdOut [])) ∧
    (∀ t, t = s.zeroise → t.flag R.BRD_STATUS F.BRD_STATUS_ZEROISED = true ∧ ∀ q : Fin 4, (t.session q).valid = false ∨
      ((s.session q).valid = false ∧ (s.session q).old = [] ∧ t.session q = s.session q)) ∧
    (has 9 → (s.runState ≠ 0 → exec .decommission s = .next (s.brdFail 4)) ∧
      (s.runState = 0 → s.activeKeys 4 = [] → exec .decommission s = .next (s.brdFail 6)) ∧
      (s.runState = 0 → s.activeKeys 4 ≠ [] → signed (s.activeKeys 4) = true → exec .decommission s =
        .next ((State.keyEvent { s with brd := { b with secretOff := true } } 9).brdOut []))) ∧
    (has 10 → ∀ c, b.cert = some c → exec .getCert s = .next (s.brdOut c)) ∧
    exec (.keyRetire p) s = .next (s.setSession p { s.session p with
      old := (s.session p).old.filter (fun k => (upTo 32).any (fun e => s.engineUnder [k] e)) }) ∧
    (b.backlog = [] → exec .journalExport s = .next s) ∧
    (∀ e j rest, b.backlog = (e, j) :: rest →
      (sideDepth ≤ (s.side 1).quill.length → exec .journalExport s = .next s) ∧
      ((s.side 1).quill.length < sideDepth → exec .journalExport s =
        .next ((s.setBacklog rest).sidePush 1 ⟨e.wt, e.frac, 0, e.bytes j, s.beats⟩))) ∧
    (let ends := s.runState = rsStopping ∧ s.run.manifest = 0 ∧ ∀ k < 256, s.streamOn k = true → (s.stream k).runEnd = true
     (¬ends → exec .manifestBegin s = .next s) ∧
      (ends → s.dikOff = false → s.pwr.brownout ≠ none → exec .manifestBegin s =
        .next (State.raise { s with run := { s.run with manifest := 4 } } vBRD 3)) ∧
      (s.run.manifest = 4 → s.manifestAgain = s.manifestStart) ∧
      (ends → s.dikOff = false → s.pwr.brownout = none → ∃ t, exec .manifestBegin s = .next t ∧ t.run.manifest = 1 ∧
        t.brd.manifest = (s.fon R.BRD_STATUS F.BRD_STATUS_SIGNING).manifestBytes ∧ t.brd.manifestWt = s.wt ∧
        t.flag R.BRD_STATUS F.BRD_STATUS_SIGNING = true ∧ s.sameRegs t [R.BRD_STATUS]) ∧
      (ends → s.dikOff = true → ∃ t, exec .manifestBegin s = .next t ∧ t.run.manifest = 3 ∧ t.brd.manifest = b.manifest)) ∧
    (s.run.manifest ≠ 1 → s.run.manifest ≠ 2 → exec .manifestPush s = .next s) ∧
    (s.run.manifest = 1 ∨ s.run.manifest = 2 →
      (s.manifestRoom b.manifest = false → ∃ t, exec .manifestPush s = .next t ∧ t.run.manifest = 2 ∧ t.recs = s.recs ∧
        t.flag R.BRD_STATUS F.BRD_STATUS_SIGNING = false ∧ s.sameRegs t [R.BRD_STATUS]) ∧
      (s.manifestRoom b.manifest = true → ∃ t, exec .manifestPush s = .next t ∧ t.run.manifest = 3 ∧ t.brd.manifest = [] ∧
        t.flag R.BRD_INT_STATUS F.BRD_INT_STATUS_MANIFEST = true))

/-- R420 and R422. -/
def Obligations.JournalIsOneChain : Prop :=
  ∀ (s : State) (es : List JEntry), s.brd.chain = es →
    let j := (s.rd R.BRD_JSEQ).toNat
    j + es.length < 2 ^ 32 → s.brd.backlog.length ≤ 16384 →
    let t := (List.range es.length).foldl (fun (x : State) _ => x.chainOne) s
    let kept := min es.length (16384 - s.brd.backlog.length)
    t.brd.chain = [] ∧ (t.rd R.BRD_JSEQ).toNat = j + es.length ∧
    t.brd.head = (es.zipIdx j).foldl (fun h e => sha384 (h ++ e.1.bytes e.2)) s.brd.head ∧
    t.brd.backlog = s.brd.backlog ++ (es.zipIdx j).take kept ∧
    t.rd R.BRD_JRN_DROP_CNT = s.rd R.BRD_JRN_DROP_CNT + w32 (es.length - kept) ∧
    (t.brd.jrnGap = true ↔ s.brd.jrnGap = true ∨ kept < es.length)

/-- FAR_PROG, FAR_PROG_DONE, STATS_GO, STATS_CANCEL, STATS_COUNT_DONE and STATS_APPLY (R433, R437). The model's readings: entries
167 to 172. -/
def Obligations.FarrierCommands : Prop :=
  ∀ (s : State) (c : Fin 192),
    let busy := s.flag R.FAR_STATUS F.FAR_STATUS_BUSY
    let r := s.staged
    let off := R.CND_OFFSET (c / 8) (c % 8)
    let gain := R.CND_GAIN (c / 8) (c % 8)
    let idle := s.flag (R.CND_STATUS (c / 8)) F.CND_STATUS_ENABLE = false
    let full := 2 ^ fieldOf s.far.statsCfg F.FAR_STATS_CFG_WINDOW
    (busy = true → s.flag R.FAR_CTRL F.FAR_CTRL_PROG = true → exec .farProg s = .next (s.again R.FAR_CTRL 0)) ∧
    (busy = true → s.flag R.FAR_CTRL F.FAR_CTRL_PROG = false → exec .farProg s = .next (s.raise vFAR 5)) ∧
    (busy = false → s.pwr.brownout ≠ none → exec .farProg s = .next (s.fon R.FAR_CTRL F.FAR_CTRL_PROG)) ∧
    (busy = false → s.pwr.brownout = none → s.farCheck r ≠ 0 →
      exec .farProg s = .next (((s.farResult (s.farCheck r) 0).raise vFAR 1).foff R.FAR_CTRL F.FAR_CTRL_PROG)) ∧
    (busy = false → s.pwr.brownout = none → s.farCheck r = 0 → ∃ k < 128, s.slotUsed k = false ∧
      (∀ j < k, s.slotUsed j = true) ∧ exec .farProg s = .next ((s.fon R.FAR_CTRL F.FAR_CTRL_PROG).farBegin ⟨k, r, none⟩)) ∧
    (recImage r = false → s.farCheck r = 2) ∧
    (recImage r = true → recListed r = false → s.farCheck r = 3) ∧
    (recImage r = true → recListed r = true → recPlausible r = false → s.farCheck r = 4) ∧
    (recImage r = true → recListed r = true → recPlausible r = true → s.genOk r = false → s.farCheck r = 5) ∧
    (recImage r = true → recListed r = true → recPlausible r = true → s.genOk r = true →
      ((∀ k < 128, s.slotUsed k = true) → s.farCheck r = 1) ∧ (∀ k < 128, s.slotUsed k = false → s.farCheck r = 0)) ∧
    (∀ x ∈ s.itemSlots (recKind r) (recIndex r), recGen r < recGen x → s.genOk r = false) ∧
    ((∀ x ∈ s.itemSlots (recKind r) (recIndex r), recGen x < recGen r) → s.genOk r = true) ∧
    (∀ back, s.far.prog = none → exec (.farProgDone back) s = .next s) ∧
    (∀ p, s.far.prog = some p → p.auto = none → p.slot < 128 → recMark p.bytes = 0xFA7C → s.far.waiting = [] →
      (∃ t, exec (.farProgDone none) s = .next t ∧ t.far.prog = none ∧ t.slot p.slot = p.bytes ∧
        (∀ j, j ≠ p.slot → t.slot j = s.slot j) ∧ t.flag R.FAR_STATUS F.FAR_STATUS_BUSY = false ∧
        t.fget R.FAR_PROG_STATUS F.FAR_PROG_STATUS_RESULT = 0 ∧ t.fget R.FAR_PROG_STATUS F.FAR_PROG_STATUS_SLOT = p.slot ∧
        t.flag R.FAR_INT_STATUS F.FAR_INT_STATUS_PROG_DONE = true ∧ t.flag R.FAR_CTRL F.FAR_CTRL_PROG = false ∧
        t.brd = s.brd ∧ t.cond = s.cond ∧ t.hbm = s.hbm) ∧
      (∀ back, ∃ t, exec (.farProgDone (some back)) s = .next t ∧ t.far.prog = none ∧ (t.slot p.slot)[3]? = some 0xFF#8 ∧
        (∀ j, j ≠ p.slot → t.slot j = s.slot j) ∧ t.flag R.FAR_STATUS F.FAR_STATUS_BUSY = false ∧
        t.fget R.FAR_PROG_STATUS F.FAR_PROG_STATUS_RESULT = 7 ∧ t.fget R.FAR_PROG_STATUS F.FAR_PROG_STATUS_SLOT = p.slot ∧
        t.flag R.FAR_INT_STATUS F.FAR_INT_STATUS_PROG_FAIL = true ∧ t.flag R.FAR_CTRL F.FAR_CTRL_PROG = false)) ∧
    exec .statsGo s = .next ((s.fon R.FAR_CTRL F.FAR_CTRL_STATS_GO).fon R.FAR_STATUS F.FAR_STATUS_STATS_PENDING) ∧
    (∃ t, exec .statsCancel s = .next t ∧ t.far = { s.far with stats := [] } ∧
      t.flag R.FAR_CTRL F.FAR_CTRL_STATS_GO = false ∧ t.flag R.FAR_STATUS F.FAR_STATUS_STATS_PENDING = false ∧
      t.flag R.FAR_STATUS F.FAR_STATUS_STATS_ACTIVE = false ∧ s.sameRegs t [R.FAR_CTRL, R.FAR_STATUS]) ∧
    (Tab.get (fun _ => none) s.far.stats c = none → exec (.statsCountDone c) s = .next s) ∧
    (∀ x, Tab.get (fun _ => none) s.far.stats c = some x →
      (x.n < full → exec (.statsCountDone c) s = .next s) ∧
      (full ≤ x.n → exec (.statsCountDone c) s = .next { s with far := { s.far with
        stats := Tab.put (fun _ => none) s.far.stats c (some { x with done := true }) } })) ∧
    (c.val ∉ s.far.toApply ∨ ¬idle → exec (.statsApply c) s = .next s) ∧
    (c.val ∈ s.far.toApply → idle → ∃ t, exec (.statsApply c) s = .next t ∧
      t.fget off F.CND_OFFSET_OFFSET = s.fget (R.FAR_STATS_RES0 c) F.FAR_STATS_RES0_OFFSET ∧
      t.fget gain F.CND_GAIN_GAIN = s.fget (R.FAR_STATS_RES0 c) F.FAR_STATS_RES0_GAIN_LO
        + 65536 * s.fget (R.FAR_STATS_RES1 c) F.FAR_STATS_RES1_GAIN_HI ∧
      (s.tick.soft ≤ s.brd.chain.length →
        let n := s.brd.chain.length - s.tick.soft
        t.brd.chain = s.brd.chain.take n ++ [t.jentry 2 0x40 0 off (t.rd off).toNat, t.jentry 2 0x40 0 gain (t.rd gain).toNat] ++
          s.brd.chain.drop n) ∧
      (t.brd.sealed = true ↔ s.brd.sealed = true ∧ t.rd off = s.rd off ∧ t.rd gain = s.rd gain) ∧
      c.val ∉ t.far.toApply ∧ s.sameRegs t [off, gain]) ∧
    (∀ (x : StatSum) (target g : Nat), 0 < x.n → x.n ≤ 2 ^ 24 → target < 2 ^ 16 → statGain x target = some g →
      let v := ((x.s2 * x.n : Nat) - x.s1 * x.s1).toNat
      let a := 2 * (16384 * target * x.n)
      0 < v ∧ (0 < g → (2 * g - 1) * (2 * g - 1) * v ≤ a * a) ∧ a * a < (2 * g + 1) * (2 * g + 1) * v)

/-- R430 and R431. -/
def Obligations.RecordsInForce : Prop :=
  ∀ (s : State) (kind index : Nat),
    let force := s.inForce kind index
    let rs := s.itemRecords kind index
    (∀ e ∈ force, recValid e.2 = true ∧ recKind e.2 = kind ∧ recIndex e.2 = index) ∧
    (∀ e ∈ force, ∀ f ∈ force, recGen e.2 = recGen f.2 ∧ recParts e.2 = recParts f.2) ∧
    (∀ e ∈ force, ∀ i < recParts e.2, ∃ f ∈ force, recPart f.2 = i) ∧
    (∀ e ∈ rs, (wholeGen rs (recGen e.2)).isSome = true → ∃ f ∈ force, recGen e.2 ≤ recGen f.2) ∧
    (∀ e ∈ rs, recParts e.2 = 1 → (∀ f ∈ rs, recParts f.2 = 1) → ∃ f ∈ force, recGen e.2 ≤ recGen f.2) ∧
    (∀ k r, Tab.wf (fun _ => []) s.far.slots = true → Tab.get (fun _ => []) s.far.slots k = [] → recValid r = false →
      (s.setSlot k r).inForce kind index = force ∧ ∀ c, (s.setSlot k r).calRecord c = s.calRecord c)

/-- THERMAL_CONVERSION, VOLTAGE_CONVERSION and PROCESS_CONVERSION (R439 to R443). The model's readings: entries 171 and 173 to
176. -/
def Obligations.MonitorConversions : Prop :=
  ∀ (s : State) (t : Fin 32) (v : Fin 16),
    (s.monOn = false → ∀ raw code count, exec (.thermalConversion t raw) s = .next s ∧
      exec (.voltageConversion v code) s = .next s ∧ exec (.processConversion v count) s = .next s) ∧
    (s.monOn = true →
      (∀ raw : Int, exec (.thermalConversion t raw) s = exec (.thermalConversion t raw) (s.trimLoad t)) ∧
      (∀ raw : Int, s.mon.trimDue.contains t.val = false → (∀ b, s.mon.trimNew = some b → s.beats ≤ b) →
        let x := raw + s.trimNow t
        let read := s.fset (R.MON_T t) F.MON_T_READING (unsigned 16 x)
        (-880 ≤ x → x < 2000 → exec (.thermalConversion t raw) s = .next (read.bitOff R.MON_T_FAULT t).thermalLevels ∧
          read.temperature t = x) ∧
        (2000 ≤ x → x ≤ 2400 →
          exec (.thermalConversion t raw) s = .next (read.bitOff R.MON_T_FAULT t).thermalLevels.thermalReset) ∧
        (x < -880 ∨ 2400 < x → s.bit R.MON_T_FAULT t = false → exec (.thermalConversion t raw) s =
          .next ((read.bitOn R.MON_T_FAULT t).event vMON 5 sevError t 0 0).thermalLevels) ∧
        (x < -880 ∨ 2400 < x → s.bit R.MON_T_FAULT t = true → exec (.thermalConversion t raw) s = .next read.thermalLevels)) ∧
      (∀ code : BitVec 16,
        let read := s.fset (R.MON_V v) F.MON_V_READING code.toNat
        let out := read.outside v code.toNat
        let no := if out then min 3 (Tab.get (fun _ => 0) s.mon.outRun v + 1) else 0
        let ni := if out then 0 else min 3 (Tab.get (fun _ => 0) s.mon.inRun v + 1)
        ∃ u, exec (.voltageConversion v code) s = .next u ∧ u.fget (R.MON_V v) F.MON_V_READING = code.toNat ∧
          Tab.get (fun _ => 0) u.mon.outRun v = no ∧ Tab.get (fun _ => 0) u.mon.inRun v = ni ∧
          (u.bit R.MON_V_OUT v = true ↔ no = 3 ∨ (s.bit R.MON_V_OUT v = true ∧ ni ≠ 3)) ∧
          (no = 3 → s.bit R.MON_V_OUT v = false → u.flag R.MON_INT_STATUS F.MON_INT_STATUS_V_OUT = true ∧
            u.rd R.ERL_NEXT = s.rd R.ERL_NEXT + 1#32) ∧
          (u.bit R.MON_V_OUT v = s.bit R.MON_V_OUT v → s.sameRegs u [R.MON_V v]) ∧
          s.sameRegs u ([R.MON_V v, R.MON_V_OUT] ++ raiseRegs vMON ++ logRegs sevWarning ++ logRegs sevInfo)) ∧
      (∀ count base : BitVec 32, base ≠ 0#32 →
        (s.settled.payload 9 0).map (fun p => recNat p (32 + 4 * v) 4) = some base.toNat →
        exec (.processConversion v count) s = .next ((s.wr (R.MON_P v) count).wr (R.MON_P_DRIFT v)
          (w32 (unsigned 32 (roundAway (((count.toNat : Int) - base.toNat) * 1000000) base.toNat))))) ∧
      (∀ count, s.settled.payload 9 0 = none →
        exec (.processConversion v count) s = .next ((s.wr (R.MON_P v) count).wr (R.MON_P_DRIFT v) 0#32))) ∧
    (∀ u, u = s.trimLoad t → u.mon.trimDue.contains t.val = false ∧ (∀ b, u.mon.trimNew = some b → s.beats ≤ b) ∧
      s.sameRegs u [R.MON_T_TRIM t] ∧
      ((s.mon.trimDue.contains t.val = true ∨ ∃ b, s.mon.trimNew = some b ∧ b < s.beats) →
        u.fget (R.MON_T_TRIM t) F.MON_T_TRIM_TRIM = ((s.settled.payload 9 0).elim 0 (fun p => recNat p t 1)) % 256) ∧
      (s.mon.trimDue.contains t.val = false → (∀ b, s.mon.trimNew = some b → s.beats ≤ b) → u = s)) ∧
    (∀ (u : State) (x : Int) (m : Nat), u = s.thermalLevels → s.hottest = some (x, m) → -32768 ≤ x → x < 32768 → m < 32 →
      let warn : Int := 16 * s.fget R.MON_THERM_CFG F.MON_THERM_CFG_WARN
      let crit : Int := 16 * s.fget R.MON_THERM_CFG F.MON_THERM_CFG_CRIT
      let hyst : Int := 16 * (max 1 (s.fget R.MON_THERM_CFG F.MON_THERM_CFG_HYST) : Nat)
      signed 16 (u.fget R.MON_T_MAX F.MON_T_MAX_READING) = x ∧ u.fget R.MON_T_MAX F.MON_T_MAX_MONITOR = m ∧
      (u.flag R.MON_STATUS F.MON_STATUS_WARN = true ↔
        warn ≤ x ∨ (s.flag R.MON_STATUS F.MON_STATUS_WARN = true ∧ warn - hyst ≤ x)) ∧
      (u.flag R.MON_STATUS F.MON_STATUS_CRIT = true ↔
        crit ≤ x ∨ (s.flag R.MON_STATUS F.MON_STATUS_CRIT = true ∧ crit - hyst ≤ x)) ∧
      (s.flag R.MON_STATUS F.MON_STATUS_CRIT = s.bit R.PWR_ALERT 1 →
        u.flag R.MON_STATUS F.MON_STATUS_CRIT = u.bit R.PWR_ALERT 1)) ∧
    (∀ x m, s.hottest = some (x, m) → s.temperature m = x ∧ s.bit R.MON_T_EN m = true ∧ s.bit R.MON_T_FAULT m = false ∧
      ∀ k < 32, s.bit R.MON_T_EN k = true → s.bit R.MON_T_FAULT k = false → s.temperature k ≤ x)

/-- TCK_START, TCK_STOP, REG_GO, INJ_GO, PERIODIC_START, TACK_GROUP_DONE, TCK_CAL_GO, TACK_CAL_DONE and CAL_COMMIT (R444 to
R450). The model's readings: entries 171, 177 to 183 and 241. -/
def Obligations.TackCommands : Prop :=
  ∀ s : State,
    let x := s.tck
    let en := s.flag R.TCK_STATUS F.TCK_STATUS_ENABLE
    let periodic := s.flag R.TCK_CFG F.TCK_CFG_MODE
    let running := s.flag R.TCK_STATUS F.TCK_STATUS_REG_BUSY
    let due := s.wt % (s.rd R.TCK_PERIOD).toNat = 0
    let refused := s.raise vTCK 6
    let input := s.fget R.TCK_CAL_CTRL F.TCK_CAL_CTRL_INPUT
    (en = true → exec .tckStart s = .next s) ∧
    (en = false → s.tckOk = true →
      exec .tckStart s = .next ((s.setTck { x with seqCount := 0 }).fon R.TCK_STATUS F.TCK_STATUS_ENABLE)) ∧
    (en = false → s.tckOk = false → ∃ t, exec .tckStart s = .next t ∧ t.tck = x ∧
      t.flag R.TCK_STATUS F.TCK_STATUS_CFG_BAD = true ∧ t.flag R.TCK_STATUS F.TCK_STATUS_ENABLE = false ∧
      t.rd R.ERL_NEXT = s.rd R.ERL_NEXT + 1#32) ∧
    (∀ i e, e < s.tckLen i → 28 < fieldOf (s.tckEntry i e) F.TCK_SEQ_INPUT → s.tckOk = false) ∧
    (∀ i, simultaneous (s.tckEntry i 0) = true → s.tckOk = false) ∧
    (periodic = true → (s.rd R.TCK_PERIOD).toNat < 2400 → s.tckOk = false) ∧
    (x.cal = none → en = false → exec .tckStop s = .next s) ∧
    (x.cal = none → en = true → exec .tckStop s = .next (s.setTck { x with stopping := true }).tckGo) ∧
    (x.cal ≠ none → ∃ t, exec .tckStop s = .next t ∧ t.tck.cal = none ∧ t.flag R.TCK_STATUS F.TCK_STATUS_CAL_BUSY = false ∧
      t.flag R.TCK_INT_STATUS F.TCK_INT_STATUS_CAL_BAD = true) ∧
    (x.group ≠ none → s.tckGo = s) ∧
    (x.group = none → x.stopping = true → ∀ t, t = s.tckGo → t.tck.regNext = none ∧ t.tck.injNext = none ∧
      t.flag R.TCK_STATUS F.TCK_STATUS_ENABLE = false ∧ t.flag R.TCK_STATUS F.TCK_STATUS_REG_BUSY = false ∧
      t.flag R.TCK_STATUS F.TCK_STATUS_INJ_BUSY = false) ∧
    (∀ c, x.group = none → x.stopping = false → x.cal = some c → c.begun = none →
      s.tckGo = s.setTck { x with cal := some { c with begun := some s.beats } }) ∧
    (x.group = none → x.stopping = false → x.cal = none →
      (∀ j, x.injNext = some j → s.tckGo = s.groupStart true j) ∧
      (∀ e, x.injNext = none → x.regNext = some e → s.tckGo = s.groupStart false e)) ∧
    (∀ i e, ∃ n < 16, s.groupStart i e = s.setTck { x with group := some ⟨i, e, n + 1, s.wt, s.nowFrac, s.beats⟩ } ∧
      ∀ k, 0 < k → k ≤ n → e + k < s.tckLen i ∧ simultaneous (s.tckEntry i (e + k)) = true) ∧
    (en = false ∨ periodic = true ∨ x.stopping = true → exec .regGo s = .next refused) ∧
    (en = true → periodic = false → running = true → x.stopping = false → exec .regGo s = .next (s.again R.TCK_CTRL 2)) ∧
    (en = true → periodic = false → running = false → x.stopping = false → exec .regGo s = .next s.regStart) ∧
    (∀ t, t = s.regStart → (x.stopping = false → t.flag R.TCK_STATUS F.TCK_STATUS_REG_BUSY = true) ∧ t.tck.seqCount = x.seqCount + 1 ∧
      t.tck.corrDue = [] ∧ (x.group = none → x.stopping = false → x.cal = none → x.injNext = none →
        t.tck.group.map (fun g => (g.injected, g.first, g.wt, g.since)) = some (false, 0, s.wt, s.beats)) ∧
      (x.corrDue = [] → (∀ b, x.corrNew = some b → s.beats ≤ b) →
        ∀ i < 24, Tab.get (fun _ => (0, 0x10000)) t.tck.corr i = s.corrNow i) ∧
      (∀ b, x.corrNew = some b → b < s.beats → t.tck.corrNew = none ∧ ∀ p i, s.settled.payload 10 0 = some p → i < 24 →
        Tab.get (fun _ => (0, 0x10000)) t.tck.corr i =
          (signed 32 (recNat p (20 + 7 * i) 4 % 2 ^ 32), recNat p (24 + 7 * i) 3 % 2 ^ 24))) ∧
    (en = false ∨ x.cal ≠ none ∨ x.stopping = true → exec .injGo s = .next refused) ∧
    (en = true → x.cal = none → x.stopping = false → x.injNext ≠ none → exec .injGo s = .next (s.again R.TCK_CTRL 3)) ∧
    (en = true → x.injNext = none → x.cal = none → x.stopping = false → s.justStarted = true →
      exec .injGo s = .next (State.tckGo ((s.setTck { x with
        group := none
        injNext := some 0 }).fon R.TCK_STATUS F.TCK_STATUS_INJ_BUSY))) ∧
    (en = true → x.injNext = none → x.cal = none → x.stopping = false → s.justStarted = false →
      exec .injGo s = .next (State.tckGo ((s.setTck { x with injNext := some 0 }).fon R.TCK_STATUS F.TCK_STATUS_INJ_BUSY))) ∧
    (en = false ∨ periodic = false ∨ ¬due ∨ x.stopping = true → exec .periodicStart s = .next s) ∧
    (en = true → periodic = true → due → x.stopping = false → running = true →
      exec .periodicStart s = .next ((s.count R.TCK_SKIP_CNT 1).event vTCK 4 sevInfo 0 0 0)) ∧
    (en = true → periodic = true → due → x.stopping = false → running = false → exec .periodicStart s = .next s.regStart) ∧
    (∀ codes, x.group = none → exec (.tackGroupDone codes) s = .next s) ∧
    (∀ codes g, x.group = some g → s.beats < g.since + 1200 → exec (.tackGroupDone codes) s = .next s) ∧
    (∀ codes g, x.group = some g → g.since + 1200 ≤ s.beats → g.first + g.count ≤ s.tckLen g.injected →
      ∃ t, exec (.tackGroupDone codes) s = .next t ∧
        (∀ i < g.count, let w := s.tckEntry g.injected (g.first + i)
          t.fget ((if g.injected then R.TCK_INJ_RES else R.TCK_RES) (g.first + i)) F.TCK_RES_CODE =
            (s.corrected (fieldOf w F.TCK_SEQ_INPUT) (s.trimmed (fieldOf w F.TCK_SEQ_CONV) (codes.getD i 0#16).toNat)).1) ∧
        (g.first + g.count = s.tckLen g.injected → g.injected = false →
          t.flag R.TCK_STATUS F.TCK_STATUS_REG_BUSY = false ∧ t.flag R.TCK_INT_STATUS F.TCK_INT_STATUS_REG_DONE = true) ∧
        (g.injected = false → g.first = 0 → 0 < g.count → g.wt < 2 ^ 64 → t.pair R.TCK_RES_WT_LO R.TCK_RES_WT_HI = g.wt)) ∧
    (∀ i code z (g : Nat), i < 24 → Tab.get (fun _ => (0, 0x10000)) x.corr i = (z, g) →
      ((s.corrected i code).1 : Int) = clampInt 0 65535 (roundConv ((16 * (code : Int) - z) * (g : Int)) 20)) ∧
    (∀ i code, code < 65536 → 24 ≤ i ∨ Tab.get (fun _ => (0, 0x10000)) x.corr i = (0, 0x10000) →
      s.corrected i code = (code, false)) ∧
    (∀ bytes off, s.flag R.TCK_WR_CFG F.TCK_WR_CFG_EN = true → 12 ≤ s.fget R.TCK_WR_CFG F.TCK_WR_CFG_LEN →
      s.fget R.TCK_WR_CFG F.TCK_WR_CFG_LEN ≤ 30 →
      hbmOffset (s.pair R.TCK_WR_BASE_LO R.TCK_WR_BASE_HI + s.fget R.TCK_WR_PTR F.TCK_WR_PTR_PTR) = some off →
      ∀ t, t = s.tackWrite bytes →
      (s.hbmUnit off ≠ none → t.fget R.TCK_WR_PTR F.TCK_WR_PTR_PTR =
          (s.fget R.TCK_WR_PTR F.TCK_WR_PTR_PTR + 16) % 2 ^ s.fget R.TCK_WR_CFG F.TCK_WR_CFG_LEN ∧
        t.pair R.TCK_WR_CNT_LO R.TCK_WR_CNT_HI = (s.pair R.TCK_WR_CNT_LO R.TCK_WR_CNT_HI + 1) % 2 ^ 64) ∧
      (s.hbmUnit off = none → t.flag R.TCK_WR_CFG F.TCK_WR_CFG_EN = false ∧
        t.flag R.TCK_INT_STATUS F.TCK_INT_STATUS_WR_ERR = true)) ∧
    (x.injNext ≠ none ∨ x.stopping = true → exec .tckCalGo s = .next refused) ∧
    (x.cal ≠ none → x.injNext = none → x.stopping = false → exec .tckCalGo s = .next (s.again R.TCK_CTRL 4)) ∧
    (x.cal = none → x.injNext = none → x.stopping = false → exec .tckCalGo s = .next (State.tckGo
      ((s.setTck { x with cal := some ⟨input, s.fget R.TCK_CAL_CTRL F.TCK_CAL_CTRL_CONV,
        s.fget R.TCK_CAL_CTRL F.TCK_CAL_CTRL_STEP, none⟩ }).fon R.TCK_STATUS F.TCK_STATUS_CAL_BUSY))) ∧
    (∀ codes c b, x.cal = some c → (c.begun = none ∨ (c.begun = some b ∧ s.beats < b + 307200)) →
      exec (.tackCalDone codes) s = .next s) ∧
    (∀ codes c b, x.cal = some c → c.begun = some b → b + 307200 ≤ s.beats → x.group = none → x.stopping = false →
      x.regNext = none → x.injNext = none → ∃ t, exec (.tackCalDone codes) s = .next t ∧ t.tck = { x with cal := none } ∧
        t.rd (if c.step = 0 then R.TCK_CAL_Z else R.TCK_CAL_F) = w32 (unsigned 32
          (roundConv ((codes.take 256).foldl (fun n y => n + s.trimmed c.conv y.toNat) 0 : Nat) 4)) ∧
        t.flag R.TCK_STATUS F.TCK_STATUS_CAL_BUSY = false ∧ t.flag R.TCK_INT_STATUS F.TCK_INT_STATUS_CAL_DONE = true ∧
        s.sameRegs t ([if c.step = 0 then R.TCK_CAL_Z else R.TCK_CAL_F, R.TCK_STATUS] ++ raiseRegs vTCK)) ∧
    (∀ (z f : Int) (g : Nat), z = signed 32 (s.rd R.TCK_CAL_Z).toNat → f = signed 32 (s.rd R.TCK_CAL_F).toNat →
      (24 ≤ input ∨ f ≤ z → exec .calCommit s = .next (s.raise vTCK 3)) ∧
      (input < 24 → z < f → (2 * (g : Int) - 1) * (f - z) ≤ 2097152 * s.fget R.TCK_CAL_TARGET F.TCK_CAL_TARGET_TARGET →
        2097152 * (s.fget R.TCK_CAL_TARGET F.TCK_CAL_TARGET_TARGET : Int) < (2 * (g : Int) + 1) * (f - z) →
        (corrOk z g = false → exec .calCommit s = .next (s.raise vTCK 3)) ∧
        (corrOk z g = true → exec .calCommit s = .next (((s.corrReplace input).wr (R.TCK_IN_CORR_Z input)
          (w32 (unsigned 32 z))).fset (R.TCK_IN_CORR_G input) F.TCK_IN_CORR_G_G g))))

/-- PWR_DOM_TARGET_WRITE, DOMAIN_POWER_DOWN, DOMAIN_OFF, DOMAIN_POWER_UP, DOMAIN_ON, VSTBY_BROWNOUT_BEGIN, VSTBY_BROWNOUT_END,
VIO_BROWNOUT_BEGIN, VIO_BROWNOUT_END and VIO_LOST (R454 to R460). The model's readings: entries 167 to 169, 184, 185, 192,
193 and 263. -/
def Obligations.DomainsAndBrownouts : Prop :=
  ∀ (s : State) (b : Fin 7) (mv : BitVec 16),
    let next := (s.rd R.ERL_NEXT).toNat
    let ready := s.bridgeReady
    let raised (t : State) (k : Nat) : Prop := (t.rd R.PWR_INT_STATUS).getLsbD k = true
    let entry (t : State) (code sev unit a0 a1 : Nat) : Prop := (t.erlEntry next).code = 0xA00 + code ∧
      (t.erlEntry next).sev = sev ∧ (t.erlEntry next).unit = unit ∧ (t.erlEntry next).arg0 = a0 ∧ (t.erlEntry next).arg1 = a1
    (∀ value : BitVec 32, ∃ x, exec (.pwrDomTargetWrite value) s = .next ((ready.took.narrowWrite x R.PWR_DOM_TARGET value false
      (decide (value &&& 0x1FFFFFFF#32 = ready.rd R.PWR_DOM_TARGET))).domTargetPut value) ∧ x < 16 ∧ x % 2 = 1) ∧
    (∀ (value : BitVec 32) (t : State), t = s.domTargetPut value →
      (∀ d < 29, t.bit R.PWR_DOM_TARGET d = (value.getLsbD d || (s.bit R.PWR_DOM_TARGET d && s.downRefused d))) ∧
      (∀ d < 29, s.bit R.PWR_DOM_TARGET d = true → value.getLsbD d = false → s.downRefused d = true → raised t 8) ∧
      ((∀ d < 29, s.bit R.PWR_DOM_TARGET d = true → value.getLsbD d = false → s.downRefused d = false) →
        t = s.wr R.PWR_DOM_TARGET (value &&& 0x1FFFFFFF#32)) ∧
      s.sameRegs t (R.PWR_DOM_TARGET :: raiseRegs vPWR ++ logRegs sevWarning)) ∧
    (∀ d < 29, s.downRefused d = (s.domainTested d ||
      if d = 28 then s.flag R.PNL_STATUS F.PNL_STATUS_ENABLE else !(s.runState == 0 || s.runState == 1))) ∧
    (∀ d, s.domainDue = some d ↔ d < 29 ∧ s.bit R.PWR_DOM_TARGET d ≠ s.bit R.PWR_DOM_STATE d ∧
      ∀ e < d, s.bit R.PWR_DOM_TARGET e = s.bit R.PWR_DOM_STATE e) ∧
    (s.pwr.moving ≠ none ∨ s.domainDue = none → exec .domainPowerDown s = .next s ∧ exec .domainPowerUp s = .next s) ∧
    (∀ d, s.pwr.moving = none → s.domainDue = some d →
      (s.bit R.PWR_DOM_TARGET d = true → exec .domainPowerDown s = .next s ∧ ∃ t, exec .domainPowerUp s = .next t ∧
        t.pwr = { s.pwr with
          moving := some (d, true, s.beats)
          railAt := t.pwr.railAt
          updRetries := 0 } ∧
        (∃ b, t.pwr.railAt = some b ∧ s.beats ≤ b ∧ b ≤ s.beats + 60000) ∧ t.flag R.PWR_STATUS F.PWR_STATUS_TRANSITION = true ∧
        s.sameRegs t [R.PWR_STATUS]) ∧
      (s.bit R.PWR_DOM_TARGET d = false → exec .domainPowerUp s = .next s ∧ ∃ t, exec .domainPowerDown s = .next t ∧
        t.pwr = { s.pwr with moving := some (d, false, s.beats) } ∧ t.flag R.PWR_STATUS F.PWR_STATUS_TRANSITION = true ∧
        (d < 24 → t.bit R.TRD_SLICE_ABSENT d = true) ∧
        (24 ≤ d → (∀ k : Fin 64, s.spnState k ≠ 1 ∨ s.spnTouches k d = none ∨ (s.spch k).work ≠ none) →
          s.sameRegs t [R.PWR_STATUS]) ∧
        (24 ≤ d → ∀ k : Fin 64, s.spnState k = 1 → s.spnTouches k d ≠ none →
          ((s.spch k).work ≠ none → (t.spch k).quiesce = some (s.beats, d)) ∧
          ((s.spch k).work = none → (s.spch k).stopAsked = false → (s.spch k).haltAsked = false →
            t.spnState k = 4 ∧ (t.spch k).pausedIn = some (1, d))))) ∧
    (s.pwr.moving = none → exec .domainOff s = .next s ∧ exec .domainOn s = .next s) ∧
    (∀ d since, s.pwr.moving = some (d, false, since) → d < 29 → exec .domainOn s = .next s ∧
      (s.spnQuiescing d = true → exec .domainOff s = .next s) ∧
      (s.spnQuiescing d = false → ∃ t, exec .domainOff s = .next t ∧ t.pwr = { s.pwr with
          moving := none
          railAt := none } ∧
        t.bit R.PWR_DOM_STATE d = false ∧ (∀ e < 29, e ≠ d → t.bit R.PWR_DOM_STATE e = s.bit R.PWR_DOM_STATE e) ∧
        t.flag R.PWR_STATUS F.PWR_STATUS_TRANSITION = false ∧ raised t 5 ∧
        (∀ a, d < 24 → sliceBase d ≤ a → a < sliceBase d + 0x10000 → t.rd a = resetOf a))) ∧
    (∀ d since, s.pwr.moving = some (d, true, since) → d < 29 → exec .domainOff s = .next s ∧
      ∃ t, exec .domainOn s = .next t ∧ t.pwr = { s.pwr with
          moving := none
          railAt := none } ∧
        t.bit R.PWR_DOM_STATE d = true ∧ (∀ e < 29, e ≠ d → t.bit R.PWR_DOM_STATE e = s.bit R.PWR_DOM_STATE e) ∧
        t.flag R.PWR_STATUS F.PWR_STATUS_TRANSITION = false ∧ raised t 6 ∧
        (∀ a, d < 24 → sliceBase d ≤ a → a < sliceBase d + 0x10000 → t.rd a = resetOf a)) ∧
    (s.pwr.brownout ≠ none ∨ s.pwr.porAt = some s.beats → exec .vstbyBrownoutBegin s = .next s) ∧
    (s.pwr.brownout = none → s.pwr.porAt ≠ some s.beats → ∃ t, exec .vstbyBrownoutBegin s = .next t ∧ t.pwr = { s.pwr with brownout := some s.wt } ∧
      t.flag R.PWR_STATUS F.PWR_STATUS_BROWNOUT = true ∧ t.bit R.PWR_ALERT 4 = true ∧ raised t 0 ∧ entry t 0 1 0 0 0 ∧
      t.far.prog = none ∧ ∀ p, s.far.prog = some p → p.slot < 128 → t.far.slots = s.far.slots ∧ t.slotUsed p.slot = true ∧
        t.fget R.FAR_PROG_STATUS F.FAR_PROG_STATUS_RESULT = 6 ∧ t.fget R.FAR_PROG_STATUS F.FAR_PROG_STATUS_SLOT = p.slot) ∧
    (s.pwr.brownout = none → exec (.vstbyBrownoutEnd mv) s = .next s) ∧
    (∀ t0 < 2 ^ 64, s.pwr.brownout = some t0 → ∃ t, exec (.vstbyBrownoutEnd mv) s = .next t ∧
      t.pwr = { s.pwr with brownout := none } ∧ t.flag R.PWR_STATUS F.PWR_STATUS_BROWNOUT = false ∧
      t.rd R.PWR_BROWNOUT_CNT = s.rd R.PWR_BROWNOUT_CNT + 1#32 ∧ raised t 1 ∧
      (s.far.waiting.length < 1023 → entry t 1 1 0 mv.toNat t0) ∧
      (t.brownoutAny = false → t.bit R.PWR_ALERT 4 = false) ∧ t.far.voidDue = [] ∧
      ∀ k ∈ s.far.voidDue, (t.slot k).take 4 = [0x00#8, 0x00#8, 0x00#8, 0xFF#8]) ∧
    (s.vioSince b ≠ none → exec (.vioBrownoutBegin b) s = .next s) ∧
    (s.vioSince b = none → exec (.vioBrownoutEnd b mv) s = .next s ∧ exec (.vioLost b) s = .next s ∧
      ∃ t, exec (.vioBrownoutBegin b) s = .next t ∧ t.vioSince b = some (s.wt, s.beats) ∧ t.bit R.PWR_VIO_STATUS (16 + b) = true ∧
        t.bit R.PWR_ALERT 4 = true ∧ raised t 2 ∧ entry t 2 1 b 0 0 ∧ ∀ c : Fin 7, c ≠ b → t.vioSince c = s.vioSince c) ∧
    (∀ t0 since, t0 < 2 ^ 64 → s.vioSince b = some (t0, since) →
      (∃ t, exec (.vioBrownoutEnd b mv) s = .next t ∧ t.vioSince b = none ∧ t.bit R.PWR_VIO_STATUS (16 + b) = false ∧
        t.bit R.PWR_VIO_STATUS (24 + b) = false ∧ raised t 3 ∧ (t.brownoutAny = false → t.bit R.PWR_ALERT 4 = false) ∧
        (4 ≤ b.val → entry t 3 1 b mv.toNat t0) ∧
        (∀ first last n, b.val < 4 → Tab.get (fun _ => (0, 0, 0)) s.pwr.suspects b = (first, last, n) → first < 2 ^ 64 →
          n < 2 ^ 16 → entry t 3 1 b (min 0xFFFFFFFF (last - first)) first ∧ (t.erlEntry next).count = n)) ∧
      (s.bankLost b = true → exec (.vioLost b) s = .next s) ∧
      (s.bankLost b = false → ∃ t, exec (.vioLost b) s = .next t ∧ t.bankLost b = true ∧ raised t 4 ∧
        (b.val = 4 → ∀ o < 16, nbit t.trd.pins o = s.flag (R.TRD_OUT_CFG o) F.TRD_OUT_CFG_POL) ∧
        (b.val = 6 → s.bootStage = bsSealed ∨ s.bootStage = bsUserLoad →
          t.bootStage = bsFailed ∧ t.fget R.GLB_BOOT F.GLB_BOOT_FAIL_STAGE = s.bootStage ∧ t.bit R.PWR_ALERT 0 = true) ∧
        (b.val ≠ 6 → entry t 4 2 b 0 0 ∧ t.bootStage = s.bootStage)))

/-- POWER_ON_RESET, NRESET_ASSERT, PWR_OK_LOW, NRESET_RELEASE, DEVICE_RESET, THERMAL_HOLD_END, PWR_BLK_RESET, ERL_COALESCE_COMMIT,
AGE_TICK and DRIFT_CHECK (R386, R460, R461, R468, R470). The model's readings: entries 186 to 191 and 269. -/
def Obligations.ResetsAndAgeing : Prop :=
  ∀ s : State,
    let held (n : Bool) (p : Bool) (r : State) : State := { r with pwr := { r.pwr with
      nresetLow := n || r.pwr.nresetLow
      pwrOkLow := p || r.pwr.pwrOkLow } }
    let fuses := [R.BRD_OWNER, R.BRD_SVN, R.BRD_STATUS]
    let slow (q : Nat) : Prop := signed 32 (s.rd (R.MON_P_DRIFT q)).toNat < -(s.fget R.PWR_AGE_CFG F.PWR_AGE_CFG_DRIFT_WARN : Int)
    let acc := s.pwr.ageAcc + ageStep (signed 16 (s.fget R.MON_T_MAX F.MON_T_MAX_READING))
    (∃ t, exec .powerOnReset s = .next t ∧ (∀ a, a ∉ fuses → t.rd a = resetOf a) ∧ t.rd R.BRD_OWNER = s.rd R.BRD_OWNER ∧
      t.now = 0#64 ∧ t.hbm = [] ∧ t.pwr = { State.reset.pwr with porAt := some s.beats } ∧ t.mon = State.reset.mon ∧ t.pending = s.pending ∧
      (s.far.prog = none → s.far.voidDue = [] → t.far = { State.reset.far with slots := s.far.slots })) ∧
    exec .nresetAssert s = .next (held true false (s.deviceReset 1)) ∧
    exec .pwrOkLow s = .next (held false true (s.deviceReset 2)) ∧
    exec .deviceReset s = .next (s.deviceReset 3).driftCheck.bootIfReleased ∧
    (∀ c, 1 ≤ c → c ≤ 4 → let t := s.deviceReset c
      (∀ a ∈ [R.PWR_LAST_FATAL, R.PWR_LAST_FATAL_WT_LO, R.PWR_LAST_FATAL_WT_HI, R.PWR_BROWNOUT_CNT, R.PWR_AGE_EQ, R.PWR_POWERED],
        t.rd a = s.rd a) ∧
      t.rd R.PWR_RESET_CAUSE = w32 (2 ^ c) ∧
      (∀ a, a ∉ keptRegs ++ fuses ++ [R.PWR_RESET_CAUSE, R.PWR_STATUS, R.PWR_ALERT, R.MON_V 0, R.GLB_BOOT] →
        t.rd a = resetOf a) ∧
      (c < 3 ∨ s.bootStage ≠ 15 → t.rd R.GLB_BOOT = resetOf R.GLB_BOOT) ∧
      (3 ≤ c → s.bootStage = 15 → t.bootStage = 15 ∧ t.bit R.PWR_ALERT 0 = true ∧ t.bootIfReleased = t ∧
        t.fget R.GLB_BOOT F.GLB_BOOT_FAIL_STAGE = s.fget R.GLB_BOOT F.GLB_BOOT_FAIL_STAGE) ∧
      t.now = 0#64 ∧ t.runState = 0 ∧ t.hbm = [] ∧ (∀ p, (t.session p).valid = false) ∧ t.outs = s.outs ∧
      (s.far.prog = none → s.far.voidDue = [] → t.far.slots = s.far.slots)) ∧
    (∀ canid vstby vio, s.pwr.nresetLow = false → s.pwr.pwrOkLow = false → exec (.nresetRelease canid vstby vio) s = .next s) ∧
    (∀ canid vstby vio, s.pwr.nresetLow = true ∨ s.pwr.pwrOkLow = true → ∃ t, exec (.nresetRelease canid vstby vio) s = .next t ∧
      t.pwr.nresetLow = false ∧ t.pwr.pwrOkLow = false ∧ t.pwr.canid = some canid.toNat ∧
      (∀ b < 7, t.fget R.PWR_VIO_STATUS F.PWR_VIO_STATUS_NOMINAL / 4 ^ b % 4 = vioNominal (vio.getD b 0#16).toNat) ∧
      (s.pwr.thermalHold = false → s.bootStage ≠ 15 → t.bootStage = 0 ∧
        t.fget (R.MON_V 0) F.MON_V_NOM = nominalOf (vioNominal vstby.toNat) ∧ t.fget (R.MON_V 1) F.MON_V_NOM = 750 ∧
        ∀ b < 4, t.fget (R.MON_V (12 + b)) F.MON_V_NOM = nominalOf (vioNominal (vio.getD b 0#16).toNat))) ∧
    (∀ (mv : Nat) (m : Int), m = mv → ∀ x ∈ [1800, 2500, 3300], (m - nominalOf (vioNominal mv)).natAbs ≤ (m - x).natAbs) ∧
    (s.pwr.thermalHold = false → exec .thermalHoldEnd s = .next s) ∧
    (s.pwr.thermalHold = true → ∃ t, exec .thermalHoldEnd s = .next t ∧ t.pwr = { s.pwr with thermalHold := false } ∧
      t.bit R.PWR_ALERT 5 = false) ∧
    (∀ d < 29, exec (.pwrBlkReset (BitVec.ofNat 32 (2 ^ d))) s = .next (s.blockReset d)) ∧
    (∀ d up since, s.bit R.PWR_DOM_STATE d = false ∨ s.pwr.moving = some (d, up, since) → s.blockReset d = s.raise vPWR 8) ∧
    (∀ (n : Nat) (t : State), n < 24 → t = s.blockReset n → s.bit R.PWR_DOM_STATE n = true → s.pwr.moving = none → s.wf = true →
      (∀ a, sliceBase n ≤ a → a < sliceBase n + 0x10000 → t.rd a = keptValue a (s.rd a)) ∧
      t.bit R.TRD_SLICE_ABSENT n = true ∧ t.cond.coef = s.cond.coef ∧ t.trd.masks = s.trd.masks ∧
      t.spec.tables = s.spec.tables ∧ (t.core n).prog = (s.core n).prog ∧ (t.core n).data = (s.core n).data) ∧
    (∀ o, (s.erl.opens.map (fun (x : ErlOpen) => x.eseq)).Nodup → o ∈ s.erl.opens → ∃ t, exec .erlCoalesceCommit s = .next t ∧
      t.erl.opens = s.erl.opens.filter (fun (x : ErlOpen) => decide (s.beats < x.last + 1024)) ∧
      (o.last + 1024 ≤ s.beats → (s.erlEntry o.eseq).eseq = o.eseq → (t.erlEntry o.eseq).isOpen = false)) ∧
    (s.pwr.poweredAcc < 225 → (s.rd R.PWR_AGE_EQ).toNat + acc / (225 * 2 ^ 16) < 2 ^ 32 → (s.rd R.PWR_POWERED).toNat + 1 < 2 ^ 32 →
      ∃ t, exec .ageTick s = .next t ∧
        (t.rd R.PWR_AGE_EQ).toNat * (225 * 2 ^ 16) + t.pwr.ageAcc = (s.rd R.PWR_AGE_EQ).toNat * (225 * 2 ^ 16) + acc ∧
        t.pwr.ageAcc < 225 * 2 ^ 16 ∧
        (t.rd R.PWR_POWERED).toNat * 225 + t.pwr.poweredAcc = (s.rd R.PWR_POWERED).toNat * 225 + s.pwr.poweredAcc + 1 ∧
        (t.pwr.ageWarned = true ↔ s.pwr.ageWarned = true ∨ t.rd R.PWR_AGE_LIMIT ≤ t.rd R.PWR_AGE_EQ) ∧
        (t.pwr.ageWarned = true → s.pwr.ageWarned = false → t.flag R.PWR_INT_STATUS F.PWR_INT_STATUS_AGE_WARN = true) ∧
        s.sameRegs t ([R.PWR_AGE_EQ, R.PWR_POWERED] ++ raiseRegs vPWR ++ logRegs sevWarning)) ∧
    (∀ k : Nat, k < 21 → ageStep (16 * (10 * (k : Int) - 75)) = 2 ^ k) ∧
    ((∀ q < 16, ¬slow q) ∨ s.pwr.driftWarned = true → exec .driftCheck s = .next s) ∧
    (∀ q < 16, s.pwr.driftWarned = false → slow q → (∀ p < q, ¬slow p) → exec .driftCheck s =
      .next (State.event { s with pwr := { s.pwr with driftWarned := true } } vPWR 9 sevWarning q 0 0))

/-- PDK_GO, PDK_ABORT and PDK_TEST_DONE (R463 to R465). The model's readings: entries 194 to 196. -/
def Obligations.PaddockTests : Prop :=
  ∀ (s : State) (u : Fin 130) (sig : BitVec 32) (info : BitVec 25) (repair : BitVec 16),
    let running := s.flag R.PDK_STATUS F.PDK_STATUS_RUNNING
    let wanted (k : Nat) : Prop := k < 130 ∧ s.bit (R.PDK_REQ (k / 32)) (k % 32) = true
    let raised (t : State) (k : Nat) : Prop := (t.rd R.PDK_INT_STATUS).getLsbD k = true
    let result (t : State) : Nat := t.fget R.PDK_STATUS F.PDK_STATUS_RESULT
    let m := s.pdk.mode
    let bad : Prop := (m % 2 = 1 ∧ sig ≠ Config.padSignature u) ∨ (2 ≤ m ∧ info.toNat % 65536 ≠ 0)
    let retire := R.SPC_RETIRE (u / 4)
    (∀ n < 24, s.unitDisabled (96 + n) = s.unitDisabled (4 * n)) ∧
    (s.unitDisabled 120 = true ↔ s.runState = 0 ∨ s.runState = 1) ∧
    (running = true → exec .pdkGo s = .next (s.again R.PDK_CTRL 0)) ∧
    (running = false → (∃ k, wanted k ∧ s.unitDisabled k = false) → ∃ t, exec .pdkGo s = .next t ∧ result t = 3 ∧ raised t 2 ∧
      t.pdk = s.pdk ∧ (∀ k < 130, t.bit (R.PDK_BUSY (k / 32)) (k % 32) = true ↔ wanted k ∧ s.unitDisabled k = false) ∧
      s.sameRegs t ([R.PDK_STATUS, R.PDK_BUSY 0, R.PDK_BUSY 1, R.PDK_BUSY 2, R.PDK_BUSY 3, R.PDK_BUSY 4] ++ raiseRegs vPDK)) ∧
    (running = false → (∀ k, wanted k → s.unitDisabled k = true) → (∃ k, wanted k) → ∃ t, exec .pdkGo s = .next t ∧
      t.flag R.PDK_STATUS F.PDK_STATUS_RUNNING = true ∧ (∀ k, k ∈ t.pdk.running ↔ wanted k) ∧
      t.pdk.mode = (if s.fget R.PDK_CFG F.PDK_CFG_MODE = 0 then 3 else s.fget R.PDK_CFG F.PDK_CFG_MODE) ∧
      (∀ w < 5, t.rd (R.PDK_FAIL w) = 0#32) ∧
      s.sameRegs t [R.PDK_STATUS, R.PDK_FAIL 0, R.PDK_FAIL 1, R.PDK_FAIL 2, R.PDK_FAIL 3, R.PDK_FAIL 4]) ∧
    (running = false → (∀ k, ¬wanted k) → ∃ t, exec .pdkGo s = .next t ∧ result t = 1 ∧ raised t 0 ∧
      t.flag R.PDK_STATUS F.PDK_STATUS_RUNNING = false) ∧
    (running = false → exec .pdkAbort s = .next s) ∧
    (running = true → ∃ t, exec .pdkAbort s = .next t ∧ result t = 4 ∧ raised t 0 ∧ t.pdk.running = [] ∧
      t.flag R.PDK_STATUS F.PDK_STATUS_RUNNING = false ∧ t.pdk.results = s.pdk.results) ∧
    (u.val ∉ s.pdk.running → exec (.pdkTestDone u sig info repair) s = .next s) ∧
    (u.val ∈ s.pdk.running → ∃ t, exec (.pdkTestDone u sig info repair) s = .next t ∧
      t.pdk.running = s.pdk.running.filter (fun v => decide (v ≠ u.val)) ∧
      (let x := Tab.get (fun _ => PdkRes.none) t.pdk.results u
       (m % 2 = 1 → x.sig = sig.toNat ∧ x.expected = (Config.padSignature u).toNat) ∧
        (2 ≤ m → x.memInfo = info.toNat ∧ x.repair = repair.toNat) ∧
        (s.fget R.PDK_SEL F.PDK_SEL_UNIT = u.val → m = 3 → t.rd R.PDK_SIG = sig ∧ t.rd R.PDK_SIG_EXP = Config.padSignature u ∧
          (t.rd R.PDK_MEM_INFO).toNat = info.toNat ∧ (t.rd R.PDK_REPAIR).toNat = repair.toNat)) ∧
      (bad → t.bit (R.PDK_FAIL (u / 32)) (u % 32) = true ∧ raised t 1 ∧ t.pdk.anyFail = true ∧
        (u.val < 96 → t.bit retire (u % 4) = true ∧ nbit (t.fget retire F.SPC_RETIRE_PDK_FAIL) (u % 4) = true)) ∧
      (¬bad → t.bit (R.PDK_FAIL (u / 32)) (u % 32) = s.bit (R.PDK_FAIL (u / 32)) (u % 32) ∧
        t.pdk.anyFail = s.pdk.anyFail ∧ (u.val < 96 → nbit (t.fget retire F.SPC_RETIRE_PDK_FAIL) (u % 4) = false)) ∧
      (t.pdk.running = [] → raised t 0 ∧ t.flag R.PDK_STATUS F.PDK_STATUS_RUNNING = false ∧
        result t = (if t.pdk.anyFail then 2 else 1)) ∧
      (t.pdk.running ≠ [] → t.flag R.PDK_STATUS F.PDK_STATUS_RUNNING = running) ∧
      (∀ k lo hi a, (k, lo, hi) ∈ [(120, 0x300000, 0x400000), (121, 0x500000, 0x600000), (122, 0x700000, 0x800000),
        (123, 0x800000, 0x900000), (124, 0xA00000, 0xB00000), (125, 0x600000, 0x700000)] → u.val = k → lo ≤ a → a < hi →
        t.rd a = resetOf a))
end

