-- ==== Sys2Proof/Laws/Fields.lean ====
section
/-!
SUPPORT. The laws of register fields: what a field and the fields beside it read after a field was set; single bits.
-/

namespace Sys2Proof.Machine

/-- A field's number, bit by bit. -/
theorem fieldOf_testBit (w : Word) (f : Fld) (i : Nat) :
    (fieldOf w f).testBit i = (decide (i < f.width) && w.getLsbD (f.lo + i)) := by
  simp [fieldOf, Nat.testBit_mod_two_pow, Nat.testBit_div_two_pow, BitVec.testBit_toNat, Nat.add_comm]

theorem fieldMask_getLsbD (f : Fld) (k : Nat) :
    (fieldMask f).getLsbD k = (decide (k < 32) && decide (f.lo ≤ k) && decide (k < f.lo + f.width)) := by
  simp only [fieldMask, BitVec.getLsbD_ofNat, Nat.mul_comm _ (2 ^ f.lo), Nat.testBit_two_pow_mul, Nat.testBit_two_pow_sub_one]
  by_cases h : f.lo ≤ k
  · have : (k - f.lo < f.width) = (k < f.lo + f.width) := by
      apply propext; omega
    simp [h, this]
  · simp [h]

/-- A word in which a field was set, bit by bit. -/
theorem setField_getLsbD (w : Word) (f : Fld) (v k : Nat) :
    (setField w f v).getLsbD k =
      (decide (k < 32) && if f.lo ≤ k ∧ k < f.lo + f.width then v.testBit (k - f.lo) else w.getLsbD k) := by
  simp only [setField, BitVec.getLsbD_or, BitVec.getLsbD_and, BitVec.getLsbD_not, fieldMask_getLsbD, BitVec.getLsbD_ofNat,
    Nat.mul_comm _ (2 ^ f.lo), Nat.testBit_two_pow_mul, Nat.testBit_mod_two_pow]
  by_cases hk : k < 32
  · by_cases hl : f.lo ≤ k
    · by_cases hw : k < f.lo + f.width
      · have : k - f.lo < f.width := by omega
        simp [hk, hl, hw, this]
      · have : ¬ (k - f.lo < f.width) := by omega
        simp [hk, hl, hw, this]
    · simp [hk, hl]
  · have : w.getLsbD k = false := BitVec.getLsbD_of_ge _ _ (by omega)
    simp [hk, this]

/-- A field that was set reads as set. -/
theorem fieldOf_setField (w : Word) (f : Fld) (v : Nat) (h : f.lo + f.width ≤ 32) :
    fieldOf (setField w f v) f = v % 2 ^ f.width := by
  apply Nat.eq_of_testBit_eq
  intro i
  rw [fieldOf_testBit, setField_getLsbD, Nat.testBit_mod_two_pow]
  by_cases hi : i < f.width
  · have h1 : f.lo + i < 32 := by omega
    have h2 : f.lo ≤ f.lo + i ∧ f.lo + i < f.lo + f.width := by omega
    simp [hi, h1, h2]
  · simp [hi]

/-- A field beside one that was set is unchanged. -/
theorem fieldOf_setField_ne (w : Word) (f g : Fld) (v : Nat) (h : g.lo + g.width ≤ f.lo ∨ f.lo + f.width ≤ g.lo) :
    fieldOf (setField w f v) g = fieldOf w g := by
  apply Nat.eq_of_testBit_eq
  intro i
  rw [fieldOf_testBit, fieldOf_testBit, setField_getLsbD]
  by_cases hi : i < g.width
  · have h2 : ¬ (f.lo ≤ g.lo + i ∧ g.lo + i < f.lo + f.width) := by omega
    by_cases h3 : g.lo + i < 32
    · simp [hi, h2, h3]
    · have : w.getLsbD (g.lo + i) = false := BitVec.getLsbD_of_ge _ _ (by omega)
      simp [hi, h3, this]
  · simp [hi]

theorem fieldOf_lt (w : Word) (f : Fld) : fieldOf w f < 2 ^ f.width := Nat.mod_lt _ (Nat.two_pow_pos _)

theorem setBitW_getLsbD (w : Word) (n k : Nat) :
    (setBitW w n).getLsbD k = (w.getLsbD k || (decide (k < 32) && decide (n = k))) := by
  simp only [setBitW, BitVec.getLsbD_or, BitVec.getLsbD_ofNat, Nat.testBit_two_pow]

theorem clrBitW_getLsbD (w : Word) (n k : Nat) : (clrBitW w n).getLsbD k = (w.getLsbD k && !decide (n = k)) := by
  by_cases hk : k < 32
  · simp only [clrBitW, BitVec.getLsbD_and, BitVec.getLsbD_not, BitVec.getLsbD_ofNat, Nat.testBit_two_pow, hk, decide_true,
      Bool.true_and]
  · have : w.getLsbD k = false := BitVec.getLsbD_of_ge _ _ (by omega)
    simp [clrBitW, this]

/-- A field that a bit set lies outside of is unchanged. -/
theorem fieldOf_setBitW_ne (w : Word) (n : Nat) (g : Fld) (h : n < g.lo ∨ g.lo + g.width ≤ n) :
    fieldOf (setBitW w n) g = fieldOf w g := by
  apply Nat.eq_of_testBit_eq
  intro i
  rw [fieldOf_testBit, fieldOf_testBit, setBitW_getLsbD]
  by_cases hi : i < g.width
  · have : ¬ n = g.lo + i := by omega
    simp [hi, this]
  · simp [hi]

end Sys2Proof.Machine
end

