-- ==== Sys2Proof/Laws/Tab.lean ====
section
/-!
SUPPORT. The laws of tables: what a number holds after a put, and that a put keeps the canonical form.
-/

namespace Sys2Proof.Machine

variable {α : Type}

theorem Tab.get_erase_self (d : Nat → α) (t : Tab α) (k : Nat) : Tab.get d (Tab.erase t k) k = d k := by
  induction t with
  | nil => rfl
  | cons p t ih =>
    obtain ⟨a, v⟩ := p
    by_cases h : k = a
    · subst h; simpa [Tab.erase] using ih
    · simp [Tab.erase, h, Tab.get, ih]

theorem Tab.get_erase_ne (d : Nat → α) (t : Tab α) {j k : Nat} (h : j ≠ k) :
    Tab.get d (Tab.erase t k) j = Tab.get d t j := by
  induction t with
  | nil => rfl
  | cons p t ih =>
    obtain ⟨a, v⟩ := p
    by_cases hk : k = a
    · subst hk; simp [Tab.erase, Tab.get, h, ih]
    · simp [Tab.erase, hk, Tab.get, ih]

/-- No entry of the table has number k. -/
def Tab.lacks (k : Nat) (t : Tab α) : Prop := ∀ p ∈ t, p.1 ≠ k

theorem Tab.erase_lacks (t : Tab α) (k : Nat) : Tab.lacks k (Tab.erase t k) := by
  induction t with
  | nil => simp [Tab.lacks, Tab.erase]
  | cons p t ih =>
    obtain ⟨a, v⟩ := p
    by_cases h : k = a
    · simpa [Tab.erase, h] using h ▸ ih
    · intro q hq
      simp only [Tab.erase, h, if_false, List.mem_cons] at hq
      rcases hq with rfl | hq
      · exact fun e => h e.symm
      · exact ih q hq

theorem Tab.get_place_self (d : Nat → α) (k : Nat) (v : α) :
    ∀ t : Tab α, Tab.lacks k t → Tab.get d (Tab.place k v t) k = v := by
  intro t
  induction t with
  | nil => intro _; simp [Tab.place, Tab.get]
  | cons p t ih =>
    obtain ⟨a, w⟩ := p
    intro h
    by_cases hk : k < a
    · simp [Tab.place, hk, Tab.get]
    · have ha : k ≠ a := fun e => h (a, w) (by simp) e.symm
      simp only [Tab.place, hk, if_false, Tab.get, ha]
      exact ih fun q hq => h q (List.mem_cons_of_mem _ hq)

theorem Tab.get_place_ne (d : Nat → α) {j k : Nat} (v : α) (h : j ≠ k) (t : Tab α) :
    Tab.get d (Tab.place k v t) j = Tab.get d t j := by
  induction t with
  | nil => simp [Tab.place, Tab.get, h]
  | cons p t ih =>
    obtain ⟨a, w⟩ := p
    by_cases hk : k < a
    · simp [Tab.place, hk, Tab.get, h]
    · simp [Tab.place, hk, Tab.get, ih]

@[simp] theorem Tab.get_put_self [DecidableEq α] (d : Nat → α) (t : Tab α) (k : Nat) (v : α) :
    Tab.get d (Tab.put d t k v) k = v := by
  unfold Tab.put
  split
  · next h => rw [Tab.get_erase_self]; exact h.symm
  · exact Tab.get_place_self d k v _ (Tab.erase_lacks t k)

theorem Tab.get_put_ne [DecidableEq α] (d : Nat → α) (t : Tab α) {j k : Nat} (v : α) (h : j ≠ k) :
    Tab.get d (Tab.put d t k v) j = Tab.get d t j := by
  unfold Tab.put
  split
  · exact Tab.get_erase_ne d t h
  · rw [Tab.get_place_ne d v h, Tab.get_erase_ne d t h]

theorem Tab.get_put [DecidableEq α] (d : Nat → α) (t : Tab α) (j k : Nat) (v : α) :
    Tab.get d (Tab.put d t k v) j = if j = k then v else Tab.get d t j := by
  by_cases h : j = k
  · subst h; simp
  · simp [h, Tab.get_put_ne d t v h]

/-! ### The canonical form -/

/-- Every number of the table is above n. -/
def Tab.above (n : Nat) (t : Tab α) : Prop := ∀ p ∈ t, n < p.1

theorem Tab.wf_cons [DecidableEq α] (d : Nat → α) (a : Nat) (v : α) (t : Tab α) :
    Tab.wf d ((a, v) :: t) = true ↔ v ≠ d a ∧ Tab.above a t ∧ Tab.wf d t = true := by
  simp [Tab.wf, Tab.above, and_assoc]

theorem Tab.above_erase (n k : Nat) (t : Tab α) (h : Tab.above n t) : Tab.above n (Tab.erase t k) := by
  induction t with
  | nil => exact h
  | cons p t ih =>
    obtain ⟨a, v⟩ := p
    have ht : Tab.above n t := fun q hq => h q (List.mem_cons_of_mem _ hq)
    by_cases hk : k = a
    · simpa [Tab.erase, hk] using hk ▸ ih ht
    · intro q hq
      simp only [Tab.erase, hk, if_false, List.mem_cons] at hq
      rcases hq with rfl | hq
      · exact h _ (by simp)
      · exact ih ht q hq

theorem Tab.above_place (n k : Nat) (v : α) (hk : n < k) (t : Tab α) (h : Tab.above n t) :
    Tab.above n (Tab.place k v t) := by
  induction t with
  | nil => intro q hq; simp [Tab.place] at hq; subst hq; exact hk
  | cons p t ih =>
    obtain ⟨a, w⟩ := p
    by_cases ha : k < a
    · intro q hq
      simp only [Tab.place, ha, if_true, List.mem_cons] at hq
      rcases hq with rfl | rfl | hq
      · exact hk
      · exact h _ (by simp)
      · exact h _ (List.mem_cons_of_mem _ hq)
    · intro q hq
      simp only [Tab.place, ha, if_false, List.mem_cons] at hq
      rcases hq with rfl | hq
      · exact h _ (by simp)
      · exact ih (fun r hr => h r (List.mem_cons_of_mem _ hr)) q hq

theorem Tab.wf_erase [DecidableEq α] (d : Nat → α) (k : Nat) (t : Tab α) (h : Tab.wf d t = true) :
    Tab.wf d (Tab.erase t k) = true := by
  induction t with
  | nil => rfl
  | cons p t ih =>
    obtain ⟨a, v⟩ := p
    rw [Tab.wf_cons] at h
    by_cases hk : k = a
    · simpa [Tab.erase, hk] using hk ▸ ih h.2.2
    · simp only [Tab.erase, hk, if_false]
      rw [Tab.wf_cons]
      exact ⟨h.1, Tab.above_erase a k t h.2.1, ih h.2.2⟩

theorem Tab.wf_place [DecidableEq α] (d : Nat → α) (k : Nat) (v : α) (hv : v ≠ d k) (t : Tab α)
    (hl : Tab.lacks k t) (h : Tab.wf d t = true) : Tab.wf d (Tab.place k v t) = true := by
  induction t with
  | nil => simp [Tab.place, Tab.wf, hv]
  | cons p t ih =>
    obtain ⟨a, w⟩ := p
    rw [Tab.wf_cons] at h
    by_cases hk : k < a
    · simp only [Tab.place, hk, if_true]
      rw [Tab.wf_cons]
      refine ⟨hv, ?_, (Tab.wf_cons d a w t).2 h⟩
      intro q hq
      simp only [List.mem_cons] at hq
      rcases hq with rfl | hq
      · exact hk
      · exact Nat.lt_trans hk (h.2.1 q hq)
    · have hne : a ≠ k := hl (a, w) (by simp)
      simp only [Tab.place, hk, if_false]
      rw [Tab.wf_cons]
      exact ⟨h.1, Tab.above_place a k v (by omega) t h.2.1,
        ih (fun r hr => hl r (List.mem_cons_of_mem _ hr)) h.2.2⟩

/-- A put keeps the canonical form. -/
theorem Tab.wf_put [DecidableEq α] (d : Nat → α) (t : Tab α) (k : Nat) (v : α) (h : Tab.wf d t = true) :
    Tab.wf d (Tab.put d t k v) = true := by
  unfold Tab.put
  split
  · exact Tab.wf_erase d k t h
  · next hv => exact Tab.wf_place d k v hv _ (Tab.erase_lacks t k) (Tab.wf_erase d k t h)

/-- Leaving entries out keeps the canonical form. -/
theorem Tab.wf_filter [DecidableEq α] (d : Nat → α) (f : Nat × α → Bool) (t : Tab α) (h : Tab.wf d t = true) :
    Tab.wf d (t.filter f) = true := by
  induction t with
  | nil => rfl
  | cons p t ih =>
    obtain ⟨a, v⟩ := p
    rw [Tab.wf_cons] at h
    by_cases hf : f (a, v) = true
    · rw [List.filter_cons_of_pos hf, Tab.wf_cons]
      exact ⟨h.1, fun q hq => h.2.1 q (List.mem_filter.1 hq).1, ih h.2.2⟩
    · rw [List.filter_cons_of_neg hf]
      exact ih h.2.2

end Sys2Proof.Machine
end

