-- ==== Sys2Proof/Laws/State.lean ====
section
/-!
SUPPORT. What the plain updates of the state leave: one lemma for each field and update, and what a register reads after it.
-/

namespace Sys2Proof.Machine

@[simp] theorem State.wr_now (s : State) (a : Nat) (v : Word) : (s.wr a v).now = s.now := rfl
@[simp] theorem State.wr_nowFrac (s : State) (a : Nat) (v : Word) : (s.wr a v).nowFrac = s.nowFrac := rfl
@[simp] theorem State.wr_beats (s : State) (a : Nat) (v : Word) : (s.wr a v).beats = s.beats := rfl
@[simp] theorem State.wr_pending (s : State) (a : Nat) (v : Word) : (s.wr a v).pending = s.pending := rfl
@[simp] theorem State.wr_fresh (s : State) (a : Nat) (v : Word) : (s.wr a v).fresh = s.fresh := rfl
@[simp] theorem State.wr_outs (s : State) (a : Nat) (v : Word) : (s.wr a v).outs = s.outs := rfl
@[simp] theorem State.wr_hbm (s : State) (a : Nat) (v : Word) : (s.wr a v).hbm = s.hbm := rfl
@[simp] theorem State.wr_run (s : State) (a : Nat) (v : Word) : (s.wr a v).run = s.run := rfl
@[simp] theorem State.wr_erl (s : State) (a : Nat) (v : Word) : (s.wr a v).erl = s.erl := rfl
@[simp] theorem State.wr_hitch (s : State) (a : Nat) (v : Word) : (s.wr a v).hitch = s.hitch := rfl
@[simp] theorem State.wr_can (s : State) (a : Nat) (v : Word) : (s.wr a v).can = s.can := rfl
@[simp] theorem State.wr_dict (s : State) (a : Nat) (v : Word) : (s.wr a v).dict = s.dict := rfl
@[simp] theorem State.wr_pwr (s : State) (a : Nat) (v : Word) : (s.wr a v).pwr = s.pwr := rfl
@[simp] theorem State.wr_pdk (s : State) (a : Nat) (v : Word) : (s.wr a v).pdk = s.pdk := rfl
@[simp] theorem State.wr_recs (s : State) (a : Nat) (v : Word) : (s.wr a v).recs = s.recs := rfl
@[simp] theorem State.wr_brd (s : State) (a : Nat) (v : Word) : (s.wr a v).brd = s.brd := rfl
@[simp] theorem State.wr_ports (s : State) (a : Nat) (v : Word) : (s.wr a v).ports = s.ports := rfl
@[simp] theorem State.wr_lanes (s : State) (a : Nat) (v : Word) : (s.wr a v).lanes = s.lanes := rfl
@[simp] theorem State.wr_cond (s : State) (a : Nat) (v : Word) : (s.wr a v).cond = s.cond := rfl
@[simp] theorem State.wr_spec (s : State) (a : Nat) (v : Word) : (s.wr a v).spec = s.spec := rfl
@[simp] theorem State.wr_trd (s : State) (a : Nat) (v : Word) : (s.wr a v).trd = s.trd := rfl
@[simp] theorem State.wr_bob (s : State) (a : Nat) (v : Word) : (s.wr a v).bob = s.bob := rfl
@[simp] theorem State.wr_tap (s : State) (a : Nat) (v : Word) : (s.wr a v).tap = s.tap := rfl
@[simp] theorem State.wr_pnl (s : State) (a : Nat) (v : Word) : (s.wr a v).pnl = s.pnl := rfl
@[simp] theorem State.wr_shu (s : State) (a : Nat) (v : Word) : (s.wr a v).shu = s.shu := rfl
@[simp] theorem State.wr_hns (s : State) (a : Nat) (v : Word) : (s.wr a v).hns = s.hns := rfl
@[simp] theorem State.wr_spn (s : State) (a : Nat) (v : Word) : (s.wr a v).spn = s.spn := rfl
@[simp] theorem State.wr_clk (s : State) (a : Nat) (v : Word) : (s.wr a v).clk = s.clk := rfl
@[simp] theorem State.wr_hfb (s : State) (a : Nat) (v : Word) : (s.wr a v).hfb = s.hfb := rfl
@[simp] theorem State.wr_far (s : State) (a : Nat) (v : Word) : (s.wr a v).far = s.far := rfl
@[simp] theorem State.wr_mon (s : State) (a : Nat) (v : Word) : (s.wr a v).mon = s.mon := rfl
@[simp] theorem State.wr_tck (s : State) (a : Nat) (v : Word) : (s.wr a v).tck = s.tck := rfl
@[simp] theorem State.wr_tick (s : State) (a : Nat) (v : Word) : (s.wr a v).tick = s.tick := rfl
@[simp] theorem State.wr_breach (s : State) (a : Nat) (v : Word) : (s.wr a v).breach = s.breach := rfl
@[simp] theorem State.wr_spnTurns (s : State) (a : Nat) (v : Word) : (s.wr a v).spnTurns = s.spnTurns := rfl
@[simp] theorem State.wr_turns (s : State) (a : Nat) (v : Word) : (s.wr a v).turns = s.turns := rfl

@[simp] theorem State.emit_now (s : State) (x : Out) : (s.emit x).now = s.now := rfl
@[simp] theorem State.emit_nowFrac (s : State) (x : Out) : (s.emit x).nowFrac = s.nowFrac := rfl
@[simp] theorem State.emit_beats (s : State) (x : Out) : (s.emit x).beats = s.beats := rfl
@[simp] theorem State.emit_pending (s : State) (x : Out) : (s.emit x).pending = s.pending := rfl
@[simp] theorem State.emit_fresh (s : State) (x : Out) : (s.emit x).fresh = s.fresh := rfl
@[simp] theorem State.emit_regs (s : State) (x : Out) : (s.emit x).regs = s.regs := rfl
@[simp] theorem State.emit_hbm (s : State) (x : Out) : (s.emit x).hbm = s.hbm := rfl
@[simp] theorem State.emit_run (s : State) (x : Out) : (s.emit x).run = s.run := rfl
@[simp] theorem State.emit_erl (s : State) (x : Out) : (s.emit x).erl = s.erl := rfl
@[simp] theorem State.emit_hitch (s : State) (x : Out) : (s.emit x).hitch = s.hitch := rfl
@[simp] theorem State.emit_can (s : State) (x : Out) : (s.emit x).can = s.can := rfl
@[simp] theorem State.emit_dict (s : State) (x : Out) : (s.emit x).dict = s.dict := rfl
@[simp] theorem State.emit_pwr (s : State) (x : Out) : (s.emit x).pwr = s.pwr := rfl
@[simp] theorem State.emit_pdk (s : State) (x : Out) : (s.emit x).pdk = s.pdk := rfl
@[simp] theorem State.emit_recs (s : State) (x : Out) : (s.emit x).recs = s.recs := rfl
@[simp] theorem State.emit_brd (s : State) (x : Out) : (s.emit x).brd = s.brd := rfl
@[simp] theorem State.emit_ports (s : State) (x : Out) : (s.emit x).ports = s.ports := rfl
@[simp] theorem State.emit_lanes (s : State) (x : Out) : (s.emit x).lanes = s.lanes := rfl
@[simp] theorem State.emit_cond (s : State) (x : Out) : (s.emit x).cond = s.cond := rfl
@[simp] theorem State.emit_spec (s : State) (x : Out) : (s.emit x).spec = s.spec := rfl
@[simp] theorem State.emit_trd (s : State) (x : Out) : (s.emit x).trd = s.trd := rfl
@[simp] theorem State.emit_bob (s : State) (x : Out) : (s.emit x).bob = s.bob := rfl
@[simp] theorem State.emit_tap (s : State) (x : Out) : (s.emit x).tap = s.tap := rfl
@[simp] theorem State.emit_pnl (s : State) (x : Out) : (s.emit x).pnl = s.pnl := rfl
@[simp] theorem State.emit_shu (s : State) (x : Out) : (s.emit x).shu = s.shu := rfl
@[simp] theorem State.emit_hns (s : State) (x : Out) : (s.emit x).hns = s.hns := rfl
@[simp] theorem State.emit_spn (s : State) (x : Out) : (s.emit x).spn = s.spn := rfl
@[simp] theorem State.emit_clk (s : State) (x : Out) : (s.emit x).clk = s.clk := rfl
@[simp] theorem State.emit_hfb (s : State) (x : Out) : (s.emit x).hfb = s.hfb := rfl
@[simp] theorem State.emit_far (s : State) (x : Out) : (s.emit x).far = s.far := rfl
@[simp] theorem State.emit_mon (s : State) (x : Out) : (s.emit x).mon = s.mon := rfl
@[simp] theorem State.emit_tck (s : State) (x : Out) : (s.emit x).tck = s.tck := rfl
@[simp] theorem State.emit_tick (s : State) (x : Out) : (s.emit x).tick = s.tick := rfl
@[simp] theorem State.emit_breach (s : State) (x : Out) : (s.emit x).breach = s.breach := rfl
@[simp] theorem State.emit_spnTurns (s : State) (x : Out) : (s.emit x).spnTurns = s.spnTurns := rfl
@[simp] theorem State.emit_turns (s : State) (x : Out) : (s.emit x).turns = s.turns := rfl

@[simp] theorem State.took_now (s : State) : s.took.now = s.now := rfl
@[simp] theorem State.took_nowFrac (s : State) : s.took.nowFrac = s.nowFrac := rfl
@[simp] theorem State.took_beats (s : State) : s.took.beats = s.beats := rfl
@[simp] theorem State.took_pending (s : State) : s.took.pending = s.pending := rfl
@[simp] theorem State.took_outs (s : State) : s.took.outs = s.outs := rfl
@[simp] theorem State.took_regs (s : State) : s.took.regs = s.regs := rfl
@[simp] theorem State.took_hbm (s : State) : s.took.hbm = s.hbm := rfl
@[simp] theorem State.took_run (s : State) : s.took.run = s.run := rfl
@[simp] theorem State.took_erl (s : State) : s.took.erl = s.erl := rfl
@[simp] theorem State.took_hitch (s : State) : s.took.hitch = s.hitch := rfl
@[simp] theorem State.took_can (s : State) : s.took.can = s.can := rfl
@[simp] theorem State.took_dict (s : State) : s.took.dict = s.dict := rfl
@[simp] theorem State.took_pwr (s : State) : s.took.pwr = s.pwr := rfl
@[simp] theorem State.took_pdk (s : State) : s.took.pdk = s.pdk := rfl
@[simp] theorem State.took_recs (s : State) : s.took.recs = s.recs := rfl
@[simp] theorem State.took_brd (s : State) : s.took.brd = s.brd := rfl
@[simp] theorem State.took_ports (s : State) : s.took.ports = s.ports := rfl
@[simp] theorem State.took_lanes (s : State) : s.took.lanes = s.lanes := rfl
@[simp] theorem State.took_cond (s : State) : s.took.cond = s.cond := rfl
@[simp] theorem State.took_spec (s : State) : s.took.spec = s.spec := rfl
@[simp] theorem State.took_trd (s : State) : s.took.trd = s.trd := rfl
@[simp] theorem State.took_bob (s : State) : s.took.bob = s.bob := rfl
@[simp] theorem State.took_tap (s : State) : s.took.tap = s.tap := rfl
@[simp] theorem State.took_pnl (s : State) : s.took.pnl = s.pnl := rfl
@[simp] theorem State.took_shu (s : State) : s.took.shu = s.shu := rfl
@[simp] theorem State.took_hns (s : State) : s.took.hns = s.hns := rfl
@[simp] theorem State.took_spn (s : State) : s.took.spn = s.spn := rfl
@[simp] theorem State.took_clk (s : State) : s.took.clk = s.clk := rfl
@[simp] theorem State.took_hfb (s : State) : s.took.hfb = s.hfb := rfl
@[simp] theorem State.took_far (s : State) : s.took.far = s.far := rfl
@[simp] theorem State.took_mon (s : State) : s.took.mon = s.mon := rfl
@[simp] theorem State.took_tck (s : State) : s.took.tck = s.tck := rfl
@[simp] theorem State.took_tick (s : State) : s.took.tick = s.tick := rfl
@[simp] theorem State.took_breach (s : State) : s.took.breach = s.breach := rfl
@[simp] theorem State.took_spnTurns (s : State) : s.took.spnTurns = s.spnTurns := rfl
@[simp] theorem State.took_turns (s : State) : s.took.turns = s.turns := rfl

@[simp] theorem State.hbmPut_now (s : State) (off : Nat) (v : Byte) : (s.hbmPut off v).now = s.now := rfl
@[simp] theorem State.hbmPut_nowFrac (s : State) (off : Nat) (v : Byte) : (s.hbmPut off v).nowFrac = s.nowFrac := rfl
@[simp] theorem State.hbmPut_beats (s : State) (off : Nat) (v : Byte) : (s.hbmPut off v).beats = s.beats := rfl
@[simp] theorem State.hbmPut_pending (s : State) (off : Nat) (v : Byte) : (s.hbmPut off v).pending = s.pending := rfl
@[simp] theorem State.hbmPut_fresh (s : State) (off : Nat) (v : Byte) : (s.hbmPut off v).fresh = s.fresh := rfl
@[simp] theorem State.hbmPut_outs (s : State) (off : Nat) (v : Byte) : (s.hbmPut off v).outs = s.outs := rfl
@[simp] theorem State.hbmPut_regs (s : State) (off : Nat) (v : Byte) : (s.hbmPut off v).regs = s.regs := rfl
@[simp] theorem State.hbmPut_run (s : State) (off : Nat) (v : Byte) : (s.hbmPut off v).run = s.run := rfl
@[simp] theorem State.hbmPut_erl (s : State) (off : Nat) (v : Byte) : (s.hbmPut off v).erl = s.erl := rfl
@[simp] theorem State.hbmPut_hitch (s : State) (off : Nat) (v : Byte) : (s.hbmPut off v).hitch = s.hitch := rfl
@[simp] theorem State.hbmPut_can (s : State) (off : Nat) (v : Byte) : (s.hbmPut off v).can = s.can := rfl
@[simp] theorem State.hbmPut_dict (s : State) (off : Nat) (v : Byte) : (s.hbmPut off v).dict = s.dict := rfl
@[simp] theorem State.hbmPut_pwr (s : State) (off : Nat) (v : Byte) : (s.hbmPut off v).pwr = s.pwr := rfl
@[simp] theorem State.hbmPut_pdk (s : State) (off : Nat) (v : Byte) : (s.hbmPut off v).pdk = s.pdk := rfl
@[simp] theorem State.hbmPut_recs (s : State) (off : Nat) (v : Byte) : (s.hbmPut off v).recs = s.recs := rfl
@[simp] theorem State.hbmPut_brd (s : State) (off : Nat) (v : Byte) : (s.hbmPut off v).brd = s.brd := rfl
@[simp] theorem State.hbmPut_ports (s : State) (off : Nat) (v : Byte) : (s.hbmPut off v).ports = s.ports := rfl
@[simp] theorem State.hbmPut_lanes (s : State) (off : Nat) (v : Byte) : (s.hbmPut off v).lanes = s.lanes := rfl
@[simp] theorem State.hbmPut_cond (s : State) (off : Nat) (v : Byte) : (s.hbmPut off v).cond = s.cond := rfl
@[simp] theorem State.hbmPut_spec (s : State) (off : Nat) (v : Byte) : (s.hbmPut off v).spec = s.spec := rfl
@[simp] theorem State.hbmPut_trd (s : State) (off : Nat) (v : Byte) : (s.hbmPut off v).trd = s.trd := rfl
@[simp] theorem State.hbmPut_bob (s : State) (off : Nat) (v : Byte) : (s.hbmPut off v).bob = s.bob := rfl
@[simp] theorem State.hbmPut_tap (s : State) (off : Nat) (v : Byte) : (s.hbmPut off v).tap = s.tap := rfl
@[simp] theorem State.hbmPut_pnl (s : State) (off : Nat) (v : Byte) : (s.hbmPut off v).pnl = s.pnl := rfl
@[simp] theorem State.hbmPut_shu (s : State) (off : Nat) (v : Byte) : (s.hbmPut off v).shu = s.shu := rfl
@[simp] theorem State.hbmPut_hns (s : State) (off : Nat) (v : Byte) : (s.hbmPut off v).hns = s.hns := rfl
@[simp] theorem State.hbmPut_spn (s : State) (off : Nat) (v : Byte) : (s.hbmPut off v).spn = s.spn := rfl
@[simp] theorem State.hbmPut_clk (s : State) (off : Nat) (v : Byte) : (s.hbmPut off v).clk = s.clk := rfl
@[simp] theorem State.hbmPut_hfb (s : State) (off : Nat) (v : Byte) : (s.hbmPut off v).hfb = s.hfb := rfl
@[simp] theorem State.hbmPut_far (s : State) (off : Nat) (v : Byte) : (s.hbmPut off v).far = s.far := rfl
@[simp] theorem State.hbmPut_mon (s : State) (off : Nat) (v : Byte) : (s.hbmPut off v).mon = s.mon := rfl
@[simp] theorem State.hbmPut_tck (s : State) (off : Nat) (v : Byte) : (s.hbmPut off v).tck = s.tck := rfl
@[simp] theorem State.hbmPut_tick (s : State) (off : Nat) (v : Byte) : (s.hbmPut off v).tick = s.tick := rfl
@[simp] theorem State.hbmPut_breach (s : State) (off : Nat) (v : Byte) : (s.hbmPut off v).breach = s.breach := rfl
@[simp] theorem State.hbmPut_spnTurns (s : State) (off : Nat) (v : Byte) : (s.hbmPut off v).spnTurns = s.spnTurns := rfl
@[simp] theorem State.hbmPut_turns (s : State) (off : Nat) (v : Byte) : (s.hbmPut off v).turns = s.turns := rfl

@[simp] theorem State.emit_outs (s : State) (x : Out) : (s.emit x).outs = x :: s.outs := rfl
@[simp] theorem State.took_fresh (s : State) : s.took.fresh = s.fresh + 1 := rfl

/-! ### Registers -/

@[simp] theorem State.rd_wr_self (s : State) (a : Nat) (v : Word) : (s.wr a v).rd a = v := Tab.get_put_self _ _ _ _

theorem State.rd_wr_ne (s : State) {a b : Nat} (v : Word) (h : b ≠ a) : (s.wr a v).rd b = s.rd b := Tab.get_put_ne _ _ _ h

theorem State.rd_wr (s : State) (a b : Nat) (v : Word) : (s.wr a v).rd b = if b = a then v else s.rd b := Tab.get_put _ _ _ _ _

@[simp] theorem State.rd_emit (s : State) (x : Out) (a : Nat) : (s.emit x).rd a = s.rd a := rfl
@[simp] theorem State.rd_took (s : State) (a : Nat) : s.took.rd a = s.rd a := rfl
@[simp] theorem State.rd_hbmPut (s : State) (o : Nat) (v : Byte) (a : Nat) : (s.hbmPut o v).rd a = s.rd a := rfl

/-- Two states with the same registers read the same. -/
theorem State.rd_congr {s t : State} (h : t.regs = s.regs) (a : Nat) : t.rd a = s.rd a := by
  unfold State.rd
  rw [h]

theorem State.rd_fset (s : State) (a b : Nat) (f : Fld) (v : Nat) :
    (s.fset a f v).rd b = if b = a then setField (s.rd a) f v else s.rd b := State.rd_wr _ _ _ _

theorem State.rd_fon (s : State) (a b : Nat) (f : Fld) :
    (s.fon a f).rd b = if b = a then setField (s.rd a) f 1 else s.rd b := State.rd_wr _ _ _ _

theorem State.rd_foff (s : State) (a b : Nat) (f : Fld) :
    (s.foff a f).rd b = if b = a then setField (s.rd a) f 0 else s.rd b := State.rd_wr _ _ _ _

theorem State.rd_bitOn (s : State) (a b n : Nat) :
    (s.bitOn a n).rd b = if b = a then setBitW (s.rd a) n else s.rd b := State.rd_wr _ _ _ _

theorem State.rd_bitOff (s : State) (a b n : Nat) :
    (s.bitOff a n).rd b = if b = a then clrBitW (s.rd a) n else s.rd b := State.rd_wr _ _ _ _

theorem State.rd_count (s : State) (a b n : Nat) :
    (s.count a n).rd b = if b = a then s.rd a + w32 n else s.rd b := State.rd_wr _ _ _ _

@[simp] theorem State.fset_now (s : State) (a : Nat) (f : Fld) (v : Nat) : (s.fset a f v).now = s.now := rfl
@[simp] theorem State.fset_nowFrac (s : State) (a : Nat) (f : Fld) (v : Nat) : (s.fset a f v).nowFrac = s.nowFrac := rfl
@[simp] theorem State.fset_beats (s : State) (a : Nat) (f : Fld) (v : Nat) : (s.fset a f v).beats = s.beats := rfl
@[simp] theorem State.fset_pending (s : State) (a : Nat) (f : Fld) (v : Nat) : (s.fset a f v).pending = s.pending := rfl
@[simp] theorem State.fset_fresh (s : State) (a : Nat) (f : Fld) (v : Nat) : (s.fset a f v).fresh = s.fresh := rfl
@[simp] theorem State.fset_outs (s : State) (a : Nat) (f : Fld) (v : Nat) : (s.fset a f v).outs = s.outs := rfl
@[simp] theorem State.fset_hbm (s : State) (a : Nat) (f : Fld) (v : Nat) : (s.fset a f v).hbm = s.hbm := rfl
@[simp] theorem State.fset_run (s : State) (a : Nat) (f : Fld) (v : Nat) : (s.fset a f v).run = s.run := rfl
@[simp] theorem State.fset_erl (s : State) (a : Nat) (f : Fld) (v : Nat) : (s.fset a f v).erl = s.erl := rfl
@[simp] theorem State.fset_hitch (s : State) (a : Nat) (f : Fld) (v : Nat) : (s.fset a f v).hitch = s.hitch := rfl
@[simp] theorem State.fset_can (s : State) (a : Nat) (f : Fld) (v : Nat) : (s.fset a f v).can = s.can := rfl
@[simp] theorem State.fset_dict (s : State) (a : Nat) (f : Fld) (v : Nat) : (s.fset a f v).dict = s.dict := rfl
@[simp] theorem State.fset_pwr (s : State) (a : Nat) (f : Fld) (v : Nat) : (s.fset a f v).pwr = s.pwr := rfl
@[simp] theorem State.fset_pdk (s : State) (a : Nat) (f : Fld) (v : Nat) : (s.fset a f v).pdk = s.pdk := rfl
@[simp] theorem State.fset_recs (s : State) (a : Nat) (f : Fld) (v : Nat) : (s.fset a f v).recs = s.recs := rfl
@[simp] theorem State.fset_brd (s : State) (a : Nat) (f : Fld) (v : Nat) : (s.fset a f v).brd = s.brd := rfl
@[simp] theorem State.fset_ports (s : State) (a : Nat) (f : Fld) (v : Nat) : (s.fset a f v).ports = s.ports := rfl
@[simp] theorem State.fset_lanes (s : State) (a : Nat) (f : Fld) (v : Nat) : (s.fset a f v).lanes = s.lanes := rfl
@[simp] theorem State.fset_cond (s : State) (a : Nat) (f : Fld) (v : Nat) : (s.fset a f v).cond = s.cond := rfl
@[simp] theorem State.fset_spec (s : State) (a : Nat) (f : Fld) (v : Nat) : (s.fset a f v).spec = s.spec := rfl
@[simp] theorem State.fset_trd (s : State) (a : Nat) (f : Fld) (v : Nat) : (s.fset a f v).trd = s.trd := rfl
@[simp] theorem State.fset_bob (s : State) (a : Nat) (f : Fld) (v : Nat) : (s.fset a f v).bob = s.bob := rfl
@[simp] theorem State.fset_tap (s : State) (a : Nat) (f : Fld) (v : Nat) : (s.fset a f v).tap = s.tap := rfl
@[simp] theorem State.fset_pnl (s : State) (a : Nat) (f : Fld) (v : Nat) : (s.fset a f v).pnl = s.pnl := rfl
@[simp] theorem State.fset_shu (s : State) (a : Nat) (f : Fld) (v : Nat) : (s.fset a f v).shu = s.shu := rfl
@[simp] theorem State.fset_hns (s : State) (a : Nat) (f : Fld) (v : Nat) : (s.fset a f v).hns = s.hns := rfl
@[simp] theorem State.fset_spn (s : State) (a : Nat) (f : Fld) (v : Nat) : (s.fset a f v).spn = s.spn := rfl
@[simp] theorem State.fset_clk (s : State) (a : Nat) (f : Fld) (v : Nat) : (s.fset a f v).clk = s.clk := rfl
@[simp] theorem State.fset_hfb (s : State) (a : Nat) (f : Fld) (v : Nat) : (s.fset a f v).hfb = s.hfb := rfl
@[simp] theorem State.fset_far (s : State) (a : Nat) (f : Fld) (v : Nat) : (s.fset a f v).far = s.far := rfl
@[simp] theorem State.fset_mon (s : State) (a : Nat) (f : Fld) (v : Nat) : (s.fset a f v).mon = s.mon := rfl
@[simp] theorem State.fset_tck (s : State) (a : Nat) (f : Fld) (v : Nat) : (s.fset a f v).tck = s.tck := rfl
@[simp] theorem State.fset_tick (s : State) (a : Nat) (f : Fld) (v : Nat) : (s.fset a f v).tick = s.tick := rfl
@[simp] theorem State.fset_breach (s : State) (a : Nat) (f : Fld) (v : Nat) : (s.fset a f v).breach = s.breach := rfl
@[simp] theorem State.fset_spnTurns (s : State) (a : Nat) (f : Fld) (v : Nat) : (s.fset a f v).spnTurns = s.spnTurns := rfl
@[simp] theorem State.fset_turns (s : State) (a : Nat) (f : Fld) (v : Nat) : (s.fset a f v).turns = s.turns := rfl

@[simp] theorem State.fon_now (s : State) (a : Nat) (f : Fld) : (s.fon a f).now = s.now := rfl
@[simp] theorem State.fon_nowFrac (s : State) (a : Nat) (f : Fld) : (s.fon a f).nowFrac = s.nowFrac := rfl
@[simp] theorem State.fon_beats (s : State) (a : Nat) (f : Fld) : (s.fon a f).beats = s.beats := rfl
@[simp] theorem State.fon_pending (s : State) (a : Nat) (f : Fld) : (s.fon a f).pending = s.pending := rfl
@[simp] theorem State.fon_fresh (s : State) (a : Nat) (f : Fld) : (s.fon a f).fresh = s.fresh := rfl
@[simp] theorem State.fon_outs (s : State) (a : Nat) (f : Fld) : (s.fon a f).outs = s.outs := rfl
@[simp] theorem State.fon_hbm (s : State) (a : Nat) (f : Fld) : (s.fon a f).hbm = s.hbm := rfl
@[simp] theorem State.fon_run (s : State) (a : Nat) (f : Fld) : (s.fon a f).run = s.run := rfl
@[simp] theorem State.fon_erl (s : State) (a : Nat) (f : Fld) : (s.fon a f).erl = s.erl := rfl
@[simp] theorem State.fon_hitch (s : State) (a : Nat) (f : Fld) : (s.fon a f).hitch = s.hitch := rfl
@[simp] theorem State.fon_can (s : State) (a : Nat) (f : Fld) : (s.fon a f).can = s.can := rfl
@[simp] theorem State.fon_dict (s : State) (a : Nat) (f : Fld) : (s.fon a f).dict = s.dict := rfl
@[simp] theorem State.fon_pwr (s : State) (a : Nat) (f : Fld) : (s.fon a f).pwr = s.pwr := rfl
@[simp] theorem State.fon_pdk (s : State) (a : Nat) (f : Fld) : (s.fon a f).pdk = s.pdk := rfl
@[simp] theorem State.fon_recs (s : State) (a : Nat) (f : Fld) : (s.fon a f).recs = s.recs := rfl
@[simp] theorem State.fon_brd (s : State) (a : Nat) (f : Fld) : (s.fon a f).brd = s.brd := rfl
@[simp] theorem State.fon_ports (s : State) (a : Nat) (f : Fld) : (s.fon a f).ports = s.ports := rfl
@[simp] theorem State.fon_lanes (s : State) (a : Nat) (f : Fld) : (s.fon a f).lanes = s.lanes := rfl
@[simp] theorem State.fon_cond (s : State) (a : Nat) (f : Fld) : (s.fon a f).cond = s.cond := rfl
@[simp] theorem State.fon_spec (s : State) (a : Nat) (f : Fld) : (s.fon a f).spec = s.spec := rfl
@[simp] theorem State.fon_trd (s : State) (a : Nat) (f : Fld) : (s.fon a f).trd = s.trd := rfl
@[simp] theorem State.fon_bob (s : State) (a : Nat) (f : Fld) : (s.fon a f).bob = s.bob := rfl
@[simp] theorem State.fon_tap (s : State) (a : Nat) (f : Fld) : (s.fon a f).tap = s.tap := rfl
@[simp] theorem State.fon_pnl (s : State) (a : Nat) (f : Fld) : (s.fon a f).pnl = s.pnl := rfl
@[simp] theorem State.fon_shu (s : State) (a : Nat) (f : Fld) : (s.fon a f).shu = s.shu := rfl
@[simp] theorem State.fon_hns (s : State) (a : Nat) (f : Fld) : (s.fon a f).hns = s.hns := rfl
@[simp] theorem State.fon_spn (s : State) (a : Nat) (f : Fld) : (s.fon a f).spn = s.spn := rfl
@[simp] theorem State.fon_clk (s : State) (a : Nat) (f : Fld) : (s.fon a f).clk = s.clk := rfl
@[simp] theorem State.fon_hfb (s : State) (a : Nat) (f : Fld) : (s.fon a f).hfb = s.hfb := rfl
@[simp] theorem State.fon_far (s : State) (a : Nat) (f : Fld) : (s.fon a f).far = s.far := rfl
@[simp] theorem State.fon_mon (s : State) (a : Nat) (f : Fld) : (s.fon a f).mon = s.mon := rfl
@[simp] theorem State.fon_tck (s : State) (a : Nat) (f : Fld) : (s.fon a f).tck = s.tck := rfl
@[simp] theorem State.fon_breach (s : State) (a : Nat) (f : Fld) : (s.fon a f).breach = s.breach := rfl
@[simp] theorem State.fon_spnTurns (s : State) (a : Nat) (f : Fld) : (s.fon a f).spnTurns = s.spnTurns := rfl
@[simp] theorem State.fon_turns (s : State) (a : Nat) (f : Fld) : (s.fon a f).turns = s.turns := rfl

@[simp] theorem State.foff_now (s : State) (a : Nat) (f : Fld) : (s.foff a f).now = s.now := rfl
@[simp] theorem State.foff_nowFrac (s : State) (a : Nat) (f : Fld) : (s.foff a f).nowFrac = s.nowFrac := rfl
@[simp] theorem State.foff_beats (s : State) (a : Nat) (f : Fld) : (s.foff a f).beats = s.beats := rfl
@[simp] theorem State.foff_pending (s : State) (a : Nat) (f : Fld) : (s.foff a f).pending = s.pending := rfl
@[simp] theorem State.foff_fresh (s : State) (a : Nat) (f : Fld) : (s.foff a f).fresh = s.fresh := rfl
@[simp] theorem State.foff_outs (s : State) (a : Nat) (f : Fld) : (s.foff a f).outs = s.outs := rfl
@[simp] theorem State.foff_hbm (s : State) (a : Nat) (f : Fld) : (s.foff a f).hbm = s.hbm := rfl
@[simp] theorem State.foff_run (s : State) (a : Nat) (f : Fld) : (s.foff a f).run = s.run := rfl
@[simp] theorem State.foff_erl (s : State) (a : Nat) (f : Fld) : (s.foff a f).erl = s.erl := rfl
@[simp] theorem State.foff_hitch (s : State) (a : Nat) (f : Fld) : (s.foff a f).hitch = s.hitch := rfl
@[simp] theorem State.foff_can (s : State) (a : Nat) (f : Fld) : (s.foff a f).can = s.can := rfl
@[simp] theorem State.foff_dict (s : State) (a : Nat) (f : Fld) : (s.foff a f).dict = s.dict := rfl
@[simp] theorem State.foff_pwr (s : State) (a : Nat) (f : Fld) : (s.foff a f).pwr = s.pwr := rfl
@[simp] theorem State.foff_pdk (s : State) (a : Nat) (f : Fld) : (s.foff a f).pdk = s.pdk := rfl
@[simp] theorem State.foff_recs (s : State) (a : Nat) (f : Fld) : (s.foff a f).recs = s.recs := rfl
@[simp] theorem State.foff_brd (s : State) (a : Nat) (f : Fld) : (s.foff a f).brd = s.brd := rfl
@[simp] theorem State.foff_ports (s : State) (a : Nat) (f : Fld) : (s.foff a f).ports = s.ports := rfl
@[simp] theorem State.foff_lanes (s : State) (a : Nat) (f : Fld) : (s.foff a f).lanes = s.lanes := rfl
@[simp] theorem State.foff_cond (s : State) (a : Nat) (f : Fld) : (s.foff a f).cond = s.cond := rfl
@[simp] theorem State.foff_spec (s : State) (a : Nat) (f : Fld) : (s.foff a f).spec = s.spec := rfl
@[simp] theorem State.foff_trd (s : State) (a : Nat) (f : Fld) : (s.foff a f).trd = s.trd := rfl
@[simp] theorem State.foff_bob (s : State) (a : Nat) (f : Fld) : (s.foff a f).bob = s.bob := rfl
@[simp] theorem State.foff_tap (s : State) (a : Nat) (f : Fld) : (s.foff a f).tap = s.tap := rfl
@[simp] theorem State.foff_pnl (s : State) (a : Nat) (f : Fld) : (s.foff a f).pnl = s.pnl := rfl
@[simp] theorem State.foff_shu (s : State) (a : Nat) (f : Fld) : (s.foff a f).shu = s.shu := rfl
@[simp] theorem State.foff_hns (s : State) (a : Nat) (f : Fld) : (s.foff a f).hns = s.hns := rfl
@[simp] theorem State.foff_spn (s : State) (a : Nat) (f : Fld) : (s.foff a f).spn = s.spn := rfl
@[simp] theorem State.foff_clk (s : State) (a : Nat) (f : Fld) : (s.foff a f).clk = s.clk := rfl
@[simp] theorem State.foff_hfb (s : State) (a : Nat) (f : Fld) : (s.foff a f).hfb = s.hfb := rfl
@[simp] theorem State.foff_far (s : State) (a : Nat) (f : Fld) : (s.foff a f).far = s.far := rfl
@[simp] theorem State.foff_mon (s : State) (a : Nat) (f : Fld) : (s.foff a f).mon = s.mon := rfl
@[simp] theorem State.foff_tck (s : State) (a : Nat) (f : Fld) : (s.foff a f).tck = s.tck := rfl
@[simp] theorem State.foff_tick (s : State) (a : Nat) (f : Fld) : (s.foff a f).tick = s.tick := rfl
@[simp] theorem State.foff_breach (s : State) (a : Nat) (f : Fld) : (s.foff a f).breach = s.breach := rfl
@[simp] theorem State.foff_spnTurns (s : State) (a : Nat) (f : Fld) : (s.foff a f).spnTurns = s.spnTurns := rfl
@[simp] theorem State.foff_turns (s : State) (a : Nat) (f : Fld) : (s.foff a f).turns = s.turns := rfl

@[simp] theorem State.bitOn_now (s : State) (a n : Nat) : (s.bitOn a n).now = s.now := rfl
@[simp] theorem State.bitOn_nowFrac (s : State) (a n : Nat) : (s.bitOn a n).nowFrac = s.nowFrac := rfl
@[simp] theorem State.bitOn_beats (s : State) (a n : Nat) : (s.bitOn a n).beats = s.beats := rfl
@[simp] theorem State.bitOn_pending (s : State) (a n : Nat) : (s.bitOn a n).pending = s.pending := rfl
@[simp] theorem State.bitOn_fresh (s : State) (a n : Nat) : (s.bitOn a n).fresh = s.fresh := rfl
@[simp] theorem State.bitOn_outs (s : State) (a n : Nat) : (s.bitOn a n).outs = s.outs := rfl
@[simp] theorem State.bitOn_hbm (s : State) (a n : Nat) : (s.bitOn a n).hbm = s.hbm := rfl
@[simp] theorem State.bitOn_run (s : State) (a n : Nat) : (s.bitOn a n).run = s.run := rfl
@[simp] theorem State.bitOn_erl (s : State) (a n : Nat) : (s.bitOn a n).erl = s.erl := rfl
@[simp] theorem State.bitOn_hitch (s : State) (a n : Nat) : (s.bitOn a n).hitch = s.hitch := rfl
@[simp] theorem State.bitOn_can (s : State) (a n : Nat) : (s.bitOn a n).can = s.can := rfl
@[simp] theorem State.bitOn_dict (s : State) (a n : Nat) : (s.bitOn a n).dict = s.dict := rfl
@[simp] theorem State.bitOn_pwr (s : State) (a n : Nat) : (s.bitOn a n).pwr = s.pwr := rfl
@[simp] theorem State.bitOn_pdk (s : State) (a n : Nat) : (s.bitOn a n).pdk = s.pdk := rfl
@[simp] theorem State.bitOn_recs (s : State) (a n : Nat) : (s.bitOn a n).recs = s.recs := rfl
@[simp] theorem State.bitOn_brd (s : State) (a n : Nat) : (s.bitOn a n).brd = s.brd := rfl
@[simp] theorem State.bitOn_ports (s : State) (a n : Nat) : (s.bitOn a n).ports = s.ports := rfl
@[simp] theorem State.bitOn_lanes (s : State) (a n : Nat) : (s.bitOn a n).lanes = s.lanes := rfl
@[simp] theorem State.bitOn_cond (s : State) (a n : Nat) : (s.bitOn a n).cond = s.cond := rfl
@[simp] theorem State.bitOn_spec (s : State) (a n : Nat) : (s.bitOn a n).spec = s.spec := rfl
@[simp] theorem State.bitOn_trd (s : State) (a n : Nat) : (s.bitOn a n).trd = s.trd := rfl
@[simp] theorem State.bitOn_bob (s : State) (a n : Nat) : (s.bitOn a n).bob = s.bob := rfl
@[simp] theorem State.bitOn_tap (s : State) (a n : Nat) : (s.bitOn a n).tap = s.tap := rfl
@[simp] theorem State.bitOn_pnl (s : State) (a n : Nat) : (s.bitOn a n).pnl = s.pnl := rfl
@[simp] theorem State.bitOn_shu (s : State) (a n : Nat) : (s.bitOn a n).shu = s.shu := rfl
@[simp] theorem State.bitOn_hns (s : State) (a n : Nat) : (s.bitOn a n).hns = s.hns := rfl
@[simp] theorem State.bitOn_spn (s : State) (a n : Nat) : (s.bitOn a n).spn = s.spn := rfl
@[simp] theorem State.bitOn_clk (s : State) (a n : Nat) : (s.bitOn a n).clk = s.clk := rfl
@[simp] theorem State.bitOn_hfb (s : State) (a n : Nat) : (s.bitOn a n).hfb = s.hfb := rfl
@[simp] theorem State.bitOn_far (s : State) (a n : Nat) : (s.bitOn a n).far = s.far := rfl
@[simp] theorem State.bitOn_mon (s : State) (a n : Nat) : (s.bitOn a n).mon = s.mon := rfl
@[simp] theorem State.bitOn_tck (s : State) (a n : Nat) : (s.bitOn a n).tck = s.tck := rfl
@[simp] theorem State.bitOn_breach (s : State) (a n : Nat) : (s.bitOn a n).breach = s.breach := rfl
@[simp] theorem State.bitOn_spnTurns (s : State) (a n : Nat) : (s.bitOn a n).spnTurns = s.spnTurns := rfl
@[simp] theorem State.bitOn_turns (s : State) (a n : Nat) : (s.bitOn a n).turns = s.turns := rfl

@[simp] theorem State.bitOff_now (s : State) (a n : Nat) : (s.bitOff a n).now = s.now := rfl
@[simp] theorem State.bitOff_nowFrac (s : State) (a n : Nat) : (s.bitOff a n).nowFrac = s.nowFrac := rfl
@[simp] theorem State.bitOff_beats (s : State) (a n : Nat) : (s.bitOff a n).beats = s.beats := rfl
@[simp] theorem State.bitOff_pending (s : State) (a n : Nat) : (s.bitOff a n).pending = s.pending := rfl
@[simp] theorem State.bitOff_fresh (s : State) (a n : Nat) : (s.bitOff a n).fresh = s.fresh := rfl
@[simp] theorem State.bitOff_outs (s : State) (a n : Nat) : (s.bitOff a n).outs = s.outs := rfl
@[simp] theorem State.bitOff_hbm (s : State) (a n : Nat) : (s.bitOff a n).hbm = s.hbm := rfl
@[simp] theorem State.bitOff_run (s : State) (a n : Nat) : (s.bitOff a n).run = s.run := rfl
@[simp] theorem State.bitOff_erl (s : State) (a n : Nat) : (s.bitOff a n).erl = s.erl := rfl
@[simp] theorem State.bitOff_hitch (s : State) (a n : Nat) : (s.bitOff a n).hitch = s.hitch := rfl
@[simp] theorem State.bitOff_can (s : State) (a n : Nat) : (s.bitOff a n).can = s.can := rfl
@[simp] theorem State.bitOff_dict (s : State) (a n : Nat) : (s.bitOff a n).dict = s.dict := rfl
@[simp] theorem State.bitOff_pwr (s : State) (a n : Nat) : (s.bitOff a n).pwr = s.pwr := rfl
@[simp] theorem State.bitOff_pdk (s : State) (a n : Nat) : (s.bitOff a n).pdk = s.pdk := rfl
@[simp] theorem State.bitOff_recs (s : State) (a n : Nat) : (s.bitOff a n).recs = s.recs := rfl
@[simp] theorem State.bitOff_brd (s : State) (a n : Nat) : (s.bitOff a n).brd = s.brd := rfl
@[simp] theorem State.bitOff_ports (s : State) (a n : Nat) : (s.bitOff a n).ports = s.ports := rfl
@[simp] theorem State.bitOff_lanes (s : State) (a n : Nat) : (s.bitOff a n).lanes = s.lanes := rfl
@[simp] theorem State.bitOff_cond (s : State) (a n : Nat) : (s.bitOff a n).cond = s.cond := rfl
@[simp] theorem State.bitOff_spec (s : State) (a n : Nat) : (s.bitOff a n).spec = s.spec := rfl
@[simp] theorem State.bitOff_trd (s : State) (a n : Nat) : (s.bitOff a n).trd = s.trd := rfl
@[simp] theorem State.bitOff_bob (s : State) (a n : Nat) : (s.bitOff a n).bob = s.bob := rfl
@[simp] theorem State.bitOff_tap (s : State) (a n : Nat) : (s.bitOff a n).tap = s.tap := rfl
@[simp] theorem State.bitOff_pnl (s : State) (a n : Nat) : (s.bitOff a n).pnl = s.pnl := rfl
@[simp] theorem State.bitOff_shu (s : State) (a n : Nat) : (s.bitOff a n).shu = s.shu := rfl
@[simp] theorem State.bitOff_hns (s : State) (a n : Nat) : (s.bitOff a n).hns = s.hns := rfl
@[simp] theorem State.bitOff_spn (s : State) (a n : Nat) : (s.bitOff a n).spn = s.spn := rfl
@[simp] theorem State.bitOff_clk (s : State) (a n : Nat) : (s.bitOff a n).clk = s.clk := rfl
@[simp] theorem State.bitOff_hfb (s : State) (a n : Nat) : (s.bitOff a n).hfb = s.hfb := rfl
@[simp] theorem State.bitOff_far (s : State) (a n : Nat) : (s.bitOff a n).far = s.far := rfl
@[simp] theorem State.bitOff_mon (s : State) (a n : Nat) : (s.bitOff a n).mon = s.mon := rfl
@[simp] theorem State.bitOff_tck (s : State) (a n : Nat) : (s.bitOff a n).tck = s.tck := rfl
@[simp] theorem State.bitOff_tick (s : State) (a n : Nat) : (s.bitOff a n).tick = s.tick := rfl
@[simp] theorem State.bitOff_breach (s : State) (a n : Nat) : (s.bitOff a n).breach = s.breach := rfl
@[simp] theorem State.bitOff_spnTurns (s : State) (a n : Nat) : (s.bitOff a n).spnTurns = s.spnTurns := rfl
@[simp] theorem State.bitOff_turns (s : State) (a n : Nat) : (s.bitOff a n).turns = s.turns := rfl

@[simp] theorem State.count_now (s : State) (a n : Nat) : (s.count a n).now = s.now := rfl
@[simp] theorem State.count_nowFrac (s : State) (a n : Nat) : (s.count a n).nowFrac = s.nowFrac := rfl
@[simp] theorem State.count_beats (s : State) (a n : Nat) : (s.count a n).beats = s.beats := rfl
@[simp] theorem State.count_pending (s : State) (a n : Nat) : (s.count a n).pending = s.pending := rfl
@[simp] theorem State.count_fresh (s : State) (a n : Nat) : (s.count a n).fresh = s.fresh := rfl
@[simp] theorem State.count_outs (s : State) (a n : Nat) : (s.count a n).outs = s.outs := rfl
@[simp] theorem State.count_hbm (s : State) (a n : Nat) : (s.count a n).hbm = s.hbm := rfl
@[simp] theorem State.count_run (s : State) (a n : Nat) : (s.count a n).run = s.run := rfl
@[simp] theorem State.count_erl (s : State) (a n : Nat) : (s.count a n).erl = s.erl := rfl
@[simp] theorem State.count_hitch (s : State) (a n : Nat) : (s.count a n).hitch = s.hitch := rfl
@[simp] theorem State.count_can (s : State) (a n : Nat) : (s.count a n).can = s.can := rfl
@[simp] theorem State.count_dict (s : State) (a n : Nat) : (s.count a n).dict = s.dict := rfl
@[simp] theorem State.count_pwr (s : State) (a n : Nat) : (s.count a n).pwr = s.pwr := rfl
@[simp] theorem State.count_pdk (s : State) (a n : Nat) : (s.count a n).pdk = s.pdk := rfl
@[simp] theorem State.count_recs (s : State) (a n : Nat) : (s.count a n).recs = s.recs := rfl
@[simp] theorem State.count_brd (s : State) (a n : Nat) : (s.count a n).brd = s.brd := rfl
@[simp] theorem State.count_ports (s : State) (a n : Nat) : (s.count a n).ports = s.ports := rfl
@[simp] theorem State.count_lanes (s : State) (a n : Nat) : (s.count a n).lanes = s.lanes := rfl
@[simp] theorem State.count_cond (s : State) (a n : Nat) : (s.count a n).cond = s.cond := rfl
@[simp] theorem State.count_spec (s : State) (a n : Nat) : (s.count a n).spec = s.spec := rfl
@[simp] theorem State.count_trd (s : State) (a n : Nat) : (s.count a n).trd = s.trd := rfl
@[simp] theorem State.count_bob (s : State) (a n : Nat) : (s.count a n).bob = s.bob := rfl
@[simp] theorem State.count_tap (s : State) (a n : Nat) : (s.count a n).tap = s.tap := rfl
@[simp] theorem State.count_pnl (s : State) (a n : Nat) : (s.count a n).pnl = s.pnl := rfl
@[simp] theorem State.count_shu (s : State) (a n : Nat) : (s.count a n).shu = s.shu := rfl
@[simp] theorem State.count_hns (s : State) (a n : Nat) : (s.count a n).hns = s.hns := rfl
@[simp] theorem State.count_spn (s : State) (a n : Nat) : (s.count a n).spn = s.spn := rfl
@[simp] theorem State.count_clk (s : State) (a n : Nat) : (s.count a n).clk = s.clk := rfl
@[simp] theorem State.count_hfb (s : State) (a n : Nat) : (s.count a n).hfb = s.hfb := rfl
@[simp] theorem State.count_far (s : State) (a n : Nat) : (s.count a n).far = s.far := rfl
@[simp] theorem State.count_mon (s : State) (a n : Nat) : (s.count a n).mon = s.mon := rfl
@[simp] theorem State.count_tck (s : State) (a n : Nat) : (s.count a n).tck = s.tck := rfl
@[simp] theorem State.count_tick (s : State) (a n : Nat) : (s.count a n).tick = s.tick := rfl
@[simp] theorem State.count_breach (s : State) (a n : Nat) : (s.count a n).breach = s.breach := rfl
@[simp] theorem State.count_spnTurns (s : State) (a n : Nat) : (s.count a n).spnTurns = s.spnTurns := rfl
@[simp] theorem State.count_turns (s : State) (a n : Nat) : (s.count a n).turns = s.turns := rfl

@[simp] theorem State.countSat_now (s : State) (a n : Nat) : (s.countSat a n).now = s.now := rfl
@[simp] theorem State.countSat_nowFrac (s : State) (a n : Nat) : (s.countSat a n).nowFrac = s.nowFrac := rfl
@[simp] theorem State.countSat_beats (s : State) (a n : Nat) : (s.countSat a n).beats = s.beats := rfl
@[simp] theorem State.countSat_pending (s : State) (a n : Nat) : (s.countSat a n).pending = s.pending := rfl
@[simp] theorem State.countSat_fresh (s : State) (a n : Nat) : (s.countSat a n).fresh = s.fresh := rfl
@[simp] theorem State.countSat_outs (s : State) (a n : Nat) : (s.countSat a n).outs = s.outs := rfl
@[simp] theorem State.countSat_hbm (s : State) (a n : Nat) : (s.countSat a n).hbm = s.hbm := rfl
@[simp] theorem State.countSat_run (s : State) (a n : Nat) : (s.countSat a n).run = s.run := rfl
@[simp] theorem State.countSat_erl (s : State) (a n : Nat) : (s.countSat a n).erl = s.erl := rfl
@[simp] theorem State.countSat_hitch (s : State) (a n : Nat) : (s.countSat a n).hitch = s.hitch := rfl
@[simp] theorem State.countSat_can (s : State) (a n : Nat) : (s.countSat a n).can = s.can := rfl
@[simp] theorem State.countSat_dict (s : State) (a n : Nat) : (s.countSat a n).dict = s.dict := rfl
@[simp] theorem State.countSat_pwr (s : State) (a n : Nat) : (s.countSat a n).pwr = s.pwr := rfl
@[simp] theorem State.countSat_pdk (s : State) (a n : Nat) : (s.countSat a n).pdk = s.pdk := rfl
@[simp] theorem State.countSat_recs (s : State) (a n : Nat) : (s.countSat a n).recs = s.recs := rfl
@[simp] theorem State.countSat_brd (s : State) (a n : Nat) : (s.countSat a n).brd = s.brd := rfl
@[simp] theorem State.countSat_ports (s : State) (a n : Nat) : (s.countSat a n).ports = s.ports := rfl
@[simp] theorem State.countSat_lanes (s : State) (a n : Nat) : (s.countSat a n).lanes = s.lanes := rfl
@[simp] theorem State.countSat_cond (s : State) (a n : Nat) : (s.countSat a n).cond = s.cond := rfl
@[simp] theorem State.countSat_spec (s : State) (a n : Nat) : (s.countSat a n).spec = s.spec := rfl
@[simp] theorem State.countSat_trd (s : State) (a n : Nat) : (s.countSat a n).trd = s.trd := rfl
@[simp] theorem State.countSat_bob (s : State) (a n : Nat) : (s.countSat a n).bob = s.bob := rfl
@[simp] theorem State.countSat_tap (s : State) (a n : Nat) : (s.countSat a n).tap = s.tap := rfl
@[simp] theorem State.countSat_pnl (s : State) (a n : Nat) : (s.countSat a n).pnl = s.pnl := rfl
@[simp] theorem State.countSat_shu (s : State) (a n : Nat) : (s.countSat a n).shu = s.shu := rfl
@[simp] theorem State.countSat_hns (s : State) (a n : Nat) : (s.countSat a n).hns = s.hns := rfl
@[simp] theorem State.countSat_spn (s : State) (a n : Nat) : (s.countSat a n).spn = s.spn := rfl
@[simp] theorem State.countSat_clk (s : State) (a n : Nat) : (s.countSat a n).clk = s.clk := rfl
@[simp] theorem State.countSat_hfb (s : State) (a n : Nat) : (s.countSat a n).hfb = s.hfb := rfl
@[simp] theorem State.countSat_far (s : State) (a n : Nat) : (s.countSat a n).far = s.far := rfl
@[simp] theorem State.countSat_mon (s : State) (a n : Nat) : (s.countSat a n).mon = s.mon := rfl
@[simp] theorem State.countSat_tck (s : State) (a n : Nat) : (s.countSat a n).tck = s.tck := rfl
@[simp] theorem State.countSat_tick (s : State) (a n : Nat) : (s.countSat a n).tick = s.tick := rfl
@[simp] theorem State.countSat_breach (s : State) (a n : Nat) : (s.countSat a n).breach = s.breach := rfl
@[simp] theorem State.countSat_spnTurns (s : State) (a n : Nat) : (s.countSat a n).spnTurns = s.spnTurns := rfl
@[simp] theorem State.countSat_turns (s : State) (a n : Nat) : (s.countSat a n).turns = s.turns := rfl

@[simp] theorem State.strike_now (s : State) (a : Nat) (w : Word) : (s.strike a w).now = s.now := rfl
@[simp] theorem State.strike_nowFrac (s : State) (a : Nat) (w : Word) : (s.strike a w).nowFrac = s.nowFrac := rfl
@[simp] theorem State.strike_beats (s : State) (a : Nat) (w : Word) : (s.strike a w).beats = s.beats := rfl
@[simp] theorem State.strike_pending (s : State) (a : Nat) (w : Word) : (s.strike a w).pending = s.pending := rfl
@[simp] theorem State.strike_fresh (s : State) (a : Nat) (w : Word) : (s.strike a w).fresh = s.fresh := rfl
@[simp] theorem State.strike_outs (s : State) (a : Nat) (w : Word) : (s.strike a w).outs = s.outs := rfl
@[simp] theorem State.strike_regs (s : State) (a : Nat) (w : Word) : (s.strike a w).regs = s.regs := rfl
@[simp] theorem State.strike_hbm (s : State) (a : Nat) (w : Word) : (s.strike a w).hbm = s.hbm := rfl
@[simp] theorem State.strike_run (s : State) (a : Nat) (w : Word) : (s.strike a w).run = s.run := rfl
@[simp] theorem State.strike_erl (s : State) (a : Nat) (w : Word) : (s.strike a w).erl = s.erl := rfl
@[simp] theorem State.strike_hitch (s : State) (a : Nat) (w : Word) : (s.strike a w).hitch = s.hitch := rfl
@[simp] theorem State.strike_can (s : State) (a : Nat) (w : Word) : (s.strike a w).can = s.can := rfl
@[simp] theorem State.strike_dict (s : State) (a : Nat) (w : Word) : (s.strike a w).dict = s.dict := rfl
@[simp] theorem State.strike_pwr (s : State) (a : Nat) (w : Word) : (s.strike a w).pwr = s.pwr := rfl
@[simp] theorem State.strike_pdk (s : State) (a : Nat) (w : Word) : (s.strike a w).pdk = s.pdk := rfl
@[simp] theorem State.strike_recs (s : State) (a : Nat) (w : Word) : (s.strike a w).recs = s.recs := rfl
@[simp] theorem State.strike_brd (s : State) (a : Nat) (w : Word) : (s.strike a w).brd = s.brd := rfl
@[simp] theorem State.strike_ports (s : State) (a : Nat) (w : Word) : (s.strike a w).ports = s.ports := rfl
@[simp] theorem State.strike_lanes (s : State) (a : Nat) (w : Word) : (s.strike a w).lanes = s.lanes := rfl
@[simp] theorem State.strike_cond (s : State) (a : Nat) (w : Word) : (s.strike a w).cond = s.cond := rfl
@[simp] theorem State.strike_spec (s : State) (a : Nat) (w : Word) : (s.strike a w).spec = s.spec := rfl
@[simp] theorem State.strike_trd (s : State) (a : Nat) (w : Word) : (s.strike a w).trd = s.trd := rfl
@[simp] theorem State.strike_bob (s : State) (a : Nat) (w : Word) : (s.strike a w).bob = s.bob := rfl
@[simp] theorem State.strike_tap (s : State) (a : Nat) (w : Word) : (s.strike a w).tap = s.tap := rfl
@[simp] theorem State.strike_pnl (s : State) (a : Nat) (w : Word) : (s.strike a w).pnl = s.pnl := rfl
@[simp] theorem State.strike_shu (s : State) (a : Nat) (w : Word) : (s.strike a w).shu = s.shu := rfl
@[simp] theorem State.strike_hns (s : State) (a : Nat) (w : Word) : (s.strike a w).hns = s.hns := rfl
@[simp] theorem State.strike_spn (s : State) (a : Nat) (w : Word) : (s.strike a w).spn = s.spn := rfl
@[simp] theorem State.strike_clk (s : State) (a : Nat) (w : Word) : (s.strike a w).clk = s.clk := rfl
@[simp] theorem State.strike_hfb (s : State) (a : Nat) (w : Word) : (s.strike a w).hfb = s.hfb := rfl
@[simp] theorem State.strike_far (s : State) (a : Nat) (w : Word) : (s.strike a w).far = s.far := rfl
@[simp] theorem State.strike_mon (s : State) (a : Nat) (w : Word) : (s.strike a w).mon = s.mon := rfl
@[simp] theorem State.strike_tck (s : State) (a : Nat) (w : Word) : (s.strike a w).tck = s.tck := rfl
@[simp] theorem State.strike_breach (s : State) (a : Nat) (w : Word) : (s.strike a w).breach = s.breach := rfl
@[simp] theorem State.strike_spnTurns (s : State) (a : Nat) (w : Word) : (s.strike a w).spnTurns = s.spnTurns := rfl
@[simp] theorem State.strike_turns (s : State) (a : Nat) (w : Word) : (s.strike a w).turns = s.turns := rfl

@[simp] theorem State.fload_now (s : State) (a : Nat) (f : Fld) (v : Nat) : (s.fload a f v).now = s.now := rfl
@[simp] theorem State.fload_nowFrac (s : State) (a : Nat) (f : Fld) (v : Nat) : (s.fload a f v).nowFrac = s.nowFrac := rfl
@[simp] theorem State.fload_beats (s : State) (a : Nat) (f : Fld) (v : Nat) : (s.fload a f v).beats = s.beats := rfl
@[simp] theorem State.fload_pending (s : State) (a : Nat) (f : Fld) (v : Nat) : (s.fload a f v).pending = s.pending := rfl
@[simp] theorem State.fload_fresh (s : State) (a : Nat) (f : Fld) (v : Nat) : (s.fload a f v).fresh = s.fresh := rfl
@[simp] theorem State.fload_outs (s : State) (a : Nat) (f : Fld) (v : Nat) : (s.fload a f v).outs = s.outs := rfl
@[simp] theorem State.fload_hbm (s : State) (a : Nat) (f : Fld) (v : Nat) : (s.fload a f v).hbm = s.hbm := rfl
@[simp] theorem State.fload_run (s : State) (a : Nat) (f : Fld) (v : Nat) : (s.fload a f v).run = s.run := rfl
@[simp] theorem State.fload_erl (s : State) (a : Nat) (f : Fld) (v : Nat) : (s.fload a f v).erl = s.erl := rfl
@[simp] theorem State.fload_hitch (s : State) (a : Nat) (f : Fld) (v : Nat) : (s.fload a f v).hitch = s.hitch := rfl
@[simp] theorem State.fload_can (s : State) (a : Nat) (f : Fld) (v : Nat) : (s.fload a f v).can = s.can := rfl
@[simp] theorem State.fload_dict (s : State) (a : Nat) (f : Fld) (v : Nat) : (s.fload a f v).dict = s.dict := rfl
@[simp] theorem State.fload_pwr (s : State) (a : Nat) (f : Fld) (v : Nat) : (s.fload a f v).pwr = s.pwr := rfl
@[simp] theorem State.fload_pdk (s : State) (a : Nat) (f : Fld) (v : Nat) : (s.fload a f v).pdk = s.pdk := rfl
@[simp] theorem State.fload_recs (s : State) (a : Nat) (f : Fld) (v : Nat) : (s.fload a f v).recs = s.recs := rfl
@[simp] theorem State.fload_brd (s : State) (a : Nat) (f : Fld) (v : Nat) : (s.fload a f v).brd = s.brd := rfl
@[simp] theorem State.fload_ports (s : State) (a : Nat) (f : Fld) (v : Nat) : (s.fload a f v).ports = s.ports := rfl
@[simp] theorem State.fload_lanes (s : State) (a : Nat) (f : Fld) (v : Nat) : (s.fload a f v).lanes = s.lanes := rfl
@[simp] theorem State.fload_cond (s : State) (a : Nat) (f : Fld) (v : Nat) : (s.fload a f v).cond = s.cond := rfl
@[simp] theorem State.fload_spec (s : State) (a : Nat) (f : Fld) (v : Nat) : (s.fload a f v).spec = s.spec := rfl
@[simp] theorem State.fload_trd (s : State) (a : Nat) (f : Fld) (v : Nat) : (s.fload a f v).trd = s.trd := rfl
@[simp] theorem State.fload_bob (s : State) (a : Nat) (f : Fld) (v : Nat) : (s.fload a f v).bob = s.bob := rfl
@[simp] theorem State.fload_tap (s : State) (a : Nat) (f : Fld) (v : Nat) : (s.fload a f v).tap = s.tap := rfl
@[simp] theorem State.fload_pnl (s : State) (a : Nat) (f : Fld) (v : Nat) : (s.fload a f v).pnl = s.pnl := rfl
@[simp] theorem State.fload_shu (s : State) (a : Nat) (f : Fld) (v : Nat) : (s.fload a f v).shu = s.shu := rfl
@[simp] theorem State.fload_hns (s : State) (a : Nat) (f : Fld) (v : Nat) : (s.fload a f v).hns = s.hns := rfl
@[simp] theorem State.fload_spn (s : State) (a : Nat) (f : Fld) (v : Nat) : (s.fload a f v).spn = s.spn := rfl
@[simp] theorem State.fload_clk (s : State) (a : Nat) (f : Fld) (v : Nat) : (s.fload a f v).clk = s.clk := rfl
@[simp] theorem State.fload_hfb (s : State) (a : Nat) (f : Fld) (v : Nat) : (s.fload a f v).hfb = s.hfb := rfl
@[simp] theorem State.fload_far (s : State) (a : Nat) (f : Fld) (v : Nat) : (s.fload a f v).far = s.far := rfl
@[simp] theorem State.fload_mon (s : State) (a : Nat) (f : Fld) (v : Nat) : (s.fload a f v).mon = s.mon := rfl
@[simp] theorem State.fload_tck (s : State) (a : Nat) (f : Fld) (v : Nat) : (s.fload a f v).tck = s.tck := rfl
@[simp] theorem State.fload_breach (s : State) (a : Nat) (f : Fld) (v : Nat) : (s.fload a f v).breach = s.breach := rfl
@[simp] theorem State.fload_spnTurns (s : State) (a : Nat) (f : Fld) (v : Nat) : (s.fload a f v).spnTurns = s.spnTurns := rfl
@[simp] theorem State.fload_turns (s : State) (a : Nat) (f : Fld) (v : Nat) : (s.fload a f v).turns = s.turns := rfl

@[simp] theorem State.again_now (s : State) (a b : Nat) : (s.again a b).now = s.now := rfl
@[simp] theorem State.again_nowFrac (s : State) (a b : Nat) : (s.again a b).nowFrac = s.nowFrac := rfl
@[simp] theorem State.again_beats (s : State) (a b : Nat) : (s.again a b).beats = s.beats := rfl
@[simp] theorem State.again_pending (s : State) (a b : Nat) : (s.again a b).pending = s.pending := rfl
@[simp] theorem State.again_fresh (s : State) (a b : Nat) : (s.again a b).fresh = s.fresh := rfl
@[simp] theorem State.again_outs (s : State) (a b : Nat) : (s.again a b).outs = s.outs := rfl
@[simp] theorem State.again_regs (s : State) (a b : Nat) : (s.again a b).regs = s.regs := rfl
@[simp] theorem State.again_hbm (s : State) (a b : Nat) : (s.again a b).hbm = s.hbm := rfl
@[simp] theorem State.again_run (s : State) (a b : Nat) : (s.again a b).run = s.run := rfl
@[simp] theorem State.again_erl (s : State) (a b : Nat) : (s.again a b).erl = s.erl := rfl
@[simp] theorem State.again_hitch (s : State) (a b : Nat) : (s.again a b).hitch = s.hitch := rfl
@[simp] theorem State.again_can (s : State) (a b : Nat) : (s.again a b).can = s.can := rfl
@[simp] theorem State.again_dict (s : State) (a b : Nat) : (s.again a b).dict = s.dict := rfl
@[simp] theorem State.again_pwr (s : State) (a b : Nat) : (s.again a b).pwr = s.pwr := rfl
@[simp] theorem State.again_pdk (s : State) (a b : Nat) : (s.again a b).pdk = s.pdk := rfl
@[simp] theorem State.again_recs (s : State) (a b : Nat) : (s.again a b).recs = s.recs := rfl
@[simp] theorem State.again_brd (s : State) (a b : Nat) : (s.again a b).brd = s.brd := rfl
@[simp] theorem State.again_ports (s : State) (a b : Nat) : (s.again a b).ports = s.ports := rfl
@[simp] theorem State.again_lanes (s : State) (a b : Nat) : (s.again a b).lanes = s.lanes := rfl
@[simp] theorem State.again_cond (s : State) (a b : Nat) : (s.again a b).cond = s.cond := rfl
@[simp] theorem State.again_spec (s : State) (a b : Nat) : (s.again a b).spec = s.spec := rfl
@[simp] theorem State.again_trd (s : State) (a b : Nat) : (s.again a b).trd = s.trd := rfl
@[simp] theorem State.again_bob (s : State) (a b : Nat) : (s.again a b).bob = s.bob := rfl
@[simp] theorem State.again_tap (s : State) (a b : Nat) : (s.again a b).tap = s.tap := rfl
@[simp] theorem State.again_pnl (s : State) (a b : Nat) : (s.again a b).pnl = s.pnl := rfl
@[simp] theorem State.again_shu (s : State) (a b : Nat) : (s.again a b).shu = s.shu := rfl
@[simp] theorem State.again_hns (s : State) (a b : Nat) : (s.again a b).hns = s.hns := rfl
@[simp] theorem State.again_spn (s : State) (a b : Nat) : (s.again a b).spn = s.spn := rfl
@[simp] theorem State.again_clk (s : State) (a b : Nat) : (s.again a b).clk = s.clk := rfl
@[simp] theorem State.again_hfb (s : State) (a b : Nat) : (s.again a b).hfb = s.hfb := rfl
@[simp] theorem State.again_far (s : State) (a b : Nat) : (s.again a b).far = s.far := rfl
@[simp] theorem State.again_mon (s : State) (a b : Nat) : (s.again a b).mon = s.mon := rfl
@[simp] theorem State.again_tck (s : State) (a b : Nat) : (s.again a b).tck = s.tck := rfl
@[simp] theorem State.again_breach (s : State) (a b : Nat) : (s.again a b).breach = s.breach := rfl
@[simp] theorem State.again_spnTurns (s : State) (a b : Nat) : (s.again a b).spnTurns = s.spnTurns := rfl
@[simp] theorem State.again_turns (s : State) (a b : Nat) : (s.again a b).turns = s.turns := rfl

@[simp] theorem State.mended_now (s : State) (lo hi : Nat) : (s.mended lo hi).now = s.now := rfl
@[simp] theorem State.mended_nowFrac (s : State) (lo hi : Nat) : (s.mended lo hi).nowFrac = s.nowFrac := rfl
@[simp] theorem State.mended_beats (s : State) (lo hi : Nat) : (s.mended lo hi).beats = s.beats := rfl
@[simp] theorem State.mended_pending (s : State) (lo hi : Nat) : (s.mended lo hi).pending = s.pending := rfl
@[simp] theorem State.mended_fresh (s : State) (lo hi : Nat) : (s.mended lo hi).fresh = s.fresh := rfl
@[simp] theorem State.mended_outs (s : State) (lo hi : Nat) : (s.mended lo hi).outs = s.outs := rfl
@[simp] theorem State.mended_regs (s : State) (lo hi : Nat) : (s.mended lo hi).regs = s.regs := rfl
@[simp] theorem State.mended_hbm (s : State) (lo hi : Nat) : (s.mended lo hi).hbm = s.hbm := rfl
@[simp] theorem State.mended_run (s : State) (lo hi : Nat) : (s.mended lo hi).run = s.run := rfl
@[simp] theorem State.mended_erl (s : State) (lo hi : Nat) : (s.mended lo hi).erl = s.erl := rfl
@[simp] theorem State.mended_hitch (s : State) (lo hi : Nat) : (s.mended lo hi).hitch = s.hitch := rfl
@[simp] theorem State.mended_can (s : State) (lo hi : Nat) : (s.mended lo hi).can = s.can := rfl
@[simp] theorem State.mended_dict (s : State) (lo hi : Nat) : (s.mended lo hi).dict = s.dict := rfl
@[simp] theorem State.mended_pwr (s : State) (lo hi : Nat) : (s.mended lo hi).pwr = s.pwr := rfl
@[simp] theorem State.mended_pdk (s : State) (lo hi : Nat) : (s.mended lo hi).pdk = s.pdk := rfl
@[simp] theorem State.mended_recs (s : State) (lo hi : Nat) : (s.mended lo hi).recs = s.recs := rfl
@[simp] theorem State.mended_brd (s : State) (lo hi : Nat) : (s.mended lo hi).brd = s.brd := rfl
@[simp] theorem State.mended_ports (s : State) (lo hi : Nat) : (s.mended lo hi).ports = s.ports := rfl
@[simp] theorem State.mended_lanes (s : State) (lo hi : Nat) : (s.mended lo hi).lanes = s.lanes := rfl
@[simp] theorem State.mended_cond (s : State) (lo hi : Nat) : (s.mended lo hi).cond = s.cond := rfl
@[simp] theorem State.mended_spec (s : State) (lo hi : Nat) : (s.mended lo hi).spec = s.spec := rfl
@[simp] theorem State.mended_trd (s : State) (lo hi : Nat) : (s.mended lo hi).trd = s.trd := rfl
@[simp] theorem State.mended_bob (s : State) (lo hi : Nat) : (s.mended lo hi).bob = s.bob := rfl
@[simp] theorem State.mended_tap (s : State) (lo hi : Nat) : (s.mended lo hi).tap = s.tap := rfl
@[simp] theorem State.mended_pnl (s : State) (lo hi : Nat) : (s.mended lo hi).pnl = s.pnl := rfl
@[simp] theorem State.mended_shu (s : State) (lo hi : Nat) : (s.mended lo hi).shu = s.shu := rfl
@[simp] theorem State.mended_hns (s : State) (lo hi : Nat) : (s.mended lo hi).hns = s.hns := rfl
@[simp] theorem State.mended_spn (s : State) (lo hi : Nat) : (s.mended lo hi).spn = s.spn := rfl
@[simp] theorem State.mended_clk (s : State) (lo hi : Nat) : (s.mended lo hi).clk = s.clk := rfl
@[simp] theorem State.mended_hfb (s : State) (lo hi : Nat) : (s.mended lo hi).hfb = s.hfb := rfl
@[simp] theorem State.mended_far (s : State) (lo hi : Nat) : (s.mended lo hi).far = s.far := rfl
@[simp] theorem State.mended_mon (s : State) (lo hi : Nat) : (s.mended lo hi).mon = s.mon := rfl
@[simp] theorem State.mended_tck (s : State) (lo hi : Nat) : (s.mended lo hi).tck = s.tck := rfl
@[simp] theorem State.mended_tick (s : State) (lo hi : Nat) : (s.mended lo hi).tick = s.tick := rfl
@[simp] theorem State.mended_spnTurns (s : State) (lo hi : Nat) : (s.mended lo hi).spnTurns = s.spnTurns := rfl
@[simp] theorem State.mended_turns (s : State) (lo hi : Nat) : (s.mended lo hi).turns = s.turns := rfl

@[simp] theorem State.setTurn_now (s : State) (k : Nat) (x : Option QuillTurn) : (s.setTurn k x).now = s.now := rfl
@[simp] theorem State.setTurn_nowFrac (s : State) (k : Nat) (x : Option QuillTurn) : (s.setTurn k x).nowFrac = s.nowFrac := rfl
@[simp] theorem State.setTurn_beats (s : State) (k : Nat) (x : Option QuillTurn) : (s.setTurn k x).beats = s.beats := rfl
@[simp] theorem State.setTurn_pending (s : State) (k : Nat) (x : Option QuillTurn) : (s.setTurn k x).pending = s.pending := rfl
@[simp] theorem State.setTurn_fresh (s : State) (k : Nat) (x : Option QuillTurn) : (s.setTurn k x).fresh = s.fresh := rfl
@[simp] theorem State.setTurn_outs (s : State) (k : Nat) (x : Option QuillTurn) : (s.setTurn k x).outs = s.outs := rfl
@[simp] theorem State.setTurn_regs (s : State) (k : Nat) (x : Option QuillTurn) : (s.setTurn k x).regs = s.regs := rfl
@[simp] theorem State.setTurn_hbm (s : State) (k : Nat) (x : Option QuillTurn) : (s.setTurn k x).hbm = s.hbm := rfl
@[simp] theorem State.setTurn_run (s : State) (k : Nat) (x : Option QuillTurn) : (s.setTurn k x).run = s.run := rfl
@[simp] theorem State.setTurn_erl (s : State) (k : Nat) (x : Option QuillTurn) : (s.setTurn k x).erl = s.erl := rfl
@[simp] theorem State.setTurn_hitch (s : State) (k : Nat) (x : Option QuillTurn) : (s.setTurn k x).hitch = s.hitch := rfl
@[simp] theorem State.setTurn_can (s : State) (k : Nat) (x : Option QuillTurn) : (s.setTurn k x).can = s.can := rfl
@[simp] theorem State.setTurn_dict (s : State) (k : Nat) (x : Option QuillTurn) : (s.setTurn k x).dict = s.dict := rfl
@[simp] theorem State.setTurn_pwr (s : State) (k : Nat) (x : Option QuillTurn) : (s.setTurn k x).pwr = s.pwr := rfl
@[simp] theorem State.setTurn_pdk (s : State) (k : Nat) (x : Option QuillTurn) : (s.setTurn k x).pdk = s.pdk := rfl
@[simp] theorem State.setTurn_recs (s : State) (k : Nat) (x : Option QuillTurn) : (s.setTurn k x).recs = s.recs := rfl
@[simp] theorem State.setTurn_brd (s : State) (k : Nat) (x : Option QuillTurn) : (s.setTurn k x).brd = s.brd := rfl
@[simp] theorem State.setTurn_ports (s : State) (k : Nat) (x : Option QuillTurn) : (s.setTurn k x).ports = s.ports := rfl
@[simp] theorem State.setTurn_lanes (s : State) (k : Nat) (x : Option QuillTurn) : (s.setTurn k x).lanes = s.lanes := rfl
@[simp] theorem State.setTurn_cond (s : State) (k : Nat) (x : Option QuillTurn) : (s.setTurn k x).cond = s.cond := rfl
@[simp] theorem State.setTurn_spec (s : State) (k : Nat) (x : Option QuillTurn) : (s.setTurn k x).spec = s.spec := rfl
@[simp] theorem State.setTurn_trd (s : State) (k : Nat) (x : Option QuillTurn) : (s.setTurn k x).trd = s.trd := rfl
@[simp] theorem State.setTurn_bob (s : State) (k : Nat) (x : Option QuillTurn) : (s.setTurn k x).bob = s.bob := rfl
@[simp] theorem State.setTurn_tap (s : State) (k : Nat) (x : Option QuillTurn) : (s.setTurn k x).tap = s.tap := rfl
@[simp] theorem State.setTurn_pnl (s : State) (k : Nat) (x : Option QuillTurn) : (s.setTurn k x).pnl = s.pnl := rfl
@[simp] theorem State.setTurn_shu (s : State) (k : Nat) (x : Option QuillTurn) : (s.setTurn k x).shu = s.shu := rfl
@[simp] theorem State.setTurn_hns (s : State) (k : Nat) (x : Option QuillTurn) : (s.setTurn k x).hns = s.hns := rfl
@[simp] theorem State.setTurn_spn (s : State) (k : Nat) (x : Option QuillTurn) : (s.setTurn k x).spn = s.spn := rfl
@[simp] theorem State.setTurn_clk (s : State) (k : Nat) (x : Option QuillTurn) : (s.setTurn k x).clk = s.clk := rfl
@[simp] theorem State.setTurn_hfb (s : State) (k : Nat) (x : Option QuillTurn) : (s.setTurn k x).hfb = s.hfb := rfl
@[simp] theorem State.setTurn_far (s : State) (k : Nat) (x : Option QuillTurn) : (s.setTurn k x).far = s.far := rfl
@[simp] theorem State.setTurn_mon (s : State) (k : Nat) (x : Option QuillTurn) : (s.setTurn k x).mon = s.mon := rfl
@[simp] theorem State.setTurn_tck (s : State) (k : Nat) (x : Option QuillTurn) : (s.setTurn k x).tck = s.tck := rfl
@[simp] theorem State.setTurn_tick (s : State) (k : Nat) (x : Option QuillTurn) : (s.setTurn k x).tick = s.tick := rfl
@[simp] theorem State.setTurn_breach (s : State) (k : Nat) (x : Option QuillTurn) : (s.setTurn k x).breach = s.breach := rfl
@[simp] theorem State.setTurn_spnTurns (s : State) (k : Nat) (x : Option QuillTurn) : (s.setTurn k x).spnTurns = s.spnTurns := rfl

/-- A breach noted changes nothing but the list of breaches. -/
theorem State.breached_eq (s : State) (v : Nat) : s.breached v = { s with breach := (s.breached v).breach } := by
  unfold State.breached
  split <;> rfl

@[simp] theorem State.rd_strike (s : State) (a b : Nat) (w : Word) : (s.strike a w).rd b = s.rd b := rfl
@[simp] theorem State.rd_again (s : State) (a b n : Nat) : (s.again a n).rd b = s.rd b := rfl
@[simp] theorem State.rd_mended (s : State) (lo hi b : Nat) : (s.mended lo hi).rd b = s.rd b := rfl
@[simp] theorem State.rd_setTurn (s : State) (k b : Nat) (x : Option QuillTurn) : (s.setTurn k x).rd b = s.rd b := rfl

theorem State.rd_fload (s : State) (a b : Nat) (f : Fld) (v : Nat) :
    (s.fload a f v).rd b = if b = a then setField (s.rd a) f v else s.rd b := State.rd_wr _ _ _ _

/-- What a Quill's cycle holds after it was set. -/
@[simp] theorem State.setTurn_turns (s : State) (k : Nat) (x : Option QuillTurn) :
    (s.setTurn k x).turns = Tab.put (fun _ => none) s.turns k x := rfl

end Sys2Proof.Machine
end

