-- ==== Sys2Proof/Laws/Events.lean ====
section
/-!
SUPPORT. What the shared operations of events can do: raise, log, event and the run state's change, each said once.
-/

namespace Sys2Proof.Machine

theorem State.sameRegs.refl (s : State) (xs : List Nat) : s.sameRegs s xs := fun _ _ => rfl

theorem State.sameRegs.trans {s t u : State} {xs ys zs : List Nat} (h : s.sameRegs t xs) (k : t.sameRegs u ys)
    (hx : ∀ a ∈ xs, a ∈ zs) (hy : ∀ a ∈ ys, a ∈ zs) : s.sameRegs u zs :=
  fun a ha => (k a fun m => ha (hy a m)).trans (h a fun m => ha (hx a m))

theorem State.sameRegs.mono {s t : State} {xs zs : List Nat} (h : s.sameRegs t xs) (hx : ∀ a ∈ xs, a ∈ zs) :
    s.sameRegs t zs := fun a ha => h a fun m => ha (hx a m)

/-- Registers alike give the same reads. -/
theorem State.sameRegs.of_regs {s t : State} (h : t.regs = s.regs) (xs : List Nat) : s.sameRegs t xs :=
  fun a _ => State.rd_congr h a

theorem State.sameRegs_wr (s : State) (a : Nat) (v : Word) : s.sameRegs (s.wr a v) [a] := fun b hb =>
  State.rd_wr_ne s v (by simpa using hb)

/-! ### raise -/

theorem State.sendMsgi_eq (s : State) (v : Nat) : s.sendMsgi v = { s with outs := (s.sendMsgi v).outs } := by
  unfold State.sendMsgi
  split <;> rfl

@[simp] theorem State.rd_sendMsgi (s : State) (v a : Nat) : (s.sendMsgi v).rd a = s.rd a := by
  rw [State.sendMsgi_eq]
  rfl

theorem State.settleVec_eq (s : State) (v : Nat) :
    s.settleVec v = { s with regs := (s.settleVec v).regs, outs := (s.settleVec v).outs, tick := (s.settleVec v).tick } := by
  unfold State.settleVec
  split
  · split
    · rfl
    · rw [State.sendMsgi_eq]; rfl
  · split <;> rfl

theorem State.rd_settleVec_ne (s : State) (v : Nat) {a : Nat} (h : a ≠ R.GLB_VEC_PEND (v / 32)) :
    (s.settleVec v).rd a = s.rd a := by
  unfold State.settleVec
  split
  · split
    · rfl
    · rw [State.rd_sendMsgi, State.rd_bitOn, if_neg h]
  · split
    · rw [State.rd_bitOff, if_neg h]
    · rfl

/-- A raise changes registers, notes in the beat's record which flags it set, and sends MSGI, and nothing else. -/
theorem State.raise_eq (s : State) (v b : Nat) :
    s.raise v b = { s with regs := (s.raise v b).regs, outs := (s.raise v b).outs, tick := (s.raise v b).tick } := by
  unfold State.raise
  rw [State.settleVec_eq]
  rfl

theorem State.rd_raise (s : State) (v b : Nat) {a : Nat} (h : a ∉ raiseRegs v) : (s.raise v b).rd a = s.rd a := by
  simp only [raiseRegs, List.mem_cons, List.not_mem_nil, or_false, not_or] at h
  rw [State.raise, State.rd_settleVec_ne _ _ h.2, State.rd_bitOn, if_neg h.1]

theorem State.sameRegs_raise (s : State) (v b : Nat) : s.sameRegs (s.raise v b) (raiseRegs v) := fun _ h => State.rd_raise s v b h

theorem intStatus_ne_pend (v : Nat) (h : v < 256) : intStatus v ≠ R.GLB_VEC_PEND (v / 32) := by
  unfold intStatus blockBase R.GLB_VEC_PEND
  split <;> split <;> (try split) <;> omega

/-- The raised bit of INT_STATUS is set, its other bits unchanged. -/
theorem State.rd_raise_self (s : State) (v b : Nat) (h : v < 256) :
    (s.raise v b).rd (intStatus v) = setBitW (s.rd (intStatus v)) b := by
  rw [State.raise, State.rd_settleVec_ne _ _ (intStatus_ne_pend v h), State.rd_bitOn, if_pos rfl]

/-! ### sidePush -/

/-- A push into a side Quill changes its entries and its cycle, and nothing else: a refusal shows only as the cycle ends. -/
theorem State.sidePush_eq (s : State) (i : Nat) (e : SideEntry) :
    s.sidePush i e = { s with recs := { s.recs with sides := (s.sidePush i e).recs.sides }, turns := (s.sidePush i e).turns } := by
  unfold State.sidePush
  dsimp only
  split <;> rfl

@[simp] theorem State.rd_sidePush (s : State) (i : Nat) (e : SideEntry) (a : Nat) : (s.sidePush i e).rd a = s.rd a := by
  rw [State.sidePush_eq]
  rfl

/-! ### The error log -/

/-- What an entry can change besides registers: the log, what is sent, the count of severe entries, the side Quills and the records of
the beat and of the cycle. -/
def State.LogPart (s t : State) : Prop :=
  t = { s with
    regs := t.regs
    outs := t.outs
    erl := t.erl
    dict := { s.dict with severe := t.dict.severe }
    recs := { s.recs with sides := t.recs.sides }
    tick := t.tick
    turns := t.turns }

theorem State.LogPart.refl (s : State) : s.LogPart s := rfl

theorem State.LogPart.trans {s t u : State} (h : s.LogPart t) (k : t.LogPart u) : s.LogPart u := by
  unfold State.LogPart at *
  rw [k, h]

theorem State.LogPart.of_eq {s t u : State} (h : s.LogPart t) (k : u = { t with regs := u.regs, outs := u.outs, tick := u.tick }) : s.LogPart u :=
  h.trans (by rw [k]; rfl)

theorem State.LogPart.wr {s t : State} (h : s.LogPart t) (a : Nat) (v : Word) : s.LogPart (t.wr a v) := h.of_eq rfl
theorem State.LogPart.count {s t : State} (h : s.LogPart t) (a n : Nat) : s.LogPart (t.count a n) := h.of_eq rfl
theorem State.LogPart.fset {s t : State} (h : s.LogPart t) (a : Nat) (f : Fld) (n : Nat) : s.LogPart (t.fset a f n) := h.of_eq rfl
theorem State.LogPart.fon {s t : State} (h : s.LogPart t) (a : Nat) (f : Fld) : s.LogPart (t.fon a f) := h.of_eq rfl
theorem State.LogPart.bitOn {s t : State} (h : s.LogPart t) (a n : Nat) : s.LogPart (t.bitOn a n) := h.of_eq rfl
theorem State.LogPart.raise {s t : State} (h : s.LogPart t) (v b : Nat) : s.LogPart (t.raise v b) := h.of_eq (State.raise_eq t v b)

theorem State.LogPart.sidePush {s t : State} (h : s.LogPart t) (i : Nat) (e : SideEntry) : s.LogPart (t.sidePush i e) :=
  h.trans (by rw [State.sidePush_eq]; rfl)

theorem State.LogPart.erlStore {s t : State} (h : s.LogPart t) (e : ErlEntry) : s.LogPart (t.erlStore e) := h.trans rfl

theorem State.LogPart.erlAllocate {s t : State} (h : s.LogPart t) (e : ErlEntry) : s.LogPart (t.erlAllocate e) := by
  unfold State.erlAllocate
  dsimp only
  split
  · exact ((((h.erlStore _).count _ _).wr _ _).fon _ _)
  · exact (h.erlStore _).count _ _

theorem State.LogPart.erlCommit {s t : State} (h : s.LogPart t) (e : ErlEntry) : s.LogPart (t.erlCommit e) := by
  unfold State.erlCommit
  dsimp only
  have h1 := (h.count (R.ERL_CNT e.sev) 1).raise vERL e.sev
  generalize (t.count (R.ERL_CNT e.sev) 1).raise vERL e.sev = t1 at *
  have h2 : s.LogPart (if t1.fget R.ERL_CFG F.ERL_CFG_EXPORT_MIN ≤ e.sev then
      t1.sidePush 0 { wt := e.wt, frac := e.frac, unit := 0, bytes := e.bytes, taken := t1.beats } else t1) := by
    split
    · exact h1.sidePush _ _
    · exact h1
  generalize (if t1.fget R.ERL_CFG F.ERL_CFG_EXPORT_MIN ≤ e.sev then
      t1.sidePush 0 { wt := e.wt, frac := e.frac, unit := 0, bytes := e.bytes, taken := t1.beats } else t1) = t2 at *
  have h3 : s.LogPart (if sevError ≤ e.sev then { t2 with dict := { t2.dict with severe := (t2.dict.severe + 1) % 2 ^ 32 } }
      else t2) := by
    split
    · exact h2.trans rfl
    · exact h2
  generalize (if sevError ≤ e.sev then { t2 with dict := { t2.dict with severe := (t2.dict.severe + 1) % 2 ^ 32 } }
      else t2) = t3 at *
  split
  · exact ((((h3.fon _ _).bitOn _ _).wr _ _).wr _ _).wr _ _
  · exact h3

/-- An entry changes registers, the log, what is sent, the count of severe entries and the side Quills, and nothing else. -/
theorem State.logAt_part (s : State) (wt frac vec num sev unit a0 a1 : Nat) :
    s.LogPart (s.logAt wt frac vec num sev unit a0 a1) :=
  ((State.LogPart.refl s).erlAllocate _).erlCommit _

theorem State.log_part (s : State) (vec num sev unit a0 a1 : Nat) : s.LogPart (s.log vec num sev unit a0 a1) :=
  State.logAt_part _ _ _ _ _ _ _ _ _

theorem State.event_part (s : State) (vec b sev unit a0 a1 : Nat) : s.LogPart (s.event vec b sev unit a0 a1) :=
  ((State.LogPart.refl s).raise vec b).trans (State.log_part _ _ _ _ _ _ _)

theorem State.rd_erlAllocate (s : State) (e : ErlEntry) {a : Nat} (h : a ∉ [R.ERL_NEXT, R.ERL_OLDEST, R.ERL_STATUS]) :
    (s.erlAllocate e).rd a = s.rd a := by
  simp only [List.mem_cons, List.not_mem_nil, or_false, not_or] at h
  unfold State.erlAllocate
  dsimp only
  split
  · rw [State.rd_fon, if_neg h.2.2, State.rd_wr_ne _ _ h.2.1, State.rd_count, if_neg h.1]; rfl
  · rw [State.rd_count, if_neg h.1]; rfl

theorem State.rd_erlCommit (s : State) (e : ErlEntry) {a : Nat} (h : a ∉ logRegs e.sev) : (s.erlCommit e).rd a = s.rd a := by
  simp only [logRegs, List.mem_append, List.mem_cons, List.not_mem_nil, or_false, not_or] at h
  obtain ⟨⟨⟨h1, _, _, h2⟩, h5⟩, h7⟩ := h
  unfold State.erlCommit
  dsimp only
  have e1 : ((s.count (R.ERL_CNT e.sev) 1).raise vERL e.sev).rd a = s.rd a := by
    rw [State.rd_raise _ _ _ h5, State.rd_count, if_neg h1]
  generalize (s.count (R.ERL_CNT e.sev) 1).raise vERL e.sev = t1 at *
  have e2 : (if t1.fget R.ERL_CFG F.ERL_CFG_EXPORT_MIN ≤ e.sev then
      t1.sidePush 0 { wt := e.wt, frac := e.frac, unit := 0, bytes := e.bytes, taken := t1.beats } else t1).rd a = s.rd a := by
    split
    · rw [State.rd_sidePush, e1]
    · exact e1
  generalize (if t1.fget R.ERL_CFG F.ERL_CFG_EXPORT_MIN ≤ e.sev then
      t1.sidePush 0 { wt := e.wt, frac := e.frac, unit := 0, bytes := e.bytes, taken := t1.beats } else t1) = t2 at *
  have e3 : (if sevError ≤ e.sev then { t2 with dict := { t2.dict with severe := (t2.dict.severe + 1) % 2 ^ 32 } }
      else t2).rd a = s.rd a := by
    split <;> exact e2
  generalize (if sevError ≤ e.sev then { t2 with dict := { t2.dict with severe := (t2.dict.severe + 1) % 2 ^ 32 } }
      else t2) = t3 at *
  split
  · rename_i hf
    rw [if_pos hf] at h7
    simp only [List.mem_cons, List.not_mem_nil, or_false, not_or] at h7
    rw [State.setPair, State.rd_wr_ne _ _ h7.2.2.2, State.rd_wr_ne _ _ h7.2.2.1, State.rd_wr_ne _ _ h7.2.1, State.rd_bitOn,
      if_neg h7.1, State.rd_fon, if_neg h2, e3]
  · exact e3

theorem State.rd_logAt (s : State) (wt frac vec num sev unit a0 a1 : Nat) {a : Nat} (h : a ∉ logRegs sev) :
    (s.logAt wt frac vec num sev unit a0 a1).rd a = s.rd a := by
  unfold State.logAt
  dsimp only
  rw [State.rd_erlCommit _ _ h, State.rd_erlAllocate]
  simp only [logRegs, List.mem_append, List.mem_cons, List.not_mem_nil, or_false, not_or] at h ⊢
  exact ⟨h.1.1.2.1, h.1.1.2.2.1, h.1.1.2.2.2⟩

/-- The registers an entry can change. -/
theorem State.rd_log (s : State) (vec num sev unit a0 a1 : Nat) {a : Nat} (h : a ∉ logRegs sev) :
    (s.log vec num sev unit a0 a1).rd a = s.rd a := State.rd_logAt _ _ _ _ _ _ _ _ _ h

theorem State.sameRegs_log (s : State) (vec num sev unit a0 a1 : Nat) : s.sameRegs (s.log vec num sev unit a0 a1) (logRegs sev) :=
  fun _ h => State.rd_log _ _ _ _ _ _ _ h

theorem State.rd_event (s : State) (vec b sev unit a0 a1 : Nat) {a : Nat} (h : a ∉ raiseRegs vec ++ logRegs sev) :
    (s.event vec b sev unit a0 a1).rd a = s.rd a := by
  simp only [List.mem_append, not_or] at h
  rw [State.event, State.rd_log _ _ _ _ _ _ _ h.2, State.rd_raise _ _ _ h.1]

theorem State.sameRegs_event (s : State) (vec b sev unit a0 a1 : Nat) :
    s.sameRegs (s.event vec b sev unit a0 a1) (raiseRegs vec ++ logRegs sev) := fun _ h => State.rd_event _ _ _ _ _ _ _ h

end Sys2Proof.Machine
end

