-- ==== Sys2Proof/Laws/Follows.lean ====
section
/-!
SUPPORT. What every operation keeps: State.Follows is closed under composition, record updates, and folds.
-/

namespace Sys2Proof.Machine

theorem State.Follows.refl (s : State) : s.Follows s :=
  ⟨rfl, rfl, ⟨[], rfl⟩, Nat.le_refl _, id, id⟩

theorem State.Follows.trans {s t u : State} (h : s.Follows t) (k : t.Follows u) : s.Follows u := by
  obtain ⟨a, ha⟩ := h.outs
  obtain ⟨b, hb⟩ := k.outs
  exact ⟨k.pending.trans h.pending, k.beats.trans h.beats, ⟨b ++ a, by rw [hb, ha, List.append_assoc]⟩,
    Nat.le_trans h.fresh k.fresh, fun x => k.regs (h.regs x), fun x => k.hbm (h.hbm x)⟩

/-- A state that differs in none of what Follows speaks of. -/
theorem State.Follows.upd {o t u : State} (h : o.Follows t) (h1 : u.pending = t.pending) (h2 : u.beats = t.beats)
    (h3 : u.outs = t.outs) (h4 : u.fresh = t.fresh) (h5 : u.regs = t.regs) (h6 : u.hbm = t.hbm) : o.Follows u := by
  obtain ⟨a, ha⟩ := h.outs
  exact ⟨h1.trans h.pending, h2.trans h.beats, ⟨a, h3.trans ha⟩, h4 ▸ h.fresh, h5 ▸ h.regs, h6 ▸ h.hbm⟩

/-- Follows, said of the six fields that it speaks of. -/
def State.Keeps (o : State) (beats : Nat) (pending : List Instr) (fresh : Nat) (outs : List Out) (regs : Tab Word)
    (hbm : Tab Byte) : Prop :=
  pending = o.pending ∧ beats = o.beats ∧ (∃ x, outs = x ++ o.outs) ∧ o.fresh ≤ fresh ∧
    (Registers.wf o.regs = true → Registers.wf regs = true) ∧ (Memory.wf o.hbm = true → Memory.wf hbm = true)

/-- A state written as a record: only those six fields count. -/
theorem State.Follows.mk_iff (o : State) (now : BitVec 64) (nowFrac beats : Nat) (pending : List Instr) (fresh : Nat)
    (outs : List Out) (regs : Tab Word) (hbm : Tab Byte) (run : RunSt) (erl : ErlSt)
    (hitch : HitchSt) (can : Tab CanPort) (dict : DictSt) (pwr : PwrSt) (pdk : PdkSt) (recs : RecSt) (brd : BrdSt)
    (ports : Tab PortSt) (lanes : Tab LaneSt) (cond : CondSt) (spec : SpecSt) (trd : TrdSt) (bob : BobSt) (tap : TapSt)
    (pnl : PnlSt) (shu : Tab CoreSt) (hns : Tab PPort) (spn : Tab SpnCh) (clk : ClkSt) (hfb : HfbSt) (far : FarSt)
    (mon : MonSt) (tck : TckSt) (tick : TickSt) (breach : List Nat) (spnTurns : SpnTurns) (turns : Tab (Option QuillTurn)) :
    o.Follows ⟨now, nowFrac, beats, pending, fresh, outs, regs, hbm, run, erl, hitch, can, dict, pwr, pdk, recs,
      brd, ports, lanes, cond, spec, trd, bob, tap, pnl, shu, hns, spn, clk, hfb, far, mon, tck,
      tick, breach, spnTurns, turns⟩ ↔
    o.Keeps beats pending fresh outs regs hbm :=
  ⟨fun h => ⟨h.pending, h.beats, h.outs, h.fresh, h.regs, h.hbm⟩,
    fun ⟨a, b, c, d, e, f⟩ => ⟨a, b, c, d, e, f⟩⟩

theorem State.Keeps.of {o t : State} (h : o.Follows t) : o.Keeps t.beats t.pending t.fresh t.outs t.regs t.hbm :=
  ⟨h.pending, h.beats, h.outs, h.fresh, h.regs, h.hbm⟩

theorem State.Follows.foldl {α : Type} {o : State} {f : State → α → State}
    (hf : ∀ x a, o.Follows x → o.Follows (f x a)) {x : State} (hx : o.Follows x) (l : List α) :
    o.Follows (l.foldl f x) := by
  induction l generalizing x with
  | nil => exact hx
  | cons a l ih => exact ih (hf x a hx)

/-- An outcome whose next state, where there is one, follows. -/
structure State.Ends (o : State) (r : Host.Outcome State Fault Refusal) : Prop where
  next_follows : ∀ t, r = .next t → o.Follows t

theorem State.Ends.next {o t : State} (h : o.Follows t) : o.Ends (.next t) := by
  constructor
  intro u hu
  cases hu
  exact h

/-- What a Shuttle instruction answers, done or at fault, follows. -/
structure State.Gives (o : State) (r : ShuRes) : Prop where
  done_follows : ∀ t c d, r = .done t c d → o.Follows t
  fault_follows : ∀ t c d, r = .fault t c d → o.Follows t

theorem State.Gives.done {o t : State} {c : Nat} {d : Option Nat} (h : o.Follows t) : o.Gives (.done t c d) := by
  constructor
  · intro u a b hu
    cases hu
    exact h
  · intro u a b hu
    cases hu

theorem State.Gives.fault {o t : State} {c : Nat} {d : Option Nat} (h : o.Follows t) : o.Gives (.fault t c d) := by
  constructor
  · intro u a b hu
    cases hu
  · intro u a b hu
    cases hu
    exact h

/-- Every command of a list of commands follows. -/
inductive State.AllEnd (o : State) : List (Nat × (State → Host.Outcome State Fault Refusal)) → Prop where
  | nil : State.AllEnd o []
  | cons {n : Nat} {f : State → Host.Outcome State Fault Refusal} {xs : List (Nat × (State → Host.Outcome State Fault Refusal))}
      (h : ∀ x, o.Follows x → o.Ends (f x)) (t : State.AllEnd o xs) : State.AllEnd o ((n, f) :: xs)

theorem State.Follows.ite {o a b : State} {c : Prop} [Decidable c] (ha : o.Follows a) (hb : o.Follows b) :
    o.Follows (if c then a else b) := by
  split
  · exact ha
  · exact hb

theorem State.Follows.cut {P Q : Prop} (p : P) (q : P → Q) : Q := q p

end Sys2Proof.Machine
end

