-- ==== Sys2Proof/Laws/Keeps1.lean ====
section
/-!
SUPPORT. Each operation and meaning of Ops, RecOps, StackOps, FarOps, BobOps keeps what State.Follows says: one lemma
  for each, named after it.
-/

set_option linter.all false

namespace Sys2Proof.Machine

/-! ### Ops -/

theorem Registers.wf_put (t : Tab Word) (a : Nat) (v : Word) (h : Registers.wf t = true) :
    Registers.wf (Tab.put resetOf t a v) = true := by
  unfold Registers.wf at *
  exact Tab.wf_put resetOf t a v h

theorem Registers.wf_filter (f : Nat × Word → Bool) (t : Tab Word) (h : Registers.wf t = true) :
    Registers.wf (t.filter f) = true := by
  unfold Registers.wf at *
  exact Tab.wf_filter resetOf f t h

theorem Memory.wf_put (t : Tab Byte) (a : Nat) (v : Byte) (h : Memory.wf t = true) :
    Memory.wf (Tab.put (fun _ => 0#8) t a v) = true := by
  unfold Memory.wf at *
  exact Tab.wf_put _ t a v h

theorem State.wr_follows {o : State} (s : State) (a : Nat) (v : Word) (h : o.Follows s) : o.Follows (s.wr a v) :=
  ⟨h.pending, h.beats, h.outs, h.fresh, fun x => Registers.wf_put s.regs a v (h.regs x), h.hbm⟩

theorem State.fset_follows {orig : State} (s : State) (a : Nat) (f : Fld) (v : Nat) (hyp : orig.Follows s) :
    orig.Follows (State.fset s a f v) := by
  unfold State.fset
  repeat' with_reducible first | assumption | apply State.wr_follows

theorem State.strike_follows {orig : State} (s : State) (a : Nat) (w : Word) (hyp : orig.Follows s) :
    orig.Follows (State.strike s a w) := by
  unfold State.strike
  repeat' first
    | (intro _)
    | with_reducible first | assumption
    | (simp only [State.Follows.mk_iff]; with_reducible apply State.Keeps.of)

theorem State.fon_follows {orig : State} (s : State) (a : Nat) (f : Fld) (hyp : orig.Follows s) :
    orig.Follows (State.fon s a f) := by
  unfold State.fon
  repeat' with_reducible first | assumption | apply State.fset_follows | apply State.strike_follows

theorem State.foff_follows {orig : State} (s : State) (a : Nat) (f : Fld) (hyp : orig.Follows s) :
    orig.Follows (State.foff s a f) := by
  unfold State.foff
  repeat' with_reducible first | assumption | apply State.fset_follows

theorem State.bitOn_follows {orig : State} (s : State) (a n : Nat) (hyp : orig.Follows s) :
    orig.Follows (State.bitOn s a n) := by
  unfold State.bitOn
  repeat' with_reducible first | assumption | apply State.strike_follows | apply State.wr_follows

theorem State.bitOff_follows {orig : State} (s : State) (a n : Nat) (hyp : orig.Follows s) :
    orig.Follows (State.bitOff s a n) := by
  unfold State.bitOff
  repeat' with_reducible first | assumption | apply State.wr_follows

theorem State.count_follows {orig : State} (s : State) (a n : Nat) (hyp : orig.Follows s) :
    orig.Follows (State.count s a n) := by
  unfold State.count
  repeat' with_reducible first | assumption | apply State.wr_follows

theorem State.countSat_follows {orig : State} (s : State) (a n : Nat) (hyp : orig.Follows s) :
    orig.Follows (State.countSat s a n) := by
  unfold State.countSat
  repeat' with_reducible first | assumption | apply State.wr_follows

theorem State.setPair_follows {orig : State} (s : State) (lo hi v : Nat) (hyp : orig.Follows s) :
    orig.Follows (State.setPair s lo hi v) := by
  unfold State.setPair
  repeat' with_reducible first | assumption | apply State.wr_follows

theorem State.fload_follows {orig : State} (s : State) (a : Nat) (f : Fld) (v : Nat) (hyp : orig.Follows s) :
    orig.Follows (State.fload s a f v) := by
  unfold State.fload
  repeat' first
    | (intro _)
    | with_reducible first | assumption | apply State.fset_follows
    | (simp only [State.Follows.mk_iff]; with_reducible apply State.Keeps.of)

theorem State.againBy_follows {orig : State} (s : State) (a b src : Nat) (hyp : orig.Follows s) :
    orig.Follows (State.againBy s a b src) := by
  unfold State.againBy
  repeat' first
    | (intro _)
    | with_reducible first | assumption
    | (simp only [State.Follows.mk_iff]; with_reducible apply State.Keeps.of)
    | split

theorem State.again_follows {orig : State} (s : State) (a b : Nat) (hyp : orig.Follows s) :
    orig.Follows (State.again s a b) := by
  unfold State.again
  repeat' first
    | (intro _)
    | with_reducible first | assumption | apply State.againBy_follows
    | (simp only [State.Follows.mk_iff]; with_reducible apply State.Keeps.of)
    | split

theorem State.took_follows {o : State} (s : State) (h : o.Follows s) : o.Follows s.took :=
  ⟨h.pending, h.beats, h.outs, Nat.le_succ_of_le h.fresh, h.regs, h.hbm⟩

theorem State.mended_follows {orig : State} (s : State) (lo hi : Nat) (hyp : orig.Follows s) :
    orig.Follows (State.mended s lo hi) := by
  unfold State.mended
  repeat' first
    | (intro _)
    | with_reducible first | assumption
    | (simp only [State.Follows.mk_iff]; with_reducible apply State.Keeps.of)

theorem State.clearRegs_follows {o : State} (s : State) (lo hi : Nat) (h : o.Follows s) : o.Follows (s.clearRegs lo hi) :=
  ⟨h.pending, h.beats, h.outs, h.fresh, fun x => Registers.wf_filter _ s.regs (h.regs x), h.hbm⟩

theorem State.breached_follows {orig : State} (s : State) (v : Nat) (hyp : orig.Follows s) :
    orig.Follows (State.breached s v) := by
  unfold State.breached
  repeat' first
    | (intro _)
    | with_reducible first | assumption | apply State.Follows.ite
    | (simp only [State.Follows.mk_iff]; with_reducible apply State.Keeps.of)
    | split

theorem State.emit_follows {o : State} (s : State) (x : Out) (h : o.Follows s) : o.Follows (s.emit x) := by
  obtain ⟨a, ha⟩ := h.outs
  exact ⟨h.pending, h.beats, ⟨x :: a, by simp [State.emit, ha]⟩, h.fresh, h.regs, h.hbm⟩

theorem State.sendMsgi_follows {orig : State} (s : State) (v : Nat) (hyp : orig.Follows s) :
    orig.Follows (State.sendMsgi s v) := by
  unfold State.sendMsgi
  repeat' with_reducible first | assumption | apply State.Follows.ite | apply State.emit_follows

theorem State.settleVec_follows {orig : State} (s : State) (v : Nat) (hyp : orig.Follows s) :
    orig.Follows (State.settleVec s v) := by
  unfold State.settleVec
  repeat' with_reducible first | assumption | apply State.Follows.ite | apply State.bitOff_follows |
      apply State.bitOn_follows | apply State.sendMsgi_follows

theorem State.resettleVec_follows {orig : State} (s : State) (v : Nat) (hyp : orig.Follows s) :
    orig.Follows (State.resettleVec s v) := by
  unfold State.resettleVec
  repeat' with_reducible first | assumption | apply State.Follows.ite | apply State.sendMsgi_follows |
      apply State.settleVec_follows

theorem State.raise_follows {orig : State} (s : State) (v b : Nat) (hyp : orig.Follows s) :
    orig.Follows (State.raise s v b) := by
  unfold State.raise
  repeat' with_reducible first | assumption | apply State.bitOn_follows | apply State.settleVec_follows

theorem putCell_wf (t : Tab Byte) (v : Byte) (c : Option Nat) (h : Memory.wf t = true) : Memory.wf (putCell t v c) = true := by
  cases c with
  | none => exact h
  | some k => exact Memory.wf_put t k v h

theorem State.hbmPut_follows {o : State} (s : State) (off : Nat) (v : Byte) (h : o.Follows s) : o.Follows (s.hbmPut off v) :=
  ⟨h.pending, h.beats, h.outs, h.fresh, h.regs, fun x => putCell_wf s.hbm v (s.hbmCell off) (h.hbm x)⟩

theorem State.hbmWrite_follows {o : State} (s : State) (off : Nat) (l : List Byte) (h : o.Follows s) :
    o.Follows (s.hbmWrite off l) := by
  induction l generalizing s off with
  | nil => exact h
  | cons b l ih => exact ih _ _ (State.hbmPut_follows s off b h)

theorem State.busErr_follows {orig : State} (s : State) (src : Src) (kind : Nat) (write : Bool) (addr : Nat) (alias_
    : Bool) (hyp : orig.Follows s) :
    orig.Follows (State.busErr s src kind write addr alias_) := by
  unfold State.busErr
  repeat' with_reducible first | assumption | apply State.Follows.ite | apply State.count_follows |
      apply State.raise_follows | apply State.setPair_follows | apply State.wr_follows

theorem State.hbmAnswer_follows {orig : State} (s : State) (id : Nat) (status : Status) (data : List Nat) (hyp :
    orig.Follows s) :
    orig.Follows (State.hbmAnswer s id status data) := by
  unfold State.hbmAnswer
  repeat' first
    | (intro _)
    | with_reducible first | assumption | apply State.Follows.ite | apply State.emit_follows
    | (simp only [State.Follows.mk_iff]; with_reducible apply State.Keeps.of)

theorem State.hbmBusErr_follows {orig : State} (s : State) (id : Nat) (write : Bool) (off : Nat) (hyp : orig.Follows
    s) :
    orig.Follows (State.hbmBusErr s id write off) := by
  unfold State.hbmBusErr
  repeat' with_reducible first | assumption | apply State.busErr_follows | apply State.hbmAnswer_follows

theorem State.setSide_follows {orig : State} (s : State) (i : Nat) (x : SideSt) (hyp : orig.Follows s) :
    orig.Follows (State.setSide s i x) := by
  unfold State.setSide
  repeat' first
    | (intro _)
    | with_reducible first | assumption
    | (simp only [State.Follows.mk_iff]; with_reducible apply State.Keeps.of)

theorem State.sideRefused_follows {orig : State} (s : State) (i key : Nat) (hyp : orig.Follows s) :
    orig.Follows (State.sideRefused s i key) := by
  unfold State.sideRefused
  repeat' first
    | (intro _)
    | with_reducible first | assumption | apply State.setSide_follows
    | (simp only [State.Follows.mk_iff]; with_reducible apply State.Keeps.of)

theorem State.setTurn_follows {orig : State} (s : State) (k : Nat) (t : Option QuillTurn) (hyp : orig.Follows s) :
    orig.Follows (State.setTurn s k t) := by
  unfold State.setTurn
  repeat' first
    | (intro _)
    | with_reducible first | assumption
    | (simp only [State.Follows.mk_iff]; with_reducible apply State.Keeps.of)

theorem State.turnsGone_follows {orig : State} (s : State) (p : Nat → Bool) (hyp : orig.Follows s) :
    orig.Follows (State.turnsGone s p) := by
  unfold State.turnsGone
  repeat' first
    | (intro _)
    | with_reducible first | assumption
    | (simp only [State.Follows.mk_iff]; with_reducible apply State.Keeps.of)

theorem State.turnCalm_follows {orig : State} (s : State) (k : Nat) (hyp : orig.Follows s) :
    orig.Follows (State.turnCalm s k) := by
  unfold State.turnCalm
  repeat' first
    | (intro _)
    | with_reducible first | assumption | apply State.setTurn_follows
    | (simp only [State.Follows.mk_iff]; with_reducible apply State.Keeps.of)

theorem State.turnPush_follows {orig : State} (s : State) (k len : Nat) (hyp : orig.Follows s) :
    orig.Follows (State.turnPush s k len) := by
  unfold State.turnPush
  repeat' first
    | (intro _)
    | with_reducible first | assumption | apply State.setTurn_follows
    | (simp only [State.Follows.mk_iff]; with_reducible apply State.Keeps.of)

theorem State.turnWait_follows {orig : State} (s : State) (k len : Nat) (w : QuillWord) (hyp : orig.Follows s) :
    orig.Follows (State.turnWait s k len w) := by
  unfold State.turnWait
  repeat' first
    | (intro _)
    | with_reducible first | assumption | apply State.setTurn_follows
    | (simp only [State.Follows.mk_iff]; with_reducible apply State.Keeps.of)

theorem State.turnPop_follows {orig : State} (s : State) (k len : Nat) (hyp : orig.Follows s) :
    orig.Follows (State.turnPop s k len).1 := by
  unfold State.turnPop
  repeat' first
    | with_reducible assumption
    | (intro x; refine State.Follows.cut (P := orig.Follows x) ?_ ?_; all_goals first | (intro _; clear_value x) | subst x)
    | (intro x; clear_value x)
    | (intro _)
    | with_reducible first | assumption | apply State.setTurn_follows
    | (simp only [State.Follows.mk_iff]; with_reducible apply State.Keeps.of)
    | lift_lets
    | split
    | dsimp only

theorem State.sideRefusal_follows {orig : State} (s : State) (i : Nat) (hyp : orig.Follows s) :
    orig.Follows (State.sideRefusal s i) := by
  unfold State.sideRefusal
  repeat' with_reducible first | assumption | apply State.bitOn_follows | apply State.count_follows | apply State.raise_follows | apply
      State.sideRefused_follows

theorem State.sidePush_follows {orig : State} (s : State) (i : Nat) (e : SideEntry) (hyp : orig.Follows s) :
    orig.Follows (State.sidePush s i e) := by
  unfold State.sidePush
  repeat' first
    | (intro _)
    | with_reducible first | assumption | apply State.Follows.ite | apply State.setSide_follows | apply State.turnPush_follows | apply
      State.turnWait_follows
    | (simp only [State.Follows.mk_iff]; with_reducible apply State.Keeps.of)
    | split

theorem State.erlCommit_follows {orig : State} (s : State) (e : ErlEntry) (hyp : orig.Follows s) :
    orig.Follows (State.erlCommit s e) := by
  unfold State.erlCommit
  repeat' first
    | (intro _)
    | with_reducible first | assumption | apply State.Follows.ite | apply State.wr_follows | apply State.fon_follows |
      apply State.bitOn_follows | apply State.count_follows | apply State.setPair_follows | apply State.raise_follows
      | apply State.sidePush_follows
    | (simp only [State.Follows.mk_iff]; with_reducible apply State.Keeps.of)
    | split

theorem State.erlStore_follows {orig : State} (s : State) (e : ErlEntry) (hyp : orig.Follows s) :
    orig.Follows (State.erlStore s e) := by
  unfold State.erlStore
  repeat' first
    | (intro _)
    | with_reducible first | assumption
    | (simp only [State.Follows.mk_iff]; with_reducible apply State.Keeps.of)

theorem State.erlAllocate_follows {orig : State} (s : State) (e : ErlEntry) (hyp : orig.Follows s) :
    orig.Follows (State.erlAllocate s e) := by
  unfold State.erlAllocate
  repeat' with_reducible first | assumption | apply State.Follows.ite | apply State.count_follows |
      apply State.erlStore_follows | apply State.fon_follows | apply State.wr_follows

theorem State.logAt_follows {orig : State} (s : State) (wt frac vec num sev unit a0 a1 : Nat) (hyp : orig.Follows s) :
    orig.Follows (State.logAt s wt frac vec num sev unit a0 a1) := by
  unfold State.logAt
  repeat' with_reducible first | assumption | apply State.erlAllocate_follows | apply State.erlCommit_follows

theorem State.log_follows {orig : State} (s : State) (vec num sev unit a0 a1 : Nat) (hyp : orig.Follows s) :
    orig.Follows (State.log s vec num sev unit a0 a1) := by
  unfold State.log
  repeat' with_reducible first | assumption | apply State.logAt_follows

theorem State.event_follows {orig : State} (s : State) (vec b sev unit a0 a1 : Nat) (hyp : orig.Follows s) :
    orig.Follows (State.event s vec b sev unit a0 a1) := by
  unfold State.event
  repeat' with_reducible first | assumption | apply State.log_follows | apply State.raise_follows

theorem State.setOpens_follows {orig : State} (s : State) (xs : List ErlOpen) (hyp : orig.Follows s) :
    orig.Follows (State.setOpens s xs) := by
  unfold State.setOpens
  repeat' first
    | (intro _)
    | with_reducible first | assumption | apply State.Follows.ite | apply State.fset_follows
    | (simp only [State.Follows.mk_iff]; with_reducible apply State.Keeps.of)

theorem State.erlClose_follows {orig : State} (s : State) (o : ErlOpen) (hyp : orig.Follows s) :
    orig.Follows (State.erlClose s o) := by
  unfold State.erlClose
  repeat' first
    | (intro _)
    | with_reducible first | assumption | apply State.Follows.ite | apply State.erlCommit_follows |
      apply State.erlStore_follows | apply State.setOpens_follows

theorem State.logCoalesce_follows {orig : State} (s0 : State) (vec num sev unit a0 : Nat) (hyp : orig.Follows s0) :
    orig.Follows (State.logCoalesce s0 vec num sev unit a0) := by
  unfold State.logCoalesce
  repeat' first
    | with_reducible assumption
    | (intro x; refine State.Follows.cut (P := orig.Follows x) ?_ ?_; all_goals first | (intro _; clear_value x) | subst x)
    | (intro x; clear_value x)
    | (intro _)
    | with_reducible first | assumption | apply State.Follows.ite | apply State.count_follows |
      apply State.erlAllocate_follows | apply State.erlClose_follows | apply State.erlStore_follows |
      apply State.setOpens_follows | apply State.Follows.foldl
    | (simp only [State.Follows.mk_iff]; with_reducible apply State.Keeps.of)
    | lift_lets
    | split
    | dsimp only

theorem State.logSev_follows {orig : State} (s : State) (vec num unit a0 a1 : Nat) (hyp : orig.Follows s) :
    orig.Follows (State.logSev s vec num unit a0 a1) := by
  unfold State.logSev
  repeat' with_reducible first | assumption | apply State.log_follows | apply State.took_follows

theorem State.resetEnded_follows {orig : State} (s : State) (vec unit counts : Nat) (hyp : orig.Follows s) :
    orig.Follows (State.resetEnded s vec unit counts) := by
  unfold State.resetEnded
  repeat' with_reducible first | assumption | apply State.logSev_follows

theorem State.journal_follows {orig : State} (s : State) (e : JEntry) (hyp : orig.Follows s) :
    orig.Follows (State.journal s e) := by
  unfold State.journal
  repeat' first
    | (intro _)
    | with_reducible first | assumption
    | (simp only [State.Follows.mk_iff]; with_reducible apply State.Keeps.of)

theorem State.setCan_follows {orig : State} (s : State) (p : Nat) (x : CanPort) (hyp : orig.Follows s) :
    orig.Follows (State.setCan s p x) := by
  unfold State.setCan
  repeat' first
    | (intro _)
    | with_reducible first | assumption
    | (simp only [State.Follows.mk_iff]; with_reducible apply State.Keeps.of)

theorem State.emcySend_follows {orig : State} (s : State) (p : Nat) (e : Emcy) (hyp : orig.Follows s) :
    orig.Follows (State.emcySend s p e) := by
  unfold State.emcySend
  repeat' first
    | (intro _)
    | with_reducible first | assumption | apply State.Follows.ite | apply State.emit_follows | apply
      State.setCan_follows
    | (simp only [State.Follows.mk_iff]; with_reducible apply State.Keeps.of)
    | split

theorem State.emcyOn_follows {orig : State} (s : State) (p code bit unit : Nat) (hyp : orig.Follows s) :
    orig.Follows (State.emcyOn s p code bit unit) := by
  unfold State.emcyOn
  repeat' first
    | (intro _)
    | with_reducible first | assumption | apply State.emcySend_follows | apply State.setCan_follows

theorem State.emcyOff_follows {orig : State} (s : State) (p code unit : Nat) (hyp : orig.Follows s) :
    orig.Follows (State.emcyOff s p code unit) := by
  unfold State.emcyOff
  repeat' first
    | (intro _)
    | with_reducible first | assumption | apply State.Follows.ite | apply State.emcySend_follows |
      apply State.setCan_follows

theorem State.emcyOnAll_follows {orig : State} (s : State) (code bit unit : Nat) (hyp : orig.Follows s) :
    orig.Follows (State.emcyOnAll s code bit unit) := by
  unfold State.emcyOnAll
  repeat' with_reducible first | assumption | apply State.emcyOn_follows

theorem State.emcyOffAll_follows {orig : State} (s : State) (code unit : Nat) (hyp : orig.Follows s) :
    orig.Follows (State.emcyOffAll s code unit) := by
  unfold State.emcyOffAll
  repeat' with_reducible first | assumption | apply State.emcyOff_follows

theorem State.setReed_follows {orig : State} (s : State) (n r : Nat) (x : ReedRt) (hyp : orig.Follows s) :
    orig.Follows (State.setReed s n r x) := by
  unfold State.setReed
  repeat' first
    | (intro _)
    | with_reducible first | assumption
    | (simp only [State.Follows.mk_iff]; with_reducible apply State.Keeps.of)

theorem State.reedPrecision_follows {orig : State} (s : State) (n r : Nat) (reduced : Bool) (hyp : orig.Follows s) :
    orig.Follows (State.reedPrecision s n r reduced) := by
  unfold State.reedPrecision
  repeat' first
    | (intro _)
    | with_reducible first | assumption | apply State.Follows.ite | apply State.fset_follows | apply State.raise_follows | apply
      State.setReed_follows
    | (simp only [State.Follows.mk_iff]; with_reducible apply State.Keeps.of)
    | split

theorem State.windowsPrecision_follows {orig : State} (s : State) (c : Nat) (on : Bool) (hyp : orig.Follows s) :
    orig.Follows (State.windowsPrecision s c on) := by
  unfold State.windowsPrecision
  repeat' first
    | (intro _)
    | with_reducible first | assumption | apply State.Follows.ite | apply State.reedPrecision_follows | apply State.Follows.foldl
    | (simp only [State.Follows.mk_iff]; with_reducible apply State.Keeps.of)
    | split

theorem State.thermalWindows_follows {orig : State} (s : State) (d : Nat) (on : Bool) (hyp : orig.Follows s) :
    orig.Follows (State.thermalWindows s d on) := by
  unfold State.thermalWindows
  repeat' first
    | (intro _)
    | with_reducible first | assumption | apply State.Follows.ite | apply State.windowsPrecision_follows | apply State.Follows.foldl
    | split

theorem State.keepDegUnit_follows {orig : State} (s : State) (d unit : Nat) (hyp : orig.Follows s) :
    orig.Follows (State.keepDegUnit s d unit) := by
  unfold State.keepDegUnit
  repeat' first
    | (intro _)
    | with_reducible first | assumption
    | (simp only [State.Follows.mk_iff]; with_reducible apply State.Keeps.of)

theorem State.degradeOn_follows {orig : State} (s : State) (d unit : Nat) (hyp : orig.Follows s) :
    orig.Follows (State.degradeOn s d unit) := by
  unfold State.degradeOn
  repeat' first
    | with_reducible assumption
    | (intro x; refine State.Follows.cut (P := orig.Follows x) ?_ ?_; all_goals first | (intro _; clear_value x) | subst x)
    | (intro x; refine State.Follows.cut (P := ∀ a, orig.Follows (x a)) ?_ ?_; all_goals first | (subst x; intro _) | (intro kf; clear_value x))
    | (intro x; refine State.Follows.cut (P := ∀ t a, orig.Follows t → orig.Follows (x t a)) ?_ ?_; all_goals first | (subst x; intro _ _ _) | (intro kf; clear_value x))
    | (intro x; refine State.Follows.cut (P := ∀ t a b, orig.Follows t → orig.Follows (x t a b)) ?_ ?_; all_goals first | (subst x; intro _ _ _ _) | (intro kf; clear_value x))
    | (intro x; refine State.Follows.cut (P := orig.Follows x.1) ?_ ?_; all_goals first | (intro _; clear_value x) | subst x)
    | (intro x; refine State.Follows.cut (P := orig.Follows x.2) ?_ ?_; all_goals first | (intro _; clear_value x) | subst x)
    | (intro x; refine State.Follows.cut (P := orig.Follows x.state) ?_ ?_; all_goals first | (intro _; clear_value x) | subst x)
    | (intro x; clear_value x)
    | (intro _)
    | with_reducible first | assumption | apply State.Follows.ite | apply State.bitOn_follows | apply
      State.setPair_follows | apply State.event_follows | apply State.emcyOnAll_follows | apply
      State.thermalWindows_follows | apply State.keepDegUnit_follows
    | (simp only [State.Follows.mk_iff]; with_reducible apply State.Keeps.of)
    | lift_lets
    | split
    | dsimp only

theorem State.degradeOff_follows {orig : State} (s : State) (d : Nat) (hyp : orig.Follows s) :
    orig.Follows (State.degradeOff s d) := by
  unfold State.degradeOff
  repeat' first
    | with_reducible assumption
    | (intro x; refine State.Follows.cut (P := orig.Follows x) ?_ ?_; all_goals first | (intro _; clear_value x) | subst x)
    | (intro x; refine State.Follows.cut (P := ∀ a, orig.Follows (x a)) ?_ ?_; all_goals first | (subst x; intro _) | (intro kf; clear_value x))
    | (intro x; refine State.Follows.cut (P := ∀ t a, orig.Follows t → orig.Follows (x t a)) ?_ ?_; all_goals first | (subst x; intro _ _ _) | (intro kf; clear_value x))
    | (intro x; refine State.Follows.cut (P := ∀ t a b, orig.Follows t → orig.Follows (x t a b)) ?_ ?_; all_goals first | (subst x; intro _ _ _ _) | (intro kf; clear_value x))
    | (intro x; refine State.Follows.cut (P := orig.Follows x.1) ?_ ?_; all_goals first | (intro _; clear_value x) | subst x)
    | (intro x; refine State.Follows.cut (P := orig.Follows x.2) ?_ ?_; all_goals first | (intro _; clear_value x) | subst x)
    | (intro x; refine State.Follows.cut (P := orig.Follows x.state) ?_ ?_; all_goals first | (intro _; clear_value x) | subst x)
    | (intro x; clear_value x)
    | (intro _)
    | with_reducible first | assumption | apply State.Follows.ite | apply State.bitOff_follows | apply
      State.event_follows | apply State.emcyOffAll_follows | apply State.thermalWindows_follows
    | (simp only [State.Follows.mk_iff]; with_reducible apply State.Keeps.of)
    | lift_lets
    | split
    | dsimp only

/-! ### RecOps -/

theorem State.setStream_follows {orig : State} (s : State) (k : Nat) (x : StreamSt) (hyp : orig.Follows s) :
    orig.Follows (State.setStream s k x) := by
  unfold State.setStream
  repeat' first
    | (intro _)
    | with_reducible first | assumption
    | (simp only [State.Follows.mk_iff]; with_reducible apply State.Keeps.of)

theorem State.setQuill_follows {orig : State} (s : State) (k : Nat) (q : QuillSt) (hyp : orig.Follows s) :
    orig.Follows (State.setQuill s k q) := by
  unfold State.setQuill
  repeat' first
    | (intro _)
    | with_reducible first | assumption | apply State.Follows.ite | apply State.fset_follows | apply State.wr_follows
    | (simp only [State.Follows.mk_iff]; with_reducible apply State.Keeps.of)
    | split

theorem State.takeSeq_follows {orig : State} (s : State) (k rtype : Nat) (hyp : orig.Follows s) :
    orig.Follows (State.takeSeq s k rtype).2 := by
  unfold State.takeSeq
  repeat' first
    | (intro _)
    | with_reducible first | assumption | apply State.Follows.ite | apply State.count_follows | apply
      State.setStream_follows
    | (simp only [State.Follows.mk_iff]; with_reducible apply State.Keeps.of)
    | split

theorem State.waveNumber_follows {orig : State} (s : State) (w : Waiter) (hyp : orig.Follows s) :
    orig.Follows (State.waveNumber s w) := by
  unfold State.waveNumber
  repeat' first
    | (intro _)
    | with_reducible first | assumption | apply State.Follows.ite | apply State.takeSeq_follows
    | (simp only [State.Follows.mk_iff]; with_reducible apply State.Keeps.of)
    | split

theorem State.quillTake_follows {orig : State} (s : State) (k : Nat) (q : QuillSt) (w : Waiter) (hyp : orig.Follows s)
  :
    orig.Follows (State.quillTake s k q w) := by
  unfold State.quillTake
  repeat' first
    | (intro _)
    | with_reducible first | assumption | apply State.Follows.ite | apply State.setQuill_follows | apply
      State.takeSeq_follows | apply State.waveNumber_follows
    | (simp only [State.Follows.mk_iff]; with_reducible apply State.Keeps.of)
    | split

theorem State.quillAdmit_follows {orig : State} (s : State) (k n : Nat) (hyp : orig.Follows s) :
    orig.Follows (s.quillAdmit k n) := by
  induction n generalizing s with
  | zero => exact hyp
  | succ n ih =>
    unfold State.quillAdmit
    dsimp only
    split
    · split
      · exact ih _ (State.quillTake_follows _ _ _ _ hyp)
      · exact hyp
    · exact hyp

theorem State.quillRefill_follows {orig : State} (s : State) (k : Nat) (hyp : orig.Follows s) :
    orig.Follows (State.quillRefill s k) := by
  unfold State.quillRefill
  repeat' with_reducible first | assumption | apply State.quillAdmit_follows

theorem State.enqueue_follows {orig : State} (s : State) (k : Nat) (ws : List Waiter) (hyp : orig.Follows s) :
    orig.Follows (State.enqueue s k ws) := by
  unfold State.enqueue
  repeat' first
    | (intro _)
    | with_reducible first | assumption | apply State.quillRefill_follows | apply State.setQuill_follows
    | (simp only [State.Follows.mk_iff]; with_reducible apply State.Keeps.of)

theorem State.unitEnd_follows {orig : State} (s : State) (k source rtype : Nat) (e : Int) (hyp : orig.Follows s) :
    orig.Follows (State.unitEnd s k source rtype e) := by
  unfold State.unitEnd
  repeat' first
    | (intro _)
    | with_reducible first | assumption | apply State.setStream_follows

theorem State.countAbort_follows {orig : State} (s : State) (k : Nat) (hyp : orig.Follows s) :
    orig.Follows (State.countAbort s k) := by
  unfold State.countAbort
  repeat' with_reducible first | assumption | apply State.count_follows | apply State.setStream_follows

theorem State.countDiscard_follows {orig : State} (s : State) (k : Nat) (hyp : orig.Follows s) :
    orig.Follows (State.countDiscard s k) := by
  unfold State.countDiscard
  repeat' with_reducible first | assumption | apply State.count_follows | apply State.setStream_follows

theorem State.countVeto_follows {orig : State} (s : State) (k : Nat) (hyp : orig.Follows s) :
    orig.Follows (State.countVeto s k) := by
  unfold State.countVeto
  repeat' with_reducible first | assumption | apply State.count_follows | apply State.setStream_follows

theorem State.pushRecord_follows {orig : State} (s : State) (r : RecIn) (body : List Byte) (hyp : orig.Follows s) :
    orig.Follows (State.pushRecord s r body) := by
  unfold State.pushRecord
  repeat' first
    | (intro _)
    | with_reducible first | assumption | apply State.Follows.ite | apply State.countAbort_follows | apply State.enqueue_follows |
      apply State.unitEnd_follows
    | split

theorem State.sideClose_follows {orig : State} (s : State) (i unit close : Nat) (hyp : orig.Follows s) :
    orig.Follows (State.sideClose s i unit close) := by
  unfold State.sideClose
  repeat' first
    | with_reducible assumption
    | (intro x; refine State.Follows.cut (P := orig.Follows x) ?_ ?_; all_goals first | (intro _; clear_value x) | subst x)
    | (intro x; clear_value x)
    | (intro _)
    | with_reducible first | assumption | apply State.Follows.ite | apply State.pushRecord_follows | apply State.setSide_follows |
      apply State.stamp_follows | apply State.Follows.foldl
    | (simp only [State.Follows.mk_iff]; with_reducible apply State.Keeps.of)
    | lift_lets
    | split
    | dsimp only

theorem State.sideGather_follows {orig : State} (s : State) (i unit : Nat) (e : SideEntry) (hyp : orig.Follows s) :
    orig.Follows (State.sideGather s i unit e) := by
  unfold State.sideGather
  repeat' with_reducible first | assumption | apply State.Follows.ite | apply State.setSide_follows |
      apply State.sideClose_follows

theorem State.sidesStop_follows {orig : State} (s : State) (hyp : orig.Follows s) :
    orig.Follows (State.sidesStop s) := by
  unfold State.sidesStop
  repeat' first
    | (intro _)
    | with_reducible first | assumption | apply State.sideClose_follows | apply State.Follows.foldl

theorem State.specClose_follows {orig : State} (s : State) (c close : Nat) (x : SpecRec) (hyp : orig.Follows s) :
    orig.Follows (State.specClose s c close x) := by
  unfold State.specClose
  repeat' first
    | (intro _)
    | with_reducible first | assumption | apply State.Follows.ite | apply State.count_follows | apply
      State.pushRecord_follows | apply State.Follows.foldl
    | (simp only [State.Follows.mk_iff]; with_reducible apply State.Keeps.of)
    | split

/-! ### StackOps -/

theorem State.setStack_follows {orig : State} (s : State) (k : Nat) (x : StackSt) (hyp : orig.Follows s) :
    orig.Follows (State.setStack s k x) := by
  unfold State.setStack
  repeat' first
    | (intro _)
    | with_reducible first | assumption
    | (simp only [State.Follows.mk_iff]; with_reducible apply State.Keeps.of)

theorem State.bobReady_follows {orig : State} (s : State) (hyp : orig.Follows s) :
    orig.Follows (State.bobReady s) := by
  unfold State.bobReady
  repeat' first
    | (intro _)
    | with_reducible first | assumption | apply State.Follows.ite | apply State.fset_follows
    | split

theorem State.srShow_follows {orig : State} (s : State) (k st : Nat) (hyp : orig.Follows s) :
    orig.Follows (State.srShow s k st) := by
  unfold State.srShow
  repeat' with_reducible first | assumption | apply State.bobReady_follows | apply State.fset_follows

theorem State.srGo_follows {orig : State} (s : State) (k st : Nat) (hyp : orig.Follows s) :
    orig.Follows (State.srGo s k st) := by
  unfold State.srGo
  repeat' first
    | (intro _)
    | with_reducible first | assumption | apply State.setStack_follows | apply State.srShow_follows
    | (simp only [State.Follows.mk_iff]; with_reducible apply State.Keeps.of)

theorem State.srCtrlDone_follows {orig : State} (s : State) (k : Nat) (hyp : orig.Follows s) :
    orig.Follows (State.srCtrlDone s k) := by
  unfold State.srCtrlDone
  repeat' with_reducible first | assumption | apply State.Follows.ite | apply State.wr_follows

theorem State.stackTouch_follows {orig : State} (s : State) (k : Nat) (hyp : orig.Follows s) :
    orig.Follows (State.stackTouch s k) := by
  unfold State.stackTouch
  repeat' with_reducible first | assumption | apply State.Follows.ite | apply State.count_follows |
      apply State.foff_follows | apply State.setStack_follows | apply State.srGo_follows

theorem State.stackShedArmed_follows {orig : State} (s : State) (k : Nat) (hyp : orig.Follows s) :
    orig.Follows (State.stackShedArmed s k) := by
  unfold State.stackShedArmed
  repeat' with_reducible first | assumption | apply State.Follows.ite | apply State.raise_follows |
      apply State.setStack_follows | apply State.srCtrlDone_follows | apply State.srGo_follows

theorem State.hbmTouch_follows {orig : State} (s : State) (off n : Nat) (hyp : orig.Follows s) :
    orig.Follows (State.hbmTouch s off n) := by
  unfold State.hbmTouch
  repeat' with_reducible first | assumption | apply State.Follows.ite | apply State.stackTouch_follows

/-! ### FarOps -/

theorem State.setSlot_follows {orig : State} (s : State) (k : Nat) (bs : List Byte) (hyp : orig.Follows s) :
    orig.Follows (State.setSlot s k bs) := by
  unfold State.setSlot
  repeat' first
    | (intro _)
    | with_reducible first | assumption | apply State.Follows.ite
    | (simp only [State.Follows.mk_iff]; with_reducible apply State.Keeps.of)

theorem State.showStore_follows {orig : State} (s : State) (hyp : orig.Follows s) :
    orig.Follows (State.showStore s) := by
  unfold State.showStore
  repeat' first
    | (intro _)
    | with_reducible first | assumption | apply State.wr_follows | apply State.Follows.foldl

theorem State.farResult_follows {orig : State} (s : State) (result slot : Nat) (hyp : orig.Follows s) :
    orig.Follows (State.farResult s result slot) := by
  unfold State.farResult
  repeat' with_reducible first | assumption | apply State.fset_follows

theorem State.farBegin_follows {orig : State} (s : State) (p : FarProg) (hyp : orig.Follows s) :
    orig.Follows (State.farBegin s p) := by
  unfold State.farBegin
  repeat' first
    | (intro _)
    | with_reducible first | assumption | apply State.fon_follows
    | (simp only [State.Follows.mk_iff]; with_reducible apply State.Keeps.of)

theorem State.farAutoFail_follows {orig : State} (s : State) (q : Nat) (hyp : orig.Follows s) :
    orig.Follows (State.farAutoFail s q) := by
  unfold State.farAutoFail
  repeat' with_reducible first | assumption | apply State.event_follows

theorem State.farAuto_follows {orig : State} (s : State) (q : Nat) (hyp : orig.Follows s) :
    orig.Follows (State.farAuto s q) := by
  unfold State.farAuto
  repeat' first
    | (intro _)
    | with_reducible first | assumption | apply State.Follows.ite | apply State.farAutoFail_follows |
      apply State.farBegin_follows | apply State.Follows.foldl
    | (simp only [State.Follows.mk_iff]; with_reducible apply State.Keeps.of)
    | split

theorem State.farGo_follows {orig : State} (s : State) (n : Nat) (hyp : orig.Follows s) : orig.Follows (s.farGo n) := by
  induction n generalizing s with
  | zero => exact hyp
  | succ n ih =>
    unfold State.farGo
    split
    · exact hyp
    · split
      · exact hyp
      · apply ih
        apply State.farAuto_follows
        rw [State.Follows.mk_iff]
        exact State.Keeps.of hyp

theorem State.farNext_follows {orig : State} (s : State) (hyp : orig.Follows s) :
    orig.Follows (State.farNext s) := by
  unfold State.farNext
  repeat' with_reducible first | assumption | apply State.farGo_follows

theorem State.farRetired_follows {orig : State} (s : State) (q : Nat) (hyp : orig.Follows s) :
    orig.Follows (State.farRetired s q) := by
  unfold State.farRetired
  repeat' first
    | (intro _)
    | with_reducible first | assumption | apply State.farNext_follows
    | (simp only [State.Follows.mk_iff]; with_reducible apply State.Keeps.of)

theorem State.settled_follows {orig : State} (s : State) (hyp : orig.Follows s) :
    orig.Follows (State.settled s) := by
  unfold State.settled
  repeat' first
    | (intro _)
    | with_reducible first | assumption | apply State.Follows.ite | apply State.setSlot_follows
    | (simp only [State.Follows.mk_iff]; with_reducible apply State.Keeps.of)
    | split

theorem State.applyXtal_follows {orig : State} (s : State) (hyp : orig.Follows s) :
    orig.Follows (State.applyXtal s) := by
  unfold State.applyXtal
  repeat' with_reducible first | assumption | apply State.settled_follows | apply State.wr_follows

theorem State.statRes_follows {orig : State} (s : State) (c : Nat) (offset : Int) (gain code : Nat) (hyp :
    orig.Follows s) :
    orig.Follows (State.statRes s c offset gain code) := by
  unfold State.statRes
  repeat' with_reducible first | assumption | apply State.wr_follows

theorem State.statLoad_follows {orig : State} (s : State) (c : Nat) (x : StatSum) (hyp : orig.Follows s) :
    orig.Follows (State.statLoad s c x) := by
  unfold State.statLoad
  repeat' first
    | (intro _)
    | with_reducible first | assumption | apply State.Follows.ite | apply State.statRes_follows |
      apply State.took_follows
    | (simp only [State.Follows.mk_iff]; with_reducible apply State.Keeps.of)
    | split

theorem State.statsStart_follows {orig : State} (s : State) (hyp : orig.Follows s) :
    orig.Follows (State.statsStart s) := by
  unfold State.statsStart
  repeat' first
    | (intro _)
    | with_reducible first | assumption | apply State.Follows.ite | apply State.foff_follows | apply State.fon_follows
    | (simp only [State.Follows.mk_iff]; with_reducible apply State.Keeps.of)

theorem State.statsStop_follows {orig : State} (s : State) (hyp : orig.Follows s) :
    orig.Follows (State.statsStop s) := by
  unfold State.statsStop
  repeat' first
    | (intro _)
    | with_reducible first | assumption | apply State.Follows.ite | apply State.foff_follows |
      apply State.raise_follows | apply State.statLoad_follows | apply State.Follows.foldl
    | (simp only [State.Follows.mk_iff]; with_reducible apply State.Keeps.of)
    | split

theorem State.statsCount_follows {orig : State} (s : State) (c : Nat) (code : Int) (hyp : orig.Follows s) :
    orig.Follows (State.statsCount s c code) := by
  unfold State.statsCount
  repeat' first
    | (intro _)
    | with_reducible first | assumption | apply State.Follows.ite
    | (simp only [State.Follows.mk_iff]; with_reducible apply State.Keeps.of)
    | split

theorem State.farFailed_follows {orig : State} (s : State) (p : FarProg) (result : Nat) (hyp : orig.Follows s) :
    orig.Follows (State.farFailed s p result) := by
  unfold State.farFailed
  repeat' first
    | (intro _)
    | with_reducible first | assumption | apply State.farAutoFail_follows | apply State.farResult_follows |
      apply State.foff_follows | apply State.raise_follows
    | (simp only [State.Follows.mk_iff]; with_reducible apply State.Keeps.of)
    | split

theorem State.farProg_follows {orig : State} (s : State) (hyp : orig.Follows s) :
    orig.Follows (State.farProg s) := by
  unfold State.farProg
  repeat' first
    | (intro _)
    | with_reducible first | assumption | apply State.Follows.ite | apply State.farBegin_follows |
      apply State.farResult_follows | apply State.foff_follows | apply State.fon_follows |
      apply State.raise_follows
    | (simp only [State.Follows.mk_iff]; with_reducible apply State.Keeps.of)
    | split

theorem State.trimsDue_follows {orig : State} (s : State) (hyp : orig.Follows s) :
    orig.Follows (State.trimsDue s) := by
  unfold State.trimsDue
  repeat' first
    | (intro _)
    | with_reducible first | assumption | apply State.Follows.ite
    | (simp only [State.Follows.mk_iff]; with_reducible apply State.Keeps.of)
    | split

theorem State.corrsDue_follows {orig : State} (s : State) (hyp : orig.Follows s) :
    orig.Follows (State.corrsDue s) := by
  unfold State.corrsDue
  repeat' first
    | (intro _)
    | with_reducible first | assumption | apply State.Follows.ite
    | (simp only [State.Follows.mk_iff]; with_reducible apply State.Keeps.of)
    | split

theorem State.farWritten_follows {orig : State} (s : State) (k : Nat) (r : List Byte) (hyp : orig.Follows s) :
    orig.Follows (State.farWritten s k r) := by
  unfold State.farWritten
  repeat' first
    | (intro _)
    | with_reducible first | assumption | apply State.Follows.ite | apply State.setSlot_follows | apply
      State.showStore_follows | apply State.trimsDue_follows | apply State.corrsDue_follows
    | (simp only [State.Follows.mk_iff]; with_reducible apply State.Keeps.of)
    | split

theorem State.farResume_follows {orig : State} (s : State) (hyp : orig.Follows s) :
    orig.Follows (State.farResume s) := by
  unfold State.farResume
  repeat' with_reducible first | assumption | apply State.Follows.ite | apply State.farNext_follows |
      apply State.farProg_follows

theorem State.farAbort_follows {orig : State} (s : State) (hyp : orig.Follows s) :
    orig.Follows (State.farAbort s) := by
  unfold State.farAbort
  repeat' first
    | (intro _)
    | with_reducible first | assumption | apply State.farFailed_follows | apply State.foff_follows |
      apply State.showStore_follows
    | (simp only [State.Follows.mk_iff]; with_reducible apply State.Keeps.of)
    | split

theorem State.farReturn_follows {orig : State} (s : State) (hyp : orig.Follows s) :
    orig.Follows (State.farReturn s) := by
  unfold State.farReturn
  repeat' first
    | (intro _)
    | with_reducible first | assumption | apply State.farResume_follows | apply State.setSlot_follows |
      apply State.showStore_follows | apply State.took_follows | apply State.Follows.foldl
    | (simp only [State.Follows.mk_iff]; with_reducible apply State.Keeps.of)

/-! ### BobOps -/

theorem State.setPc_follows {orig : State} (s : State) (q : Nat) (x : PcSt) (hyp : orig.Follows s) :
    orig.Follows (State.setPc s q x) := by
  unfold State.setPc
  repeat' first
    | (intro _)
    | with_reducible first | assumption
    | (simp only [State.Follows.mk_iff]; with_reducible apply State.Keeps.of)

theorem State.showLayout_follows {orig : State} (s : State) (hyp : orig.Follows s) :
    orig.Follows (State.showLayout s) := by
  unfold State.showLayout
  repeat' with_reducible first | assumption | apply State.wr_follows

theorem State.retirePc_follows {orig : State} (s : State) (q : Nat) (hyp : orig.Follows s) :
    orig.Follows (State.retirePc s q) := by
  unfold State.retirePc
  repeat' with_reducible first | assumption | apply State.bitOff_follows | apply State.bitOn_follows |
      apply State.degradeOn_follows | apply State.farRetired_follows | apply State.fset_follows |
      apply State.raise_follows | apply State.showLayout_follows

theorem State.pendPc_follows {orig : State} (s : State) (q : Nat) (hyp : orig.Follows s) :
    orig.Follows (State.pendPc s q) := by
  unfold State.pendPc
  repeat' with_reducible first | assumption | apply State.Follows.ite | apply State.bitOn_follows |
      apply State.fset_follows | apply State.raise_follows | apply State.retirePc_follows

theorem State.pendPcAuto_follows {orig : State} (s : State) (q : Nat) (hyp : orig.Follows s) :
    orig.Follows (State.pendPcAuto s q) := by
  unfold State.pendPcAuto
  repeat' with_reducible first | assumption | apply State.Follows.ite | apply State.pendPc_follows

theorem State.loseRow_follows {orig : State} (s : State) (q bank row : Nat) (hyp : orig.Follows s) :
    orig.Follows (s.loseRow q bank row) := by
  unfold State.loseRow
  apply State.Follows.foldl
  · intro x a hx
    exact ⟨hx.pending, hx.beats, hx.outs, Nat.le_succ_of_le hx.fresh, hx.regs, fun h => Memory.wf_put x.hbm _ _ (hx.hbm h)⟩
  · exact hyp

theorem State.repairRow_follows {orig : State} (s : State) (c : Nat × Nat × Nat) (hyp : orig.Follows s) :
    orig.Follows (State.repairRow s c) := by
  unfold State.repairRow
  repeat' first
    | (intro _)
    | with_reducible first | assumption | apply State.Follows.ite | apply State.loseRow_follows |
      apply State.pendPcAuto_follows | apply State.setPc_follows | apply State.wr_follows
    | (simp only [State.Follows.mk_iff]; with_reducible apply State.Keeps.of)

theorem State.repairAll_follows {orig : State} (s : State) (hyp : orig.Follows s) :
    orig.Follows (State.repairAll s) := by
  unfold State.repairAll
  repeat' first
    | (intro _)
    | with_reducible first | assumption | apply State.repairRow_follows | apply State.Follows.foldl
    | (simp only [State.Follows.mk_iff]; with_reducible apply State.Keeps.of)

theorem State.retireAll_follows {orig : State} (s : State) (hyp : orig.Follows s) :
    orig.Follows (State.retireAll s) := by
  unfold State.retireAll
  repeat' first
    | (intro _)
    | with_reducible first | assumption | apply State.Follows.ite | apply State.retirePc_follows |
      apply State.Follows.foldl

theorem State.holeAccess_follows {orig : State} (s : State) (off : Nat) (hyp : orig.Follows s) :
    orig.Follows (State.holeAccess s off) := by
  unfold State.holeAccess
  repeat' with_reducible first | assumption | apply State.event_follows

theorem State.hbmEnter_follows {orig : State} (s : State) (who : Requester) (write : Bool) (off len id : Nat) (data :
  List (Option Byte)) (hyp : orig.Follows s) :
    orig.Follows (State.hbmEnter s who write off len id data).1 := by
  unfold State.hbmEnter
  repeat' first
    | (intro _)
    | with_reducible first | assumption | apply State.stackTouch_follows | apply State.setPc_follows | apply
      State.holeAccess_follows
    | (simp only [State.Follows.mk_iff]; with_reducible apply State.Keeps.of)
    | split

theorem State.correctedBurst_follows {orig : State} (s : State) (q : Nat) (hyp : orig.Follows s) :
    orig.Follows (State.correctedBurst s q) := by
  unfold State.correctedBurst
  repeat' with_reducible first | assumption | apply State.Follows.ite | apply State.count_follows |
      apply State.erlAllocate_follows | apply State.erlCommit_follows | apply State.raise_follows |
      apply State.setPc_follows

theorem State.badBurst_follows {orig : State} (s : State) (q w off cls kind : Nat) (hyp : orig.Follows s) :
    orig.Follows (State.badBurst s q w off cls kind) := by
  unfold State.badBurst
  repeat' first
    | (intro _)
    | with_reducible first | assumption | apply State.Follows.ite | apply State.count_follows | apply State.event_follows | apply
      State.pendPcAuto_follows | apply State.repairAll_follows | apply State.setPair_follows | apply
      State.setPc_follows | apply State.wr_follows
    | (simp only [State.Follows.mk_iff]; with_reducible apply State.Keeps.of)
    | split

theorem State.badBurstAt_follows {orig : State} (s : State) (off cls kind : Nat) (hyp : orig.Follows s) :
    orig.Follows (State.badBurstAt s off cls kind) := by
  unfold State.badBurstAt
  repeat' first
    | (intro _)
    | with_reducible first | assumption | apply State.badBurst_follows
    | split

theorem State.badRead_follows {orig : State} (s : State) (off cls : Nat) (hyp : orig.Follows s) :
    orig.Follows (State.badRead s off cls) := by
  unfold State.badRead
  repeat' first
    | (intro _)
    | with_reducible first | assumption | apply State.took_follows | apply State.badBurstAt_follows
    | (simp only [State.Follows.mk_iff]; with_reducible apply State.Keeps.of)
    | split

theorem State.unitWhole_follows {orig : State} (s : State) (off : Nat) (hyp : orig.Follows s) :
    orig.Follows (State.unitWhole s off) := by
  unfold State.unitWhole
  repeat' first
    | (intro _)
    | with_reducible first | assumption | apply State.setPc_follows
    | (simp only [State.Follows.mk_iff]; with_reducible apply State.Keeps.of)
    | split

theorem State.hbmStore_follows {orig : State} (s : State) (off : Nat) (l : List (Option Byte)) (hyp : orig.Follows s) :
    orig.Follows (s.hbmStore off l) := by
  induction l generalizing s off with
  | nil => exact hyp
  | cons b l ih =>
    cases b with
    | none => exact ih _ _ hyp
    | some b => exact ih _ _ (State.hbmPut_follows _ _ _ hyp)

theorem State.requestEarly_follows {orig : State} (s : State) (r : HbmReq) (hyp : orig.Follows s) :
    orig.Follows (State.requestEarly s r).1 := by
  unfold State.requestEarly
  repeat' first
    | (intro _)
    | with_reducible first | assumption | apply State.Follows.ite | apply State.hbmStore_follows
    | (simp only [State.Follows.mk_iff]; with_reducible apply State.Keeps.of)
    | split

theorem State.unitSettle_follows {orig : State} (s : State) (off : Nat) (hyp : orig.Follows s) :
    orig.Follows (State.unitSettle s off) := by
  unfold State.unitSettle
  split
  · rename_i q w _
    dsimp only
    have key : ∀ (l : List HbmReq) (a : State × List HbmReq), orig.Follows a.1 → orig.Follows
        (l.foldl (fun (a : State × List HbmReq) r =>
          if r.unit = w then ((a.1.requestEarly r).1, a.2 ++ [(a.1.requestEarly r).2]) else (a.1, a.2 ++ [r])) a).1 := by
      intro l
      induction l with
      | nil => exact fun _ h => h
      | cons r l ih =>
        intro a h
        refine ih _ ?_
        dsimp only
        split
        · exact State.requestEarly_follows _ _ h
        · exact h
    exact State.setPc_follows _ _ _ (key _ _ hyp)
  · exact hyp

theorem State.hbmSettle_follows {orig : State} (s : State) (off n : Nat) (hyp : orig.Follows s) :
    orig.Follows (State.hbmSettle s off n) := by
  unfold State.hbmSettle
  repeat' first
    | (intro _)
    | with_reducible first | assumption | apply State.unitSettle_follows | apply State.Follows.foldl
    | (simp only [State.Follows.mk_iff]; with_reducible apply State.Keeps.of)
    | split

theorem State.hbmFill_follows {orig : State} (s : State) (off : Nat) (bs : List Byte) (hyp : orig.Follows s) :
    orig.Follows (State.hbmFill s off bs) := by
  unfold State.hbmFill
  repeat' first
    | (intro _)
    | with_reducible first | assumption | apply State.hbmWrite_follows | apply State.hbmTouch_follows | apply
      State.unitWhole_follows | apply State.hbmSettle_follows | apply State.Follows.foldl
    | (simp only [State.Follows.mk_iff]; with_reducible apply State.Keeps.of)
    | split

theorem State.readReach_follows {orig : State} (s : State) (addr n : Nat) (ue : Option Nat) (hyp : orig.Follows s) :
    orig.Follows (State.readReach s addr n ue) := by
  unfold State.readReach
  repeat' first
    | (intro _)
    | with_reducible first | assumption | apply State.Follows.ite | apply State.hbmTouch_follows | apply
      State.badBurstAt_follows | apply State.badRead_follows
    | (simp only [State.Follows.mk_iff]; with_reducible apply State.Keeps.of)
    | split

theorem State.loseUnit_follows {orig : State} (s : State) (q w : Nat) (hyp : orig.Follows s) :
    orig.Follows (State.loseUnit s q w) := by
  unfold State.loseUnit
  repeat' with_reducible first | assumption | apply State.Follows.ite | apply State.raise_follows |
      apply State.setPc_follows

end Sys2Proof.Machine
end

