-- ==== Sys2Proof/Laws/Keeps2.lean ====
section
/-!
SUPPORT. Each operation and meaning of RingOps, TrdOps, TapOps, SpecOps, HfbOps, Boundary keeps what State.Follows
  says: one lemma for each, named after it.
-/

set_option linter.all false

namespace Sys2Proof.Machine

/-! ### RingOps -/

theorem State.setRing_follows {orig : State} (s : State) (c : Nat) (x : RingSt) (hyp : orig.Follows s) :
    orig.Follows (State.setRing s c x) := by
  unfold State.setRing
  repeat' first
    | (intro _)
    | with_reducible first | assumption
    | (simp only [State.Follows.mk_iff]; with_reducible apply State.Keeps.of)

theorem State.mapWaves_follows {orig : State} (s : State) (f : WaveRec → WaveRec) (hyp : orig.Follows s) :
    orig.Follows (State.mapWaves s f) := by
  unfold State.mapWaves
  repeat' first
    | (intro _)
    | with_reducible first | assumption
    | (simp only [State.Follows.mk_iff]; with_reducible apply State.Keeps.of)

theorem State.waveAsk_follows {orig : State} (s : State) (w : WaveRec) (hyp : orig.Follows s) :
    orig.Follows (State.waveAsk s w) := by
  unfold State.waveAsk
  repeat' with_reducible first | assumption | apply State.enqueue_follows

theorem State.setWave_follows {orig : State} (s : State) (w : WaveRec) (hyp : orig.Follows s) :
    orig.Follows (State.setWave s w) := by
  unfold State.setWave
  repeat' first
    | (intro _)
    | with_reducible first | assumption | apply State.Follows.ite | apply State.mapWaves_follows
    | split

theorem State.waveClosed_follows {orig : State} (s : State) (w : WaveRec) (hyp : orig.Follows s) :
    orig.Follows (State.waveClosed s w) := by
  unfold State.waveClosed
  repeat' first
    | (intro _)
    | with_reducible first | assumption | apply State.Follows.ite | apply State.fon_follows | apply
      State.raise_follows | apply State.event_follows | apply State.unitEnd_follows
    | (simp only [State.Follows.mk_iff]; with_reducible apply State.Keeps.of)
    | split

theorem State.wavePush_follows {orig : State} (s : State) (w : WaveRec) (hyp : orig.Follows s) :
    orig.Follows (State.wavePush s w) := by
  unfold State.wavePush
  repeat' first
    | (intro _)
    | with_reducible first | assumption | apply State.Follows.ite | apply State.quillRefill_follows | apply State.setQuill_follows |
      apply State.setWave_follows | apply State.waveAsk_follows | apply State.waveClosed_follows
    | (simp only [State.Follows.mk_iff]; with_reducible apply State.Keeps.of)
    | split

theorem State.waveHurt_follows {orig : State} (s : State) (w : WaveRec) (hyp : orig.Follows s) :
    orig.Follows (State.waveHurt s w).1 := by
  unfold State.waveHurt
  repeat' first
    | with_reducible assumption
    | (intro x; refine State.Follows.cut (P := orig.Follows x) ?_ ?_; all_goals first | (intro _; clear_value x) | subst x)
    | (intro x; clear_value x)
    | (intro _)
    | with_reducible first | assumption | apply State.Follows.ite | apply State.badBurstAt_follows | apply State.Follows.foldl
    | (simp only [State.Follows.mk_iff]; with_reducible apply State.Keeps.of)
    | lift_lets
    | split
    | dsimp only

theorem State.readTouch_follows {orig : State} (s : State) (c from_ to_ : Nat) (hyp : orig.Follows s) :
    orig.Follows (State.readTouch s c from_ to_) := by
  unfold State.readTouch
  repeat' first
    | (intro _)
    | with_reducible first | assumption | apply State.Follows.ite | apply State.stackTouch_follows
    | (simp only [State.Follows.mk_iff]; with_reducible apply State.Keeps.of)
    | split

theorem State.waveTouch_follows {orig : State} (s : State) (before after : WaveRec) (hyp : orig.Follows s) :
    orig.Follows (State.waveTouch s before after) := by
  unfold State.waveTouch
  repeat' first
    | (intro _)
    | with_reducible first | assumption | apply State.readTouch_follows | apply State.Follows.foldl
    | (simp only [State.Follows.mk_iff]; with_reducible apply State.Keeps.of)
    | split

theorem State.waveStep_follows {orig : State} (s : State) (shed fired : Nat) (hyp : orig.Follows s) :
    orig.Follows (State.waveStep s shed fired) := by
  unfold State.waveStep
  repeat' first
    | (intro _)
    | with_reducible first | assumption | apply State.Follows.ite | apply State.setWave_follows | apply
      State.wavePush_follows | apply State.waveHurt_follows | apply State.waveTouch_follows
    | (simp only [State.Follows.mk_iff]; with_reducible apply State.Keeps.of)
    | split

theorem State.wavesGo_follows {orig : State} (s : State) (n : Nat) (hyp : orig.Follows s) : orig.Follows (s.wavesGo n) := by
  induction n generalizing s with
  | zero => exact hyp
  | succ n ih => exact ih _ (State.Follows.foldl (fun x p hx => State.waveStep_follows x p.1 p.2 hx) hyp _)

theorem State.buildWaves_follows {orig : State} (s : State) (hyp : orig.Follows s) :
    orig.Follows (State.buildWaves s) := by
  unfold State.buildWaves
  repeat' first
    | (intro _)
    | with_reducible first | assumption | apply State.wavesGo_follows | apply State.Follows.foldl

theorem State.rawClose_follows {orig : State} (s : State) (c close : Nat) (hyp : orig.Follows s) :
    orig.Follows (State.rawClose s c close) := by
  unfold State.rawClose
  repeat' first
    | (intro _)
    | with_reducible first | assumption | apply State.Follows.ite | apply State.count_follows | apply
      State.raise_follows | apply State.pushRecord_follows | apply State.Follows.foldl
    | (simp only [State.Follows.mk_iff]; with_reducible apply State.Keeps.of)
    | split

theorem State.rawStep_follows {orig : State} (s : State) (c : Nat) (hyp : orig.Follows s) :
    orig.Follows (State.rawStep s c) := by
  unfold State.rawStep
  repeat' first
    | (intro _)
    | with_reducible first | assumption | apply State.Follows.ite | apply State.badBurstAt_follows | apply
      State.readTouch_follows | apply State.rawClose_follows
    | (simp only [State.Follows.mk_iff]; with_reducible apply State.Keeps.of)
    | split

theorem State.rawAdvance_follows {orig : State} (s : State) (c n : Nat) (hyp : orig.Follows s) :
    orig.Follows (s.rawAdvance c n) := by
  induction n generalizing s with
  | zero => exact hyp
  | succ n ih => exact ih _ (State.rawStep_follows _ _ hyp)

theorem State.buildRaw_follows {orig : State} (s : State) (c : Nat) (hyp : orig.Follows s) :
    orig.Follows (State.buildRaw s c) := by
  unfold State.buildRaw
  repeat' first
    | (intro _)
    | with_reducible first | assumption | apply State.Follows.ite | apply State.rawAdvance_follows

theorem State.builderBurst_follows {orig : State} (s : State) (c off : Nat) (hyp : orig.Follows s) :
    orig.Follows (State.builderBurst s c off) := by
  unfold State.builderBurst
  repeat' first
    | with_reducible assumption
    | (intro x; refine State.Follows.cut (P := orig.Follows x) ?_ ?_; all_goals first | (intro _; clear_value x) | subst x)
    | (intro x; clear_value x)
    | (intro _)
    | with_reducible first | assumption | apply State.Follows.ite | apply State.mapWaves_follows
    | (simp only [State.Follows.mk_iff]; with_reducible apply State.Keeps.of)
    | lift_lets
    | split
    | dsimp only

theorem State.unitMerge_follows {orig : State} (s0 : State) (off n : Nat) (hyp : orig.Follows s0) :
    orig.Follows (State.unitMerge s0 off n) := by
  unfold State.unitMerge
  repeat' first
    | (intro _)
    | with_reducible first | assumption | apply State.Follows.ite | apply State.badBurstAt_follows | apply
      State.unitWhole_follows | apply State.unitSettle_follows
    | (simp only [State.Follows.mk_iff]; with_reducible apply State.Keeps.of)
    | split

theorem State.unitsMerge_follows {orig : State} (s : State) (c fuel p n : Nat) (hyp : orig.Follows s) :
    orig.Follows (s.unitsMerge c fuel p n) := by
  induction fuel generalizing s p n with
  | zero => exact hyp
  | succ fuel ih =>
    unfold State.unitsMerge
    exact State.Follows.ite hyp (ih _ _ _ (State.unitMerge_follows _ _ _ hyp))

theorem State.ringCommit_follows {orig : State} (s0 : State) (c n : Nat) (hyp : orig.Follows s0) :
    orig.Follows (State.ringCommit s0 c n) := by
  unfold State.ringCommit
  repeat' first
    | (intro _)
    | with_reducible first | assumption | apply State.Follows.ite | apply State.fset_follows | apply
      State.setPair_follows | apply State.hbmWrite_follows | apply State.stackTouch_follows | apply
      State.setRing_follows | apply State.buildWaves_follows | apply State.buildRaw_follows | apply
      State.unitsMerge_follows | apply State.Follows.foldl
    | (simp only [State.Follows.mk_iff]; with_reducible apply State.Keeps.of)
    | split

theorem State.ringFlush_follows {orig : State} (s : State) (c : Nat) (hyp : orig.Follows s) :
    orig.Follows (State.ringFlush s c) := by
  unfold State.ringFlush
  repeat' with_reducible first | assumption | apply State.Follows.ite | apply State.ringCommit_follows

/-! ### TrdOps -/

theorem State.setTrd_follows {orig : State} (s : State) (x : TrdSt) (hyp : orig.Follows s) :
    orig.Follows (State.setTrd s x) := by
  unfold State.setTrd
  repeat' first
    | (intro _)
    | with_reducible first | assumption
    | (simp only [State.Follows.mk_iff]; with_reducible apply State.Keeps.of)

theorem State.pushBus_follows {orig : State} (s : State) (i : Nat) (x : BusChg) (hyp : orig.Follows s) :
    orig.Follows (State.pushBus s i x) := by
  unfold State.pushBus
  repeat' first
    | (intro _)
    | with_reducible first | assumption | apply State.Follows.ite | apply State.setTrd_follows
    | (simp only [State.Follows.mk_iff]; with_reducible apply State.Keeps.of)
    | split

theorem State.pulseBus_follows {orig : State} (s : State) (i beat : Nat) (stamp : Int) (basis : Basis) (taint : Bool)
    (hyp : orig.Follows s) :
    orig.Follows (State.pulseBus s i beat stamp basis taint) := by
  unfold State.pulseBus
  repeat' with_reducible first | assumption | apply State.pushBus_follows | apply State.stamp_follows

theorem State.busApply_follows {orig : State} (s : State) (hyp : orig.Follows s) :
    orig.Follows (State.busApply s) := by
  unfold State.busApply
  repeat' first
    | (intro _)
    | with_reducible first | assumption | apply State.setTrd_follows | apply State.Follows.foldl
    | (simp only [State.Follows.mk_iff]; with_reducible apply State.Keeps.of)

theorem State.inDrives_follows {orig : State} (s old : State) (i : Nat) (stamp : Option Int) (hyp : orig.Follows s) :
    orig.Follows (State.inDrives s old i stamp) := by
  unfold State.inDrives
  repeat' with_reducible first | assumption | apply State.Follows.ite | apply State.pushBus_follows | apply State.stamp_follows

theorem State.inWritten_follows {orig : State} (s old : State) (hyp : orig.Follows s) :
    orig.Follows (State.inWritten s old) := by
  unfold State.inWritten
  repeat' first
    | (intro _)
    | with_reducible first | assumption | apply State.inDrives_follows | apply State.Follows.foldl

theorem State.taintFiring_follows {orig : State} (s : State) (f : Firing) (hyp : orig.Follows s) :
    orig.Follows (State.taintFiring s f) := by
  unfold State.taintFiring
  repeat' first
    | (intro _)
    | with_reducible first | assumption | apply State.Follows.ite | apply State.count_follows | apply State.event_follows | apply
      State.fon_follows | apply State.mapWaves_follows | apply State.Follows.foldl
    | (simp only [State.Follows.mk_iff]; with_reducible apply State.Keeps.of)
    | split

theorem State.settleFirings_follows {orig : State} (s : State) (hyp : orig.Follows s) :
    orig.Follows (State.settleFirings s) := by
  unfold State.settleFirings
  repeat' first
    | (intro _)
    | with_reducible first | assumption | apply State.Follows.ite | apply State.setTrd_follows | apply State.taintFiring_follows |
      apply State.Follows.foldl
    | (simp only [State.Follows.mk_iff]; with_reducible apply State.Keeps.of)
    | split

theorem State.taintWhere_follows {orig : State} (s : State) (n : Nat) (p : BusChg → Bool) (hyp : orig.Follows s) :
    orig.Follows (State.taintWhere s n p) := by
  unfold State.taintWhere
  repeat' first
    | (intro _)
    | with_reducible first | assumption | apply State.Follows.ite | apply State.count_follows | apply State.raise_follows | apply
      State.setTrd_follows | apply State.settleFirings_follows | apply State.Follows.foldl
    | (simp only [State.Follows.mk_iff]; with_reducible apply State.Keeps.of)
    | split

theorem State.taintSamples_follows {orig : State} (s : State) (c : Nat) (w : Stretch) (hyp : orig.Follows s) :
    orig.Follows (State.taintSamples s c w) := by
  unfold State.taintSamples
  repeat' first
    | (intro _)
    | with_reducible first | assumption | apply State.Follows.ite | apply State.setTrd_follows | apply
      State.taintWhere_follows
    | (simp only [State.Follows.mk_iff]; with_reducible apply State.Keeps.of)
    | split

theorem State.taintSpectrum_follows {orig : State} (s : State) (c index : Nat) (hyp : orig.Follows s) :
    orig.Follows (State.taintSpectrum s c index) := by
  unfold State.taintSpectrum
  repeat' first
    | (intro _)
    | with_reducible first | assumption | apply State.taintWhere_follows

theorem State.primFall_follows {orig : State} (s : State) (c due : Nat) (p : PrimSt) (hyp : orig.Follows s) :
    orig.Follows (State.primFall s c due p) := by
  unfold State.primFall
  repeat' with_reducible first | assumption | apply State.Follows.ite | apply State.pushBus_follows

theorem State.primLost_follows {orig : State} (s : State) (c base : Nat) (hyp : orig.Follows s) :
    orig.Follows (State.primLost s c base) := by
  unfold State.primLost
  repeat' first
    | (intro _)
    | with_reducible first | assumption | apply State.Follows.ite | apply State.primFall_follows | apply State.setTrd_follows
    | (simp only [State.Follows.mk_iff]; with_reducible apply State.Keeps.of)
    | split

theorem State.primCount_follows {orig : State} (s : State) (c : Nat) (e : PrimEvent) (hyp : orig.Follows s) :
    orig.Follows (State.primCount s c e) := by
  unfold State.primCount
  repeat' with_reducible first | assumption | apply State.Follows.ite | apply State.count_follows | apply State.event_follows | apply
      State.raise_follows

theorem State.primSample_follows {orig : State} (s : State) (c tap released : Nat) (x : TapSamp) (hyp : orig.Follows
    s) :
    orig.Follows (State.primSample s c tap released x) := by
  unfold State.primSample
  repeat' first
    | (intro _)
    | with_reducible first | assumption | apply State.Follows.ite | apply State.event_follows | apply State.primCount_follows | apply
      State.primFall_follows | apply State.pulseBus_follows | apply State.pushBus_follows | apply
      State.setTrd_follows | apply State.stamp_follows
    | (simp only [State.Follows.mk_iff]; with_reducible apply State.Keeps.of)
    | split

theorem State.tmrPut_follows {orig : State} (s : State) (x : TmrCell) (v : Nat) (hyp : orig.Follows s) :
    orig.Follows (State.tmrPut s x v) := by
  unfold State.tmrPut
  repeat' first
    | (intro _)
    | with_reducible first | assumption | apply State.Follows.ite | apply State.wr_follows | apply
      State.setTrd_follows
    | (simp only [State.Follows.mk_iff]; with_reducible apply State.Keeps.of)
    | split

theorem State.upsetWord_follows {orig : State} (s : State) (k : Nat) (x : TmrCell) (bits : Nat) (hyp : orig.Follows s)
  :
    orig.Follows (State.upsetWord s k x bits) := by
  unfold State.upsetWord
  repeat' first
    | (intro _)
    | with_reducible first | assumption | apply State.Follows.ite | apply State.setTrd_follows | apply
      State.tmrPut_follows
    | (simp only [State.Follows.mk_iff]; with_reducible apply State.Keeps.of)
    | split

theorem State.resync_follows {orig : State} (s : State) (hyp : orig.Follows s) :
    orig.Follows (State.resync s) := by
  unfold State.resync
  repeat' first
    | (intro _)
    | with_reducible first | assumption | apply State.setTrd_follows
    | (simp only [State.Follows.mk_iff]; with_reducible apply State.Keeps.of)

theorem State.upsets_follows {orig : State} (s : State) (k : Nat) (hyp : orig.Follows s) :
    orig.Follows (State.upsets s k) := by
  unfold State.upsets
  repeat' first
    | (intro _)
    | with_reducible first | assumption | apply State.took_follows | apply State.upsetWord_follows | apply State.Follows.foldl

theorem State.setShed_follows {orig : State} (s : State) (k : Nat) (x : ShedSt) (hyp : orig.Follows s) :
    orig.Follows (State.setShed s k x) := by
  unfold State.setShed
  repeat' first
    | (intro _)
    | with_reducible first | assumption | apply State.setTrd_follows

theorem State.shedGo_follows {orig : State} (s : State) (k st : Nat) (hyp : orig.Follows s) :
    orig.Follows (State.shedGo s k st) := by
  unfold State.shedGo
  repeat' with_reducible first | assumption | apply State.Follows.ite | apply State.fset_follows |
      apply State.setShed_follows

theorem State.shedBegin_follows {orig : State} (s : State) (k : Nat) (hyp : orig.Follows s) :
    orig.Follows (State.shedBegin s k) := by
  unfold State.shedBegin
  repeat' with_reducible first | assumption | apply State.Follows.ite | apply State.shedGo_follows

theorem State.shedArm_follows {orig : State} (s : State) (k : Nat) (hyp : orig.Follows s) :
    orig.Follows (State.shedArm s k) := by
  unfold State.shedArm
  repeat' first
    | (intro _)
    | with_reducible first | assumption | apply State.Follows.ite | apply State.fon_follows | apply
      State.event_follows | apply State.stackShedArmed_follows | apply State.setShed_follows | apply
      State.shedGo_follows | apply State.shedBegin_follows
    | (simp only [State.Follows.mk_iff]; with_reducible apply State.Keeps.of)
    | split

theorem State.shedMiss_follows {orig : State} (s : State) (k : Nat) (hyp : orig.Follows s) :
    orig.Follows (State.shedMiss s k) := by
  unfold State.shedMiss
  repeat' with_reducible first | assumption | apply State.count_follows | apply State.setShed_follows

theorem State.shedFire_follows {orig : State} (s : State) (k : Nat) (t : Int) (coarse forced tainted : Bool) (hyp :
  orig.Follows s) :
    orig.Follows (State.shedFire s k t coarse forced tainted) := by
  unfold State.shedFire
  repeat' first
    | (intro _)
    | with_reducible first | assumption | apply State.Follows.ite | apply State.wr_follows | apply State.fon_follows |
      apply State.count_follows | apply State.setPair_follows | apply State.setTrd_follows | apply
      State.setShed_follows | apply State.shedGo_follows
    | (simp only [State.Follows.mk_iff]; with_reducible apply State.Keeps.of)
    | split

theorem State.shedsFired_follows {orig : State} (s : State) (hyp : orig.Follows s) :
    orig.Follows (State.shedsFired s) := by
  unfold State.shedsFired
  repeat' first
    | (intro _)
    | with_reducible first | assumption | apply State.Follows.ite | apply State.raise_follows | apply
      State.setTrd_follows
    | (simp only [State.Follows.mk_iff]; with_reducible apply State.Keeps.of)
    | split

theorem State.shedUnfire_follows {orig : State} (s0 : State) (k : Nat) (hyp : orig.Follows s0) :
    orig.Follows (State.shedUnfire s0 k) := by
  unfold State.shedUnfire
  repeat' first
    | (intro _)
    | with_reducible first | assumption | apply State.wr_follows | apply State.setPair_follows | apply
      State.setTrd_follows | apply State.setShed_follows | apply State.shedGo_follows
    | (simp only [State.Follows.mk_iff]; with_reducible apply State.Keeps.of)
    | split

theorem State.shedEdge_follows {orig : State} (s : State) (k : Nat) (t : Int) (coarse : Bool) (hyp : orig.Follows s) :
    orig.Follows (State.shedEdge s k t coarse) := by
  unfold State.shedEdge
  repeat' first
    | (intro _)
    | with_reducible first | assumption | apply State.Follows.ite | apply State.setShed_follows | apply
      State.shedGo_follows | apply State.shedMiss_follows | apply State.shedFire_follows | apply
      State.shedUnfire_follows
    | (simp only [State.Follows.mk_iff]; with_reducible apply State.Keeps.of)
    | split

theorem State.shedForce_follows {orig : State} (s : State) (k : Nat) (hyp : orig.Follows s) :
    orig.Follows (State.shedForce s k) := by
  unfold State.shedForce
  repeat' first
    | (intro _)
    | with_reducible first | assumption | apply State.Follows.ite | apply State.shedMiss_follows | apply
      State.shedFire_follows
    | (simp only [State.Follows.mk_iff]; with_reducible apply State.Keeps.of)
    | split

theorem State.shedPosted_follows {orig : State} (s : State) (k : Nat) (hyp : orig.Follows s) :
    orig.Follows (State.shedPosted s k) := by
  unfold State.shedPosted
  repeat' first
    | (intro _)
    | with_reducible first | assumption | apply State.Follows.ite | apply State.buildWaves_follows |
      apply State.mapWaves_follows | apply State.raise_follows | apply State.setShed_follows |
      apply State.shedGo_follows

theorem State.shedCut_follows {orig : State} (s : State) (k cause : Nat) (hyp : orig.Follows s) :
    orig.Follows (State.shedCut s k cause) := by
  unfold State.shedCut
  repeat' first
    | (intro _)
    | with_reducible first | assumption | apply State.Follows.ite | apply State.buildWaves_follows |
      apply State.mapWaves_follows

theorem State.shedDisarm_follows {orig : State} (s0 : State) (k : Nat) (hyp : orig.Follows s0) :
    orig.Follows (State.shedDisarm s0 k) := by
  unfold State.shedDisarm
  repeat' first
    | (intro _)
    | with_reducible first | assumption | apply State.Follows.ite | apply State.setShed_follows | apply
      State.shedGo_follows | apply State.shedMiss_follows | apply State.shedUnfire_follows | apply
      State.shedCut_follows
    | (simp only [State.Follows.mk_iff]; with_reducible apply State.Keeps.of)
    | split

theorem State.waveAbort_follows {orig : State} (s : State) (w : WaveRec) (hyp : orig.Follows s) :
    orig.Follows (State.waveAbort s w) := by
  unfold State.waveAbort
  repeat' first
    | (intro _)
    | with_reducible first | assumption | apply State.Follows.ite | apply State.quillRefill_follows | apply State.setQuill_follows
    | (simp only [State.Follows.mk_iff]; with_reducible apply State.Keeps.of)
    | split

theorem State.shedDiscard_follows {orig : State} (s : State) (k : Nat) (hyp : orig.Follows s) :
    orig.Follows (State.shedDiscard s k) := by
  unfold State.shedDiscard
  repeat' first
    | (intro _)
    | with_reducible first | assumption | apply State.countDiscard_follows | apply State.count_follows | apply State.event_follows |
      apply State.setQuill_follows | apply State.waveAbort_follows
    | (simp only [State.Follows.mk_iff]; with_reducible apply State.Keeps.of)
    | split

theorem State.shedsStop_follows {orig : State} (s : State) (hyp : orig.Follows s) :
    orig.Follows (State.shedsStop s) := by
  unfold State.shedsStop
  repeat' first
    | (intro _)
    | with_reducible first | assumption | apply State.Follows.ite | apply State.shedDiscard_follows |
      apply State.shedGo_follows | apply State.Follows.foldl

theorem State.drivePins_follows {orig : State} (s : State) (hyp : orig.Follows s) :
    orig.Follows (State.drivePins s) := by
  unfold State.drivePins
  repeat' first
    | (intro _)
    | with_reducible first | assumption | apply State.Follows.ite | apply State.setTrd_follows |
      apply State.Follows.foldl

theorem State.outRise_follows {orig : State} (s : State) (o : Nat) (hyp : orig.Follows s) :
    orig.Follows (State.outRise s o) := by
  unfold State.outRise
  repeat' first
    | (intro _)
    | with_reducible first | assumption | apply State.Follows.ite | apply State.setTrd_follows

theorem State.matrix_follows {orig : State} (s0 : State) (hyp : orig.Follows s0) :
    orig.Follows (State.matrix s0) := by
  unfold State.matrix
  repeat' first
    | (intro _)
    | with_reducible first | assumption | apply State.Follows.ite | apply State.busApply_follows | apply State.drivePins_follows |
      apply State.outRise_follows | apply State.setTrd_follows | apply State.settleFirings_follows | apply
      State.shedEdge_follows | apply State.Follows.foldl
    | (simp only [State.Follows.mk_iff]; with_reducible apply State.Keeps.of)
    | split

theorem State.trdStart_follows {orig : State} (s : State) (hyp : orig.Follows s) :
    orig.Follows (State.trdStart s) := by
  unfold State.trdStart
  repeat' first
    | (intro _)
    | with_reducible first | assumption | apply State.Follows.ite | apply State.foff_follows | apply
      State.setTrd_follows | apply State.busApply_follows | apply State.setShed_follows | apply
      State.shedBegin_follows | apply State.Follows.foldl
    | (simp only [State.Follows.mk_iff]; with_reducible apply State.Keeps.of)
    | split

/-! ### TapOps -/

theorem State.setPlane_follows {orig : State} (s : State) (p : Nat) (x : PlaneSt) (hyp : orig.Follows s) :
    orig.Follows (State.setPlane s p x) := by
  unfold State.setPlane
  repeat' first
    | (intro _)
    | with_reducible first | assumption
    | (simp only [State.Follows.mk_iff]; with_reducible apply State.Keeps.of)

theorem State.planeAdmit_follows {orig : State} (s : State) (p : Nat) (f : FormSpec) (hyp : orig.Follows s) :
    orig.Follows (State.planeAdmit s p f).1 := by
  unfold State.planeAdmit
  repeat' first
    | with_reducible assumption
    | (intro x; refine State.Follows.cut (P := orig.Follows x) ?_ ?_; all_goals first | (intro _; clear_value x) | subst x)
    | (intro x; refine State.Follows.cut (P := ∀ a, orig.Follows (x a)) ?_ ?_; all_goals first | (subst x; intro _) | (intro kf; clear_value x))
    | (intro x; refine State.Follows.cut (P := ∀ t a, orig.Follows t → orig.Follows (x t a)) ?_ ?_; all_goals first | (subst x; intro _ _ _) | (intro kf; clear_value x))
    | (intro x; refine State.Follows.cut (P := ∀ t a b, orig.Follows t → orig.Follows (x t a b)) ?_ ?_; all_goals first | (subst x; intro _ _ _ _) | (intro kf; clear_value x))
    | (intro x; refine State.Follows.cut (P := orig.Follows x.1) ?_ ?_; all_goals first | (intro _; clear_value x) | subst x)
    | (intro x; refine State.Follows.cut (P := orig.Follows x.2) ?_ ?_; all_goals first | (intro _; clear_value x) | subst x)
    | (intro x; refine State.Follows.cut (P := orig.Follows x.state) ?_ ?_; all_goals first | (intro _; clear_value x) | subst x)
    | (intro x; clear_value x)
    | (intro _)
    | with_reducible first | assumption | apply State.Follows.ite | apply State.raise_follows | apply
      State.setPlane_follows
    | (simp only [State.Follows.mk_iff]; with_reducible apply State.Keeps.of)
    | lift_lets
    | split
    | dsimp only

theorem State.formColumns_follows {orig : State} (s : State) (p : Nat) (f : FormSpec) (n : Nat) (hyp : orig.Follows s)
    :
    orig.Follows (State.formColumns s p f n) := by
  unfold State.formColumns
  repeat' first
    | (intro _)
    | with_reducible first | assumption | apply State.Follows.ite | apply State.setPlane_follows
    | (simp only [State.Follows.mk_iff]; with_reducible apply State.Keeps.of)
    | split

theorem State.formOne_follows {orig : State} (s : State) (p : Nat) (f : FormSpec) (hyp : orig.Follows s) :
    orig.Follows (State.formOne s p f) := by
  unfold State.formOne
  dsimp only
  split
  · apply State.formColumns_follows
    assumption
  · split
    · split <;> apply_rules [State.formColumns_follows, State.planeAdmit_follows]
    · exact State.setPlane_follows _ _ _ hyp

theorem State.planeForm_follows {orig : State} (s : State) (p : Nat) (hyp : orig.Follows s) :
    orig.Follows (State.planeForm s p) := by
  unfold State.planeForm
  repeat' first
    | (intro _)
    | with_reducible first | assumption | apply State.formOne_follows | apply State.setPlane_follows | apply State.Follows.foldl
    | (simp only [State.Follows.mk_iff]; with_reducible apply State.Keeps.of)

theorem State.planeOffer_follows {orig : State} (s : State) (p : Nat) (stamp : Int) (flags : Nat) (codes : List Nat)
    (firstBin : Nat) (hyp : orig.Follows s) :
    orig.Follows (State.planeOffer s p stamp flags codes firstBin) := by
  unfold State.planeOffer
  repeat' first
    | (intro _)
    | with_reducible first | assumption | apply State.planeForm_follows | apply State.setPlane_follows | apply State.stamp_follows
    | (simp only [State.Follows.mk_iff]; with_reducible apply State.Keeps.of)

theorem State.planeAbsorb_follows {orig : State} (s : State) (p : Nat) (hyp : orig.Follows s) :
    orig.Follows (State.planeAbsorb s p) := by
  unfold State.planeAbsorb
  repeat' first
    | (intro _)
    | with_reducible first | assumption | apply State.Follows.ite | apply State.raise_follows | apply State.setPlane_follows | apply
      State.Follows.foldl
    | (simp only [State.Follows.mk_iff]; with_reducible apply State.Keeps.of)
    | split

theorem State.planesLate_follows {orig : State} (s : State) (c : Nat) (hyp : orig.Follows s) :
    orig.Follows (State.planesLate s c) := by
  unfold State.planesLate
  repeat' first
    | with_reducible assumption
    | (intro x; refine State.Follows.cut (P := orig.Follows x) ?_ ?_; all_goals first | (intro _; clear_value x) | subst x)
    | (intro x; refine State.Follows.cut (P := ∀ a, orig.Follows (x a)) ?_ ?_; all_goals first | (subst x; intro _) | (intro kf; clear_value x))
    | (intro x; refine State.Follows.cut (P := ∀ t a, orig.Follows t → orig.Follows (x t a)) ?_ ?_; all_goals first | (subst x; intro _ _ _) | (intro kf; clear_value x))
    | (intro x; refine State.Follows.cut (P := ∀ t a b, orig.Follows t → orig.Follows (x t a b)) ?_ ?_; all_goals first | (subst x; intro _ _ _ _) | (intro kf; clear_value x))
    | (intro x; refine State.Follows.cut (P := orig.Follows x.1) ?_ ?_; all_goals first | (intro _; clear_value x) | subst x)
    | (intro x; refine State.Follows.cut (P := orig.Follows x.2) ?_ ?_; all_goals first | (intro _; clear_value x) | subst x)
    | (intro x; refine State.Follows.cut (P := orig.Follows x.state) ?_ ?_; all_goals first | (intro _; clear_value x) | subst x)
    | (intro x; clear_value x)
    | (intro _)
    | with_reducible first | assumption | apply State.Follows.ite | apply State.raise_follows | apply
      State.setPlane_follows | apply State.Follows.foldl
    | (simp only [State.Follows.mk_iff]; with_reducible apply State.Keeps.of)
    | lift_lets
    | split
    | dsimp only

theorem State.planeThermal_follows {orig : State} (s : State) (p : Nat) (hyp : orig.Follows s) :
    orig.Follows (State.planeThermal s p) := by
  unfold State.planeThermal
  repeat' with_reducible first | assumption | apply State.Follows.ite | apply State.foff_follows | apply State.fon_follows | apply
      State.raise_follows

theorem State.planeEnd_follows {orig : State} (s : State) (p : Nat) (cf : ClosingFrame) (hyp : orig.Follows s) :
    orig.Follows (State.planeEnd s p cf) := by
  unfold State.planeEnd
  repeat' first
    | with_reducible assumption
    | (intro x; refine State.Follows.cut (P := orig.Follows x) ?_ ?_; all_goals first | (intro _; clear_value x) | subst x)
    | (intro x; clear_value x)
    | (intro _)
    | with_reducible first | assumption | apply State.setPlane_follows
    | (simp only [State.Follows.mk_iff]; with_reducible apply State.Keeps.of)
    | lift_lets
    | split
    | dsimp only

theorem State.planeBoundary_follows {orig : State} (s : State) (p : Nat) (hyp : orig.Follows s) :
    orig.Follows (State.planeBoundary s p) := by
  unfold State.planeBoundary
  repeat' first
    | with_reducible assumption
    | (intro x; refine State.Follows.cut (P := orig.Follows x) ?_ ?_; all_goals first | (intro _; clear_value x) | subst x)
    | (intro x; clear_value x)
    | (intro _)
    | with_reducible first | assumption | apply State.Follows.ite | apply State.count_follows |
      apply State.event_follows | apply State.planeEnd_follows | apply State.planeThermal_follows |
      apply State.setPlane_follows
    | (simp only [State.Follows.mk_iff]; with_reducible apply State.Keeps.of)
    | lift_lets
    | split
    | dsimp only

theorem State.planesStart_follows {orig : State} (s : State) (hyp : orig.Follows s) :
    orig.Follows (State.planesStart s) := by
  unfold State.planesStart
  repeat' first
    | (intro _)
    | with_reducible first | assumption | apply State.Follows.ite | apply State.fon_follows | apply
      State.setPlane_follows | apply State.planeThermal_follows | apply State.Follows.foldl
    | (simp only [State.Follows.mk_iff]; with_reducible apply State.Keeps.of)
    | split

theorem State.planesStop_follows {orig : State} (s : State) (hyp : orig.Follows s) :
    orig.Follows (State.planesStop s) := by
  unfold State.planesStop
  repeat' first
    | (intro _)
    | with_reducible first | assumption | apply State.planeThermal_follows | apply State.setPlane_follows |
      apply State.Follows.foldl
    | (simp only [State.Follows.mk_iff]; with_reducible apply State.Keeps.of)
    | split

theorem State.densityBegin_follows {orig : State} (s : State) (p : Nat) (cf : ClosingFrame) (hyp : orig.Follows s) :
    orig.Follows (State.densityBegin s p cf).1 := by
  unfold State.densityBegin
  repeat' first
    | with_reducible assumption
    | (intro x; refine State.Follows.cut (P := orig.Follows x) ?_ ?_; all_goals first | (intro _; clear_value x) | subst x)
    | (intro x; refine State.Follows.cut (P := ∀ a, orig.Follows (x a)) ?_ ?_; all_goals first | (subst x; intro _) | (intro kf; clear_value x))
    | (intro x; refine State.Follows.cut (P := ∀ t a, orig.Follows t → orig.Follows (x t a)) ?_ ?_; all_goals first | (subst x; intro _ _ _) | (intro kf; clear_value x))
    | (intro x; refine State.Follows.cut (P := ∀ t a b, orig.Follows t → orig.Follows (x t a b)) ?_ ?_; all_goals first | (subst x; intro _ _ _ _) | (intro kf; clear_value x))
    | (intro x; refine State.Follows.cut (P := orig.Follows x.1) ?_ ?_; all_goals first | (intro _; clear_value x) | subst x)
    | (intro x; refine State.Follows.cut (P := orig.Follows x.2) ?_ ?_; all_goals first | (intro _; clear_value x) | subst x)
    | (intro x; refine State.Follows.cut (P := orig.Follows x.state) ?_ ?_; all_goals first | (intro _; clear_value x) | subst x)
    | (intro x; clear_value x)
    | (intro _)
    | with_reducible first | assumption | apply State.Follows.ite | apply State.enqueue_follows | apply
      State.countAbort_follows
    | (simp only [State.Follows.mk_iff]; with_reducible apply State.Keeps.of)
    | lift_lets
    | split
    | dsimp only

theorem State.sendClose_follows {orig : State} (s : State) (p : Nat) (cf : ClosingFrame) (x : SendSt) (piece : List
  Byte) (last : Bool) (hyp : orig.Follows s) :
    orig.Follows (State.sendClose s p cf x piece last) := by
  unfold State.sendClose
  repeat' first
    | (intro _)
    | with_reducible first | assumption | apply State.setQuill_follows
    | (simp only [State.Follows.mk_iff]; with_reducible apply State.Keeps.of)
    | split

theorem State.sendBytes_follows {orig : State} (s : State) (p : Nat) (cf : ClosingFrame) (x : SendSt) (bytes : List
  Byte) (hyp : orig.Follows s) :
    orig.Follows (State.sendBytes s p cf x bytes).1 := by
  unfold State.sendBytes
  repeat' first
    | with_reducible assumption
    | (intro x; refine State.Follows.cut (P := orig.Follows x) ?_ ?_; all_goals first | (intro _; clear_value x) | subst x)
    | (intro x; refine State.Follows.cut (P := ∀ a, orig.Follows (x a)) ?_ ?_; all_goals first | (subst x; intro _) | (intro kf; clear_value x))
    | (intro x; refine State.Follows.cut (P := ∀ t a, orig.Follows t → orig.Follows (x t a)) ?_ ?_; all_goals first | (subst x; intro _ _ _) | (intro kf; clear_value x))
    | (intro x; refine State.Follows.cut (P := ∀ t a b, orig.Follows t → orig.Follows (x t a b)) ?_ ?_; all_goals first | (subst x; intro _ _ _ _) | (intro kf; clear_value x))
    | (intro x; refine State.Follows.cut (P := orig.Follows x.1) ?_ ?_; all_goals first | (intro _; clear_value x) | subst x)
    | (intro x; refine State.Follows.cut (P := orig.Follows x.2) ?_ ?_; all_goals first | (intro _; clear_value x) | subst x)
    | (intro x; refine State.Follows.cut (P := orig.Follows x.state) ?_ ?_; all_goals first | (intro _; clear_value x) | subst x)
    | (intro x; clear_value x)
    | (intro _)
    | with_reducible first | assumption | apply State.Follows.ite | apply State.setQuill_follows | apply
      State.enqueue_follows | apply State.sendClose_follows
    | (simp only [State.Follows.mk_iff]; with_reducible apply State.Keeps.of)
    | lift_lets
    | split
    | dsimp only

theorem State.sendEnd_follows {orig : State} (s : State) (p : Nat) (cf : ClosingFrame) (x : SendSt) (hyp :
  orig.Follows s) :
    orig.Follows (State.sendEnd s p cf x) := by
  unfold State.sendEnd
  repeat' first
    | (intro _)
    | with_reducible first | assumption | apply State.Follows.ite | apply State.enqueue_follows | apply
      State.unitEnd_follows | apply State.sendClose_follows
    | (simp only [State.Follows.mk_iff]; with_reducible apply State.Keeps.of)
    | split

theorem State.planeClose_follows {orig : State} (s : State) (p : Nat) (cf : ClosingFrame) (hyp : orig.Follows s) :
    orig.Follows (State.planeClose s p cf) := by
  unfold State.planeClose
  extract_lets x f m gain loads r s1 s2 s3 s4 s5 s6
  have h1 : orig.Follows s1 := State.setPlane_follows _ _ _ (State.densityBegin_follows _ _ _ hyp)
  have h2 : orig.Follows s2 := by
    repeat' with_reducible first | exact h1 | apply State.setPair_follows | apply State.wr_follows
  have h3 : orig.Follows s3 := State.Follows.ite (State.fload_follows _ _ _ _ h2) h2
  have h4 : orig.Follows s4 := State.Follows.ite (State.bitOff_follows _ _ _ (State.foff_follows _ _ _ h3)) h3
  have h5 : orig.Follows s5 := State.fset_follows _ _ _ _ (State.fon_follows _ _ _ h4)
  exact State.raise_follows _ _ _ (State.Follows.ite h5 (State.log_follows _ _ _ _ _ _ _ h5))

theorem State.planeSweep_follows {orig : State} (s : State) (p : Nat) (hyp : orig.Follows s) :
    orig.Follows (State.planeSweep s p) := by
  unfold State.planeSweep
  repeat' first
    | with_reducible assumption
    | (intro x; refine State.Follows.cut (P := orig.Follows x) ?_ ?_; all_goals first | (intro _; clear_value x) | subst x)
    | (intro x; refine State.Follows.cut (P := ∀ a, orig.Follows (x a)) ?_ ?_; all_goals first | (subst x; intro _) | (intro kf; clear_value x))
    | (intro x; refine State.Follows.cut (P := ∀ t a, orig.Follows t → orig.Follows (x t a)) ?_ ?_; all_goals first | (subst x; intro _ _ _) | (intro kf; clear_value x))
    | (intro x; refine State.Follows.cut (P := ∀ t a b, orig.Follows t → orig.Follows (x t a b)) ?_ ?_; all_goals first | (subst x; intro _ _ _ _) | (intro kf; clear_value x))
    | (intro x; refine State.Follows.cut (P := orig.Follows x.1) ?_ ?_; all_goals first | (intro _; clear_value x) | subst x)
    | (intro x; refine State.Follows.cut (P := orig.Follows x.2) ?_ ?_; all_goals first | (intro _; clear_value x) | subst x)
    | (intro x; refine State.Follows.cut (P := orig.Follows x.state) ?_ ?_; all_goals first | (intro _; clear_value x) | subst x)
    | (intro x; clear_value x)
    | (intro _)
    | with_reducible first | assumption | apply State.Follows.ite | apply State.raise_follows | apply
      State.setPlane_follows | apply State.sendBytes_follows | apply State.Follows.foldl
    | (simp only [State.Follows.mk_iff]; with_reducible apply State.Keeps.of)
    | lift_lets
    | split
    | dsimp only

theorem State.tapBeat_follows {orig : State} (s : State) (hyp : orig.Follows s) :
    orig.Follows (State.tapBeat s) := by
  unfold State.tapBeat
  repeat' first
    | (intro _)
    | with_reducible first | assumption | apply State.Follows.ite | apply State.planeAbsorb_follows | apply State.planeForm_follows |
      apply State.planeSweep_follows | apply State.Follows.foldl
    | split

theorem State.planeSwept_follows {orig : State} (s : State) (p : Nat) (w : SweepSt) (hyp : orig.Follows s) :
    orig.Follows (State.planeSwept s p w) := by
  unfold State.planeSwept
  repeat' first
    | (intro _)
    | with_reducible first | assumption | apply State.Follows.ite | apply State.foff_follows | apply
      State.unitEnd_follows | apply State.setPlane_follows | apply State.sendEnd_follows | apply State.Follows.foldl
    | (simp only [State.Follows.mk_iff]; with_reducible apply State.Keeps.of)
    | split

/-! ### SpecOps -/

theorem State.setStrm_follows {orig : State} (s : State) (c : Nat) (x : StreamRt) (hyp : orig.Follows s) :
    orig.Follows (State.setStrm s c x) := by
  unfold State.setStrm
  repeat' first
    | (intro _)
    | with_reducible first | assumption
    | (simp only [State.Follows.mk_iff]; with_reducible apply State.Keeps.of)

theorem State.specSkip_follows {orig : State} (s : State) (c count : Nat) (hyp : orig.Follows s) :
    orig.Follows (State.specSkip s c count) := by
  unfold State.specSkip
  repeat' with_reducible first | assumption | apply State.Follows.ite | apply State.count_follows |
      apply State.event_follows | apply State.setStrm_follows

theorem State.specWindow_follows {orig : State} (s : State) (c : Nat) (released : Nat) (xs : List TapSamp) (hyp :
  orig.Follows s) :
    orig.Follows (State.specWindow s c released xs) := by
  unfold State.specWindow
  repeat' first
    | (intro _)
    | with_reducible first | assumption | apply State.Follows.ite | apply State.setStrm_follows | apply
      State.specSkip_follows | apply State.Follows.foldl
    | (simp only [State.Follows.mk_iff]; with_reducible apply State.Keeps.of)
    | split

theorem State.takeWindow_follows {orig : State} (s : State) (c : Nat) (w : PendWin) (hyp : orig.Follows s) :
    orig.Follows (State.takeWindow s c w).1 := by
  unfold State.takeWindow
  repeat' first
    | (intro _)
    | with_reducible first | assumption | apply State.setReed_follows
    | (simp only [State.Follows.mk_iff]; with_reducible apply State.Keeps.of)

theorem State.takeWindows_follows {orig : State} (s : State) (c : Nat) (l : List PendWin) (hyp : orig.Follows s) :
    orig.Follows (s.takeWindows c l).1 := by
  induction l generalizing s with
  | nil => exact hyp
  | cons w t ih =>
    unfold State.takeWindows
    dsimp only
    apply ih
    split
    · exact State.takeWindow_follows _ _ _ hyp
    · exact hyp

theorem State.streamBeat_follows {orig : State} (s : State) (c : Nat) (hyp : orig.Follows s) :
    orig.Follows (State.streamBeat s c) := by
  unfold State.streamBeat
  repeat' first
    | (intro _)
    | with_reducible first | assumption | apply State.reedPrecision_follows | apply State.setStrm_follows | apply
      State.takeWindows_follows | apply State.Follows.foldl
    | (simp only [State.Follows.mk_iff]; with_reducible apply State.Keeps.of)

theorem State.specBeat_follows {orig : State} (s : State) (hyp : orig.Follows s) :
    orig.Follows (State.specBeat s) := by
  unfold State.specBeat
  repeat' first
    | (intro _)
    | with_reducible first | assumption | apply State.streamBeat_follows | apply State.Follows.foldl

theorem State.specLost_follows {orig : State} (s : State) (c : Nat) (hyp : orig.Follows s) :
    orig.Follows (State.specLost s c) := by
  unfold State.specLost
  repeat' first
    | (intro _)
    | with_reducible first | assumption | apply State.Follows.ite | apply State.setStrm_follows | apply State.specSkip_follows
    | (simp only [State.Follows.mk_iff]; with_reducible apply State.Keeps.of)
    | split

theorem State.specSample_follows {orig : State} (s : State) (c : Nat) (zoom : Bool) (released : Nat) (y : TapSamp)
  (hyp : orig.Follows s) :
    orig.Follows (State.specSample s c zoom released y) := by
  unfold State.specSample
  repeat' first
    | (intro _)
    | with_reducible first | assumption | apply State.Follows.ite | apply State.setStrm_follows | apply
      State.specWindow_follows | apply State.specLost_follows
    | (simp only [State.Follows.mk_iff]; with_reducible apply State.Keeps.of)
    | split

theorem State.scStop_follows {orig : State} (s : State) (n u : Nat) (centre : Int) (due : Nat) (hyp : orig.Follows s)
  :
    orig.Follows (State.scStop s n u centre due) := by
  unfold State.scStop
  repeat' first
    | (intro _)
    | with_reducible first | assumption | apply State.Follows.ite | apply State.setTrd_follows
    | (simp only [State.Follows.mk_iff]; with_reducible apply State.Keeps.of)
    | split

theorem State.riseDue_follows {orig : State} (s : State) (hyp : orig.Follows s) :
    orig.Follows (State.riseDue s) := by
  unfold State.riseDue
  repeat' first
    | (intro _)
    | with_reducible first | assumption | apply State.Follows.ite | apply State.fon_follows | apply
      State.setPair_follows | apply State.raise_follows | apply State.setTrd_follows
    | (simp only [State.Follows.mk_iff]; with_reducible apply State.Keeps.of)
    | split

theorem State.scUnit_follows {orig : State} (s : State) (n u c index : Nat) (sflags : Nat) (centre : Int) (firstBin
    : Nat) (codes mags : List Nat) (e : Int) (hyp : orig.Follows s) :
    orig.Follows (State.scUnit s n u c index sflags centre firstBin codes mags e) := by
  unfold State.scUnit
  repeat' first
    | (intro _)
    | with_reducible first | assumption | apply State.Follows.ite | apply State.count_follows |
      apply State.fset_follows | apply State.pushBus_follows | apply State.raise_follows |
      apply State.scStop_follows | apply State.setTrd_follows

theorem State.specRecord_follows {orig : State} (s : State) (c rate : Nat) (item : SpecItem) (lastBin : Nat)
    (hyp : orig.Follows s) : orig.Follows (State.specRecord s c rate item lastBin) := by
  unfold State.specRecord
  extract_lets recs limit fresh src put
  split
  · exact hyp
  have hp (xs : List SpecRec) : orig.Follows (put xs) := State.Follows.upd hyp rfl rfl rfl rfl rfl rfl
  repeat' first | exact hyp | exact hp _ | split

theorem State.specDeliver_follows {orig : State} (s : State) (c : Nat) (w : PendWin) (hyp : orig.Follows s) :
    orig.Follows (State.specDeliver s c w) := by
  unfold State.specDeliver
  repeat' first
    | (intro _)
    | with_reducible first | assumption | apply State.Follows.ite | apply State.count_follows | apply State.fset_follows | apply
      State.planeOffer_follows | apply State.scUnit_follows | apply State.setStrm_follows | apply
      State.specRecord_follows | apply State.stamp_follows | apply State.wr_follows | apply State.Follows.foldl
    | (simp only [State.Follows.mk_iff]; with_reducible apply State.Keeps.of)
    | split

theorem State.lateTaint_follows {orig : State} (s : State) (c index : Nat) (hyp : orig.Follows s) :
    orig.Follows (State.lateTaint s c index) := by
  unfold State.lateTaint
  repeat' first
    | (intro _)
    | with_reducible first | assumption | apply State.Follows.ite | apply State.count_follows |
      apply State.planesLate_follows | apply State.raise_follows | apply State.taintSpectrum_follows
    | (simp only [State.Follows.mk_iff]; with_reducible apply State.Keeps.of)

theorem State.taintReeds_follows {orig : State} (s : State) (c : Nat) (w : Stretch) (hyp : orig.Follows s) :
    orig.Follows (State.taintReeds s c w) := by
  unfold State.taintReeds
  repeat' first
    | (intro _)
    | with_reducible first | assumption | apply State.Follows.ite | apply State.setStrm_follows | apply
      State.lateTaint_follows | apply State.Follows.foldl
    | (simp only [State.Follows.mk_iff]; with_reducible apply State.Keeps.of)
    | split

theorem State.reedsStart_follows {orig : State} (s : State) (hyp : orig.Follows s) :
    orig.Follows (State.reedsStart s) := by
  unfold State.reedsStart
  repeat' first
    | (intro _)
    | with_reducible first | assumption | apply State.wr_follows | apply State.Follows.foldl
    | (simp only [State.Follows.mk_iff]; with_reducible apply State.Keeps.of)

/-! ### HfbOps -/

theorem State.setHfbIn_follows {orig : State} (s : State) (i : Nat) (x : HfbIn) (hyp : orig.Follows s) :
    orig.Follows (State.setHfbIn s i x) := by
  unfold State.setHfbIn
  repeat' first
    | (intro _)
    | with_reducible first | assumption
    | (simp only [State.Follows.mk_iff]; with_reducible apply State.Keeps.of)

theorem State.hfbCalStart_follows {orig : State} (s : State) (hyp : orig.Follows s) :
    orig.Follows (State.hfbCalStart s) := by
  unfold State.hfbCalStart
  repeat' first
    | (intro _)
    | with_reducible first | assumption | apply State.foff_follows | apply State.fon_follows
    | (simp only [State.Follows.mk_iff]; with_reducible apply State.Keeps.of)

theorem State.hfbStop_follows {orig : State} (s : State) (hyp : orig.Follows s) :
    orig.Follows (State.hfbStop s) := by
  unfold State.hfbStop
  repeat' with_reducible first | assumption | apply State.Follows.ite | apply State.hfbCalStart_follows

/-! ### Boundary -/

theorem State.tapsIdle_follows {orig : State} (s : State) (hyp : orig.Follows s) :
    orig.Follows (State.tapsIdle s) := by
  unfold State.tapsIdle
  repeat' first
    | (intro _)
    | with_reducible first | assumption | apply State.Follows.ite | apply State.foff_follows | apply State.Follows.foldl
    | split

theorem State.disableBlocks_follows {orig : State} (s : State) (hyp : orig.Follows s) :
    orig.Follows (State.disableBlocks s) := by
  unfold State.disableBlocks
  repeat' first
    | (intro _)
    | with_reducible first | assumption | apply State.foff_follows | apply State.tapsIdle_follows | apply
      State.Follows.foldl
    | (simp only [State.Follows.mk_iff]; with_reducible apply State.Keeps.of)
    | split

theorem State.setRunState_follows {orig : State} (s : State) (k : Nat) (hyp : orig.Follows s) :
    orig.Follows (State.setRunState s k) := by
  unfold State.setRunState
  repeat' with_reducible first | assumption | apply State.Follows.ite | apply State.fset_follows |
      apply State.raise_follows

theorem State.framesStop_follows {orig : State} (s : State) (hyp : orig.Follows s) :
    orig.Follows (State.framesStop s) := by
  unfold State.framesStop
  repeat' first
    | (intro _)
    | with_reducible first | assumption | apply State.Follows.ite
    | (simp only [State.Follows.mk_iff]; with_reducible apply State.Keeps.of)
    | split

theorem State.stopBlocks_follows {orig : State} (s : State) (hyp : orig.Follows s) : orig.Follows (State.stopBlocks s) :=
  State.retireAll_follows _ (State.repairAll_follows _ (State.hfbStop_follows _ (State.statsStop_follows _
    (State.sidesStop_follows _ (State.planesStop_follows _ (State.shedsStop_follows _ (State.framesStop_follows _ hyp)))))))

theorem State.keysAtStop_follows {orig : State} (s : State) (hyp : orig.Follows s) :
    orig.Follows (State.keysAtStop s) := by
  unfold State.keysAtStop
  repeat' first
    | (intro _)
    | with_reducible first | assumption | apply State.Follows.ite | apply State.setStream_follows |
      apply State.Follows.foldl

theorem State.runStop_follows {orig : State} (s : State) (reason : Nat) (hyp : orig.Follows s) :
    orig.Follows (State.runStop s reason) := by
  unfold State.runStop
  repeat' first
    | (intro _)
    | with_reducible first | assumption | apply State.Follows.ite | apply State.drivePins_follows | apply State.emcyOnAll_follows |
      apply State.fset_follows | apply State.keysAtStop_follows | apply State.raise_follows | apply
      State.setRunState_follows | apply State.stopBlocks_follows
    | (simp only [State.Follows.mk_iff]; with_reducible apply State.Keeps.of)
    | split

theorem State.restored_follows {orig : State} (s : State) (hyp : orig.Follows s) :
    orig.Follows (State.restored s) := by
  unfold State.restored
  repeat' with_reducible first | assumption | apply State.drivePins_follows | apply State.repairAll_follows | apply State.retireAll_follows

theorem State.disarm_follows {orig : State} (s : State) (hyp : orig.Follows s) :
    orig.Follows (State.disarm s) := by
  unfold State.disarm
  repeat' first
    | (intro _)
    | with_reducible first | assumption | apply State.disableBlocks_follows | apply State.foff_follows | apply State.restored_follows |
      apply State.setRunState_follows
    | (simp only [State.Follows.mk_iff]; with_reducible apply State.Keeps.of)

theorem State.stopFor_follows {orig : State} (s : State) (reason : Nat) (hyp : orig.Follows s) :
    orig.Follows (State.stopFor s reason) := by
  unfold State.stopFor
  repeat' first
    | (intro _)
    | with_reducible first | assumption | apply State.Follows.ite | apply State.disarm_follows |
      apply State.fset_follows | apply State.runStop_follows

theorem State.stopFaulted_follows {orig : State} (s : State) (hyp : orig.Follows s) :
    orig.Follows (State.stopFaulted s) := by
  unfold State.stopFaulted
  repeat' first
    | (intro _)
    | with_reducible first | assumption | apply State.Follows.ite | apply State.fset_follows | apply
      State.emcyOnAll_follows
    | (simp only [State.Follows.mk_iff]; with_reducible apply State.Keeps.of)
    | split

theorem State.fatalStop_follows {orig : State} (s : State) (hyp : orig.Follows s) :
    orig.Follows (State.fatalStop s) := by
  unfold State.fatalStop
  repeat' first
    | with_reducible assumption
    | (intro x; refine State.Follows.cut (P := orig.Follows x) ?_ ?_; all_goals first | (intro _; clear_value x) | subst x)
    | (intro x; refine State.Follows.cut (P := ∀ a, orig.Follows (x a)) ?_ ?_; all_goals first | (subst x; intro _) | (intro kf; clear_value x))
    | (intro x; refine State.Follows.cut (P := ∀ t a, orig.Follows t → orig.Follows (x t a)) ?_ ?_; all_goals first | (subst x; intro _ _ _) | (intro kf; clear_value x))
    | (intro x; refine State.Follows.cut (P := ∀ t a b, orig.Follows t → orig.Follows (x t a b)) ?_ ?_; all_goals first | (subst x; intro _ _ _ _) | (intro kf; clear_value x))
    | (intro x; refine State.Follows.cut (P := orig.Follows x.1) ?_ ?_; all_goals first | (intro _; clear_value x) | subst x)
    | (intro x; refine State.Follows.cut (P := orig.Follows x.2) ?_ ?_; all_goals first | (intro _; clear_value x) | subst x)
    | (intro x; refine State.Follows.cut (P := orig.Follows x.state) ?_ ?_; all_goals first | (intro _; clear_value x) | subst x)
    | (intro x; clear_value x)
    | (intro _)
    | with_reducible first | assumption | apply State.Follows.ite | apply State.log_follows | apply
      State.emcyOnAll_follows | apply State.stopFor_follows | apply State.stopFaulted_follows
    | (simp only [State.Follows.mk_iff]; with_reducible apply State.Keeps.of)
    | lift_lets
    | split
    | dsimp only

theorem State.fatal_follows {orig : State} (s : State) (vec b unit a0 a1 : Nat) (hyp : orig.Follows s) :
    orig.Follows (State.fatal s vec b unit a0 a1) := by
  unfold State.fatal
  repeat' with_reducible first | assumption | apply State.event_follows | apply State.fatalStop_follows

end Sys2Proof.Machine
end

