-- ==== Sys2Proof/Laws/Keeps3.lean ====
section
/-!
SUPPORT. Each operation and meaning of CondOps, EgOps, CondUnit, Taint, LinkOps, Conditioner, PnlOps, Tapestry,
  Records keeps what State.Follows says: one lemma for each, named after it.
-/

set_option linter.all false

namespace Sys2Proof.Machine

/-! ### CondOps -/

theorem State.setCch_follows {orig : State} (s : State) (c : Nat) (x : CondCh) (hyp : orig.Follows s) :
    orig.Follows (State.setCch s c x) := by
  unfold State.setCch
  repeat' first
    | (intro _)
    | with_reducible first | assumption
    | (simp only [State.Follows.mk_iff]; with_reducible apply State.Keeps.of)

theorem State.setPort_follows {orig : State} (s : State) (p : Nat) (x : PortSt) (hyp : orig.Follows s) :
    orig.Follows (State.setPort s p x) := by
  unfold State.setPort
  repeat' first
    | (intro _)
    | with_reducible first | assumption
    | (simp only [State.Follows.mk_iff]; with_reducible apply State.Keeps.of)

theorem State.setLane_follows {orig : State} (s : State) (p l : Nat) (x : LaneSt) (hyp : orig.Follows s) :
    orig.Follows (State.setLane s p l x) := by
  unfold State.setLane
  repeat' first
    | (intro _)
    | with_reducible first | assumption
    | (simp only [State.Follows.mk_iff]; with_reducible apply State.Keeps.of)

theorem State.setPlace_follows {orig : State} (s : State) (p : Nat) (x : Int) (hyp : orig.Follows s) :
    orig.Follows (State.setPlace s p x) := by
  unfold State.setPlace
  repeat' with_reducible first | assumption | apply State.fset_follows | apply State.setPair_follows

theorem State.sampleCame_follows {orig : State} (s : State) (c kind : Nat) (hyp : orig.Follows s) :
    orig.Follows (State.sampleCame s c kind) := by
  unfold State.sampleCame
  repeat' first
    | (intro _)
    | with_reducible first | assumption | apply State.Follows.ite | apply State.fset_follows | apply
      State.event_follows | apply State.setCch_follows
    | (simp only [State.Follows.mk_iff]; with_reducible apply State.Keeps.of)
    | split

theorem State.samplesCome_follows {orig : State} (s : State) (c : Nat) (hyp : orig.Follows s) :
    orig.Follows (State.samplesCome s c) := by
  unfold State.samplesCome
  repeat' first
    | (intro _)
    | with_reducible first | assumption | apply State.setCch_follows | apply State.sampleCame_follows | apply
      State.Follows.foldl
    | (simp only [State.Follows.mk_iff]; with_reducible apply State.Keeps.of)
    | split

theorem State.storeSample_follows {orig : State} (s : State) (c k : Nat) (x : Samp) (hyp : orig.Follows s) :
    orig.Follows (State.storeSample s c k x) := by
  unfold State.storeSample
  repeat' first
    | (intro _)
    | with_reducible first | assumption | apply State.Follows.ite | apply State.setCch_follows
    | (simp only [State.Follows.mk_iff]; with_reducible apply State.Keeps.of)
    | split

theorem State.storeSamples_follows {orig : State} (s : State) (c k : Nat) (l : List Samp) (hyp : orig.Follows s) :
    orig.Follows (s.storeSamples c k l) := by
  induction l generalizing s k with
  | nil => exact hyp
  | cons x l ih => exact ih _ _ (State.storeSample_follows _ _ _ _ hyp)

theorem State.sampleFresh_follows {orig : State} (s : State) (c : Nat) (hyp : orig.Follows s) :
    orig.Follows (State.sampleFresh s c) := by
  unfold State.sampleFresh
  repeat' first
    | (intro _)
    | with_reducible first | assumption | apply State.setCch_follows
    | (simp only [State.Follows.mk_iff]; with_reducible apply State.Keeps.of)
    | split

theorem State.condReady_follows {orig : State} (s : State) (n : Nat) (hyp : orig.Follows s) :
    orig.Follows (State.condReady s n) := by
  unfold State.condReady
  repeat' first
    | (intro _)
    | with_reducible first | assumption | apply State.Follows.ite | apply State.fon_follows | apply State.foff_follows
      | apply State.raise_follows
    | (simp only [State.Follows.mk_iff]; with_reducible apply State.Keeps.of)
    | split

/-! ### EgOps -/

theorem State.egReject_follows {orig : State} (s : State) (v : Nat) (src : Src) (addr : Nat) (hyp : orig.Follows s) :
    orig.Follows (State.egReject s v src addr) := by
  unfold State.egReject
  repeat' with_reducible first | assumption | apply State.bitOn_follows | apply State.log_follows

theorem State.egStored_follows {orig : State} (s : State) (hyp : orig.Follows s) :
    orig.Follows (State.egStored s) := by
  unfold State.egStored
  repeat' with_reducible first | assumption | apply State.Follows.ite | apply State.fon_follows

/-! ### CondUnit -/

theorem State.countSaturation_follows {orig : State} (s : State) (c : Nat) (sat : Bool) (hyp : orig.Follows s) :
    orig.Follows (State.countSaturation s c sat) := by
  unfold State.countSaturation
  repeat' with_reducible first | assumption | apply State.Follows.ite | apply State.count_follows |
      apply State.raise_follows

theorem State.settling_follows {orig : State} (s : State) (c : Nat) (hyp : orig.Follows s) :
    orig.Follows (State.settling s c) := by
  unfold State.settling
  repeat' with_reducible first | assumption | apply State.Follows.ite | apply State.fset_follows

theorem State.suppressMany_follows {orig : State} (s : State) (c : Nat) (zoom : Bool) (n : Nat) (a b : Int) (hyp :
    orig.Follows s) :
    orig.Follows (State.suppressMany s c zoom n a b) := by
  unfold State.suppressMany
  repeat' first
    | (intro _)
    | with_reducible first | assumption | apply State.Follows.ite | apply State.count_follows | apply State.raise_follows | apply
      State.setCch_follows | apply State.settling_follows
    | (simp only [State.Follows.mk_iff]; with_reducible apply State.Keeps.of)
    | split

theorem State.suppress_follows {orig : State} (s : State) (c : Nat) (zoom : Bool) (stamp : Int) (hyp : orig.Follows s)
    :
    orig.Follows (State.suppress s c zoom stamp) := by
  unfold State.suppress
  repeat' with_reducible first | assumption | apply State.stamp_follows | apply State.suppressMany_follows

theorem State.resumed_follows {orig : State} (s : State) (c : Nat) (zoom : Bool) (hyp : orig.Follows s) :
    orig.Follows (State.resumed s c zoom) := by
  unfold State.resumed
  repeat' first
    | (intro _)
    | with_reducible first | assumption | apply State.Follows.ite | apply State.condReady_follows |
      apply State.log_follows | apply State.setCch_follows | apply State.settling_follows
    | (simp only [State.Follows.mk_iff]; with_reducible apply State.Keeps.of)
    | split

theorem State.toCapture_follows {orig : State} (s : State) (c : Nat) (zoom : Bool) (released : Nat) (y : TapSamp) (hyp
    : orig.Follows s) :
    orig.Follows (State.toCapture s c zoom released y) := by
  unfold State.toCapture
  repeat' first
    | (intro _)
    | with_reducible first | assumption | apply State.Follows.ite | apply State.setCch_follows
    | (simp only [State.Follows.mk_iff]; with_reducible apply State.Keeps.of)
    | split

theorem State.deliverM_follows {orig : State} (s : State) (c released : Nat) (y : TapSamp) (hyp : orig.Follows s) :
    orig.Follows (State.deliverM s c released y) := by
  unfold State.deliverM
  repeat' with_reducible first | assumption | apply State.primSample_follows | apply State.resumed_follows |
      apply State.specSample_follows | apply State.toCapture_follows

theorem State.deliverZ_follows {orig : State} (s : State) (c released : Nat) (y : TapSamp) (hyp : orig.Follows s) :
    orig.Follows (State.deliverZ s c released y) := by
  unfold State.deliverZ
  repeat' with_reducible first | assumption | apply State.primSample_follows | apply State.resumed_follows |
      apply State.specSample_follows | apply State.toCapture_follows

theorem State.tapZ_follows {orig : State} (s : State) (c : Nat) (y : TapSamp) (given full : Bool) (newest : Int) (hyp
  : orig.Follows s) :
    orig.Follows (State.tapZ s c y given full newest) := by
  unfold State.tapZ
  repeat' first
    | (intro _)
    | with_reducible first | assumption | apply State.Follows.ite | apply State.primLost_follows | apply
      State.specLost_follows | apply State.setCch_follows | apply State.countSaturation_follows | apply
      State.suppress_follows | apply State.deliverZ_follows
    | (simp only [State.Follows.mk_iff]; with_reducible apply State.Keeps.of)
    | split

theorem State.rankCentre_follows {orig : State} (s : State) (c : Nat) (centre : TapSamp) (win : List TapSamp) (full
    deep : Bool) (newest : Int) (hyp : orig.Follows s) :
    orig.Follows (State.rankCentre s c centre win full deep newest) := by
  unfold State.rankCentre
  repeat' first
    | (intro _)
    | with_reducible first | assumption | apply State.Follows.ite | apply State.count_follows | apply State.deliverM_follows | apply
      State.stamp_follows | apply State.suppress_follows | apply State.tapZ_follows
    | split

theorem State.rankLost_follows {orig : State} (s : State) (c : Nat) (l : List TapSamp) (hyp : orig.Follows s) :
    orig.Follows (s.rankLost c l) := by
  induction l with
  | nil => exact hyp
  | cons x l ih => exact State.rankCentre_follows _ _ _ _ _ _ _ ih

theorem State.tapBreak_follows {orig : State} (s : State) (c : Nat) (hyp : orig.Follows s) :
    orig.Follows (State.tapBreak s c) := by
  unfold State.tapBreak
  repeat' with_reducible first | assumption | apply State.Follows.ite | apply State.rankLost_follows |
      apply State.setCch_follows

theorem State.loseZ_follows {orig : State} (s : State) (c : Nat) (p t : Int) (n : Nat) (hyp : orig.Follows s) :
    orig.Follows (State.loseZ s c p t n) := by
  unfold State.loseZ
  repeat' with_reducible first | assumption | apply State.Follows.ite | apply State.suppressMany_follows

theorem State.missBegins_follows {orig : State} (s : State) (c : Nat) (hyp : orig.Follows s) :
    orig.Follows (State.missBegins s c) := by
  unfold State.missBegins
  repeat' with_reducible first | assumption | apply State.foff_follows | apply State.primLost_follows | apply State.specLost_follows |
      apply State.tapBreak_follows

theorem State.missRun_follows {orig : State} (s : State) (c n : Nat) (hyp : orig.Follows s) :
    orig.Follows (State.missRun s c n) := by
  unfold State.missRun
  repeat' first
    | with_reducible assumption
    | (intro x; refine State.Follows.cut (P := orig.Follows x) ?_ ?_; all_goals first | (intro _; clear_value x) | subst x)
    | (intro x; clear_value x)
    | (intro _)
    | with_reducible first | assumption | apply State.Follows.ite | apply State.loseZ_follows | apply State.missBegins_follows | apply
      State.setCch_follows
    | (simp only [State.Follows.mk_iff]; with_reducible apply State.Keeps.of)
    | lift_lets
    | split
    | dsimp only

theorem State.missEnds_follows {orig : State} (s : State) (c : Nat) (hyp : orig.Follows s) :
    orig.Follows (State.missEnds s c) := by
  unfold State.missEnds
  repeat' first
    | with_reducible assumption
    | (intro x; refine State.Follows.cut (P := orig.Follows x) ?_ ?_; all_goals first | (intro _; clear_value x) | subst x)
    | (intro x; clear_value x)
    | (intro _)
    | with_reducible first | assumption | apply State.loseZ_follows
    | (simp only [State.Follows.mk_iff]; with_reducible apply State.Keeps.of)
    | lift_lets
    | split
    | dsimp only

theorem State.missDue_follows {orig : State} (s : State) (c : Nat) (hyp : orig.Follows s) :
    orig.Follows (State.missDue s c) := by
  unfold State.missDue
  repeat' first
    | (intro _)
    | with_reducible first | assumption | apply State.Follows.ite | apply State.missRun_follows
    | split

theorem State.condBeat_follows {orig : State} (s : State) (hyp : orig.Follows s) :
    orig.Follows (State.condBeat s) := by
  unfold State.condBeat
  repeat' first
    | (intro _)
    | with_reducible first | assumption | apply State.samplesCome_follows | apply State.missDue_follows | apply
      State.Follows.foldl
    | (simp only [State.Follows.mk_iff]; with_reducible apply State.Keeps.of)
    | split

theorem State.condition_follows {orig : State} (s0 : State) (c : Nat) (x : Samp) (hyp : orig.Follows s0) :
    orig.Follows (State.condition s0 c x) := by
  unfold State.condition
  extract_lets n l st src s ch0 lost brk s1 s2 s3 v s4 ch reach own keep k y h ch1 ch2 s5 deep
  have h0 : orig.Follows s := State.setCch_follows _ _ _ hyp
  have h1 : orig.Follows s1 :=
    State.Follows.ite h0 (State.Follows.ite (State.missEnds_follows _ _ (State.missRun_follows _ _ _ h0))
      (State.Follows.ite (State.tapBreak_follows _ _ h0) (State.missEnds_follows _ _ h0)))
  have h2 : orig.Follows s2 := State.fon_follows _ _ _ (State.fset_follows _ _ _ _ h1)
  have h3 : orig.Follows s3 := State.Follows.ite (State.count_follows _ _ _ h2) h2
  have h4 : orig.Follows s4 := State.countSaturation_follows _ _ _ (State.Follows.ite (State.took_follows _ h3) h3)
  have h5 : orig.Follows s5 := State.primSample_follows _ _ _ _ _ (State.setCch_follows _ _ _ h4)
  clear_value s5
  refine State.Follows.ite ?_ (State.tapZ_follows _ _ _ _ _ _ (State.deliverM_follows _ _ _ _ h5))
  split
  · exact State.rankCentre_follows _ _ _ _ _ _ _ h5
  · exact h5

theorem State.spillStop_follows {orig : State} (s : State) (c : Nat) (hyp : orig.Follows s) :
    orig.Follows (State.spillStop s c) := by
  unfold State.spillStop
  repeat' first
    | (intro _)
    | with_reducible first | assumption | apply State.Follows.ite | apply State.fon_follows | apply
      State.count_follows | apply State.raise_follows | apply State.setRing_follows | apply State.mapWaves_follows |
      apply State.shedPosted_follows | apply State.Follows.foldl
    | (simp only [State.Follows.mk_iff]; with_reducible apply State.Keeps.of)
    | split

theorem State.dirAdd_follows {orig : State} (s : State) (c : Nat) (e : DirEntry) (hyp : orig.Follows s) :
    orig.Follows (State.dirAdd s c e) := by
  unfold State.dirAdd
  repeat' with_reducible first | assumption | apply State.Follows.ite | apply State.count_follows |
      apply State.setRing_follows

theorem State.fixWaiting_follows {orig : State} (s : State) (c p : Nat) (stamp : Int) (hyp : orig.Follows s) :
    orig.Follows (State.fixWaiting s c p stamp) := by
  unfold State.fixWaiting
  repeat' first
    | (intro _)
    | with_reducible first | assumption | apply State.Follows.ite | apply State.mapWaves_follows |
      apply State.stamp_follows

theorem State.ringMakeRoom_follows {orig : State} (s : State) (c : Nat) (hyp : orig.Follows s) :
    orig.Follows (State.ringMakeRoom s c) := by
  unfold State.ringMakeRoom
  repeat' with_reducible first | assumption | apply State.Follows.ite | apply State.ringCommit_follows

theorem State.ringAccept_follows {orig : State} (s : State) (c : Nat) (w : CapWord) (hyp : orig.Follows s) :
    orig.Follows (State.ringAccept s c w) := by
  unfold State.ringAccept
  repeat' first
    | (intro _)
    | with_reducible first | assumption | apply State.Follows.ite | apply State.fset_follows | apply
      State.foff_follows | apply State.setRing_follows | apply State.buildWaves_follows | apply State.buildRaw_follows
      | apply State.ringFlush_follows | apply State.dirAdd_follows | apply State.fixWaiting_follows | apply
      State.ringMakeRoom_follows
    | (simp only [State.Follows.mk_iff]; with_reducible apply State.Keeps.of)
    | split

theorem State.chanDrain_follows {orig : State} (s : State) (c : Nat) (hyp : orig.Follows s) :
    orig.Follows (State.chanDrain s c) := by
  unfold State.chanDrain
  repeat' first
    | (intro _)
    | with_reducible first | assumption | apply State.Follows.ite | apply State.buildWaves_follows | apply State.foff_follows | apply
      State.mapWaves_follows | apply State.rawClose_follows | apply State.ringFlush_follows
    | (simp only [State.Follows.mk_iff]; with_reducible apply State.Keeps.of)
    | split

theorem State.captureOut_follows {orig : State} (s : State) (c : Nat) (w : CapWord) (hyp : orig.Follows s) :
    orig.Follows (State.captureOut s c w) := by
  unfold State.captureOut
  repeat' first
    | (intro _)
    | with_reducible first | assumption | apply State.Follows.ite | apply State.count_follows | apply
      State.setRing_follows | apply State.spillStop_follows | apply State.ringAccept_follows
    | (simp only [State.Follows.mk_iff]; with_reducible apply State.Keeps.of)
    | split

/-! ### Taint -/

theorem State.taintNotice_follows {orig : State} (s : State) (c count : Nat) (w : Stretch) (hyp : orig.Follows s) :
    orig.Follows (State.taintNotice s c count w) := by
  unfold State.taintNotice
  repeat' first
    | (intro _)
    | with_reducible first | assumption | apply State.count_follows | apply State.raise_follows | apply
      State.taintSamples_follows | apply State.taintReeds_follows | apply State.setCch_follows
    | (simp only [State.Follows.mk_iff]; with_reducible apply State.Keeps.of)
    | split

/-! ### LinkOps -/

theorem State.lnkRefuse_follows {orig : State} (s : State) (p : Nat) (hyp : orig.Follows s) :
    orig.Follows (State.lnkRefuse s p) := by
  unfold State.lnkRefuse
  repeat' with_reducible first | assumption | apply State.raise_follows

theorem State.lnkKeep_follows {orig : State} (s : State) (p st : Nat) (hyp : orig.Follows s) :
    orig.Follows (State.lnkKeep s p st) := by
  unfold State.lnkKeep
  repeat' with_reducible first | assumption | apply State.fset_follows

theorem State.retPrbsShow_follows {orig : State} (s : State) (p : Nat) (was : Bool) (hyp : orig.Follows s) :
    orig.Follows (State.retPrbsShow s p was) := by
  unfold State.retPrbsShow
  repeat' with_reducible first | assumption | apply State.Follows.ite | apply State.emit_follows

theorem State.prbsReset_follows {orig : State} (s : State) (p l : Nat) (hyp : orig.Follows s) :
    orig.Follows (State.prbsReset s p l) := by
  unfold State.prbsReset
  repeat' first
    | (intro _)
    | with_reducible first | assumption | apply State.foff_follows | apply State.setLane_follows
    | (simp only [State.Follows.mk_iff]; with_reducible apply State.Keeps.of)

theorem State.prbsReseed_follows {orig : State} (s : State) (p l : Nat) (hyp : orig.Follows s) :
    orig.Follows (State.prbsReseed s p l) := by
  unfold State.prbsReseed
  repeat' first
    | (intro _)
    | with_reducible first | assumption | apply State.setLane_follows
    | (simp only [State.Follows.mk_iff]; with_reducible apply State.Keeps.of)
    | split

theorem State.prbsLeave_follows {orig : State} (s : State) (p : Nat) (hyp : orig.Follows s) :
    orig.Follows (State.prbsLeave s p) := by
  unfold State.prbsLeave
  repeat' first
    | (intro _)
    | with_reducible first | assumption | apply State.Follows.ite | apply State.lnkKeep_follows | apply State.prbsReset_follows | apply
      State.retPrbsShow_follows | apply State.Follows.foldl
    | split

theorem State.lnkGo_follows {orig : State} (s0 : State) (p st : Nat) (hyp : orig.Follows s0) :
    orig.Follows (State.lnkGo s0 p st) := by
  unfold State.lnkGo
  repeat' first
    | (intro _)
    | with_reducible first | assumption | apply State.Follows.ite | apply State.setPort_follows | apply
      State.lnkKeep_follows | apply State.prbsLeave_follows
    | (simp only [State.Follows.mk_iff]; with_reducible apply State.Keeps.of)
    | split

theorem State.lnkUnlock_follows {orig : State} (s : State) (p : Nat) (hyp : orig.Follows s) :
    orig.Follows (State.lnkUnlock s p) := by
  unfold State.lnkUnlock
  repeat' first
    | (intro _)
    | with_reducible first | assumption | apply State.foff_follows | apply State.setLane_follows | apply State.Follows.foldl
    | (simp only [State.Follows.mk_iff]; with_reducible apply State.Keeps.of)

theorem State.lnkRecount_follows {orig : State} (s : State) (p : Nat) (hyp : orig.Follows s) :
    orig.Follows (State.lnkRecount s p) := by
  unfold State.lnkRecount
  repeat' first
    | (intro _)
    | with_reducible first | assumption | apply State.setLane_follows | apply State.Follows.foldl

theorem State.lnkVerify_follows {orig : State} (s : State) (p : Nat) (hyp : orig.Follows s) :
    orig.Follows (State.lnkVerify s p) := by
  unfold State.lnkVerify
  repeat' with_reducible first | assumption | apply State.lnkGo_follows | apply State.lnkRecount_follows

theorem State.lnkBusySync_follows {orig : State} (s : State) (p : Nat) (hyp : orig.Follows s) :
    orig.Follows (State.lnkBusySync s p) := by
  unfold State.lnkBusySync
  repeat' with_reducible first | assumption | apply State.Follows.ite | apply State.fset_follows

theorem State.lnkQueue_follows {orig : State} (s : State) (p mtype payload : Nat) (hyp : orig.Follows s) :
    orig.Follows (State.lnkQueue s p mtype payload) := by
  unfold State.lnkQueue
  repeat' with_reducible first | assumption | apply State.lnkBusySync_follows | apply State.setPort_follows

theorem State.lnkSetSpeed_follows {orig : State} (s : State) (p speed lo hi : Nat) (hyp : orig.Follows s) :
    orig.Follows (State.lnkSetSpeed s p speed lo hi) := by
  unfold State.lnkSetSpeed
  repeat' with_reducible first | assumption | apply State.lnkGo_follows | apply State.lnkQueue_follows |
      apply State.setPort_follows

theorem State.lnkRetDone_follows {orig : State} (s : State) (p : Nat) (hyp : orig.Follows s) :
    orig.Follows (State.lnkRetDone s p) := by
  unfold State.lnkRetDone
  repeat' first
    | (intro _)
    | with_reducible first | assumption | apply State.foff_follows
    | (simp only [State.Follows.mk_iff]; with_reducible apply State.Keeps.of)
    | split

theorem State.lnkFlushMsgs_follows {orig : State} (s : State) (p : Nat) (hyp : orig.Follows s) :
    orig.Follows (State.lnkFlushMsgs s p) := by
  unfold State.lnkFlushMsgs
  repeat' first
    | (intro _)
    | with_reducible first | assumption | apply State.Follows.ite | apply State.foff_follows | apply
      State.setPort_follows | apply State.lnkBusySync_follows | apply State.lnkRetDone_follows
    | (simp only [State.Follows.mk_iff]; with_reducible apply State.Keeps.of)
    | split

theorem State.lnkStopDelivery_follows {orig : State} (s : State) (p : Nat) (hyp : orig.Follows s) :
    orig.Follows (State.lnkStopDelivery s p) := by
  unfold State.lnkStopDelivery
  repeat' first
    | (intro _)
    | with_reducible first | assumption | apply State.Follows.ite | apply State.setPort_follows
    | (simp only [State.Follows.mk_iff]; with_reducible apply State.Keeps.of)
    | split

theorem State.lnkResume_follows {orig : State} (s : State) (p : Nat) (first : Int) (step : Nat) (hyp : orig.Follows s)
    :
    orig.Follows (State.lnkResume s p first step) := by
  unfold State.lnkResume
  repeat' first
    | with_reducible assumption
    | (intro x; refine State.Follows.cut (P := orig.Follows x) ?_ ?_; all_goals first | (intro _; clear_value x) | subst x)
    | (intro x; clear_value x)
    | (intro _)
    | with_reducible first | assumption | apply State.count_follows | apply State.log_follows | apply State.setPort_follows
    | (simp only [State.Follows.mk_iff]; with_reducible apply State.Keeps.of)
    | lift_lets
    | split
    | dsimp only

theorem State.lnkRetStart_follows {orig : State} (s : State) (p : Nat) (hyp : orig.Follows s) :
    orig.Follows (State.lnkRetStart s p) := by
  unfold State.lnkRetStart
  repeat' first
    | (intro _)
    | with_reducible first | assumption | apply State.foff_follows | apply State.fset_follows | apply State.lnkGo_follows | apply
      State.setPort_follows
    | (simp only [State.Follows.mk_iff]; with_reducible apply State.Keeps.of)

theorem State.lnkAttempt_follows {orig : State} (s : State) (p attempt : Nat) (hyp : orig.Follows s) :
    orig.Follows (State.lnkAttempt s p attempt) := by
  unfold State.lnkAttempt
  extract_lets s1 x off s2 s3 s4
  have h1 : orig.Follows s1 :=
    State.lnkStopDelivery_follows _ _ (State.lnkUnlock_follows _ _ (State.lnkFlushMsgs_follows _ _ hyp))
  have h2 : orig.Follows s2 := State.setPort_follows _ _ _ h1
  have h3 : orig.Follows s3 := State.fset_follows _ _ _ _ (State.foff_follows _ _ _ (State.foff_follows _ _ _ h2))
  have h4 : orig.Follows s4 := State.condReady_follows _ _ (State.foff_follows _ _ _ h3)
  exact State.Follows.ite (State.lnkRetStart_follows _ _ h4) (State.lnkGo_follows _ _ _ h4)

theorem State.lnkBringup_follows {orig : State} (s : State) (p : Nat) (recovery diag : Bool) (hyp : orig.Follows s) :
    orig.Follows (State.lnkBringup s p recovery diag) := by
  unfold State.lnkBringup
  repeat' with_reducible first | assumption | apply State.lnkAttempt_follows | apply State.setPort_follows

theorem State.lnkCtrlDone_follows {orig : State} (s : State) (p : Nat) (hyp : orig.Follows s) :
    orig.Follows (State.lnkCtrlDone s p) := by
  unfold State.lnkCtrlDone
  repeat' with_reducible first | assumption | apply State.foff_follows

theorem State.lnkPrbs_follows {orig : State} (s : State) (p : Nat) (hyp : orig.Follows s) :
    orig.Follows (State.lnkPrbs s p) := by
  unfold State.lnkPrbs
  repeat' first
    | (intro _)
    | with_reducible first | assumption | apply State.setPort_follows | apply State.retPrbsShow_follows | apply
      State.lnkGo_follows | apply State.lnkCtrlDone_follows
    | (simp only [State.Follows.mk_iff]; with_reducible apply State.Keeps.of)
    | split

theorem State.lnkFail_follows {orig : State} (s : State) (p : Nat) (runTime : Bool) (hyp : orig.Follows s) :
    orig.Follows (State.lnkFail s p runTime) := by
  unfold State.lnkFail
  repeat' with_reducible first | assumption | apply State.Follows.ite | apply State.event_follows |
      apply State.fatal_follows | apply State.fon_follows | apply State.lnkCtrlDone_follows |
      apply State.lnkFlushMsgs_follows | apply State.lnkGo_follows | apply State.lnkStopDelivery_follows |
      apply State.setPort_follows

theorem State.lnkAttemptFail_follows {orig : State} (s : State) (p : Nat) (hyp : orig.Follows s) :
    orig.Follows (State.lnkAttemptFail s p) := by
  unfold State.lnkAttemptFail
  repeat' with_reducible first | assumption | apply State.Follows.ite | apply State.fset_follows |
      apply State.lnkFail_follows | apply State.lnkFlushMsgs_follows | apply State.lnkGo_follows |
      apply State.lnkStopDelivery_follows | apply State.log_follows | apply State.setPort_follows

theorem State.lnkAfterCap_follows {orig : State} (s : State) (p : Nat) (hyp : orig.Follows s) :
    orig.Follows (State.lnkAfterCap s p) := by
  unfold State.lnkAfterCap
  repeat' first
    | (intro _)
    | with_reducible first | assumption | apply State.Follows.ite | apply State.fset_follows | apply State.lnkFail_follows | apply
      State.lnkSetSpeed_follows | apply State.lnkVerify_follows | apply State.setPort_follows | apply
      State.wr_follows | apply State.Follows.foldl
    | (simp only [State.Follows.mk_iff]; with_reducible apply State.Keeps.of)
    | split

theorem State.lnkSettle_follows {orig : State} (s : State) (p : Nat) (hyp : orig.Follows s) :
    orig.Follows (State.lnkSettle s p) := by
  unfold State.lnkSettle
  repeat' with_reducible first | assumption | apply State.Follows.ite | apply State.lnkAttemptFail_follows |
      apply State.lnkGo_follows | apply State.lnkQueue_follows | apply State.setPort_follows

theorem State.lnkStepDown_follows {orig : State} (s : State) (p : Nat) (hyp : orig.Follows s) :
    orig.Follows (State.lnkStepDown s p) := by
  unfold State.lnkStepDown
  repeat' with_reducible first | assumption | apply State.degradeOn_follows | apply State.lnkSetSpeed_follows |
      apply State.lnkStopDelivery_follows | apply State.raise_follows | apply State.setPort_follows

theorem State.lnkVerifyFail_follows {orig : State} (s : State) (p : Nat) (hyp : orig.Follows s) :
    orig.Follows (State.lnkVerifyFail s p) := by
  unfold State.lnkVerifyFail
  repeat' with_reducible first | assumption | apply State.Follows.ite | apply State.lnkAttemptFail_follows |
      apply State.lnkFail_follows | apply State.lnkSetSpeed_follows | apply State.lnkStepDown_follows |
      apply State.setPort_follows

theorem State.lnkRecover_follows {orig : State} (s : State) (p : Nat) (hyp : orig.Follows s) :
    orig.Follows (State.lnkRecover s p) := by
  unfold State.lnkRecover
  repeat' with_reducible first | assumption | apply State.Follows.ite | apply State.lnkBringup_follows |
      apply State.lnkFail_follows | apply State.lnkStopDelivery_follows | apply State.setPort_follows

theorem State.lnkStepCondition_follows {orig : State} (s : State) (p : Nat) (crc hears : Bool) (hyp : orig.Follows s)
  :
    orig.Follows (State.lnkStepCondition s p crc hears) := by
  unfold State.lnkStepCondition
  repeat' first
    | (intro _)
    | with_reducible first | assumption | apply State.Follows.ite | apply State.lnkFail_follows | apply
      State.lnkStepDown_follows | apply State.lnkRecover_follows
    | (simp only [State.Follows.mk_iff]; with_reducible apply State.Keeps.of)
    | split

theorem State.lnkAlignLost_follows {orig : State} (s : State) (p : Nat) (hyp : orig.Follows s) :
    orig.Follows (State.lnkAlignLost s p) := by
  unfold State.lnkAlignLost
  repeat' with_reducible first | assumption | apply State.condReady_follows | apply State.foff_follows |
      apply State.lnkRecover_follows | apply State.raise_follows

theorem State.lnkArm_follows {orig : State} (s0 : State) (p : Nat) (hyp : orig.Follows s0) :
    orig.Follows (State.lnkArm s0 p) := by
  unfold State.lnkArm
  repeat' first
    | (intro _)
    | with_reducible first | assumption | apply State.Follows.ite | apply State.foff_follows | apply
      State.setCch_follows | apply State.setPort_follows | apply State.lnkGo_follows | apply State.lnkQueue_follows |
      apply State.lnkFlushMsgs_follows | apply State.lnkBringup_follows | apply State.Follows.foldl
    | (simp only [State.Follows.mk_iff]; with_reducible apply State.Keeps.of)
    | split

/-! ### Conditioner -/

theorem execTapARelease_follows {orig : State} (channel : Fin 192) (s : State) (hyp : orig.Follows s) :
    orig.Ends (execTapARelease channel s) := by
  unfold execTapARelease
  repeat' first
    | (intro _)
    | with_reducible first | assumption | apply State.Ends.next | apply State.Follows.ite | apply
      State.statsCount_follows | apply State.setCch_follows | apply State.condition_follows
    | (simp only [State.Follows.mk_iff]; with_reducible apply State.Keeps.of)
    | split

theorem execCaptureRelease_follows {orig : State} (channel : Fin 192) (s : State) (hyp : orig.Follows s) :
    orig.Ends (execCaptureRelease channel s) := by
  unfold execCaptureRelease
  repeat' first
    | (intro _)
    | with_reducible first | assumption | apply State.Ends.next | apply State.Follows.ite |
      apply State.captureOut_follows | apply State.setCch_follows
    | (simp only [State.Follows.mk_iff]; with_reducible apply State.Keeps.of)
    | split

theorem execCoefScrub_follows {orig : State} (slice : Fin 24) (set : Fin 4) (word : Fin 256) (ue : Bool) (s : State)
    (hyp : orig.Follows s) :
    orig.Ends (execCoefScrub slice set word ue s) := by
  unfold execCoefScrub
  repeat' first
    | (intro _)
    | with_reducible first | assumption | apply State.Ends.next | apply State.Follows.ite |
      apply State.bitOn_follows | apply State.count_follows | apply State.event_follows |
      apply State.raise_follows
    | (simp only [State.Follows.mk_iff]; with_reducible apply State.Keeps.of)

theorem State.coefBreach_follows {orig : State} (s : State) (n : Nat) (value : BitVec 32) (hyp : orig.Follows s) :
    orig.Follows (State.coefBreach s n value) := by
  unfold State.coefBreach
  repeat' with_reducible first | assumption | apply State.Follows.ite | apply State.breached_follows

theorem State.coefPut_follows {orig : State} (s0 : State) (src : Src) (n m k : Nat) (value : Word) (hyp : orig.Follows
  s0) :
    orig.Follows (State.coefPut s0 src n m k value) := by
  unfold State.coefPut
  repeat' first
    | (intro _)
    | with_reducible first | assumption | apply State.Follows.ite | apply State.bitOff_follows | apply
      State.egReject_follows | apply State.egStored_follows | apply State.coefBreach_follows
    | (simp only [State.Follows.mk_iff]; with_reducible apply State.Keeps.of)
    | split

/-! ### PnlOps -/

theorem State.setOutput_follows {orig : State} (s : State) (o : Nat) (x : OutputSt) (hyp : orig.Follows s) :
    orig.Follows (State.setOutput s o x) := by
  unfold State.setOutput
  repeat' first
    | (intro _)
    | with_reducible first | assumption
    | (simp only [State.Follows.mk_iff]; with_reducible apply State.Keeps.of)

theorem State.trainEnd_follows {orig : State} (s : State) (o : Nat) (hyp : orig.Follows s) :
    orig.Follows (State.trainEnd s o) := by
  unfold State.trainEnd
  repeat' first
    | (intro _)
    | with_reducible first | assumption | apply State.bitOff_follows | apply State.setOutput_follows
    | (simp only [State.Follows.mk_iff]; with_reducible apply State.Keeps.of)
    | split

theorem State.trainFail_follows {orig : State} (s : State) (o : Nat) (hyp : orig.Follows s) :
    orig.Follows (State.trainFail s o) := by
  unfold State.trainFail
  repeat' first
    | (intro _)
    | with_reducible first | assumption | apply State.event_follows | apply State.trainEnd_follows
    | (simp only [State.Follows.mk_iff]; with_reducible apply State.Keeps.of)
    | split

theorem State.auxSend_follows {orig : State} (s : State) (o : Nat) (hyp : orig.Follows s) :
    orig.Follows (State.auxSend s o) := by
  unfold State.auxSend
  repeat' first
    | (intro _)
    | with_reducible first | assumption | apply State.Follows.ite | apply State.emit_follows | apply State.setOutput_follows | apply
      State.Follows.foldl
    | (simp only [State.Follows.mk_iff]; with_reducible apply State.Keeps.of)
    | split

theorem State.auxRelease_follows {orig : State} (s : State) (o : Nat) (hyp : orig.Follows s) :
    orig.Follows (State.auxRelease s o) := by
  unfold State.auxRelease
  repeat' with_reducible first | assumption | apply State.Follows.ite | apply State.auxSend_follows

theorem State.train_follows {orig : State} (s : State) (o : Nat) (hyp : orig.Follows s) :
    orig.Follows (State.train s o) := by
  unfold State.train
  repeat' first
    | with_reducible assumption
    | (intro x; refine State.Follows.cut (P := orig.Follows x) ?_ ?_; all_goals first | (intro _; clear_value x) | subst x)
    | (intro x; clear_value x)
    | (intro _)
    | with_reducible first | assumption | apply State.auxRelease_follows | apply State.foff_follows |
      apply State.setOutput_follows | apply State.trainFail_follows
    | (simp only [State.Follows.mk_iff]; with_reducible apply State.Keeps.of)
    | lift_lets
    | split
    | dsimp only

theorem State.palWrite_follows {orig : State} (s : State) (i v : Nat) (hyp : orig.Follows s) :
    orig.Follows (State.palWrite s i v) := by
  unfold State.palWrite
  repeat' first
    | (intro _)
    | with_reducible first | assumption | apply State.Follows.ite
    | (simp only [State.Follows.mk_iff]; with_reducible apply State.Keeps.of)

theorem State.imageReach_follows {orig : State} (s : State) (reads : Bool) (rows : List (Nat × Nat)) (hyp :
    orig.Follows s) :
    orig.Follows (State.imageReach s reads rows) := by
  unfold State.imageReach
  repeat' first
    | with_reducible assumption
    | (intro x; refine State.Follows.cut (P := orig.Follows x) ?_ ?_; all_goals first | (intro _; clear_value x) | subst x)
    | (intro x; clear_value x)
    | (intro _)
    | with_reducible first | assumption | apply State.badBurstAt_follows | apply State.hbmTouch_follows | apply
      State.holeAccess_follows | apply State.Follows.foldl
    | (simp only [State.Follows.mk_iff]; with_reducible apply State.Keeps.of)
    | lift_lets
    | split
    | dsimp only

theorem State.displaySwept_follows {orig : State} (s : State) (p : Nat) (hyp : orig.Follows s) :
    orig.Follows (State.displaySwept s p) := by
  unfold State.displaySwept
  repeat' first
    | with_reducible assumption
    | (intro x; refine State.Follows.cut (P := orig.Follows x) ?_ ?_; all_goals first | (intro _; clear_value x) | subst x)
    | (intro x; clear_value x)
    | (intro _)
    | with_reducible first | assumption | apply State.Follows.ite | apply State.hbmFill_follows | apply State.imageReach_follows |
      apply State.setOutput_follows | apply State.setSlot_follows | apply State.Follows.foldl
    | (simp only [State.Follows.mk_iff]; with_reducible apply State.Keeps.of)
    | lift_lets
    | split
    | dsimp only

theorem State.layersReach_follows {orig : State} (s : State) (o : Nat) (hyp : orig.Follows s) :
    orig.Follows (State.layersReach s o) := by
  unfold State.layersReach
  repeat' first
    | (intro _)
    | with_reducible first | assumption | apply State.imageReach_follows | apply State.Follows.foldl

theorem State.composeFrame_follows {orig : State} (s : State) (o : Nat) (hyp : orig.Follows s) :
    orig.Follows (State.composeFrame s o) := by
  unfold State.composeFrame
  repeat' first
    | (intro _)
    | with_reducible first | assumption | apply State.Follows.foldl
    | (simp only [State.Follows.mk_iff]; with_reducible apply State.Keeps.of)

theorem State.composeBegin_follows {orig : State} (s : State) (o : Nat) (hyp : orig.Follows s) :
    orig.Follows (State.composeBegin s o) := by
  unfold State.composeBegin
  repeat' first
    | (intro _)
    | with_reducible first | assumption | apply State.setOutput_follows | apply State.setSlot_follows |
      apply State.Follows.foldl

theorem State.rectCheck_follows {orig : State} (s : State) (o i : Nat) (hyp : orig.Follows s) :
    orig.Follows (State.rectCheck s o i) := by
  unfold State.rectCheck
  repeat' first
    | (intro _)
    | with_reducible first | assumption | apply State.Follows.ite | apply State.event_follows | apply State.wr_follows
    | (simp only [State.Follows.mk_iff]; with_reducible apply State.Keeps.of)
    | split

theorem State.commitFor_follows {orig : State} (s : State) (o : Nat) (hyp : orig.Follows s) :
    orig.Follows (State.commitFor s o) := by
  unfold State.commitFor
  repeat' first
    | (intro _)
    | with_reducible first | assumption | apply State.Follows.ite | apply State.count_follows |
      apply State.fon_follows | apply State.raise_follows | apply State.setOutput_follows
    | (simp only [State.Follows.mk_iff]; with_reducible apply State.Keeps.of)

theorem State.commitPal_follows {orig : State} (s : State) (hyp : orig.Follows s) :
    orig.Follows (State.commitPal s) := by
  unfold State.commitPal
  repeat' first
    | with_reducible assumption
    | (intro x; refine State.Follows.cut (P := orig.Follows x) ?_ ?_; all_goals first | (intro _; clear_value x) | subst x)
    | (intro x; clear_value x)
    | (intro _)
    | with_reducible first | assumption | apply State.Follows.ite | apply State.setOutput_follows |
      apply State.Follows.foldl
    | (simp only [State.Follows.mk_iff]; with_reducible apply State.Keeps.of)
    | lift_lets
    | split
    | dsimp only

theorem State.latchLayer_follows {orig : State} (s : State) (o k : Nat) (old new : Snapshot) (hyp : orig.Follows s) :
    orig.Follows (State.latchLayer s o k old new) := by
  unfold State.latchLayer
  repeat' with_reducible first | assumption | apply State.Follows.ite | apply State.setOutput_follows | apply State.setSlot_follows | apply
      State.wr_follows

theorem State.latch_follows {orig : State} (s : State) (o : Nat) (c : PendCommit) (hyp : orig.Follows s) :
    orig.Follows (State.latch s o c) := by
  unfold State.latch
  repeat' first
    | (intro _)
    | with_reducible first | assumption | apply State.foff_follows | apply State.latchLayer_follows |
      apply State.setOutput_follows | apply State.Follows.foldl

theorem State.flipRecord_follows {orig : State} (s : State) (o : Nat) (latched copied : Bool) (hyp : orig.Follows s) :
    orig.Follows (State.flipRecord s o latched copied) := by
  unfold State.flipRecord
  repeat' first
    | (intro _)
    | with_reducible first | assumption | apply State.Follows.ite | apply State.pushRecord_follows
    | split

theorem State.flip_follows {orig : State} (s : State) (o : Nat) (hyp : orig.Follows s) :
    orig.Follows (State.flip s o) := by
  unfold State.flip
  repeat' first
    | (intro _)
    | with_reducible first | assumption | apply State.Follows.ite | apply State.composeBegin_follows |
      apply State.flipRecord_follows | apply State.latch_follows | apply State.raise_follows |
      apply State.rectCheck_follows | apply State.setOutput_follows | apply State.setPair_follows |
      apply State.wr_follows | apply State.Follows.foldl
    | (simp only [State.Follows.mk_iff]; with_reducible apply State.Keeps.of)
    | split

theorem State.commitAges_follows {orig : State} (s : State) (o : Nat) (hyp : orig.Follows s) :
    orig.Follows (State.commitAges s o) := by
  unfold State.commitAges
  repeat' first
    | (intro _)
    | with_reducible first | assumption | apply State.setOutput_follows

theorem State.planesBlank_follows {orig : State} (s : State) (o : Nat) (hyp : orig.Follows s) :
    orig.Follows (State.planesBlank s o) := by
  unfold State.planesBlank
  repeat' first
    | (intro _)
    | with_reducible first | assumption | apply State.Follows.ite | apply State.planeBoundary_follows |
      apply State.Follows.foldl

theorem State.outputStop_follows {orig : State} (s : State) (o : Nat) (hyp : orig.Follows s) :
    orig.Follows (State.outputStop s o) := by
  unfold State.outputStop
  repeat' first
    | (intro _)
    | with_reducible first | assumption | apply State.Follows.ite | apply State.bitOff_follows |
      apply State.foff_follows | apply State.setOutput_follows

/-! ### Tapestry -/

theorem execFramePeriod_follows {orig : State} (plane : Fin 16) (s : State) (hyp : orig.Follows s) :
    orig.Ends (execFramePeriod plane s) := by
  unfold execFramePeriod
  repeat' first
    | (intro _)
    | with_reducible first | assumption | apply State.Ends.next | apply State.Follows.ite |
      apply State.planeBoundary_follows | apply State.setPlane_follows

theorem execTapFrame_follows {orig : State} (value : BitVec 16) (s : State) (hyp : orig.Follows s) :
    orig.Ends (execTapFrame value s) := by
  unfold execTapFrame
  repeat' first
    | (intro _)
    | with_reducible first | assumption | apply State.Ends.next | apply State.Follows.ite |
      apply State.planeBoundary_follows | apply State.Follows.foldl

theorem execTapClear_follows {orig : State} (value : BitVec 16) (s : State) (hyp : orig.Follows s) :
    orig.Ends (execTapClear value s) := by
  unfold execTapClear
  repeat' first
    | (intro _)
    | with_reducible first | assumption | apply State.Ends.next | apply State.Follows.ite |
      apply State.bitOn_follows | apply State.fon_follows | apply State.setPlane_follows |
      apply State.Follows.foldl

theorem execFrameClose_follows {orig : State} (plane : Fin 16) (s : State) (hyp : orig.Follows s) :
    orig.Ends (execFrameClose plane s) := by
  unfold execFrameClose
  repeat' first
    | (intro _)
    | with_reducible first | assumption | apply State.Ends.next | apply State.Follows.ite | apply State.planeClose_follows | apply
      State.planeEnd_follows
    | (simp only [State.Follows.mk_iff]; with_reducible apply State.Keeps.of)
    | split

theorem execSweepDone_follows {orig : State} (plane : Fin 16) (s : State) (hyp : orig.Follows s) :
    orig.Ends (execSweepDone plane s) := by
  unfold execSweepDone
  repeat' first
    | (intro _)
    | with_reducible first | assumption | apply State.Ends.next | apply State.Follows.ite | apply
      State.planeSwept_follows | apply State.displaySwept_follows
    | (simp only [State.Follows.mk_iff]; with_reducible apply State.Keeps.of)
    | split

theorem State.tapReady_follows {orig : State} (s : State) (hyp : orig.Follows s) :
    orig.Follows (State.tapReady s) := by
  unfold State.tapReady
  repeat' first
    | (intro _)
    | with_reducible first | assumption | apply State.Follows.ite | apply State.fset_follows

theorem execPlaneZeroDone_follows {orig : State} (plane : Fin 16) (s : State) (hyp : orig.Follows s) :
    orig.Ends (execPlaneZeroDone plane s) := by
  unfold execPlaneZeroDone
  repeat' first
    | (intro _)
    | with_reducible first | assumption | apply State.Ends.next | apply State.setPlane_follows | apply
      State.tapReady_follows
    | (simp only [State.Follows.mk_iff]; with_reducible apply State.Keeps.of)
    | split

/-! ### Records -/

theorem State.waveBegin_follows {orig : State} (s : State) (w : WaveRec) (hyp : orig.Follows s) :
    orig.Follows (State.waveBegin s w) := by
  unfold State.waveBegin
  repeat' with_reducible first | assumption | apply State.buildWaves_follows | apply State.waveAsk_follows

theorem execWaveformOpen_follows {orig : State} (shed : Fin 64) (s : State) (hyp : orig.Follows s) :
    orig.Ends (execWaveformOpen shed s) := by
  unfold execWaveformOpen
  repeat' first
    | (intro _)
    | with_reducible first | assumption | apply State.Ends.next | apply State.waveBegin_follows
    | split

theorem State.setSpecRecs_follows {orig : State} (s : State) (c : Nat) (xs : List SpecRec) (hyp : orig.Follows s) :
    orig.Follows (State.setSpecRecs s c xs) := by
  unfold State.setSpecRecs
  repeat' first
    | (intro _)
    | with_reducible first | assumption
    | (simp only [State.Follows.mk_iff]; with_reducible apply State.Keeps.of)

theorem State.specCloseOldest_follows {orig : State} (s : State) (c close : Nat) (hyp : orig.Follows s) :
    orig.Follows (State.specCloseOldest s c close) := by
  unfold State.specCloseOldest
  repeat' first
    | (intro _)
    | with_reducible first | assumption | apply State.setSpecRecs_follows | apply State.specClose_follows
    | split

theorem execSpectrumRecordTimeout_follows {orig : State} (channel : Fin 192) (s : State) (hyp : orig.Follows s) :
    orig.Ends (execSpectrumRecordTimeout channel s) := by
  unfold execSpectrumRecordTimeout
  repeat' first
    | (intro _)
    | with_reducible first | assumption | apply State.Ends.next | apply State.Follows.ite |
      apply State.specCloseOldest_follows
    | (simp only [State.Follows.mk_iff]; with_reducible apply State.Keeps.of)
    | split

theorem execSpectrumRecordClose_follows {orig : State} (channel : Fin 192) (s : State) (hyp : orig.Follows s) :
    orig.Ends (execSpectrumRecordClose channel s) := by
  unfold execSpectrumRecordClose
  repeat' first
    | (intro _)
    | with_reducible first | assumption | apply State.Ends.next | apply State.Follows.ite |
      apply State.specCloseOldest_follows
    | (simp only [State.Follows.mk_iff]; with_reducible apply State.Keeps.of)
    | split

theorem State.noteSuspect_follows {orig : State} (s : State) (input wt taken : Nat) (hyp : orig.Follows s) :
    orig.Follows (State.noteSuspect s input wt taken) := by
  unfold State.noteSuspect
  repeat' first
    | (intro _)
    | with_reducible first | assumption | apply State.Follows.ite
    | (simp only [State.Follows.mk_iff]; with_reducible apply State.Keeps.of)
    | split

theorem State.sidePopped_follows {orig : State} (s : State) (key len : Nat) (hyp : orig.Follows s) :
    orig.Follows (State.sidePopped s key len) := by
  unfold State.sidePopped
  extract_lets r
  have hr : orig.Follows r.1 := State.turnPop_follows _ _ _ hyp
  split
  · exact State.Follows.ite (State.setHfbIn_follows _ _ _ (State.setSide_follows _ _ _ hr)) (State.setSide_follows _ _ _ hr)
  · exact hr

theorem execSideEntry_follows {orig : State} (source : Fin 5) (unit : Fin 32) (parity : Bool) (s : State) (hyp :
  orig.Follows s) :
    orig.Ends (execSideEntry source unit parity s) := by
  unfold execSideEntry
  repeat' first
    | (intro _)
    | with_reducible first | assumption | apply State.Ends.next | apply State.Follows.ite | apply
      State.setSide_follows | apply State.event_follows | apply State.sideGather_follows | apply
      State.noteSuspect_follows | apply State.sidePopped_follows
    | (simp only [State.Follows.mk_iff]; with_reducible apply State.Keeps.of)
    | split

theorem execSideRecordHold_follows {orig : State} (source : Fin 5) (unit : Fin 32) (s : State) (hyp : orig.Follows
    s) :
    orig.Ends (execSideRecordHold source unit s) := by
  unfold execSideRecordHold
  repeat' with_reducible first | assumption | apply State.Ends.next | apply State.Follows.ite |
      apply State.sideClose_follows

theorem State.drainAll_follows {orig : State} (s : State) (hyp : orig.Follows s) :
    orig.Follows (State.drainAll s) := by
  unfold State.drainAll
  repeat' first
    | (intro _)
    | with_reducible first | assumption | apply State.Follows.ite | apply State.buildRaw_follows | apply State.chanDrain_follows |
      apply State.Follows.foldl
    | split

theorem State.runEndPush_follows {orig : State} (s : State) (k : Nat) (hyp : orig.Follows s) :
    orig.Follows (State.runEndPush s k) := by
  unfold State.runEndPush
  repeat' first
    | (intro _)
    | with_reducible first | assumption | apply State.Follows.ite | apply State.pushRecord_follows |
      apply State.raise_follows | apply State.runEnd_follows | apply State.setStream_follows

theorem execRunEndEmit_follows {orig : State} (stream : Fin 256) (s : State) (hyp : orig.Follows s) :
    orig.Ends (execRunEndEmit stream s) := by
  unfold execRunEndEmit
  repeat' with_reducible first | assumption | apply State.Ends.next | apply State.Follows.ite |
      apply State.drainAll_follows | apply State.runEnd_follows | apply State.runEndPush_follows

theorem execUserGo_follows {orig : State} (s : State) (hyp : orig.Follows s) :
    orig.Ends (execUserGo s) := by
  unfold execUserGo
  repeat' first
    | (intro _)
    | with_reducible first | assumption | apply State.Ends.next | apply State.Follows.ite | apply State.again_follows | apply
      State.fon_follows | apply State.took_follows
    | (simp only [State.Follows.mk_iff]; with_reducible apply State.Keeps.of)
    | split

theorem execUserCopyDone_follows {orig : State} (bad : List Nat) (s : State) (hyp : orig.Follows s) :
    orig.Ends (execUserCopyDone bad s) := by
  unfold execUserCopyDone
  repeat' first
    | (intro _)
    | with_reducible first | assumption | apply State.Ends.next | apply State.Follows.ite | apply State.fset_follows |
      apply State.foff_follows | apply State.raise_follows | apply State.pushRecord_follows | apply
      State.hbmTouch_follows | apply State.holeAccess_follows | apply State.badBurstAt_follows | apply
      State.badRead_follows | apply State.Follows.foldl
    | (simp only [State.Follows.mk_iff]; with_reducible apply State.Keeps.of)
    | split

theorem execQMaxRead_follows {orig : State} (quill : Fin 32) (tag : Nat) (s : State) (hyp : orig.Follows s) :
    orig.Ends (execQMaxRead quill tag s) := by
  unfold execQMaxRead
  repeat' with_reducible first | assumption | apply State.Ends.next | apply State.emit_follows | apply State.wr_follows

end Sys2Proof.Machine
end

