-- ==== Sys2Proof/Laws/Keeps4.lean ====
section
/-!
SUPPORT. Each operation and meaning of Skein, KeyOps, HnsOps, ShuOps, AbortOps, Linkai keeps what State.Follows says:
  one lemma for each, named after it.
-/

set_option linter.all false

namespace Sys2Proof.Machine

/-! ### Skein -/

theorem State.setEngine_follows {orig : State} (s : State) (k : Nat) (x : EngSt) (hyp : orig.Follows s) :
    orig.Follows (State.setEngine s k x) := by
  unfold State.setEngine
  repeat' first
    | (intro _)
    | with_reducible first | assumption | apply State.Follows.ite | apply State.fset_follows
    | (simp only [State.Follows.mk_iff]; with_reducible apply State.Keeps.of)

theorem State.quillPop_follows {orig : State} (s : State) (k : Nat) (parity : Bool) (p : Packet) (rest : List Packet)
  (hyp : orig.Follows s) :
    orig.Follows (State.quillPop s k parity p rest) := by
  unfold State.quillPop
  repeat' first
    | (intro _)
    | with_reducible first | assumption | apply State.Follows.ite | apply State.fon_follows | apply
      State.count_follows | apply State.took_follows | apply State.event_follows | apply State.setQuill_follows |
      apply State.quillRefill_follows | apply State.buildWaves_follows | apply State.Follows.foldl
    | (simp only [State.Follows.mk_iff]; with_reducible apply State.Keeps.of)
    | split

theorem State.skeinFallback_follows {orig : State} (s : State) (k : Nat) (h : FragHdr) (f : Nat × Nat) (hyp :
    orig.Follows s) :
    orig.Follows (State.skeinFallback s k h f) := by
  unfold State.skeinFallback
  repeat' with_reducible first | assumption | apply State.count_follows | apply State.event_follows

theorem State.skeinFail_follows {orig : State} (s : State) (k : Nat) (h : FragHdr) (f : Nat × Nat) (hyp :
    orig.Follows s) :
    orig.Follows (State.skeinFail s k h f) := by
  unfold State.skeinFail
  repeat' with_reducible first | assumption | apply State.countAbort_follows | apply State.fatal_follows |
      apply State.fon_follows

theorem State.skeinCount_follows {orig : State} (s : State) (k raw wire : Nat) (hyp : orig.Follows s) :
    orig.Follows (State.skeinCount s k raw wire) := by
  unfold State.skeinCount
  repeat' with_reducible first | assumption | apply State.count_follows | apply State.setEngine_follows

theorem State.skeinEmit_follows {orig : State} (s : State) (k : Nat) (h : FragHdr) (raw : Nat) (out : List Byte)
    (deflated : Bool) (flags : Nat) (hyp : orig.Follows s) :
    orig.Follows (State.skeinEmit s k h raw out deflated flags) := by
  unfold State.skeinEmit
  repeat' with_reducible first | assumption | apply State.Follows.ite | apply State.setEngine_follows |
      apply State.skeinCount_follows

theorem execSkeinPacket_follows {orig : State} (engine : Fin 32) (upset again : Option (List (BitVec 8))) (parity : Bool)
    (s : State) (hyp : orig.Follows s) : orig.Ends (execSkeinPacket engine upset again parity s) := by
  unfold execSkeinPacket
  extract_lets k
  apply State.Ends.next
  split
  · exact hyp
  · rename_i p rest _
    extract_lets s1 poison s2 note s3 flags form out
    refine State.Follows.ite hyp ?_
    have h1 : orig.Follows s1 := State.quillPop_follows _ _ _ _ _ hyp
    have h2 : orig.Follows s2 := State.Follows.ite (State.event_follows _ _ _ _ _ _ _ h1) h1
    have h3 : orig.Follows s3 := State.setEngine_follows _ _ _ h2
    refine State.Follows.ite h1 ?_
    split
    · exact State.skeinEmit_follows _ _ _ _ _ _ _ h3
    · rename_i f _
      extract_lets s4 stored
      have h4 : orig.Follows s4 := State.skeinFallback_follows _ _ _ _ h3
      split
      · exact State.skeinFail_follows _ _ _ _ (State.skeinCount_follows _ _ _ _ h4)
      · exact State.skeinEmit_follows _ _ _ _ _ _ _ h4

theorem State.setDec_follows {orig : State} (s : State) (d : Nat) (x : Option DecSt) (hyp : orig.Follows s) :
    orig.Follows (State.setDec s d x) := by
  unfold State.setDec
  repeat' first
    | (intro _)
    | with_reducible first | assumption
    | (simp only [State.Follows.mk_iff]; with_reducible apply State.Keeps.of)

theorem State.decEnd_follows {orig : State} (s : State) (d code outLen used : Nat) (hyp : orig.Follows s) :
    orig.Follows (State.decEnd s d code outLen used) := by
  unfold State.decEnd
  repeat' with_reducible first | assumption | apply State.Follows.ite | apply State.foff_follows |
      apply State.fset_follows | apply State.raise_follows | apply State.setDec_follows | apply State.wr_follows

theorem execDecGo_follows {orig : State} (dec : Fin 4) (s : State) (hyp : orig.Follows s) :
    orig.Ends (execDecGo dec s) := by
  unfold execDecGo
  repeat' with_reducible first | assumption | apply State.Ends.next | apply State.Follows.ite |
      apply State.decEnd_follows | apply State.fon_follows | apply State.setDec_follows

theorem State.decWrite_follows {orig : State} (s : State) (x : DecSt) (out : List Byte) (hyp : orig.Follows s) :
    orig.Follows (State.decWrite s x out) := by
  unfold State.decWrite
  repeat' with_reducible first | assumption | apply State.Follows.ite | apply State.hbmFill_follows

theorem State.decRead_follows {orig : State} (s : State) (x : DecSt) (ue : Option Nat) (code used : Nat) (hyp :
  orig.Follows s) :
    orig.Follows (State.decRead s x ue code used) := by
  unfold State.decRead
  repeat' first
    | (intro _)
    | with_reducible first | assumption | apply State.Follows.ite | apply State.hbmTouch_follows | apply
      State.badBurstAt_follows | apply State.badRead_follows
    | (simp only [State.Follows.mk_iff]; with_reducible apply State.Keeps.of)
    | split

theorem State.decHole_follows {orig : State} (s : State) (x : DecSt) (code : Nat) (hyp : orig.Follows s) :
    orig.Follows (State.decHole s x code) := by
  unfold State.decHole
  repeat' first
    | with_reducible assumption
    | (intro x; refine State.Follows.cut (P := orig.Follows x) ?_ ?_; all_goals first | (intro _; clear_value x) | subst x)
    | (intro x; clear_value x)
    | (intro _)
    | with_reducible first | assumption | apply State.Follows.ite | apply State.holeAccess_follows
    | (simp only [State.Follows.mk_iff]; with_reducible apply State.Keeps.of)
    | lift_lets
    | split
    | dsimp only

theorem execDecStop_follows {orig : State} (dec : Fin 4) (s : State) (hyp : orig.Follows s) :
    orig.Ends (execDecStop dec s) := by
  unfold execDecStop
  repeat' first
    | (intro _)
    | with_reducible first | assumption | apply State.Ends.next | apply State.decEnd_follows |
      apply State.decWrite_follows | apply State.took_follows
    | (simp only [State.Follows.mk_iff]; with_reducible apply State.Keeps.of)
    | split

theorem execDecDone_follows {orig : State} (dec : Fin 4) (ue : Option Nat) (s : State) (hyp : orig.Follows s) :
    orig.Ends (execDecDone dec ue s) := by
  unfold execDecDone
  repeat' first
    | (intro _)
    | with_reducible first | assumption | apply State.Ends.next | apply State.decEnd_follows | apply State.decHole_follows | apply
      State.decRead_follows | apply State.decWrite_follows
    | split

/-! ### KeyOps -/

theorem State.setSession_follows {orig : State} (s : State) (p : Nat) (x : Session) (hyp : orig.Follows s) :
    orig.Follows (State.setSession s p x) := by
  unfold State.setSession
  repeat' first
    | (intro _)
    | with_reducible first | assumption | apply State.Follows.ite | apply State.wr_follows
    | (simp only [State.Follows.mk_iff]; with_reducible apply State.Keeps.of)

theorem State.deriveRun_follows {orig : State} (s : State) (p : Nat) (hyp : orig.Follows s) :
    orig.Follows (State.deriveRun s p) := by
  unfold State.deriveRun
  repeat' first
    | (intro _)
    | with_reducible first | assumption | apply State.Follows.ite | apply State.raise_follows | apply
      State.setSession_follows
    | (simp only [State.Follows.mk_iff]; with_reducible apply State.Keeps.of)
    | split

theorem State.dropUnder_follows {orig : State} (s : State) (keys : List Nat) (hyp : orig.Follows s) :
    orig.Follows (State.dropUnder s keys) := by
  unfold State.dropUnder
  repeat' first
    | (intro _)
    | with_reducible first | assumption | apply State.Follows.ite | apply State.countAbort_follows |
      apply State.setEngine_follows | apply State.Follows.foldl

theorem State.keyUsed_follows {orig : State} (s : State) (p key : Nat) (hyp : orig.Follows s) :
    orig.Follows (State.keyUsed s p key) := by
  unfold State.keyUsed
  repeat' first
    | (intro _)
    | with_reducible first | assumption | apply State.Follows.ite | apply State.setSession_follows
    | (simp only [State.Follows.mk_iff]; with_reducible apply State.Keeps.of)
    | split

theorem State.keysGone_follows {orig : State} (s : State) (p : Nat) (hyp : orig.Follows s) :
    orig.Follows (State.keysGone s p) := by
  unfold State.keysGone
  repeat' first
    | (intro _)
    | with_reducible first | assumption | apply State.Follows.ite | apply State.dropUnder_follows | apply State.setSession_follows
    | (simp only [State.Follows.mk_iff]; with_reducible apply State.Keeps.of)
    | split

theorem State.brdEnd_follows {orig : State} (s : State) (result : Nat) (hyp : orig.Follows s) :
    orig.Follows (State.brdEnd s result) := by
  unfold State.brdEnd
  repeat' with_reducible first | assumption | apply State.foff_follows | apply State.fset_follows |
      apply State.raise_follows

theorem State.portKeysReset_follows {orig : State} (s : State) (p : Nat) (hyp : orig.Follows s) :
    orig.Follows (State.portKeysReset s p) := by
  unfold State.portKeysReset
  repeat' first
    | (intro _)
    | with_reducible first | assumption | apply State.Follows.ite | apply State.brdEnd_follows |
      apply State.keysGone_follows | apply State.wr_follows

/-! ### HnsOps -/

theorem State.setHport_follows {orig : State} (s : State) (p : Nat) (x : PPort) (hyp : orig.Follows s) :
    orig.Follows (State.setHport s p x) := by
  unfold State.setHport
  repeat' first
    | (intro _)
    | with_reducible first | assumption
    | (simp only [State.Follows.mk_iff]; with_reducible apply State.Keeps.of)

theorem State.setPring_follows {orig : State} (s : State) (p r : Nat) (x : PRing) (hyp : orig.Follows s) :
    orig.Follows (State.setPring s p r x) := by
  unfold State.setPring
  repeat' first
    | (intro _)
    | with_reducible first | assumption | apply State.setHport_follows

theorem State.setPageWord_follows {orig : State} (s : State) (p off : Nat) (v : Word) (hyp : orig.Follows s) :
    orig.Follows (State.setPageWord s p off v) := by
  unfold State.setPageWord
  repeat' with_reducible first | assumption | apply State.setHport_follows

theorem State.portRefuse_follows {orig : State} (s : State) (p : Nat) (hyp : orig.Follows s) :
    orig.Follows (State.portRefuse s p) := by
  unfold State.portRefuse
  repeat' with_reducible first | assumption | apply State.count_follows

theorem State.sendWrites_follows {orig : State} (s : State) (p : Nat) (ws : List (Nat × List Byte)) (hyp :
  orig.Follows s) :
    orig.Follows (State.sendWrites s p ws) := by
  unfold State.sendWrites
  repeat' first
    | (intro _)
    | with_reducible first | assumption | apply State.emit_follows | apply State.Follows.foldl
    | (simp only [State.Follows.mk_iff]; with_reducible apply State.Keeps.of)
    | split

theorem State.partnerPut_follows {orig : State} (s : State) (p addr : Nat) (bytes : List Byte) (n : Nat) (hyp :
  orig.Follows s) :
    orig.Follows (State.partnerPut s p addr bytes n) := by
  unfold State.partnerPut
  repeat' first
    | (intro _)
    | with_reducible first | assumption | apply State.sendWrites_follows
    | (simp only [State.Follows.mk_iff]; with_reducible apply State.Keeps.of)
    | split

theorem State.partnerGet_follows {orig : State} (s : State) (p bus n fuel : Nat) (hyp : orig.Follows s) :
    orig.Follows (s.partnerGet p bus n fuel) := by
  induction fuel generalizing s bus n with
  | zero => exact hyp
  | succ fuel ih =>
    unfold State.partnerGet
    exact State.Follows.ite hyp (ih _ _ _ (State.emit_follows _ _ hyp))

theorem State.ringDue_follows {orig : State} (s : State) (p r : Nat) (hyp : orig.Follows s) :
    orig.Follows (State.ringDue s p r) := by
  unfold State.ringDue
  repeat' with_reducible first | assumption | apply State.Follows.ite | apply State.setPring_follows

theorem State.ringStall_follows {orig : State} (s : State) (p r : Nat) (hyp : orig.Follows s) :
    orig.Follows (State.ringStall s p r) := by
  unfold State.ringStall
  repeat' first
    | (intro _)
    | with_reducible first | assumption | apply State.Follows.ite | apply State.count_follows |
      apply State.fon_follows | apply State.raise_follows | apply State.ringDue_follows |
      apply State.setPring_follows
    | (simp only [State.Follows.mk_iff]; with_reducible apply State.Keeps.of)

theorem State.ringResume_follows {orig : State} (s : State) (p r : Nat) (hyp : orig.Follows s) :
    orig.Follows (State.ringResume s p r) := by
  unfold State.ringResume
  repeat' first
    | (intro _)
    | with_reducible first | assumption | apply State.Follows.ite | apply State.foff_follows

theorem State.portResume_follows {orig : State} (s : State) (p : Nat) (hyp : orig.Follows s) :
    orig.Follows (State.portResume s p) := by
  unfold State.portResume
  repeat' first
    | (intro _)
    | with_reducible first | assumption | apply State.ringResume_follows | apply State.Follows.foldl

theorem State.partDrop_follows {orig : State} (s : State) (p e : Nat) (hyp : orig.Follows s) :
    orig.Follows (State.partDrop s p e) := by
  unfold State.partDrop
  repeat' first
    | (intro _)
    | with_reducible first | assumption | apply State.setEngine_follows | apply State.setHport_follows
    | (simp only [State.Follows.mk_iff]; with_reducible apply State.Keeps.of)
    | split

theorem State.ringLoss_follows {orig : State} (s : State) (p r : Nat) (hyp : orig.Follows s) :
    orig.Follows (State.ringLoss s p r) := by
  unfold State.ringLoss
  extract_lets x part n wr lostBytes s0 s1 s2 s3 recs all
  have hp : ∀ q : Option (Nat × Nat × Nat), orig.Follows (match q with
      | some e => s.partDrop p e.1
      | none => s) := by
    intro q
    cases q with
    | none => exact hyp
    | some e => exact State.partDrop_follows _ _ _ hyp
  have h0 : orig.Follows s0 := hp part
  have h1 : orig.Follows s1 := State.setPair_follows _ _ _ _ (State.setPring_follows _ _ _ _ h0)
  have h2 : orig.Follows s2 := State.Follows.ite h1 (State.foff_follows _ _ _ h1)
  have h3 : orig.Follows s3 :=
    State.event_follows _ _ _ _ _ _ _ (State.fon_follows _ _ _ (State.count_follows _ _ _ h2))
  exact State.Follows.ite h2 (State.Follows.foldl (fun x e hx => State.countAbort_follows _ _ hx) h3 _)

theorem State.portLoss_follows {orig : State} (s : State) (p : Nat) (hyp : orig.Follows s) :
    orig.Follows (State.portLoss s p) := by
  unfold State.portLoss
  repeat' first
    | (intro _)
    | with_reducible first | assumption | apply State.ringLoss_follows | apply State.Follows.foldl

theorem State.portStall_follows {orig : State} (s : State) (p : Nat) (hyp : orig.Follows s) :
    orig.Follows (State.portStall s p) := by
  unfold State.portStall
  repeat' first
    | (intro _)
    | with_reducible first | assumption | apply State.Follows.ite | apply State.ringStall_follows |
      apply State.Follows.foldl

theorem State.ringIdle_follows {orig : State} (s : State) (p r : Nat) (hyp : orig.Follows s) :
    orig.Follows (State.ringIdle s p r) := by
  unfold State.ringIdle
  repeat' first
    | (intro _)
    | with_reducible first | assumption | apply State.Follows.ite | apply State.foff_follows | apply
      State.ringStall_follows
    | (simp only [State.Follows.mk_iff]; with_reducible apply State.Keeps.of)
    | split

theorem State.ringsIdle_follows {orig : State} (s before : State) (p : Nat) (hyp : orig.Follows s) :
    orig.Follows (State.ringsIdle s before p) := by
  unfold State.ringsIdle
  repeat' first
    | (intro _)
    | with_reducible first | assumption | apply State.Follows.ite | apply State.fon_follows | apply
      State.ringIdle_follows | apply State.Follows.foldl
    | (simp only [State.Follows.mk_iff]; with_reducible apply State.Keeps.of)
    | split

theorem State.portPageReset_follows {orig : State} (s : State) (p : Nat) (hyp : orig.Follows s) :
    orig.Follows (State.portPageReset s p) := by
  unfold State.portPageReset
  repeat' first
    | (intro _)
    | with_reducible first | assumption | apply State.wr_follows | apply State.setPair_follows | apply
      State.turnCalm_follows | apply State.portKeysReset_follows | apply State.setHport_follows | apply
      State.ringsIdle_follows | apply State.Follows.foldl
    | (simp only [State.Follows.mk_iff]; with_reducible apply State.Keeps.of)
    | split

theorem State.portApply_follows {orig : State} (s : State) (p : Nat) (hyp : orig.Follows s) :
    orig.Follows (State.portApply s p) := by
  unfold State.portApply
  repeat' with_reducible first | assumption | apply State.setHport_follows

theorem State.linkFell_follows {orig : State} (s : State) (p : Nat) (hyp : orig.Follows s) :
    orig.Follows (State.linkFell s p) := by
  unfold State.linkFell
  repeat' first
    | (intro _)
    | with_reducible first | assumption | apply State.Follows.ite | apply State.fatal_follows |
      apply State.raise_follows

theorem State.pageLatch_follows {orig : State} (s : State) (p off : Nat) (hyp : orig.Follows s) :
    orig.Follows (State.pageLatch s p off) := by
  unfold State.pageLatch
  repeat' first
    | (intro _)
    | with_reducible first | assumption | apply State.Follows.ite | apply State.setHport_follows

theorem State.ringFields_follows {orig : State} (s : State) (p r : Nat) (v : Word) (hyp : orig.Follows s) :
    orig.Follows (State.ringFields s p r v) := by
  unfold State.ringFields
  repeat' with_reducible first | assumption | apply State.fset_follows

theorem State.ringBad_follows {orig : State} (s : State) (p r : Nat) (hyp : orig.Follows s) :
    orig.Follows (State.ringBad s p r) := by
  unfold State.ringBad
  repeat' with_reducible first | assumption | apply State.setPring_follows

theorem State.ringBegin_follows {orig : State} (s : State) (p r : Nat) (hyp : orig.Follows s) :
    orig.Follows (State.ringBegin s p r) := by
  unfold State.ringBegin
  repeat' with_reducible first | assumption | apply State.Follows.ite | apply State.fon_follows |
      apply State.ringResume_follows | apply State.ringStall_follows | apply State.setPageWord_follows |
      apply State.setPair_follows | apply State.setPring_follows

theorem State.ringCfgWrite_follows {orig : State} (s : State) (p r : Nat) (v : Word) (hyp : orig.Follows s) :
    orig.Follows (State.ringCfgWrite s p r v) := by
  unfold State.ringCfgWrite
  repeat' first
    | with_reducible assumption
    | (intro x; refine State.Follows.cut (P := orig.Follows x) ?_ ?_; all_goals first | (intro _; clear_value x) | subst x)
    | (intro x; clear_value x)
    | (intro _)
    | with_reducible first | assumption | apply State.Follows.ite | apply State.foff_follows | apply State.fset_follows | apply
      State.ringBad_follows | apply State.ringBegin_follows | apply State.ringDue_follows | apply
      State.ringFields_follows | apply State.ringStall_follows
    | (simp only [State.Follows.mk_iff]; with_reducible apply State.Keeps.of)
    | lift_lets
    | split
    | dsimp only

theorem State.ringRdWrite_follows {orig : State} (s : State) (p r : Nat) (hi : Word) (hyp : orig.Follows s) :
    orig.Follows (State.ringRdWrite s p r hi) := by
  unfold State.ringRdWrite
  repeat' first
    | (intro _)
    | with_reducible first | assumption | apply State.Follows.ite | apply State.event_follows |
      apply State.fon_follows | apply State.ringResume_follows | apply State.setPageWord_follows |
      apply State.setPair_follows
    | (simp only [State.Follows.mk_iff]; with_reducible apply State.Keeps.of)

theorem State.doorbell_follows {orig : State} (s : State) (p : Nat) (v : Half) (hyp : orig.Follows s) :
    orig.Follows (State.doorbell s p v) := by
  unfold State.doorbell
  repeat' first
    | (intro _)
    | with_reducible first | assumption | apply State.Follows.ite | apply State.raise_follows | apply State.setHport_follows | apply
      State.turnPush_follows | apply State.turnWait_follows
    | (simp only [State.Follows.mk_iff]; with_reducible apply State.Keeps.of)
    | split

theorem State.doorRefusal_follows {orig : State} (s : State) (p : Nat) (hyp : orig.Follows s) :
    orig.Follows (State.doorRefusal s p) := by
  unfold State.doorRefusal
  repeat' first
    | (intro _)
    | with_reducible first | assumption | apply State.raise_follows | apply State.setHport_follows
    | (simp only [State.Follows.mk_iff]; with_reducible apply State.Keeps.of)

theorem State.msixOne_follows {orig : State} (s : State) (p v : Nat) (hyp : orig.Follows s) :
    orig.Follows (State.msixOne s p v) := by
  unfold State.msixOne
  repeat' first
    | (intro _)
    | with_reducible first | assumption | apply State.Follows.ite | apply State.emit_follows | apply
      State.setHport_follows
    | (simp only [State.Follows.mk_iff]; with_reducible apply State.Keeps.of)
    | split

theorem State.msixFlush_follows {orig : State} (s : State) (p : Nat) (hyp : orig.Follows s) :
    orig.Follows (State.msixFlush s p) := by
  unfold State.msixFlush
  repeat' first
    | (intro _)
    | with_reducible first | assumption | apply State.Follows.ite | apply State.msixOne_follows |
      apply State.Follows.foldl

theorem State.notifyNow_follows {orig : State} (s : State) (p r : Nat) (hyp : orig.Follows s) :
    orig.Follows (State.notifyNow s p r) := by
  unfold State.notifyNow
  repeat' with_reducible first | assumption | apply State.Follows.ite | apply State.setPring_follows

theorem State.ringPageWrite_follows {orig : State} (s : State) (p r o : Nat) (v : Word) (hyp : orig.Follows s) :
    orig.Follows (State.ringPageWrite s p r o v) := by
  unfold State.ringPageWrite
  repeat' with_reducible first | assumption | apply State.Follows.ite | apply State.foff_follows |
      apply State.notifyNow_follows | apply State.ringBad_follows | apply State.ringCfgWrite_follows |
      apply State.ringRdWrite_follows | apply State.setPageWord_follows | apply State.setPring_follows |
      apply State.wr_follows

theorem State.pageWrite_follows {orig : State} (s : State) (p off : Nat) (v : Word) (hyp : orig.Follows s) :
    orig.Follows (State.pageWrite s p off v) := by
  unfold State.pageWrite
  repeat' with_reducible first | assumption | apply State.Follows.ite | apply State.doorbell_follows |
      apply State.msixFlush_follows | apply State.ringPageWrite_follows | apply State.setHport_follows |
      apply State.setPageWord_follows

/-! ### ShuOps -/

theorem State.setCore_follows {orig : State} (s : State) (n : Nat) (c : CoreSt) (hyp : orig.Follows s) :
    orig.Follows (State.setCore s n c) := by
  unfold State.setCore
  repeat' first
    | (intro _)
    | with_reducible first | assumption
    | (simp only [State.Follows.mk_iff]; with_reducible apply State.Keeps.of)

theorem State.partOffer_follows {orig : State} (s : State) (n : Nat) (p : Part) (hyp : orig.Follows s) :
    orig.Follows (State.partOffer s n p) := by
  unfold State.partOffer
  repeat' with_reducible first | assumption | apply State.count_follows | apply State.fon_follows |
      apply State.setCore_follows

theorem State.waveEndPart_follows {orig : State} (s : State) (n shed fired : Nat) (feat : Option (List Half))
    (noFeature veto : Bool) (hyp : orig.Follows s) :
    orig.Follows (State.waveEndPart s n shed fired feat noFeature veto) := by
  unfold State.waveEndPart
  repeat' first
    | (intro _)
    | with_reducible first | assumption | apply State.Follows.ite | apply State.countVeto_follows |
      apply State.mapWaves_follows | apply State.Follows.foldl
    | (simp only [State.Follows.mk_iff]; with_reducible apply State.Keeps.of)

theorem State.partEnd_follows {orig : State} (s : State) (n : Nat) (feat : Option (List Half)) (noFeature veto :
    Bool) (hyp : orig.Follows s) :
    orig.Follows (State.partEnd s n feat noFeature veto) := by
  unfold State.partEnd
  repeat' first
    | with_reducible assumption
    | (intro x; refine State.Follows.cut (P := orig.Follows x) ?_ ?_; all_goals first | (intro _; clear_value x) | subst x)
    | (intro x; clear_value x)
    | (intro _)
    | with_reducible first | assumption | apply State.foff_follows | apply State.partOffer_follows |
      apply State.setCore_follows | apply State.waveEndPart_follows
    | (simp only [State.Follows.mk_iff]; with_reducible apply State.Keeps.of)
    | lift_lets
    | split
    | dsimp only

theorem State.verdictStale_follows {orig : State} (s : State) (n : Nat) (hyp : orig.Follows s) :
    orig.Follows (State.verdictStale s n) := by
  unfold State.verdictStale
  repeat' with_reducible first | assumption | apply State.count_follows | apply State.raise_follows

theorem State.partBypass_follows {orig : State} (s : State) (n shed fired : Nat) (hyp : orig.Follows s) :
    orig.Follows (State.partBypass s n shed fired) := by
  unfold State.partBypass
  repeat' with_reducible first | assumption | apply State.count_follows | apply State.raise_follows |
      apply State.waveEndPart_follows

theorem State.partsBypass_follows {orig : State} (s : State) (n : Nat) (hyp : orig.Follows s) :
    orig.Follows (State.partsBypass s n) := by
  unfold State.partsBypass
  repeat' first
    | with_reducible assumption
    | (intro x; refine State.Follows.cut (P := orig.Follows x) ?_ ?_; all_goals first | (intro _; clear_value x) | subst x)
    | (intro x; clear_value x)
    | (intro _)
    | with_reducible first | assumption | apply State.foff_follows | apply State.partBypass_follows |
      apply State.setCore_follows
    | (simp only [State.Follows.mk_iff]; with_reducible apply State.Keeps.of)
    | lift_lets
    | split
    | dsimp only

theorem State.coreHalt_follows {orig : State} (s : State) (n : Nat) (hyp : orig.Follows s) :
    orig.Follows (State.coreHalt s n) := by
  unfold State.coreHalt
  repeat' first
    | (intro _)
    | with_reducible first | assumption | apply State.bitOff_follows | apply State.foff_follows |
      apply State.fon_follows | apply State.partsBypass_follows | apply State.raise_follows |
      apply State.setCore_follows | apply State.wr_follows
    | (simp only [State.Follows.mk_iff]; with_reducible apply State.Keeps.of)

theorem State.coreRun_follows {orig : State} (s : State) (n : Nat) (hyp : orig.Follows s) :
    orig.Follows (State.coreRun s n) := by
  unfold State.coreRun
  repeat' with_reducible first | assumption | apply State.foff_follows

theorem State.coreStop_follows {orig : State} (s : State) (n : Nat) (hyp : orig.Follows s) :
    orig.Follows (State.coreStop s n) := by
  unfold State.coreStop
  repeat' with_reducible first | assumption | apply State.Follows.ite | apply State.coreHalt_follows | apply State.coreRun_follows

theorem State.coreFault_follows {orig : State} (s : State) (n cause : Nat) (code : Option Nat) (hyp : orig.Follows s)
    :
    orig.Follows (State.coreFault s n cause code) := by
  unfold State.coreFault
  repeat' first
    | with_reducible assumption
    | (intro x; refine State.Follows.cut (P := orig.Follows x) ?_ ?_; all_goals first | (intro _; clear_value x) | subst x)
    | (intro x; clear_value x)
    | (intro _)
    | with_reducible first | assumption | apply State.coreStop_follows | apply State.event_follows | apply State.fon_follows | apply
      State.took_follows | apply State.wr_follows
    | (simp only [State.Follows.mk_iff]; with_reducible apply State.Keeps.of)
    | lift_lets
    | split
    | dsimp only

theorem State.coreNext_follows {orig : State} (s : State) (n op cycles : Nat) (dest : Option Nat) (old : CoreSt) (hyp
  : orig.Follows s) :
    orig.Follows (State.coreNext s n op cycles dest old) := by
  unfold State.coreNext
  repeat' first
    | (intro _)
    | with_reducible first | assumption | apply State.Follows.ite | apply State.wr_follows | apply State.foff_follows
      | apply State.count_follows | apply State.took_follows | apply State.breached_follows | apply
      State.setCore_follows | apply State.coreHalt_follows | apply State.coreStop_follows
    | (simp only [State.Follows.mk_iff]; with_reducible apply State.Keeps.of)
    | split

theorem State.shuRun_follows {orig : State} (s : State) (n : Nat) (isOp : Nat → Bool) (ecc : Ecc) (body : State → Word → ShuRes)
    (hyp : orig.Follows s) (hb : ∀ t w, orig.Follows t → orig.Gives (body t w)) :
    orig.Follows (State.shuRun s n isOp ecc body) := by
  unfold State.shuRun
  extract_lets c w op brk s0
  refine State.Follows.ite hyp ?_
  have h0 : orig.Follows s0 := State.Follows.ite (State.raise_follows _ _ _ (State.count_follows _ _ _ hyp)) hyp
  refine State.Follows.ite (State.coreFault_follows _ _ _ _ h0) (State.Follows.ite ?_ (State.Follows.ite
    (State.coreFault_follows _ _ _ _ h0) (State.Follows.ite (State.coreFault_follows _ _ _ _ h0) ?_)))
  · exact State.coreFault_follows _ _ _ _ (State.setCore_follows _ _ _ h0)
  · split
    · rename_i h
      exact State.coreNext_follows _ _ _ _ _ _ ((hb _ _ h0).done_follows _ _ _ h)
    · rename_i h
      exact State.coreFault_follows _ _ _ _ ((hb _ _ h0).fault_follows _ _ _ h)

theorem onCore_follows {orig : State} (n : Nat) (f : CoreSt → Word → CoreSt) (t : State) (w : Word) (hyp : orig.Follows t) :
    orig.Gives (onCore n f t w) :=
  State.Gives.done (State.setCore_follows _ _ _ hyp)

/-! ### AbortOps -/

theorem State.markerAgain_follows {orig : State} (s : State) (k : Nat) (numbered : Bool) (hyp : orig.Follows s) :
    orig.Follows (State.markerAgain s k numbered) := by
  unfold State.markerAgain
  repeat' first
    | (intro _)
    | with_reducible first | assumption | apply State.Follows.ite | apply State.runEnd_follows | apply State.setStream_follows | apply
      State.wr_follows
    | (simp only [State.Follows.mk_iff]; with_reducible apply State.Keeps.of)
    | split

theorem State.quillEmpty_follows {orig : State} (s : State) (k : Nat) (hyp : orig.Follows s) :
    orig.Follows (State.quillEmpty s k) := by
  unfold State.quillEmpty
  repeat' first
    | (intro _)
    | with_reducible first | assumption | apply State.Follows.ite | apply State.setQuill_follows
    | (simp only [State.Follows.mk_iff]; with_reducible apply State.Keeps.of)
    | split

theorem State.engineEmpty_follows {orig : State} (s : State) (k : Nat) (hyp : orig.Follows s) :
    orig.Follows (State.engineEmpty s k) := by
  unfold State.engineEmpty
  repeat' first
    | (intro _)
    | with_reducible first | assumption | apply State.Follows.ite | apply State.setEngine_follows
    | (simp only [State.Follows.mk_iff]; with_reducible apply State.Keeps.of)
    | split

theorem State.partsDiscard_follows {orig : State} (s : State) (n : Nat) (hyp : orig.Follows s) :
    orig.Follows (State.partsDiscard s n) := by
  unfold State.partsDiscard
  repeat' with_reducible first | assumption | apply State.Follows.ite | apply State.foff_follows |
      apply State.setCore_follows

theorem State.sweepSilent_follows {orig : State} (s : State) (p : Nat) (hyp : orig.Follows s) :
    orig.Follows (State.sweepSilent s p) := by
  unfold State.sweepSilent
  repeat' first
    | (intro _)
    | with_reducible first | assumption | apply State.Follows.ite | apply State.setPlane_follows
    | (simp only [State.Follows.mk_iff]; with_reducible apply State.Keeps.of)
    | split

theorem State.abortDiscard_follows {orig : State} (s : State) (hyp : orig.Follows s) :
    orig.Follows (State.abortDiscard s) := by
  unfold State.abortDiscard
  extract_lets numbered lost src s1 s2 s3 s3b s3c s4 again s5 s6
  have h1 : orig.Follows s1 := State.Follows.upd hyp rfl rfl rfl rfl rfl rfl
  have h2 : orig.Follows s2 := State.fon_follows _ _ _ (State.foff_follows _ _ _ h1)
  have h3 : orig.Follows s3 := State.Follows.foldl
    (fun x k hx => State.engineEmpty_follows _ _ (State.quillEmpty_follows _ _ hx)) h2 _
  have h3b : orig.Follows s3b := State.Follows.foldl (fun x p hx => State.sweepSilent_follows _ _ hx) h3 _
  have h3c : orig.Follows s3c := State.Follows.foldl
    (fun x p hx => State.Follows.ite (State.setHport_follows _ _ _ hx) hx) h3b _
  have h4 : orig.Follows s4 := State.Follows.foldl (fun x n hx => State.partsDiscard_follows _ _ hx) h3c _
  have h5 : orig.Follows s5 := State.Follows.foldl (fun x k hx => State.countAbort_follows _ _ hx) h4 _
  have hm (b : Bool) {x : State} (hx : orig.Follows x) (l : List Nat) :
      orig.Follows (l.foldl (fun y k => y.markerAgain k b) x) :=
    State.Follows.foldl (fun y k hy => State.markerAgain_follows y k b hy) hx l
  have h6 : orig.Follows s6 := hm false (hm true h5 _) _
  simp only [State.Follows.mk_iff]
  exact State.Keeps.of h6

/-! ### Linkai -/

theorem State.rcRead_follows {orig : State} (s : State) (p a tag : Nat) (hyp : orig.Follows s) :
    orig.Follows (State.rcRead s p a tag) := by
  unfold State.rcRead
  repeat' first
    | (intro _)
    | with_reducible first | assumption | apply State.Follows.ite | apply State.wr_follows | apply State.took_follows
      | apply State.emit_follows
    | (simp only [State.Follows.mk_iff]; with_reducible apply State.Keeps.of)
    | split

theorem State.injected_follows {orig : State} (s : State) (p l : Nat) (hyp : orig.Follows s) :
    orig.Follows (State.injected s p l) := by
  unfold State.injected
  repeat' with_reducible first | assumption | apply State.Follows.ite | apply State.foff_follows

theorem State.lnkBadHeader_follows {orig : State} (s : State) (p l : Nat) (x : LaneSt) (hyp : orig.Follows s) :
    orig.Follows (State.lnkBadHeader s p l x) := by
  unfold State.lnkBadHeader
  repeat' first
    | (intro _)
    | with_reducible first | assumption | apply State.Follows.ite | apply State.foff_follows | apply
      State.count_follows | apply State.raise_follows | apply State.setLane_follows | apply
      State.lnkVerifyFail_follows | apply State.lnkStepCondition_follows
    | (simp only [State.Follows.mk_iff]; with_reducible apply State.Keeps.of)
    | split

theorem State.lnkGoodHeader_follows {orig : State} (s : State) (p l : Nat) (x : LaneSt) (hyp : orig.Follows s) :
    orig.Follows (State.lnkGoodHeader s p l x) := by
  unfold State.lnkGoodHeader
  repeat' first
    | (intro _)
    | with_reducible first | assumption | apply State.Follows.ite | apply State.fon_follows | apply State.setLane_follows
    | (simp only [State.Follows.mk_iff]; with_reducible apply State.Keeps.of)
    | split

theorem State.lnkBlock_follows {orig : State} (s : State) (p l : Nat) (h0 h1 : Bool) (payload : BitVec 64) (hyp :
  orig.Follows s) :
    orig.Follows (State.lnkBlock s p l h0 h1 payload) := by
  unfold State.lnkBlock
  repeat' first
    | (intro _)
    | with_reducible first | assumption | apply State.Follows.ite | apply State.injected_follows | apply
      State.lnkBadHeader_follows | apply State.lnkGoodHeader_follows
    | (simp only [State.Follows.mk_iff]; with_reducible apply State.Keeps.of)
    | split

theorem State.prbsCount_follows {orig : State} (s : State) (p l : Nat) (hyp : orig.Follows s) :
    orig.Follows (State.prbsCount s p l) := by
  unfold State.prbsCount
  repeat' with_reducible first | assumption | apply State.countSat_follows | apply State.raise_follows

theorem State.prbsBit_follows {orig : State} (s : State) (p l : Nat) (line : Bool) (hyp : orig.Follows s) :
    orig.Follows (State.prbsBit s p l line) := by
  unfold State.prbsBit
  repeat' first
    | (intro _)
    | with_reducible first | assumption | apply State.Follows.ite | apply State.count_follows | apply State.foff_follows | apply
      State.fon_follows | apply State.prbsCount_follows | apply State.setLane_follows
    | (simp only [State.Follows.mk_iff]; with_reducible apply State.Keeps.of)
    | split

theorem execLinkaiBlock_follows {orig : State} (port : Fin 24) (lane : Fin 8) (h0 h1 : Bool) (payload : BitVec 64) (s
    : State) (hyp : orig.Follows s) :
    orig.Ends (execLinkaiBlock port lane h0 h1 payload s) := by
  unfold execLinkaiBlock
  repeat' first
    | (intro _)
    | with_reducible first | assumption | apply State.Ends.next | apply State.Follows.ite | apply State.lnkBlock_follows | apply
      State.prbsBit_follows | apply State.Follows.foldl
    | split

theorem State.lnkDeliver_follows {orig : State} (s : State) (p l i : Nat) (xs : List (Int × Bool)) (hyp :
    orig.Follows s) :
    orig.Follows (State.lnkDeliver s p l i xs) := by
  unfold State.lnkDeliver
  extract_lets c g st place samps x step s1 last y newest s2 s3
  have h1 : orig.Follows s1 := State.Follows.ite hyp (State.lnkResume_follows _ _ _ _ hyp)
  have h2 : orig.Follows s2 := State.Follows.ite (State.setPort_follows _ _ _ h1) h1
  have h3 : orig.Follows s3 := State.Follows.ite
    ⟨h2.pending, h2.beats, h2.outs, Nat.le_trans h2.fresh (Nat.le_add_right _ _), h2.regs, h2.hbm⟩ h2
  exact State.Follows.ite (State.storeSamples_follows _ _ _ _ h3) h3

theorem State.lnkMarker_follows {orig : State} (s : State) (p l : Nat) (good counts : Bool) (hyp : orig.Follows s) :
    orig.Follows (State.lnkMarker s p l good counts) := by
  unfold State.lnkMarker
  repeat' first
    | (intro _)
    | with_reducible first | assumption | apply State.Follows.ite | apply State.fon_follows | apply State.foff_follows
      | apply State.raise_follows | apply State.setLane_follows | apply State.lnkStepCondition_follows
    | (simp only [State.Follows.mk_iff]; with_reducible apply State.Keeps.of)
    | split

theorem State.lnkConvFault_follows {orig : State} (s : State) (p l : Nat) (now : Bool) (hyp : orig.Follows s) :
    orig.Follows (State.lnkConvFault s p l now) := by
  unfold State.lnkConvFault
  repeat' with_reducible first | assumption | apply State.Follows.ite | apply State.raise_follows |
      apply State.setLane_follows

theorem State.lnkFrame_follows {orig : State} (s : State) (p l f : Nat) (offset : Int) (hyp : orig.Follows s) :
    orig.Follows (State.lnkFrame s p l f offset) := by
  unfold State.lnkFrame
  repeat' first
    | (intro _)
    | with_reducible first | assumption | apply State.Follows.ite | apply State.fset_follows | apply State.lnkAlignLost_follows | apply
      State.lnkConvFault_follows | apply State.lnkDeliver_follows | apply State.lnkMarker_follows | apply
      State.setLane_follows | apply State.setPort_follows
    | (simp only [State.Follows.mk_iff]; with_reducible apply State.Keeps.of)
    | split

theorem execLinkaiFrame_follows {orig : State} (port : Fin 24) (lane : Fin 8) (frame : BitVec 2048) (offset : Int) (s
  : State) (hyp : orig.Follows s) :
    orig.Ends (execLinkaiFrame port lane frame offset s) := by
  unfold execLinkaiFrame
  repeat' first
    | (intro _)
    | with_reducible first | assumption | apply State.Ends.next | apply State.Follows.ite | apply
      State.setLane_follows | apply State.injected_follows | apply State.lnkFrame_follows
    | (simp only [State.Follows.mk_iff]; with_reducible apply State.Keeps.of)
    | split

theorem State.lnkPassed_follows {orig : State} (s : State) (p l : Nat) (f : InFlight) (hyp : orig.Follows s) :
    orig.Follows (State.lnkPassed s p l f) := by
  unfold State.lnkPassed
  repeat' first
    | (intro _)
    | with_reducible first | assumption | apply State.Follows.ite | apply State.setLane_follows
    | (simp only [State.Follows.mk_iff]; with_reducible apply State.Keeps.of)
    | split

theorem State.lnkFailed_follows {orig : State} (s : State) (p l : Nat) (f : InFlight) (hyp : orig.Follows s) :
    orig.Follows (State.lnkFailed s p l f) := by
  unfold State.lnkFailed
  repeat' first
    | (intro _)
    | with_reducible first | assumption | apply State.Follows.ite | apply State.count_follows | apply
      State.raise_follows | apply State.setLane_follows | apply State.taintNotice_follows | apply
      State.lnkVerifyFail_follows | apply State.lnkStepCondition_follows
    | (simp only [State.Follows.mk_iff]; with_reducible apply State.Keeps.of)
    | split

theorem State.lnkIndexCheck_follows {orig : State} (s : State) (p l : Nat) (f : InFlight) (hyp : orig.Follows s) :
    orig.Follows (State.lnkIndexCheck s p l f) := by
  unfold State.lnkIndexCheck
  repeat' first
    | (intro _)
    | with_reducible first | assumption | apply State.Follows.ite | apply State.lnkAlignLost_follows | apply State.raise_follows |
      apply State.setLane_follows
    | (simp only [State.Follows.mk_iff]; with_reducible apply State.Keeps.of)
    | split

theorem execCrcResult_follows {orig : State} (port : Fin 24) (lane : Fin 8) (s : State) (hyp : orig.Follows s) :
    orig.Ends (execCrcResult port lane s) := by
  unfold execCrcResult
  repeat' first
    | (intro _)
    | with_reducible first | assumption | apply State.Ends.next | apply State.Follows.ite |
      apply State.count_follows | apply State.lnkFailed_follows | apply State.lnkIndexCheck_follows |
      apply State.lnkPassed_follows | apply State.setLane_follows
    | (simp only [State.Follows.mk_iff]; with_reducible apply State.Keeps.of)
    | split

theorem execCrcWindowEnd_follows {orig : State} (port : Fin 24) (lane : Fin 8) (s : State) (hyp : orig.Follows s) :
    orig.Ends (execCrcWindowEnd port lane s) := by
  unfold execCrcWindowEnd
  repeat' with_reducible first | assumption | apply State.Ends.next | apply State.Follows.ite |
      apply State.setLane_follows

theorem State.lnkLoadRx_follows {orig : State} (s : State) (p rtype data : Nat) (hyp : orig.Follows s) :
    orig.Follows (State.lnkLoadRx s p rtype data) := by
  unfold State.lnkLoadRx
  repeat' with_reducible first | assumption | apply State.Follows.ite | apply State.raise_follows | apply State.wr_follows

theorem State.lnkAsleep_follows {orig : State} (s : State) (p level : Nat) (hyp : orig.Follows s) :
    orig.Follows (State.lnkAsleep s p level) := by
  unfold State.lnkAsleep
  repeat' first
    | (intro _)
    | with_reducible first | assumption | apply State.Follows.ite | apply State.fset_follows | apply
      State.foff_follows | apply State.condReady_follows | apply State.lnkGo_follows
    | (simp only [State.Follows.mk_iff]; with_reducible apply State.Keeps.of)
    | split

theorem State.lnkRetSleep_follows {orig : State} (s : State) (p level : Nat) (hyp : orig.Follows s) :
    orig.Follows (State.lnkRetSleep s p level) := by
  unfold State.lnkRetSleep
  repeat' first
    | (intro _)
    | with_reducible first | assumption | apply State.Follows.ite | apply State.fset_follows | apply
      State.foff_follows | apply State.setPort_follows | apply State.condReady_follows | apply State.lnkGo_follows |
      apply State.lnkRetDone_follows
    | (simp only [State.Follows.mk_iff]; with_reducible apply State.Keeps.of)
    | split

theorem State.lnkMsgFail_follows {orig : State} (s : State) (p : Nat) (hyp : orig.Follows s) :
    orig.Follows (State.lnkMsgFail s p) := by
  unfold State.lnkMsgFail
  repeat' first
    | (intro _)
    | with_reducible first | assumption | apply State.Follows.ite | apply State.lnkFail_follows | apply
      State.lnkAttemptFail_follows
    | (simp only [State.Follows.mk_iff]; with_reducible apply State.Keeps.of)
    | split

theorem State.lnkAcked_follows {orig : State} (s : State) (p : Nat) (m : LinkMsg) (result : Nat) (hyp : orig.Follows
  s) :
    orig.Follows (State.lnkAcked s p m result) := by
  unfold State.lnkAcked
  repeat' first
    | (intro _)
    | with_reducible first | assumption | apply State.Follows.ite | apply State.foff_follows | apply
      State.setPort_follows | apply State.lnkAfterCap_follows | apply State.lnkAsleep_follows | apply
      State.lnkRetSleep_follows | apply State.lnkMsgFail_follows
    | (simp only [State.Follows.mk_iff]; with_reducible apply State.Keeps.of)
    | split

theorem State.lnkAckedSoftware_follows {orig : State} (s : State) (p : Nat) (m : LinkMsg) (data : Nat) (hyp :
    orig.Follows s) :
    orig.Follows (State.lnkAckedSoftware s p m data) := by
  unfold State.lnkAckedSoftware
  repeat' first
    | with_reducible assumption
    | (intro x; refine State.Follows.cut (P := orig.Follows x) ?_ ?_; all_goals first | (intro _; clear_value x) | subst x)
    | (intro x; clear_value x)
    | (intro _)
    | with_reducible first | assumption | apply State.Follows.ite | apply State.foff_follows | apply State.lnkBringup_follows | apply
      State.lnkLoadRx_follows | apply State.lnkPrbs_follows
    | (simp only [State.Follows.mk_iff]; with_reducible apply State.Keeps.of)
    | lift_lets
    | split
    | dsimp only

theorem State.lnkAck_follows {orig : State} (s : State) (p data : Nat) (hyp : orig.Follows s) :
    orig.Follows (State.lnkAck s p data) := by
  unfold State.lnkAck
  repeat' first
    | with_reducible assumption
    | (intro x; refine State.Follows.cut (P := orig.Follows x) ?_ ?_; all_goals first | (intro _; clear_value x) | subst x)
    | (intro x; refine State.Follows.cut (P := ∀ a, orig.Follows (x a)) ?_ ?_; all_goals first | (subst x; intro _) | (intro kf; clear_value x))
    | (intro x; refine State.Follows.cut (P := ∀ t a, orig.Follows t → orig.Follows (x t a)) ?_ ?_; all_goals first | (subst x; intro _ _ _) | (intro kf; clear_value x))
    | (intro x; refine State.Follows.cut (P := ∀ t a b, orig.Follows t → orig.Follows (x t a b)) ?_ ?_; all_goals first | (subst x; intro _ _ _ _) | (intro kf; clear_value x))
    | (intro x; refine State.Follows.cut (P := orig.Follows x.1) ?_ ?_; all_goals first | (intro _; clear_value x) | subst x)
    | (intro x; refine State.Follows.cut (P := orig.Follows x.2) ?_ ?_; all_goals first | (intro _; clear_value x) | subst x)
    | (intro x; refine State.Follows.cut (P := orig.Follows x.state) ?_ ?_; all_goals first | (intro _; clear_value x) | subst x)
    | (intro x; clear_value x)
    | (intro _)
    | with_reducible first | assumption | apply State.Follows.ite | apply State.breached_follows | apply
      State.setPort_follows | apply State.lnkBusySync_follows | apply State.lnkAcked_follows | apply
      State.lnkAckedSoftware_follows
    | (simp only [State.Follows.mk_iff]; with_reducible apply State.Keeps.of)
    | lift_lets
    | split
    | dsimp only

theorem execConvResponse_follows {orig : State} (port : Fin 24) (rtype : BitVec 6) (data : BitVec 16) (s : State)
    (hyp : orig.Follows s) :
    orig.Ends (execConvResponse port rtype data s) := by
  unfold execConvResponse
  repeat' first
    | (intro _)
    | with_reducible first | assumption | apply State.Ends.next | apply State.Follows.ite |
      apply State.lnkAck_follows | apply State.lnkLoadRx_follows | apply State.setPort_follows

theorem State.lnkSent_follows {orig : State} (s : State) (p : Nat) (m : LinkMsg) (hyp : orig.Follows s) :
    orig.Follows (State.lnkSent s p m) := by
  unfold State.lnkSent
  repeat' with_reducible first | assumption | apply State.Follows.ite | apply State.fset_follows |
      apply State.lnkBusySync_follows | apply State.lnkGo_follows | apply State.lnkRetSleep_follows |
      apply State.lnkUnlock_follows | apply State.setPort_follows

theorem State.lnkRetStop_follows {orig : State} (s : State) (p : Nat) (hyp : orig.Follows s) :
    orig.Follows (State.lnkRetStop s p) := by
  unfold State.lnkRetStop
  repeat' first
    | (intro _)
    | with_reducible first | assumption | apply State.Follows.ite | apply State.fset_follows
    | (simp only [State.Follows.mk_iff]; with_reducible apply State.Keeps.of)
    | split

theorem State.lnkSend_follows {orig : State} (s : State) (p : Nat) (m : LinkMsg) (hyp : orig.Follows s) :
    orig.Follows (State.lnkSend s p m) := by
  unfold State.lnkSend
  repeat' first
    | (intro _)
    | with_reducible first | assumption | apply State.Follows.ite | apply State.emit_follows | apply State.fset_follows | apply
      State.lnkBusySync_follows | apply State.setPort_follows
    | (simp only [State.Follows.mk_iff]; with_reducible apply State.Keeps.of)
    | split

theorem State.lnkUnsent_follows {orig : State} (s : State) (p : Nat) (m : LinkMsg) (hyp : orig.Follows s) :
    orig.Follows (State.lnkUnsent s p m) := by
  unfold State.lnkUnsent
  repeat' first
    | (intro _)
    | with_reducible first | assumption | apply State.Follows.ite | apply State.lnkBusySync_follows | apply
      State.lnkRetDone_follows | apply State.lnkRetStop_follows
    | (simp only [State.Follows.mk_iff]; with_reducible apply State.Keeps.of)
    | split

theorem execMsgTransmit_follows {orig : State} (port : Fin 24) (s : State) (hyp : orig.Follows s) :
    orig.Ends (execMsgTransmit port s) := by
  unfold execMsgTransmit
  repeat' first
    | (intro _)
    | with_reducible first | assumption | apply State.Ends.next | apply State.Follows.ite | apply State.foff_follows |
      apply State.setPort_follows | apply State.lnkRefuse_follows | apply State.lnkBusySync_follows | apply
      State.lnkSent_follows | apply State.lnkSend_follows | apply State.lnkUnsent_follows
    | (simp only [State.Follows.mk_iff]; with_reducible apply State.Keeps.of)
    | split

theorem execMsgAckTimeout_follows {orig : State} (port : Fin 24) (s : State) (hyp : orig.Follows s) :
    orig.Ends (execMsgAckTimeout port s) := by
  unfold execMsgAckTimeout
  repeat' first
    | (intro _)
    | with_reducible first | assumption | apply State.Ends.next | apply State.Follows.ite | apply State.wr_follows |
      apply State.foff_follows | apply State.emit_follows | apply State.raise_follows | apply State.setPort_follows |
      apply State.lnkBusySync_follows | apply State.lnkAttemptFail_follows | apply State.lnkMsgFail_follows
    | (simp only [State.Follows.mk_iff]; with_reducible apply State.Keeps.of)
    | split

theorem execLossOfSignal_follows {orig : State} (port : Fin 24) (lane : Fin 8) (s : State) (hyp : orig.Follows s) :
    orig.Ends (execLossOfSignal port lane s) := by
  unfold execLossOfSignal
  repeat' with_reducible first | assumption | apply State.Ends.next | apply State.Follows.ite |
      apply State.foff_follows | apply State.lnkRecover_follows | apply State.raise_follows

theorem execSignalRestored_follows {orig : State} (port : Fin 24) (lane : Fin 8) (s : State) (hyp : orig.Follows s) :
    orig.Ends (execSignalRestored port lane s) := by
  unfold execSignalRestored
  repeat' with_reducible first | assumption | apply State.Ends.next | apply State.fon_follows

theorem execFwdClockLost_follows {orig : State} (port : Fin 24) (s : State) (hyp : orig.Follows s) :
    orig.Ends (execFwdClockLost port s) := by
  unfold execFwdClockLost
  repeat' with_reducible first | assumption | apply State.Ends.next | apply State.lnkRecover_follows |
      apply State.raise_follows | apply State.setPort_follows

theorem execFwdClockRestored_follows {orig : State} (port : Fin 24) (s : State) (hyp : orig.Follows s) :
    orig.Ends (execFwdClockRestored port s) := by
  unfold execFwdClockRestored
  repeat' with_reducible first | assumption | apply State.Ends.next | apply State.setPort_follows

theorem execDownHoldEnd_follows {orig : State} (port : Fin 24) (s : State) (hyp : orig.Follows s) :
    orig.Ends (execDownHoldEnd port s) := by
  unfold execDownHoldEnd
  repeat' with_reducible first | assumption | apply State.Ends.next | apply State.Follows.ite |
      apply State.lnkRetStart_follows

theorem execRetStartDone_follows {orig : State} (port : Fin 24) (s : State) (hyp : orig.Follows s) :
    orig.Ends (execRetStartDone port s) := by
  unfold execRetStartDone
  repeat' with_reducible first | assumption | apply State.Ends.next | apply State.Follows.ite | apply State.lnkGo_follows

theorem execFwdClockDetect_follows {orig : State} (port : Fin 24) (s : State) (hyp : orig.Follows s) :
    orig.Ends (execFwdClockDetect port s) := by
  unfold execFwdClockDetect
  repeat' with_reducible first | assumption | apply State.Ends.next | apply State.Follows.ite |
      apply State.fset_follows | apply State.lnkGo_follows | apply State.setPort_follows

theorem execAdaptDone_follows {orig : State} (port : Fin 24) (s : State) (hyp : orig.Follows s) :
    orig.Ends (execAdaptDone port s) := by
  unfold execAdaptDone
  repeat' with_reducible first | assumption | apply State.Ends.next | apply State.Follows.ite |
      apply State.lnkGo_follows | apply State.lnkKeep_follows

theorem execLockDone_follows {orig : State} (port : Fin 24) (s : State) (hyp : orig.Follows s) :
    orig.Ends (execLockDone port s) := by
  unfold execLockDone
  extract_lets p x
  apply State.Ends.next
  refine State.Follows.ite ?_ hyp
  split
  · exact State.lnkQueue_follows _ _ _ _ (State.lnkGo_follows _ _ _ hyp)
  · exact State.lnkVerify_follows _ _ hyp
  · exact State.Follows.ite (State.lnkGo_follows _ _ _ hyp)
      (State.foff_follows _ _ _ (State.lnkGo_follows _ _ _ (State.lnkRecount_follows _ _ hyp)))

theorem execVerifyPass_follows {orig : State} (port : Fin 24) (s : State) (hyp : orig.Follows s) :
    orig.Ends (execVerifyPass port s) := by
  unfold execVerifyPass
  repeat' first
    | (intro _)
    | with_reducible first | assumption | apply State.Ends.next | apply State.Follows.ite |
      apply State.lnkGo_follows | apply State.lnkRecount_follows | apply State.lnkSetSpeed_follows |
      apply State.lnkSettle_follows | apply State.setPort_follows

theorem execStepSwitchDone_follows {orig : State} (port : Fin 24) (s : State) (hyp : orig.Follows s) :
    orig.Ends (execStepSwitchDone port s) := by
  unfold execStepSwitchDone
  repeat' with_reducible first | assumption | apply State.Ends.next | apply State.Follows.ite |
      apply State.fset_follows | apply State.lnkKeep_follows | apply State.lnkUnlock_follows |
      apply State.setPort_follows

theorem State.setLambda_follows {orig : State} (s : State) (hyp : orig.Follows s) :
    orig.Follows (State.setLambda s) := by
  unfold State.setLambda
  repeat' first
    | (intro _)
    | with_reducible first | assumption | apply State.Follows.ite | apply State.wr_follows | apply State.Follows.foldl
    | (simp only [State.Follows.mk_iff]; with_reducible apply State.Keeps.of)
    | split

theorem State.lnkPlaceDiff_follows {orig : State} (s : State) (p : Nat) (old new : Int) (hyp : orig.Follows s) :
    orig.Follows (State.lnkPlaceDiff s p old new) := by
  unfold State.lnkPlaceDiff
  repeat' with_reducible first | assumption | apply State.Follows.ite | apply State.event_follows |
      apply State.fset_follows

theorem State.lnkCentre_follows {orig : State} (s : State) (p index : Nat) (hyp : orig.Follows s) :
    orig.Follows (State.lnkCentre s p index) := by
  unfold State.lnkCentre
  repeat' first
    | (intro _)
    | with_reducible first | assumption | apply State.fset_follows | apply State.setLane_follows | apply
      State.sampleFresh_follows | apply State.Follows.foldl
    | (simp only [State.Follows.mk_iff]; with_reducible apply State.Keeps.of)
    | split

theorem State.lnkSkewed_follows {orig : State} (s : State) (p spread : Nat) (hyp : orig.Follows s) :
    orig.Follows (State.lnkSkewed s p spread) := by
  unfold State.lnkSkewed
  repeat' with_reducible first | assumption | apply State.Follows.ite | apply State.breached_follows

theorem execAlignDone_follows {orig : State} (port : Fin 24) (ta : Nat) (index : BitVec 48) (spread : Nat) (s :
    State) (hyp : orig.Follows s) :
    orig.Ends (execAlignDone port ta index spread s) := by
  unfold execAlignDone
  extract_lets p x g place s1 s2 src s3 s4
  have h1 : orig.Follows s1 := State.fon_follows _ _ _ (State.setPlace_follows _ _ _ hyp)
  have h2 : orig.Follows s2 := by
    unfold s2
    split
    · exact State.Follows.ite (State.lnkPlaceDiff_follows _ _ _ _ h1) h1
    · exact h1
  have h3 : orig.Follows s3 := State.setPort_follows _ _ _ h2
  have h4 : orig.Follows s4 := State.lnkSkewed_follows _ _ _ (State.lnkCentre_follows _ _ _ h3)
  apply State.Ends.next
  exact State.Follows.ite (State.setLambda_follows _ (State.condReady_follows _ _ (State.raise_follows _ _ _
    (State.lnkCtrlDone_follows _ _ (State.lnkGo_follows _ _ _ (State.lnkRecount_follows _ _ h4)))))) hyp

theorem execPhaseTimeout_follows {orig : State} (phase : PhaseEnd) (s : State) (hyp : orig.Follows s) :
    orig.Ends (execPhaseTimeout phase s) := by
  unfold execPhaseTimeout
  repeat' with_reducible first | assumption | apply State.Ends.next | apply State.Follows.ite | apply State.lnkAttemptFail_follows | apply
      State.lnkFail_follows

theorem execBringupRetry_follows {orig : State} (port : Fin 24) (s : State) (hyp : orig.Follows s) :
    orig.Ends (execBringupRetry port s) := by
  unfold execBringupRetry
  repeat' first
    | (intro _)
    | with_reducible first | assumption | apply State.Ends.next | apply State.Follows.ite |
      apply State.lnkAttempt_follows
    | (simp only [State.Follows.mk_iff]; with_reducible apply State.Keeps.of)
    | split

theorem execBringup_follows {orig : State} (port : Fin 24) (s : State) (hyp : orig.Follows s) :
    orig.Ends (execBringup port s) := by
  unfold execBringup
  repeat' first
    | with_reducible assumption
    | (intro x; refine State.Follows.cut (P := orig.Follows x) ?_ ?_; all_goals first | (intro _; clear_value x) | subst x)
    | (intro x; clear_value x)
    | (intro _)
    | with_reducible first | assumption | apply State.Ends.next | apply State.Follows.ite | apply State.again_follows | apply
      State.fon_follows | apply State.lnkBringup_follows | apply State.lnkRefuse_follows
    | (simp only [State.Follows.mk_iff]; with_reducible apply State.Keeps.of)
    | lift_lets
    | split
    | dsimp only

theorem State.lnkDropNow_follows {orig : State} (s : State) (p : Nat) (hyp : orig.Follows s) :
    orig.Follows (State.lnkDropNow s p) := by
  unfold State.lnkDropNow
  repeat' first
    | (intro _)
    | with_reducible first | assumption | apply State.Follows.ite | apply State.fset_follows | apply State.fon_follows
      | apply State.lnkFlushMsgs_follows | apply State.lnkRetSleep_follows
    | (simp only [State.Follows.mk_iff]; with_reducible apply State.Keeps.of)
    | split

theorem execDrop_follows {orig : State} (port : Fin 24) (s : State) (hyp : orig.Follows s) :
    orig.Ends (execDrop port s) := by
  unfold execDrop
  repeat' first
    | (intro _)
    | with_reducible first | assumption | apply State.Ends.next | apply State.Follows.ite | apply State.fon_follows |
      apply State.foff_follows | apply State.setPort_follows | apply State.lnkRefuse_follows | apply
      State.lnkQueue_follows | apply State.lnkCtrlDone_follows | apply State.lnkDropNow_follows
    | (simp only [State.Follows.mk_iff]; with_reducible apply State.Keeps.of)
    | split

theorem State.lnkSleepCmd_follows {orig : State} (s : State) (p level : Nat) (f : Fld) (hyp : orig.Follows s) :
    orig.Follows (State.lnkSleepCmd s p level f) := by
  unfold State.lnkSleepCmd
  repeat' with_reducible first | assumption | apply State.Follows.ite | apply State.fon_follows |
      apply State.lnkQueue_follows | apply State.lnkRefuse_follows

theorem execFwdDoze_follows {orig : State} (port : Fin 24) (s : State) (hyp : orig.Follows s) :
    orig.Ends (execFwdDoze port s) := by
  unfold execFwdDoze
  repeat' with_reducible first | assumption | apply State.Ends.next | apply State.lnkSleepCmd_follows

theorem execFwdOff_follows {orig : State} (port : Fin 24) (s : State) (hyp : orig.Follows s) :
    orig.Ends (execFwdOff port s) := by
  unfold execFwdOff
  repeat' with_reducible first | assumption | apply State.Ends.next | apply State.lnkSleepCmd_follows

theorem execFwdWake_follows {orig : State} (port : Fin 24) (s : State) (hyp : orig.Follows s) :
    orig.Ends (execFwdWake port s) := by
  unfold execFwdWake
  repeat' first
    | (intro _)
    | with_reducible first | assumption | apply State.Ends.next | apply State.Follows.ite | apply State.fon_follows |
      apply State.lnkRefuse_follows | apply State.lnkQueue_follows | apply State.lnkBringup_follows
    | (simp only [State.Follows.mk_iff]; with_reducible apply State.Keeps.of)
    | split

theorem State.lnkRetCmd_follows {orig : State} (s : State) (p level : Nat) (f : Fld) (hyp : orig.Follows s) :
    orig.Follows (State.lnkRetCmd s p level f) := by
  unfold State.lnkRetCmd
  repeat' first
    | (intro _)
    | with_reducible first | assumption | apply State.Follows.ite | apply State.fon_follows | apply
      State.lnkQueue_follows | apply State.lnkRetStop_follows
    | (simp only [State.Follows.mk_iff]; with_reducible apply State.Keeps.of)
    | split

theorem execRetDoze_follows {orig : State} (port : Fin 24) (s : State) (hyp : orig.Follows s) :
    orig.Ends (execRetDoze port s) := by
  unfold execRetDoze
  repeat' with_reducible first | assumption | apply State.Ends.next | apply State.lnkRetCmd_follows

theorem execRetOff_follows {orig : State} (port : Fin 24) (s : State) (hyp : orig.Follows s) :
    orig.Ends (execRetOff port s) := by
  unfold execRetOff
  repeat' with_reducible first | assumption | apply State.Ends.next | apply State.lnkRetCmd_follows

theorem execRetWake_follows {orig : State} (port : Fin 24) (s : State) (hyp : orig.Follows s) :
    orig.Ends (execRetWake port s) := by
  unfold execRetWake
  repeat' first
    | (intro _)
    | with_reducible first | assumption | apply State.Ends.next | apply State.Follows.ite | apply State.fset_follows |
      apply State.fon_follows | apply State.foff_follows | apply State.setPort_follows
    | (simp only [State.Follows.mk_iff]; with_reducible apply State.Keeps.of)
    | split

theorem execSendMsg_follows {orig : State} (port : Fin 24) (s : State) (hyp : orig.Follows s) :
    orig.Ends (execSendMsg port s) := by
  unfold execSendMsg
  repeat' with_reducible first | assumption | apply State.Ends.next | apply State.Follows.ite | apply State.fon_follows |
      apply State.lnkBusySync_follows | apply State.lnkRefuse_follows | apply State.raise_follows |
      apply State.setPort_follows

theorem execMsgRxRead_follows {orig : State} (port : Fin 24) (tag : Nat) (s : State) (hyp : orig.Follows s) :
    orig.Ends (execMsgRxRead port tag s) := by
  unfold execMsgRxRead
  repeat' first
    | (intro _)
    | with_reducible first | assumption | apply State.Ends.next | apply State.rcRead_follows
    | (simp only [State.Follows.mk_iff]; with_reducible apply State.Keeps.of)
    | split

theorem execPrbsLock_follows {orig : State} (port : Fin 24) (lane : Fin 8) (s : State) (hyp : orig.Follows s) :
    orig.Ends (execPrbsLock port lane s) := by
  unfold execPrbsLock
  repeat' first
    | (intro _)
    | with_reducible first | assumption | apply State.Ends.next | apply State.Follows.ite | apply State.fon_follows

theorem execPrbsLockLoss_follows {orig : State} (port : Fin 24) (lane : Fin 8) (s : State) (hyp : orig.Follows s) :
    orig.Ends (execPrbsLockLoss port lane s) := by
  unfold execPrbsLockLoss
  repeat' with_reducible first | assumption | apply State.Ends.next | apply State.Follows.ite | apply State.prbsReset_follows

theorem execPrbsErrRead_follows {orig : State} (port : Fin 24) (lane : Fin 8) (tag : Nat) (s : State) (hyp :
  orig.Follows s) :
    orig.Ends (execPrbsErrRead port lane tag s) := by
  unfold execPrbsErrRead
  repeat' first
    | (intro _)
    | with_reducible first | assumption | apply State.Ends.next | apply State.rcRead_follows
    | (simp only [State.Follows.mk_iff]; with_reducible apply State.Keeps.of)
    | split

theorem execPrbsErr_follows {orig : State} (port : Fin 24) (lane : Fin 8) (s : State) (hyp : orig.Follows s) :
    orig.Ends (execPrbsErr port lane s) := by
  unfold execPrbsErr
  repeat' with_reducible first | assumption | apply State.Ends.next | apply State.Follows.ite | apply State.prbsCount_follows

theorem State.injectBegin_follows {orig : State} (s : State) (p l mode : Nat) (hyp : orig.Follows s) :
    orig.Follows (State.injectBegin s p l mode) := by
  unfold State.injectBegin
  repeat' first
    | (intro _)
    | with_reducible first | assumption | apply State.Follows.ite | apply State.count_follows | apply State.setLane_follows
    | (simp only [State.Follows.mk_iff]; with_reducible apply State.Keeps.of)
    | split

theorem State.injectEnd_follows {orig : State} (s : State) (p l : Nat) (hyp : orig.Follows s) :
    orig.Follows (State.injectEnd s p l) := by
  unfold State.injectEnd
  repeat' first
    | (intro _)
    | with_reducible first | assumption | apply State.Follows.ite | apply State.foff_follows | apply State.setLane_follows
    | (simp only [State.Follows.mk_iff]; with_reducible apply State.Keeps.of)
    | split

theorem execInjectGo_follows {orig : State} (port : Fin 24) (lane : Fin 8) (s : State) (hyp : orig.Follows s) :
    orig.Ends (execInjectGo port lane s) := by
  unfold execInjectGo
  repeat' with_reducible first | assumption | apply State.Ends.next | apply State.Follows.ite | apply State.fon_follows | apply
      State.injectBegin_follows | apply State.lnkRefuse_follows | apply State.log_follows

end Sys2Proof.Machine
end

