-- ==== Sys2Proof/Laws/Keeps5.lean ====
section
/-!
SUPPORT. Each operation and meaning of ShuWindow, ConfigOps, Bobbin, ClkOps, Hoofbeat, BridleOps, SpnOps keeps what
  State.Follows says: one lemma for each, named after it.
-/

set_option linter.all false

namespace Sys2Proof.Machine

/-! ### ShuWindow -/

theorem State.winCheck_follows {orig : State} (s : State) (n off a : Nat) (ecc : Ecc) (hyp : orig.Follows s) :
    orig.Follows (State.winCheck s n off a ecc).1 := by
  unfold State.winCheck
  repeat' first
    | with_reducible assumption
    | (intro x; refine State.Follows.cut (P := orig.Follows x) ?_ ?_; all_goals first | (intro _; clear_value x) | subst x)
    | (intro x; clear_value x)
    | (intro _)
    | with_reducible first | assumption | apply State.Follows.ite | apply State.count_follows | apply State.log_follows | apply
      State.raise_follows | apply State.setCore_follows | apply State.took_follows
    | (simp only [State.Follows.mk_iff]; with_reducible apply State.Keeps.of)
    | lift_lets
    | split
    | dsimp only

/-! ### ConfigOps -/

theorem State.stepDown_follows {orig : State} (s : State) (n l : Nat) (hyp : orig.Follows s) :
    orig.Follows (State.stepDown s n l) := by
  unfold State.stepDown
  repeat' with_reducible first | assumption | apply State.event_follows

theorem State.showAlloc_follows {orig : State} (s : State) (n : Nat) (hyp : orig.Follows s) :
    orig.Follows (State.showAlloc s n) := by
  unfold State.showAlloc
  repeat' first
    | (intro _)
    | with_reducible first | assumption | apply State.Follows.ite | apply State.foff_follows |
      apply State.fon_follows | apply State.fset_follows | apply State.stepDown_follows |
      apply State.wr_follows | apply State.Follows.foldl
    | (simp only [State.Follows.mk_iff]; with_reducible apply State.Keeps.of)
    | split

theorem State.showRetired_follows {orig : State} (s : State) (hyp : orig.Follows s) :
    orig.Follows (State.showRetired s) := by
  unfold State.showRetired
  repeat' first
    | (intro _)
    | with_reducible first | assumption | apply State.degradeOff_follows | apply State.degradeOn_follows
    | split

/-! ### Bobbin -/

theorem execPartialUnitFlush_follows {orig : State} (channel : Fin 192) (s : State) (hyp : orig.Follows s) :
    orig.Ends (execPartialUnitFlush channel s) := by
  unfold execPartialUnitFlush
  repeat' with_reducible first | assumption | apply State.Ends.next | apply State.Follows.ite | apply State.ringFlush_follows

theorem execUnitCommit_follows {orig : State} (channel : Fin 192) (s : State) (hyp : orig.Follows s) :
    orig.Ends (execUnitCommit channel s) := by
  unfold execUnitCommit
  repeat' with_reducible first | assumption | apply State.Ends.next | apply State.Follows.ite |
      apply State.ringCommit_follows

theorem execLookupGo_follows {orig : State} (s : State) (hyp : orig.Follows s) :
    orig.Ends (execLookupGo s) := by
  unfold execLookupGo
  repeat' first
    | (intro _)
    | with_reducible first | assumption | apply State.Ends.next | apply State.Follows.ite | apply State.again_follows | apply
      State.fon_follows
    | (simp only [State.Follows.mk_iff]; with_reducible apply State.Keeps.of)
    | split

theorem execLookupDone_follows {orig : State} (s : State) (hyp : orig.Follows s) :
    orig.Ends (execLookupDone s) := by
  unfold execLookupDone
  repeat' first
    | (intro _)
    | with_reducible first | assumption | apply State.Ends.next | apply State.foff_follows |
      apply State.fset_follows | apply State.setPair_follows | apply State.took_follows
    | (simp only [State.Follows.mk_iff]; with_reducible apply State.Keeps.of)
    | split

theorem execHbmRequest_follows {orig : State} (who : Requester) (write : Bool) (offset : BitVec 36) (len : Nat) (id
    : Nat) (data : List (Option (BitVec 8))) (s : State) (hyp : orig.Follows s) :
    orig.Ends (execHbmRequest who write offset len id data s) := by
  unfold execHbmRequest
  repeat' with_reducible first | assumption | apply State.Ends.next | apply State.Follows.ite |
      apply State.hbmBusErr_follows | apply State.hbmEnter_follows

theorem State.writeDone_follows {orig : State} (s : State) (q : Nat) (r : HbmReq) (outcome : Nat) (hyp : orig.Follows
  s) :
    orig.Follows (State.writeDone s q r outcome) := by
  unfold State.writeDone
  repeat' first
    | (intro _)
    | with_reducible first | assumption | apply State.Follows.ite | apply State.took_follows | apply State.log_follows
      | apply State.setPc_follows | apply State.hbmStore_follows | apply State.loseUnit_follows
    | (simp only [State.Follows.mk_iff]; with_reducible apply State.Keeps.of)
    | split

theorem State.accessDone_follows {orig : State} (s0 : State) (q : Nat) (r : HbmReq) (burst outcome : Nat) (hyp :
  orig.Follows s0) :
    orig.Follows (State.accessDone s0 q r burst outcome) := by
  unfold State.accessDone
  repeat' first
    | with_reducible assumption
    | (intro x; refine State.Follows.cut (P := orig.Follows x) ?_ ?_; all_goals first | (intro _; clear_value x) | subst x)
    | (intro x; refine State.Follows.cut (P := ∀ a, orig.Follows (x a)) ?_ ?_; all_goals first | (subst x; intro _) | (intro kf; clear_value x))
    | (intro x; refine State.Follows.cut (P := ∀ t a, orig.Follows t → orig.Follows (x t a)) ?_ ?_; all_goals first | (subst x; intro _ _ _) | (intro kf; clear_value x))
    | (intro x; refine State.Follows.cut (P := ∀ t a b, orig.Follows t → orig.Follows (x t a b)) ?_ ?_; all_goals first | (subst x; intro _ _ _ _) | (intro kf; clear_value x))
    | (intro x; refine State.Follows.cut (P := orig.Follows x.1) ?_ ?_; all_goals first | (intro _; clear_value x) | subst x)
    | (intro x; refine State.Follows.cut (P := orig.Follows x.2) ?_ ?_; all_goals first | (intro _; clear_value x) | subst x)
    | (intro x; refine State.Follows.cut (P := orig.Follows x.state) ?_ ?_; all_goals first | (intro _; clear_value x) | subst x)
    | (intro x; clear_value x)
    | (intro _)
    | with_reducible first | assumption | apply State.Follows.ite | apply State.fset_follows | apply
      State.hbmAnswer_follows | apply State.hbmBusErr_follows | apply State.hbmEnter_follows | apply
      State.correctedBurst_follows | apply State.badBurst_follows | apply State.builderBurst_follows | apply
      State.writeDone_follows
    | (simp only [State.Follows.mk_iff]; with_reducible apply State.Keeps.of)
    | lift_lets
    | split
    | dsimp only

theorem execRefreshDue_follows {orig : State} (pc : Fin 64) (bank : Fin 48) (s : State) (hyp : orig.Follows s) :
    orig.Ends (execRefreshDue pc bank s) := by
  unfold execRefreshDue
  repeat' first
    | (intro _)
    | with_reducible first | assumption | apply State.Ends.next | apply State.Follows.ite |
      apply State.emit_follows | apply State.setPc_follows | apply State.Follows.foldl

theorem execRfmThreshold_follows {orig : State} (pc : Fin 64) (bank : Fin 48) (s : State) (hyp : orig.Follows s) :
    orig.Ends (execRfmThreshold pc bank s) := by
  unfold execRfmThreshold
  repeat' first
    | (intro _)
    | with_reducible first | assumption | apply State.Ends.next | apply State.emit_follows | apply State.setPc_follows

theorem execTempPoll_follows {orig : State} (stack : Fin 2) (temp : BitVec 8) (catastrophic : Bool) (s : State) (hyp
    : orig.Follows s) :
    orig.Ends (execTempPoll stack temp catastrophic s) := by
  unfold execTempPoll
  repeat' with_reducible first | assumption | apply State.Ends.next | apply State.Follows.ite |
      apply State.fatalStop_follows | apply State.foff_follows | apply State.fon_follows |
      apply State.fset_follows | apply State.log_follows | apply State.raise_follows | apply State.took_follows

theorem execPatrolScrub_follows {orig : State} (s : State) (hyp : orig.Follows s) :
    orig.Ends (execPatrolScrub s) := by
  unfold execPatrolScrub
  repeat' first
    | (intro _)
    | with_reducible first | assumption | apply State.Ends.next | apply State.Follows.ite |
      apply State.hbmEnter_follows
    | (simp only [State.Follows.mk_iff]; with_reducible apply State.Keeps.of)
    | split

theorem execPcPendingSet_follows {orig : State} (high : Bool) (value : BitVec 32) (s : State) (hyp : orig.Follows s) :
    orig.Ends (execPcPendingSet high value s) := by
  unfold execPcPendingSet
  repeat' first
    | (intro _)
    | with_reducible first | assumption | apply State.Ends.next | apply State.Follows.ite |
      apply State.pendPc_follows | apply State.Follows.foldl

theorem execSrEnter_follows {orig : State} (stack : Fin 2) (s : State) (hyp : orig.Follows s) :
    orig.Ends (execSrEnter stack s) := by
  unfold execSrEnter
  repeat' with_reducible first | assumption | apply State.Ends.next | apply State.Follows.ite | apply State.fon_follows |
      apply State.srGo_follows

theorem execSrExit_follows {orig : State} (stack : Fin 2) (s : State) (hyp : orig.Follows s) :
    orig.Ends (execSrExit stack s) := by
  unfold execSrExit
  repeat' with_reducible first | assumption | apply State.Ends.next | apply State.Follows.ite | apply State.fon_follows |
      apply State.setStack_follows

theorem execFreqGo_follows {orig : State} (stack : Fin 2) (s : State) (hyp : orig.Follows s) :
    orig.Ends (execFreqGo stack s) := by
  unfold execFreqGo
  repeat' with_reducible first | assumption | apply State.Ends.next | apply State.Follows.ite | apply State.fon_follows |
      apply State.raise_follows | apply State.setStack_follows | apply State.srGo_follows

theorem execSrIdleExpire_follows {orig : State} (stack : Fin 2) (s : State) (hyp : orig.Follows s) :
    orig.Ends (execSrIdleExpire stack s) := by
  unfold execSrIdleExpire
  repeat' with_reducible first | assumption | apply State.Ends.next | apply State.Follows.ite | apply State.srGo_follows

theorem execSrEntering_follows {orig : State} (stack : Fin 2) (s : State) (hyp : orig.Follows s) :
    orig.Ends (execSrEntering stack s) := by
  unfold execSrEntering
  repeat' first
    | (intro _)
    | with_reducible first | assumption | apply State.Ends.next | apply State.Follows.ite | apply State.srGo_follows

theorem execSreIssue_follows {orig : State} (stack : Fin 2) (s : State) (hyp : orig.Follows s) :
    orig.Ends (execSreIssue stack s) := by
  unfold execSreIssue
  repeat' with_reducible first | assumption | apply State.Ends.next | apply State.Follows.ite |
      apply State.foff_follows | apply State.raise_follows | apply State.srGo_follows

theorem execSrResidencyEnd_follows {orig : State} (stack : Fin 2) (s : State) (hyp : orig.Follows s) :
    orig.Ends (execSrResidencyEnd stack s) := by
  unfold execSrResidencyEnd
  repeat' with_reducible first | assumption | apply State.Ends.next | apply State.Follows.ite | apply State.srGo_follows

theorem execFreqSwitchDone_follows {orig : State} (stack : Fin 2) (s : State) (hyp : orig.Follows s) :
    orig.Ends (execFreqSwitchDone stack s) := by
  unfold execFreqSwitchDone
  repeat' first
    | (intro _)
    | with_reducible first | assumption | apply State.Ends.next | apply State.Follows.ite | apply State.fset_follows | apply
      State.setStack_follows | apply State.srGo_follows | apply State.srShow_follows
    | (simp only [State.Follows.mk_iff]; with_reducible apply State.Keeps.of)
    | split

theorem State.stackSpeed_follows {orig : State} (s : State) (k : Nat) (hyp : orig.Follows s) :
    orig.Follows (State.stackSpeed s k) := by
  unfold State.stackSpeed
  repeat' first
    | (intro _)
    | with_reducible first | assumption | apply State.Follows.ite | apply State.setStack_follows | apply State.srGo_follows
    | (simp only [State.Follows.mk_iff]; with_reducible apply State.Keeps.of)
    | split

theorem execSrExitDone_follows {orig : State} (stack : Fin 2) (s : State) (hyp : orig.Follows s) :
    orig.Ends (execSrExitDone stack s) := by
  unfold execSrExitDone
  repeat' first
    | (intro _)
    | with_reducible first | assumption | apply State.Ends.next | apply State.Follows.ite | apply State.raise_follows | apply
      State.setStack_follows | apply State.srCtrlDone_follows | apply State.srGo_follows | apply
      State.stackSpeed_follows
    | (simp only [State.Follows.mk_iff]; with_reducible apply State.Keeps.of)
    | split

/-! ### ClkOps -/

theorem State.setClk_follows {orig : State} (s : State) (x : ClkSt) (hyp : orig.Follows s) :
    orig.Follows (State.setClk s x) := by
  unfold State.setClk
  repeat' first
    | (intro _)
    | with_reducible first | assumption
    | (simp only [State.Follows.mk_iff]; with_reducible apply State.Keeps.of)

theorem State.stepMarks_follows {orig : State} (s : State) (kind before after : Nat) (hyp : orig.Follows s) :
    orig.Follows (State.stepMarks s kind before after) := by
  unfold State.stepMarks
  repeat' first
    | (intro _)
    | with_reducible first | assumption | apply State.Follows.ite | apply State.after_follows |
      apply State.count_follows | apply State.journal_follows | apply State.logAt_follows |
      apply State.raise_follows | apply State.setHfbIn_follows | apply State.setPair_follows |
      apply State.setRing_follows | apply State.warpStep_follows | apply State.wr_follows |
      apply State.Follows.foldl

theorem State.portStep_follows {orig : State} (s : State) (p : Nat) (d : Int) (hyp : orig.Follows s) :
    orig.Follows (State.portStep s p d) := by
  unfold State.portStep
  repeat' first
    | (intro _)
    | with_reducible first | assumption | apply State.setCch_follows | apply State.setPlace_follows |
      apply State.setPort_follows | apply State.setStrm_follows | apply State.Follows.foldl

theorem State.warpStep_follows {orig : State} (s : State) (kind after : Nat) (hyp : orig.Follows s) :
    orig.Follows (State.warpStep s kind after) := by
  unfold State.warpStep
  repeat' first
    | (intro _)
    | with_reducible first | assumption | apply State.after_follows | apply State.portStep_follows |
      apply State.stepMarks_follows | apply State.Follows.foldl
    | (simp only [State.Follows.mk_iff]; with_reducible apply State.Keeps.of)

theorem State.rootAt_follows {orig : State} (s : State) (x : Int) (hyp : orig.Follows s) :
    orig.Follows (State.rootAt s x) := by
  unfold State.rootAt
  repeat' first
    | (intro _)
    | with_reducible first | assumption | apply State.setClk_follows
    | (simp only [State.Follows.mk_iff]; with_reducible apply State.Keeps.of)
    | split

theorem State.refMeasured_follows {orig : State} (s : State) (ppb : Int) (hyp : orig.Follows s) :
    orig.Follows (State.refMeasured s ppb) := by
  unfold State.refMeasured
  repeat' first
    | (intro _)
    | with_reducible first | assumption | apply State.Follows.ite | apply State.wr_follows | apply
      State.rootAt_follows
    | (simp only [State.Follows.mk_iff]; with_reducible apply State.Keeps.of)
    | split

theorem State.logOpen_follows {orig : State} (s : State) (vec sev unit a0 a1 : Nat) (hyp : orig.Follows s) :
    orig.Follows (State.logOpen s vec sev unit a0 a1) := by
  unfold State.logOpen
  repeat' with_reducible first | assumption | apply State.log_follows | apply State.took_follows

theorem State.holdoverEnd_follows {orig : State} (s : State) (hyp : orig.Follows s) :
    orig.Follows (State.holdoverEnd s) := by
  unfold State.holdoverEnd
  repeat' with_reducible first | assumption | apply State.Follows.ite | apply State.emcyOffAll_follows |
      apply State.foff_follows | apply State.raise_follows | apply State.setClk_follows

theorem State.unalign_follows {orig : State} (s : State) (hyp : orig.Follows s) :
    orig.Follows (State.unalign s) := by
  unfold State.unalign
  repeat' first
    | (intro _)
    | with_reducible first | assumption | apply State.Follows.ite | apply State.condReady_follows |
      apply State.foff_follows | apply State.Follows.foldl

theorem State.relockStack_follows {orig : State} (s : State) (k : Nat) (hyp : orig.Follows s) :
    orig.Follows (State.relockStack s k) := by
  unfold State.relockStack
  repeat' with_reducible first | assumption | apply State.Follows.ite | apply State.srGo_follows

theorem State.lockPhase_follows {orig : State} (s : State) (hyp : orig.Follows s) :
    orig.Follows (State.lockPhase s) := by
  unfold State.lockPhase
  repeat' with_reducible first | assumption | apply State.fset_follows | apply State.took_follows

theorem State.rootLocked_follows {orig : State} (s : State) (hyp : orig.Follows s) :
    orig.Follows (State.rootLocked s) := by
  unfold State.rootLocked
  repeat' first
    | (intro _)
    | with_reducible first | assumption | apply State.Follows.ite | apply State.fon_follows | apply
      State.raise_follows | apply State.rootAt_follows | apply State.lockPhase_follows
    | (simp only [State.Follows.mk_iff]; with_reducible apply State.Keeps.of)
    | split

theorem State.refFail_follows {orig : State} (s : State) (hyp : orig.Follows s) :
    orig.Follows (State.refFail s) := by
  unfold State.refFail
  repeat' with_reducible first | assumption | apply State.fon_follows | apply State.raise_follows

theorem State.relockStart_follows {orig : State} (s : State) (refin : Bool) (hyp : orig.Follows s) :
    orig.Follows (State.relockStart s refin) := by
  unfold State.relockStart
  extract_lets s1 s2 wait
  have h1 : orig.Follows s1 :=
    State.applyXtal_follows _ (State.relockStack_follows _ _ (State.relockStack_follows _ _ (State.holdoverEnd_follows _ hyp)))
  have h2 : orig.Follows s2 := State.foff_follows _ _ _ (State.fon_follows _ _ _ (State.foff_follows _ _ _ h1))
  exact State.unalign_follows _ (State.setClk_follows _ _ h2)

theorem State.relockExit_follows {orig : State} (s : State) (k : Nat) (hyp : orig.Follows s) :
    orig.Follows (State.relockExit s k) := by
  unfold State.relockExit
  repeat' with_reducible first | assumption | apply State.Follows.ite | apply State.srGo_follows

theorem State.relockEnd_follows {orig : State} (s : State) (hyp : orig.Follows s) :
    orig.Follows (State.relockEnd s) := by
  unfold State.relockEnd
  repeat' with_reducible first | assumption | apply State.foff_follows | apply State.relockExit_follows |
      apply State.setClk_follows | apply State.stepMarks_follows

theorem State.snapEnd_follows {orig : State} (s : State) (e : Int) (hyp : orig.Follows s) :
    orig.Follows (State.snapEnd s e) := by
  unfold State.snapEnd
  extract_lets s1 src s2 s3
  have h1 : orig.Follows s1 := State.warpStep_follows _ _ _ hyp
  have h3 : orig.Follows s3 := State.fset_follows _ _ _ _ (State.raise_follows _ _ _ (State.setClk_follows _ _ h1))
  exact State.Follows.ite (State.holdoverEnd_follows _ (State.rootAt_follows _ _
    (State.raise_follows _ _ _ (State.fon_follows _ _ _ h3)))) h3

/-! ### Hoofbeat -/

theorem State.hfbReady_follows {orig : State} (s : State) (hyp : orig.Follows s) :
    orig.Follows (State.hfbReady s) := by
  unfold State.hfbReady
  repeat' first
    | (intro _)
    | with_reducible first | assumption | apply State.Follows.ite | apply State.fset_follows

theorem State.stampPush_follows {orig : State} (s : State) (i : Nat) (e : SideEntry) (hyp : orig.Follows s) :
    orig.Follows (State.stampPush s i e) := by
  unfold State.stampPush
  repeat' first
    | (intro _)
    | with_reducible first | assumption | apply State.Follows.ite | apply State.setHfbIn_follows | apply State.setSide_follows | apply
      State.turnPush_follows | apply State.turnWait_follows
    | (simp only [State.Follows.mk_iff]; with_reducible apply State.Keeps.of)
    | split

theorem State.stampRefusal_follows {orig : State} (s : State) (i : Nat) (hyp : orig.Follows s) :
    orig.Follows (State.stampRefusal s i) := by
  unfold State.stampRefusal
  repeat' first
    | (intro _)
    | with_reducible first | assumption | apply State.bitOn_follows | apply State.count_follows | apply State.raise_follows | apply
      State.setHfbIn_follows | apply State.sideRefused_follows
    | (simp only [State.Follows.mk_iff]; with_reducible apply State.Keeps.of)

theorem State.stamp_follows {orig : State} (s : State) (i : Nat) (falling : Bool) (tap : Nat) (hyp : orig.Follows s) :
    orig.Follows (State.stamp s i falling tap) := by
  unfold State.stamp
  repeat' first
    | (intro _)
    | with_reducible first | assumption | apply State.Follows.ite | apply State.count_follows | apply
      State.pulseBus_follows | apply State.setHfbIn_follows | apply State.warpStep_follows | apply
      State.stampPush_follows
    | (simp only [State.Follows.mk_iff]; with_reducible apply State.Keeps.of)
    | split

theorem State.hfbTake_follows {orig : State} (s : State) (i : Nat) (falling : Bool) (tap : Nat) (hyp : orig.Follows s)
  :
    orig.Follows (State.hfbTake s i falling tap) := by
  unfold State.hfbTake
  repeat' first
    | (intro _)
    | with_reducible first | assumption | apply State.Follows.ite | apply State.count_follows | apply
      State.setHfbIn_follows | apply State.stamp_follows
    | (simp only [State.Follows.mk_iff]; with_reducible apply State.Keeps.of)
    | split

theorem execHfbEdge_follows {orig : State} (input : Fin 32) (falling : Bool) (tap : Fin 256) (s : State) (hyp :
  orig.Follows s) :
    orig.Ends (execHfbEdge input falling tap s) := by
  unfold execHfbEdge
  repeat' first
    | (intro _)
    | with_reducible first | assumption | apply State.Ends.next | apply State.Follows.ite | apply
      State.setHfbIn_follows | apply State.hfbTake_follows
    | (simp only [State.Follows.mk_iff]; with_reducible apply State.Keeps.of)
    | split

theorem execHfbDllLock_follows {orig : State} (input : Fin 32) (s : State) (hyp : orig.Follows s) :
    orig.Ends (execHfbDllLock input s) := by
  unfold execHfbDllLock
  repeat' with_reducible first | assumption | apply State.Ends.next | apply State.bitOn_follows |
      apply State.hfbReady_follows

theorem execDllUnlock_follows {orig : State} (input : Fin 32) (s : State) (hyp : orig.Follows s) :
    orig.Ends (execDllUnlock input s) := by
  unfold execDllUnlock
  repeat' with_reducible first | assumption | apply State.Ends.next | apply State.Follows.ite |
      apply State.bitOff_follows | apply State.hfbReady_follows | apply State.raise_follows

theorem execHfbCal_follows {orig : State} (s : State) (hyp : orig.Follows s) :
    orig.Ends (execHfbCal s) := by
  unfold execHfbCal
  repeat' first
    | with_reducible assumption
    | (intro x; refine State.Follows.cut (P := orig.Follows x) ?_ ?_; all_goals first | (intro _; clear_value x) | subst x)
    | (intro x; clear_value x)
    | (intro _)
    | with_reducible first | assumption | apply State.Ends.next | apply State.Follows.ite | apply State.again_follows | apply
      State.fon_follows | apply State.hfbCalStart_follows
    | (simp only [State.Follows.mk_iff]; with_reducible apply State.Keeps.of)
    | lift_lets
    | split
    | dsimp only

theorem State.loadTables_follows {orig : State} (s : State) (l : List Nat) (t : List (List (BitVec 16)))
    (hyp : orig.Follows s) : orig.Follows (s.loadTables l t) := by
  induction l generalizing s t with
  | nil => exact hyp
  | cons i l ih =>
    cases t with
    | nil => exact hyp
    | cons x t =>
      unfold State.loadTables
      dsimp only
      apply ih
      split
      · exact State.bitOn_follows _ _ _ (State.setHfbIn_follows _ _ _ hyp)
      · exact hyp

theorem execHfbCalDone_follows {orig : State} (tables : List (List (BitVec 16))) (s : State) (hyp : orig.Follows s) :
    orig.Ends (execHfbCalDone tables s) := by
  unfold execHfbCalDone
  repeat' first
    | (intro _)
    | with_reducible first | assumption | apply State.Ends.next | apply State.Follows.ite |
      apply State.foff_follows | apply State.loadTables_follows | apply State.raise_follows
    | (simp only [State.Follows.mk_iff]; with_reducible apply State.Keeps.of)

theorem State.hfbStart_follows {orig : State} (s : State) (hyp : orig.Follows s) :
    orig.Follows (State.hfbStart s) := by
  unfold State.hfbStart
  repeat' first
    | (intro _)
    | with_reducible first | assumption | apply State.wr_follows | apply State.setHfbIn_follows | apply
      State.Follows.foldl
    | (simp only [State.Follows.mk_iff]; with_reducible apply State.Keeps.of)
    | split

/-! ### BridleOps -/

theorem State.keyEvent_follows {orig : State} (s : State) (code : Nat) (hyp : orig.Follows s) :
    orig.Follows (State.keyEvent s code) := by
  unfold State.keyEvent
  repeat' with_reducible first | assumption | apply State.journal_follows | apply State.took_follows

theorem State.setHead_follows {orig : State} (s : State) (h : List Byte) (hyp : orig.Follows s) :
    orig.Follows (State.setHead s h) := by
  unfold State.setHead
  repeat' first
    | (intro _)
    | with_reducible first | assumption | apply State.wr_follows | apply State.Follows.foldl
    | (simp only [State.Follows.mk_iff]; with_reducible apply State.Keeps.of)

theorem State.setBacklog_follows {orig : State} (s : State) (xs : List (JEntry × Nat)) (hyp : orig.Follows s) :
    orig.Follows (State.setBacklog s xs) := by
  unfold State.setBacklog
  repeat' first
    | (intro _)
    | with_reducible first | assumption | apply State.wr_follows
    | (simp only [State.Follows.mk_iff]; with_reducible apply State.Keeps.of)

theorem State.chainEntry_follows {orig : State} (s : State) (e : JEntry) (hyp : orig.Follows s) :
    orig.Follows (State.chainEntry s e) := by
  unfold State.chainEntry
  repeat' first
    | (intro _)
    | with_reducible first | assumption | apply State.Follows.ite | apply State.count_follows |
      apply State.raise_follows | apply State.setBacklog_follows | apply State.setHead_follows
    | (simp only [State.Follows.mk_iff]; with_reducible apply State.Keeps.of)

theorem State.brdFail_follows {orig : State} (s : State) (result : Nat) (hyp : orig.Follows s) :
    orig.Follows (State.brdFail s result) := by
  unfold State.brdFail
  repeat' with_reducible first | assumption | apply State.brdEnd_follows | apply State.wr_follows

theorem State.brdOpen_follows {orig : State} (s : State) (hyp : orig.Follows s) :
    orig.Follows (State.brdOpen s) := by
  unfold State.brdOpen
  repeat' with_reducible first | assumption | apply State.brdFail_follows | apply State.took_follows

theorem State.brdRetry_follows {orig : State} (s : State) (hyp : orig.Follows s) :
    orig.Follows (State.brdRetry s) := by
  unfold State.brdRetry
  repeat' with_reducible first | assumption | apply State.brdFail_follows | apply State.raise_follows

theorem State.brdOut_follows {orig : State} (s : State) (bytes : List Byte) (hyp : orig.Follows s) :
    orig.Follows (State.brdOut s bytes) := by
  unfold State.brdOut
  repeat' first
    | (intro _)
    | with_reducible first | assumption | apply State.brdEnd_follows | apply State.wr_follows
    | (simp only [State.Follows.mk_iff]; with_reducible apply State.Keeps.of)

theorem State.brdRun_follows {orig : State} (s : State) (code : Nat) (act : List Byte → State)
    (hyp : orig.Follows s) (h : ∀ i, orig.Follows (act i)) : orig.Follows (s.brdRun code act) := by
  unfold State.brdRun
  split
  · exact hyp
  · split
    · exact State.brdRetry_follows _ hyp
    · split
      · exact hyp
      · split
        · exact State.brdFail_follows _ _ hyp
        · exact h _

theorem State.brdGo_follows {orig : State} (s : State) (src : Nat) (hyp : orig.Follows s) :
    orig.Follows (State.brdGo s src) := by
  unfold State.brdGo
  repeat' first
    | (intro _)
    | with_reducible first | assumption | apply State.Follows.ite | apply State.fon_follows | apply
      State.againBy_follows | apply State.took_follows | apply State.brdFail_follows | apply State.brdRetry_follows
    | (simp only [State.Follows.mk_iff]; with_reducible apply State.Keeps.of)
    | split

theorem State.brdBrownout_follows {orig : State} (s : State) (hyp : orig.Follows s) :
    orig.Follows (State.brdBrownout s) := by
  unfold State.brdBrownout
  extract_lets s1 s2
  have h1 : orig.Follows s1 := State.Follows.ite (State.brdRetry_follows _ hyp) hyp
  have h2 : orig.Follows s2 := State.raise_follows _ _ _ (State.foff_follows _ _ _ h1)
  exact State.Follows.ite (State.Follows.upd h2 rfl rfl rfl rfl rfl rfl) h1

theorem State.setOwner_follows {orig : State} (s : State) (k v : Nat) (hyp : orig.Follows s) :
    orig.Follows (State.setOwner s k v) := by
  unfold State.setOwner
  repeat' first
    | (intro _)
    | with_reducible first | assumption | apply State.Follows.ite | apply State.fset_follows

theorem State.imagePassed_follows {orig : State} (s : State) (b : List Byte) (hyp : orig.Follows s) :
    orig.Follows (State.imagePassed s b) := by
  unfold State.imagePassed
  repeat' with_reducible first | assumption | apply State.Follows.ite | apply State.fset_follows |
      apply State.keyEvent_follows | apply State.took_follows

theorem State.zeroise_follows {orig : State} (s : State) (hyp : orig.Follows s) :
    orig.Follows (State.zeroise s) := by
  unfold State.zeroise
  repeat' first
    | (intro _)
    | with_reducible first | assumption | apply State.fon_follows | apply State.keyEvent_follows |
      apply State.keysGone_follows | apply State.Follows.foldl

theorem State.dikFail_follows {orig : State} (s : State) (hyp : orig.Follows s) :
    orig.Follows (State.dikFail s) := by
  unfold State.dikFail
  repeat' with_reducible first | assumption | apply State.Follows.ite | apply State.brdFail_follows

theorem State.manifestStart_follows {orig : State} (s : State) (hyp : orig.Follows s) :
    orig.Follows (State.manifestStart s) := by
  unfold State.manifestStart
  repeat' first
    | (intro _)
    | with_reducible first | assumption | apply State.fon_follows
    | (simp only [State.Follows.mk_iff]; with_reducible apply State.Keeps.of)
    | split

theorem State.manifestAgain_follows {orig : State} (s : State) (hyp : orig.Follows s) :
    orig.Follows (State.manifestAgain s) := by
  unfold State.manifestAgain
  repeat' first
    | (intro _)
    | with_reducible first | assumption | apply State.Follows.ite | apply State.manifestStart_follows
    | (simp only [State.Follows.mk_iff]; with_reducible apply State.Keeps.of)
    | split

theorem State.brdRunStart_follows {orig : State} (s : State) (hyp : orig.Follows s) :
    orig.Follows (State.brdRunStart s) := by
  unfold State.brdRunStart
  repeat' first
    | (intro _)
    | with_reducible first | assumption | apply State.deriveRun_follows | apply State.Follows.foldl
    | (simp only [State.Follows.mk_iff]; with_reducible apply State.Keeps.of)

/-! ### SpnOps -/

theorem State.setSpch_follows {orig : State} (s : State) (k : Nat) (x : SpnCh) (hyp : orig.Follows s) :
    orig.Follows (State.setSpch s k x) := by
  unfold State.setSpch
  repeat' first
    | (intro _)
    | with_reducible first | assumption
    | (simp only [State.Follows.mk_iff]; with_reducible apply State.Keeps.of)

theorem State.spnShow_follows {orig : State} (s : State) (k : Nat) (hyp : orig.Follows s) :
    orig.Follows (State.spnShow s k) := by
  unfold State.spnShow
  repeat' first
    | (intro _)
    | with_reducible first | assumption | apply State.Follows.ite | apply State.fset_follows

theorem State.spnGo_follows {orig : State} (s : State) (k st : Nat) (x : SpnCh) (hyp : orig.Follows s) :
    orig.Follows (State.spnGo s k st x) := by
  unfold State.spnGo
  repeat' with_reducible first | assumption | apply State.fset_follows | apply State.setSpch_follows |
      apply State.spnShow_follows

theorem State.setSpnPc_follows {orig : State} (s : State) (k v : Nat) (hyp : orig.Follows s) :
    orig.Follows (State.setSpnPc s k v) := by
  unfold State.setSpnPc
  repeat' with_reducible first | assumption | apply State.setPair_follows

theorem State.spnFault_follows {orig : State} (s : State) (k code dir addr : Nat) (hyp : orig.Follows s) :
    orig.Follows (State.spnFault s k code dir addr) := by
  unfold State.spnFault
  extract_lets x info flags s1 s2 src1 src2
  have h1 : orig.Follows s1 := State.bitOn_follows _ _ _ (State.wr_follows _ _ _ (State.setPair_follows _ _ _ _ hyp))
  have h2 : orig.Follows s2 := State.log_follows _ _ _ _ _ _ _ (State.Follows.ite h1 (State.raise_follows _ _ _ h1))
  exact State.Follows.ite (State.spnGo_follows _ _ _ _ h2) (State.spnGo_follows _ _ _ _ h2)

theorem State.spnBeside_follows {orig : State} (s : State) (k : Nat) (f : State → State) (hyp : orig.Follows s)
    (hf : ∀ x, orig.Follows x → orig.Follows (f x)) : orig.Follows (s.spnBeside k f) := by
  unfold State.spnBeside
  split
  · exact State.Follows.ite (State.Follows.ite (hf _ (State.spnGo_follows _ _ _ _ hyp)) hyp) (hf _ hyp)
  · exact hf _ hyp

theorem State.pokeDone_follows {orig : State} (s : State) (k : Nat) (hyp : orig.Follows s) :
    orig.Follows (State.pokeDone s k) := by
  unfold State.pokeDone
  repeat' first
    | (intro _)
    | with_reducible first | assumption | apply State.foff_follows | apply State.setSpch_follows
    | (simp only [State.Follows.mk_iff]; with_reducible apply State.Keeps.of)

theorem State.pokeOne_follows {orig : State} (s : State) (k : Nat) (hyp : orig.Follows s) :
    orig.Follows (State.pokeOne s k) := by
  unfold State.pokeOne
  repeat' first
    | (intro _)
    | with_reducible first | assumption | apply State.Follows.ite | apply State.pokeDone_follows | apply State.spnGo_follows
    | (simp only [State.Follows.mk_iff]; with_reducible apply State.Keeps.of)
    | split

theorem State.pokeWrite_follows {orig : State} (s : State) (k : Nat) (free : Bool) (hyp : orig.Follows s) :
    orig.Follows (State.pokeWrite s k free) := by
  unfold State.pokeWrite
  repeat' first
    | (intro _)
    | with_reducible first | assumption | apply State.Follows.ite | apply State.fon_follows | apply
      State.setSpch_follows | apply State.pokeOne_follows
    | (simp only [State.Follows.mk_iff]; with_reducible apply State.Keeps.of)
    | split

theorem State.pokesServe_follows {orig : State} (s : State) (hyp : orig.Follows s) :
    orig.Follows (State.pokesServe s) := by
  unfold State.pokesServe
  repeat' first
    | (intro _)
    | with_reducible first | assumption | apply State.pokeOne_follows | apply State.Follows.foldl

theorem State.spnBoundary_follows {orig : State} (s : State) (k : Nat) (w : Option SpnWork) (hyp : orig.Follows s) :
    orig.Follows (State.spnBoundary s k w) := by
  unfold State.spnBoundary
  repeat' first
    | (intro _)
    | with_reducible first | assumption | apply State.Follows.ite | apply State.raise_follows | apply
      State.spnGo_follows
    | (simp only [State.Follows.mk_iff]; with_reducible apply State.Keeps.of)
    | split

theorem State.spnNext_follows {orig : State} (s : State) (k : Nat) (hyp : orig.Follows s) :
    orig.Follows (State.spnNext s k) := by
  unfold State.spnNext
  repeat' with_reducible first | assumption | apply State.setSpnPc_follows | apply State.spnBoundary_follows

theorem State.spnHole_follows {orig : State} (s : State) (addr : Nat) (hyp : orig.Follows s) :
    orig.Follows (State.spnHole s addr) := by
  unfold State.spnHole
  repeat' first
    | (intro _)
    | with_reducible first | assumption | apply State.Follows.ite | apply State.holeAccess_follows
    | (simp only [State.Follows.mk_iff]; with_reducible apply State.Keeps.of)
    | split

theorem State.spnFetchFault_follows {orig : State} (s : State) (k : Nat) (ue : Bool) (c : Nat) (hyp : orig.Follows s)
    :
    orig.Follows (State.spnFetchFault s k ue c) := by
  unfold State.spnFetchFault
  repeat' with_reducible first | assumption | apply State.Follows.ite | apply State.readReach_follows | apply State.spnFault_follows |
      apply State.spnHole_follows

theorem State.spnRun_follows {orig : State} (s : State) (k : Nat) (isMine : Nat → Bool) (ue : Bool)
    (body : State → SpnIns → State) (hyp : orig.Follows s) (h : ∀ t i, orig.Follows t → orig.Follows (body t i)) :
    orig.Follows (s.spnRun k isMine ue body) := by
  unfold State.spnRun
  refine State.spnBeside_follows _ _ _ hyp fun t ht => State.Follows.ite ht ?_
  dsimp only
  split
  · exact State.spnFetchFault_follows _ _ _ _ ht
  · have h1 : orig.Follows (t.readReach (t.spnPc k) 32 none) := State.readReach_follows _ _ _ _ ht
    exact State.Follows.ite ht (State.Follows.ite (State.spnFault_follows _ _ _ _ _ h1) (h _ _ h1))
  · exact ht

theorem State.entryRest_follows {orig : State} (s : State) (p k : Nat) (f : Fragment) (trailer : List Byte) (hyp :
  orig.Follows s) :
    orig.Follows (State.entryRest s p k f trailer) := by
  unfold State.entryRest
  repeat' first
    | (intro _)
    | with_reducible first | assumption | apply State.setHport_follows | apply State.sendWrites_follows
    | (simp only [State.Follows.mk_iff]; with_reducible apply State.Keeps.of)
    | split

theorem State.spinPut_follows {orig : State} (s : State) (p : Nat) (ws : List (Nat × List Byte)) (hyp : orig.Follows
  s) :
    orig.Follows (State.spinPut s p ws) := by
  unfold State.spinPut
  repeat' first
    | (intro _)
    | with_reducible first | assumption | apply State.Follows.ite | apply State.setHport_follows | apply
      State.sendWrites_follows
    | (simp only [State.Follows.mk_iff]; with_reducible apply State.Keeps.of)
    | split

theorem State.spnAsk_follows {orig : State} (s : State) (addr n : Nat) (hyp : orig.Follows s) :
    orig.Follows (State.spnAsk s addr n) := by
  unfold State.spnAsk
  repeat' first
    | (intro _)
    | with_reducible first | assumption | apply State.Follows.ite | apply State.partnerGet_follows
    | (simp only [State.Follows.mk_iff]; with_reducible apply State.Keeps.of)
    | split

theorem State.spnReadFault_follows {orig : State} (s : State) (k addr n : Nat) (ue : Option Nat) (c : Nat) (hyp :
  orig.Follows s) :
    orig.Follows (State.spnReadFault s k addr n ue c) := by
  unfold State.spnReadFault
  repeat' first
    | (intro _)
    | with_reducible first | assumption | apply State.Follows.ite | apply State.readReach_follows | apply
      State.spnFault_follows | apply State.spnHole_follows | apply State.spnAsk_follows
    | (simp only [State.Follows.mk_iff]; with_reducible apply State.Keeps.of)
    | split

theorem State.spnWrite_follows {orig : State} (s : State) (k addr : Nat) (bs : List Byte) (hyp : orig.Follows s) :
    orig.Follows (State.spnWrite s k addr bs) := by
  unfold State.spnWrite
  repeat' first
    | (intro _)
    | with_reducible first | assumption | apply State.hbmFill_follows | apply State.setCore_follows | apply
      State.setSpch_follows | apply State.spinPut_follows
    | (simp only [State.Follows.mk_iff]; with_reducible apply State.Keeps.of)
    | split

theorem State.spnAdvance_follows {orig : State} (s : State) (k : Nat) (i : SpnIns) (n : Nat) (hyp : orig.Follows s) :
    orig.Follows (State.spnAdvance s k i n) := by
  unfold State.spnAdvance
  repeat' with_reducible first | assumption | apply State.Follows.ite | apply State.setPair_follows

theorem State.spnQuiesce_follows {orig : State} (s : State) (d : Nat) (hyp : orig.Follows s) :
    orig.Follows (State.spnQuiesce s d) := by
  unfold State.spnQuiesce
  repeat' first
    | (intro _)
    | with_reducible first | assumption | apply State.Follows.ite | apply State.setSpch_follows | apply
      State.spnBoundary_follows | apply State.Follows.foldl
    | (simp only [State.Follows.mk_iff]; with_reducible apply State.Keeps.of)
    | split

theorem State.spnResume_follows {orig : State} (s : State) (d : Nat) (hyp : orig.Follows s) :
    orig.Follows (State.spnResume s d) := by
  unfold State.spnResume
  repeat' first
    | (intro _)
    | with_reducible first | assumption | apply State.Follows.ite | apply State.spnGo_follows | apply
      State.Follows.foldl
    | (simp only [State.Follows.mk_iff]; with_reducible apply State.Keeps.of)
    | split

theorem State.spnServed_follows {orig : State} (s : State) (k : Nat) (hyp : orig.Follows s) :
    orig.Follows (State.spnServed s k) := by
  unfold State.spnServed
  repeat' first
    | (intro _)
    | with_reducible first | assumption | apply State.Follows.ite
    | (simp only [State.Follows.mk_iff]; with_reducible apply State.Keeps.of)
    | split

end Sys2Proof.Machine
end

