-- ==== Sys2Proof/Laws/Keeps6.lean ====
section
/-!
SUPPORT. Each operation and meaning of Harness, Clocks, PowerOps, Power, RunOps, Spectral keeps what State.Follows
  says: one lemma for each, named after it.
-/

set_option linter.all false

namespace Sys2Proof.Machine

/-! ### Harness -/

theorem execFragmentTag_follows {orig : State} (engine : Fin 32) (s : State) (hyp : orig.Follows s) :
    orig.Ends (execFragmentTag engine s) := by
  unfold execFragmentTag
  repeat' first
    | (intro _)
    | with_reducible first | assumption | apply State.Ends.next | apply State.Follows.ite | apply State.count_follows | apply
      State.fatalStop_follows | apply State.keyUsed_follows | apply State.log_follows | apply
      State.raise_follows | apply State.ringStall_follows | apply State.setEngine_follows | apply
      State.took_follows
    | (simp only [State.Follows.mk_iff]; with_reducible apply State.Keeps.of)
    | split

theorem State.entryWritten_follows {orig : State} (s : State) (p r : Nat) (f : Fragment) (hyp : orig.Follows s) :
    orig.Follows (State.entryWritten s p r f) := by
  unfold State.entryWritten
  repeat' first
    | (intro _)
    | with_reducible first | assumption | apply State.setPring_follows | apply State.setStream_follows

theorem execRingEntryWrite_follows {orig : State} (engine : Fin 32) (s : State) (hyp : orig.Follows s) :
    orig.Ends (execRingEntryWrite engine s) := by
  unfold execRingEntryWrite
  repeat' first
    | (intro _)
    | with_reducible first | assumption | apply State.Ends.next | apply State.Follows.ite | apply State.foff_follows |
      apply State.setEngine_follows | apply State.ringStall_follows | apply State.entryRest_follows | apply
      State.entryWritten_follows
    | (simp only [State.Follows.mk_iff]; with_reducible apply State.Keeps.of)
    | split

theorem execNotifyHoldExpire_follows {orig : State} (port : Fin 4) (ring : Fin 16) (s : State) (hyp : orig.Follows
    s) :
    orig.Ends (execNotifyHoldExpire port ring s) := by
  unfold execNotifyHoldExpire
  repeat' first
    | (intro _)
    | with_reducible first | assumption | apply State.Ends.next | apply State.Follows.ite |
      apply State.setPring_follows
    | (simp only [State.Follows.mk_iff]; with_reducible apply State.Keeps.of)
    | split

theorem execNotifySend_follows {orig : State} (port : Fin 4) (ring : Fin 16) (s : State) (hyp : orig.Follows s) :
    orig.Ends (execNotifySend port ring s) := by
  unfold execNotifySend
  repeat' with_reducible first | assumption | apply State.Ends.next | apply State.Follows.ite |
      apply State.foff_follows | apply State.partnerPut_follows | apply State.setPair_follows |
      apply State.setPring_follows

theorem execNotifyTransmitted_follows {orig : State} (port : Fin 4) (ring : Fin 16) (s : State) (hyp : orig.Follows
    s) :
    orig.Ends (execNotifyTransmitted port ring s) := by
  unfold execNotifyTransmitted
  repeat' first
    | (intro _)
    | with_reducible first | assumption | apply State.Ends.next | apply State.setPring_follows |
      apply State.wr_follows
    | (simp only [State.Follows.mk_iff]; with_reducible apply State.Keeps.of)
    | split

theorem execPerstAssert_follows {orig : State} (port : Fin 4) (s : State) (hyp : orig.Follows s) :
    orig.Ends (execPerstAssert port s) := by
  unfold execPerstAssert
  repeat' with_reducible first | assumption | apply State.Ends.next | apply State.Follows.ite |
      apply State.linkFell_follows | apply State.portLoss_follows | apply State.portPageReset_follows |
      apply State.wr_follows

theorem execPerstDeassert_follows {orig : State} (port : Fin 4) (s : State) (hyp : orig.Follows s) :
    orig.Ends (execPerstDeassert port s) := by
  unfold execPerstDeassert
  repeat' with_reducible first | assumption | apply State.Ends.next | apply State.Follows.ite |
      apply State.foff_follows | apply State.portApply_follows | apply State.resetEnded_follows

theorem State.functionReset_follows {orig : State} (s : State) (p : Nat) (hyp : orig.Follows s) :
    orig.Follows (State.functionReset s p) := by
  unfold State.functionReset
  repeat' with_reducible first | assumption | apply State.foff_follows | apply State.portLoss_follows |
      apply State.portPageReset_follows

theorem execHotReset_follows {orig : State} (port : Fin 4) (s : State) (hyp : orig.Follows s) :
    orig.Ends (execHotReset port s) := by
  unfold execHotReset
  repeat' first
    | (intro _)
    | with_reducible first | assumption | apply State.Ends.next | apply State.Follows.ite |
      apply State.functionReset_follows | apply State.portApply_follows | apply State.resetEnded_follows

theorem execFlr_follows {orig : State} (port : Fin 4) (s : State) (hyp : orig.Follows s) :
    orig.Ends (execFlr port s) := by
  unfold execFlr
  repeat' first
    | (intro _)
    | with_reducible first | assumption | apply State.Ends.next | apply State.Follows.ite |
      apply State.functionReset_follows | apply State.resetEnded_follows

theorem execLinkUp_follows {orig : State} (port : Fin 4) (gen : Fin 8) (width : Fin 4) (x1 : Bool) (s : State) (hyp :
  orig.Follows s) :
    orig.Ends (execLinkUp port gen width x1 s) := by
  unfold execLinkUp
  repeat' first
    | (intro _)
    | with_reducible first | assumption | apply State.Ends.next | apply State.Follows.ite | apply State.fset_follows |
      apply State.fon_follows | apply State.raise_follows | apply State.portResume_follows | apply
      State.msixFlush_follows
    | (simp only [State.Follows.mk_iff]; with_reducible apply State.Keeps.of)
    | split

theorem execLinkDown_follows {orig : State} (port : Fin 4) (s : State) (hyp : orig.Follows s) :
    orig.Ends (execLinkDown port s) := by
  unfold execLinkDown
  repeat' with_reducible first | assumption | apply State.Ends.next | apply State.Follows.ite |
      apply State.foff_follows | apply State.linkFell_follows | apply State.portLoss_follows |
      apply State.portStall_follows

theorem execBmeClear_follows {orig : State} (port : Fin 4) (s : State) (hyp : orig.Follows s) :
    orig.Ends (execBmeClear port s) := by
  unfold execBmeClear
  repeat' with_reducible first | assumption | apply State.Ends.next | apply State.Follows.ite |
      apply State.foff_follows | apply State.portLoss_follows | apply State.portStall_follows

theorem execBmeSet_follows {orig : State} (port : Fin 4) (mps : Fin 8) (mrrs : Fin 8) (msix : MsixMode) (s : State)
  (hyp : orig.Follows s) :
    orig.Ends (execBmeSet port mps mrrs msix s) := by
  unfold execBmeSet
  repeat' first
    | (intro _)
    | with_reducible first | assumption | apply State.Ends.next | apply State.Follows.ite | apply State.fset_follows |
      apply State.fon_follows | apply State.setHport_follows | apply State.portResume_follows | apply
      State.msixFlush_follows
    | (simp only [State.Follows.mk_iff]; with_reducible apply State.Keeps.of)
    | split

theorem execRingCfgWrite_follows {orig : State} (port : Fin 4) (ring : Fin 16) (value : BitVec 32) (s : State) (hyp
    : orig.Follows s) :
    orig.Ends (execRingCfgWrite port ring value s) := by
  unfold execRingCfgWrite
  repeat' with_reducible first | assumption | apply State.Ends.next | apply State.Follows.ite |
      apply State.ringCfgWrite_follows

theorem execRingNotifyNow_follows {orig : State} (port : Fin 4) (ring : Fin 16) (value : BitVec 32) (s : State) (hyp
    : orig.Follows s) :
    orig.Ends (execRingNotifyNow port ring value s) := by
  unfold execRingNotifyNow
  repeat' with_reducible first | assumption | apply State.Ends.next | apply State.Follows.ite |
      apply State.notifyNow_follows

theorem execRingRdWrite_follows {orig : State} (port : Fin 4) (ring : Fin 16) (value : BitVec 32) (s : State) (hyp :
    orig.Follows s) :
    orig.Ends (execRingRdWrite port ring value s) := by
  unfold execRingRdWrite
  repeat' with_reducible first | assumption | apply State.Ends.next | apply State.Follows.ite |
      apply State.ringRdWrite_follows

theorem execPartnerDoorbell_follows {orig : State} (port : Fin 4) (value : BitVec 32) (s : State) (hyp :
    orig.Follows s) :
    orig.Ends (execPartnerDoorbell port value s) := by
  unfold execPartnerDoorbell
  repeat' with_reducible first | assumption | apply State.Ends.next | apply State.Follows.ite |
      apply State.doorbell_follows

theorem execPartnerPageWrite_follows {orig : State} (port : Fin 4) (offset : BitVec 16) (size : Nat) (value : BitVec
    64) (s : State) (hyp : orig.Follows s) :
    orig.Ends (execPartnerPageWrite port offset size value s) := by
  unfold execPartnerPageWrite
  repeat' with_reducible first | assumption | apply State.Ends.next | apply State.Follows.ite |
      apply State.pageWrite_follows | apply State.portRefuse_follows

theorem execPartnerLatchRead_follows {orig : State} (port : Fin 4) (offset : BitVec 16) (size : Nat) (s : State)
    (hyp : orig.Follows s) :
    orig.Ends (execPartnerLatchRead port offset size s) := by
  unfold execPartnerLatchRead
  repeat' with_reducible first | assumption | apply State.Ends.next | apply State.Follows.ite |
      apply State.emit_follows | apply State.pageLatch_follows | apply State.portRefuse_follows |
      apply State.took_follows

theorem State.bar2Refuse_follows {orig : State} (s : State) (p : Nat) (hyp : orig.Follows s) :
    orig.Follows (State.bar2Refuse s p) := by
  unfold State.bar2Refuse
  repeat' with_reducible first | assumption | apply State.portRefuse_follows | apply State.raise_follows

theorem execBar2Read_follows {orig : State} (port : Fin 4) (offset : BitVec 64) (len : Nat) (ue : Option Nat) (s :
  State) (hyp : orig.Follows s) :
    orig.Ends (execBar2Read port offset len ue s) := by
  unfold execBar2Read
  repeat' first
    | with_reducible assumption
    | (intro x; refine State.Follows.cut (P := orig.Follows x) ?_ ?_; all_goals first | (intro _; clear_value x) | subst x)
    | (intro x; refine State.Follows.cut (P := ∀ a, orig.Follows (x a)) ?_ ?_; all_goals first | (subst x; intro _) | (intro kf; clear_value x))
    | (intro x; refine State.Follows.cut (P := ∀ t a, orig.Follows t → orig.Follows (x t a)) ?_ ?_; all_goals first | (subst x; intro _ _ _) | (intro kf; clear_value x))
    | (intro x; refine State.Follows.cut (P := ∀ t a b, orig.Follows t → orig.Follows (x t a b)) ?_ ?_; all_goals first | (subst x; intro _ _ _ _) | (intro kf; clear_value x))
    | (intro x; refine State.Follows.cut (P := orig.Follows x.1) ?_ ?_; all_goals first | (intro _; clear_value x) | subst x)
    | (intro x; refine State.Follows.cut (P := orig.Follows x.2) ?_ ?_; all_goals first | (intro _; clear_value x) | subst x)
    | (intro x; refine State.Follows.cut (P := orig.Follows x.state) ?_ ?_; all_goals first | (intro _; clear_value x) | subst x)
    | (intro x; clear_value x)
    | (intro _)
    | with_reducible first | assumption | apply State.Ends.next | apply State.Follows.ite | apply State.emit_follows |
      apply State.holeAccess_follows | apply State.readReach_follows | apply State.bar2Refuse_follows
    | (simp only [State.Follows.mk_iff]; with_reducible apply State.Keeps.of)
    | lift_lets
    | split
    | dsimp only

theorem execBar2Write_follows {orig : State} (port : Fin 4) (s : State) (hyp : orig.Follows s) :
    orig.Ends (execBar2Write port s) := by
  unfold execBar2Write
  repeat' with_reducible first | assumption | apply State.Ends.next | apply State.Follows.ite |
      apply State.bar2Refuse_follows

theorem execMsixSend_follows {orig : State} (port : Fin 4) (value : BitVec 32) (s : State) (hyp : orig.Follows s) :
    orig.Ends (execMsixSend port value s) := by
  unfold execMsixSend
  repeat' first
    | (intro _)
    | with_reducible first | assumption | apply State.Ends.next | apply State.Follows.ite |
      apply State.msixOne_follows | apply State.Follows.foldl

theorem State.doorTake_follows {orig : State} (s : State) (p : Nat) (hyp : orig.Follows s) :
    orig.Follows (State.doorTake s p).1 := by
  unfold State.doorTake
  dsimp only
  split
  · exact hyp
  · split
    · exact State.setHport_follows _ _ _ (State.turnPop_follows _ _ _ hyp)
    · exact hyp

theorem execPartnerDbRead_follows {orig : State} (port : Fin 4) (tag : Nat) (s : State) (hyp : orig.Follows s) :
    orig.Ends (execPartnerDbRead port tag s) := by
  unfold execPartnerDbRead
  repeat' with_reducible first | assumption | apply State.Ends.next | apply State.doorTake_follows |
      apply State.emit_follows

/-! ### Clocks -/

theorem execRelock_follows {orig : State} (s : State) (hyp : orig.Follows s) :
    orig.Ends (execRelock s) := by
  unfold execRelock
  repeat' first
    | with_reducible assumption
    | (intro x; refine State.Follows.cut (P := orig.Follows x) ?_ ?_; all_goals first | (intro _; clear_value x) | subst x)
    | (intro x; clear_value x)
    | (intro _)
    | with_reducible first | assumption | apply State.Ends.next | apply State.Follows.ite | apply State.again_follows | apply
      State.fon_follows | apply State.raise_follows | apply State.relockStart_follows
    | (simp only [State.Follows.mk_iff]; with_reducible apply State.Keeps.of)
    | lift_lets
    | split
    | dsimp only

theorem execCycleSlip_follows {orig : State} (s : State) (hyp : orig.Follows s) :
    orig.Ends (execCycleSlip s) := by
  unfold execCycleSlip
  extract_lets held s1 s2 s3
  have h1 : orig.Follows s1 := State.Follows.ite (State.raise_follows _ _ _ hyp) (State.fatal_follows _ _ _ _ _ _ hyp)
  have h2 : orig.Follows s2 := State.Follows.ite (State.abortDiscard_follows _ (State.stopFaulted_follows _ h1)) h1
  have h3 : orig.Follows s3 := State.Follows.ite (State.refFail_follows _ h2) h2
  exact State.Ends.next (State.Follows.ite hyp (State.relockStart_follows _ _ h3))

theorem execRefinQualifyTimeout_follows {orig : State} (s : State) (hyp : orig.Follows s) :
    orig.Ends (execRefinQualifyTimeout s) := by
  unfold execRefinQualifyTimeout
  repeat' with_reducible first | assumption | apply State.Ends.next | apply State.Follows.ite |
      apply State.refFail_follows | apply State.setClk_follows

theorem execRelockLockDetect_follows {orig : State} (s : State) (hyp : orig.Follows s) :
    orig.Ends (execRelockLockDetect s) := by
  unfold execRelockLockDetect
  repeat' first
    | (intro _)
    | with_reducible first | assumption | apply State.Ends.next | apply State.Follows.ite | apply State.fset_follows |
      apply State.foff_follows | apply State.setClk_follows | apply State.rootLocked_follows
    | (simp only [State.Follows.mk_iff]; with_reducible apply State.Keeps.of)
    | split

theorem execRelockRestart_follows {orig : State} (s : State) (hyp : orig.Follows s) :
    orig.Ends (execRelockRestart s) := by
  unfold execRelockRestart
  repeat' with_reducible first | assumption | apply State.Ends.next | apply State.Follows.ite |
      apply State.relockEnd_follows

theorem State.holdoverStart_follows {orig : State} (s : State) (hyp : orig.Follows s) :
    orig.Follows (State.holdoverStart s) := by
  unfold State.holdoverStart
  repeat' first
    | (intro _)
    | with_reducible first | assumption | apply State.Follows.ite | apply State.fon_follows | apply State.foff_follows
      | apply State.took_follows | apply State.event_follows | apply State.emcyOnAll_follows | apply
      State.setClk_follows
    | (simp only [State.Follows.mk_iff]; with_reducible apply State.Keeps.of)
    | split

theorem State.refinGone_follows {orig : State} (s : State) (hyp : orig.Follows s) :
    orig.Follows (State.refinGone s) := by
  unfold State.refinGone
  repeat' first
    | (intro _)
    | with_reducible first | assumption | apply State.Follows.ite | apply State.foff_follows | apply
      State.setClk_follows | apply State.holdoverStart_follows
    | (simp only [State.Follows.mk_iff]; with_reducible apply State.Keeps.of)
    | split

theorem execRefinLost_follows {orig : State} (ppb : Option Int) (s : State) (hyp : orig.Follows s) :
    orig.Ends (execRefinLost ppb s) := by
  unfold execRefinLost
  repeat' first
    | (intro _)
    | with_reducible first | assumption | apply State.Ends.next | apply State.Follows.ite | apply State.wr_follows |
      apply State.refMeasured_follows | apply State.refinGone_follows
    | (simp only [State.Follows.mk_iff]; with_reducible apply State.Keeps.of)
    | split

theorem execHoldoverLimit_follows {orig : State} (s : State) (hyp : orig.Follows s) :
    orig.Ends (execHoldoverLimit s) := by
  unfold execHoldoverLimit
  repeat' first
    | (intro _)
    | with_reducible first | assumption | apply State.Ends.next | apply State.Follows.ite |
      apply State.fatalStop_follows | apply State.logOpen_follows | apply State.setClk_follows

theorem State.refFreqBad_follows {orig : State} (s : State) (hyp : orig.Follows s) :
    orig.Follows (State.refFreqBad s) := by
  unfold State.refFreqBad
  repeat' first
    | (intro _)
    | with_reducible first | assumption | apply State.fon_follows | apply State.logOpen_follows
    | (simp only [State.Follows.mk_iff]; with_reducible apply State.Keeps.of)
    | split

theorem State.recover_follows {orig : State} (s : State) (e : Int) (hyp : orig.Follows s) :
    orig.Follows (State.recover s e) := by
  unfold State.recover
  repeat' first
    | (intro _)
    | with_reducible first | assumption | apply State.Follows.ite | apply State.fset_follows | apply State.fon_follows
      | apply State.setClk_follows
    | (simp only [State.Follows.mk_iff]; with_reducible apply State.Keeps.of)
    | split

theorem State.refOutside_follows {orig : State} (s : State) (ppb : Int) (hyp : orig.Follows s) :
    orig.Follows (State.refOutside s ppb) := by
  unfold State.refOutside
  repeat' first
    | (intro _)
    | with_reducible first | assumption | apply State.Follows.ite | apply State.wr_follows | apply
      State.refFreqBad_follows
    | (simp only [State.Follows.mk_iff]; with_reducible apply State.Keeps.of)
    | split

theorem execRefinQualified_follows {orig : State} (ppb error : Int) (s : State) (hyp : orig.Follows s) :
    orig.Ends (execRefinQualified ppb error s) := by
  unfold execRefinQualified
  repeat' first
    | (intro _)
    | with_reducible first | assumption | apply State.Ends.next | apply State.Follows.ite | apply State.fon_follows |
      apply State.setClk_follows | apply State.refMeasured_follows | apply State.recover_follows | apply
      State.refOutside_follows
    | (simp only [State.Follows.mk_iff]; with_reducible apply State.Keeps.of)
    | split

theorem execSnapRestart_follows {orig : State} (s : State) (hyp : orig.Follows s) :
    orig.Ends (execSnapRestart s) := by
  unfold execSnapRestart
  repeat' first
    | (intro _)
    | with_reducible first | assumption | apply State.Ends.next | apply State.snapEnd_follows
    | (simp only [State.Follows.mk_iff]; with_reducible apply State.Keeps.of)
    | split

theorem execSlewDone_follows {orig : State} (s : State) (hyp : orig.Follows s) :
    orig.Ends (execSlewDone s) := by
  unfold execSlewDone
  repeat' first
    | (intro _)
    | with_reducible first | assumption | apply State.Ends.next | apply State.Follows.ite | apply
      State.holdoverEnd_follows | apply State.rootLocked_follows
    | (simp only [State.Follows.mk_iff]; with_reducible apply State.Keeps.of)
    | split

theorem execRefFreqBad_follows {orig : State} (ppb : Int) (s : State) (hyp : orig.Follows s) :
    orig.Ends (execRefFreqBad ppb s) := by
  unfold execRefFreqBad
  repeat' first
    | (intro _)
    | with_reducible first | assumption | apply State.Ends.next | apply State.Follows.ite | apply
      State.refMeasured_follows | apply State.refOutside_follows
    | (simp only [State.Follows.mk_iff]; with_reducible apply State.Keeps.of)
    | split

theorem State.checkOut_follows {orig : State} (s : State) (i : Nat) (hyp : orig.Follows s) :
    orig.Follows (State.checkOut s i) := by
  unfold State.checkOut
  repeat' first
    | (intro _)
    | with_reducible first | assumption | apply State.Follows.ite | apply State.bitOff_follows |
      apply State.bitOn_follows | apply State.took_follows
    | (simp only [State.Follows.mk_iff]; with_reducible apply State.Keeps.of)
    | split

theorem State.applyOut_follows {orig : State} (s : State) (i : Nat) (hyp : orig.Follows s) :
    orig.Follows (State.applyOut s i) := by
  unfold State.applyOut
  repeat' first
    | (intro _)
    | with_reducible first | assumption | apply State.bitOff_follows | apply State.setClk_follows

theorem State.syncRefuse_follows {orig : State} (s : State) (hyp : orig.Follows s) :
    orig.Follows (State.syncRefuse s) := by
  unfold State.syncRefuse
  repeat' with_reducible first | assumption | apply State.event_follows

theorem State.syncDiv_follows {orig : State} (s : State) (act : Nat) (hyp : orig.Follows s) :
    orig.Follows (State.syncDiv s act) := by
  unfold State.syncDiv
  repeat' first
    | (intro _)
    | with_reducible first | assumption | apply State.Follows.ite | apply State.unalign_follows | apply
      State.checkOut_follows | apply State.applyOut_follows | apply State.syncRefuse_follows | apply
      State.Follows.foldl
    | (simp only [State.Follows.mk_iff]; with_reducible apply State.Keeps.of)
    | split

theorem State.syncWarp_follows {orig : State} (s : State) (act : Nat) (hyp : orig.Follows s) :
    orig.Follows (State.syncWarp s act) := by
  unfold State.syncWarp
  repeat' with_reducible first | assumption | apply State.Follows.ite | apply State.raise_follows |
      apply State.setPair_follows | apply State.syncRefuse_follows | apply State.warpStep_follows

theorem execSyncEvent_follows {orig : State} (s : State) (hyp : orig.Follows s) :
    orig.Ends (execSyncEvent s) := by
  unfold execSyncEvent
  repeat' with_reducible first | assumption | apply State.Ends.next | apply State.Follows.ite |
      apply State.foff_follows | apply State.setClk_follows

theorem execSyncAction_follows {orig : State} (s : State) (hyp : orig.Follows s) :
    orig.Ends (execSyncAction s) := by
  unfold execSyncAction
  repeat' first
    | (intro _)
    | with_reducible first | assumption | apply State.Ends.next | apply State.Follows.ite | apply State.raise_follows | apply
      State.setClk_follows | apply State.setPair_follows | apply State.snapEnd_follows | apply
      State.syncDiv_follows | apply State.syncWarp_follows
    | (simp only [State.Follows.mk_iff]; with_reducible apply State.Keeps.of)
    | split

theorem execSyncArm_follows {orig : State} (s : State) (hyp : orig.Follows s) :
    orig.Ends (execSyncArm s) := by
  unfold execSyncArm
  repeat' with_reducible first | assumption | apply State.Ends.next | apply State.fon_follows

theorem execWarpLoad_follows {orig : State} (s : State) (hyp : orig.Follows s) :
    orig.Ends (execWarpLoad s) := by
  unfold execWarpLoad
  repeat' first
    | (intro _)
    | with_reducible first | assumption | apply State.Ends.next | apply State.Follows.ite | apply State.fon_follows |
      apply State.again_follows | apply State.raise_follows | apply State.setClk_follows
    | (simp only [State.Follows.mk_iff]; with_reducible apply State.Keeps.of)
    | split

theorem execWarpLoadApply_follows {orig : State} (s : State) (hyp : orig.Follows s) :
    orig.Ends (execWarpLoadApply s) := by
  unfold execWarpLoadApply
  repeat' first
    | (intro _)
    | with_reducible first | assumption | apply State.Ends.next | apply State.Follows.ite |
      apply State.foff_follows | apply State.setClk_follows | apply State.warpStep_follows
    | (simp only [State.Follows.mk_iff]; with_reducible apply State.Keeps.of)
    | split

/-! ### PowerOps -/

theorem State.regsKeep_follows {orig : State} (s : State) (lo hi : Nat) (hyp : orig.Follows s) :
    orig.Follows (State.regsKeep s lo hi) := by
  unfold State.regsKeep
  repeat' first
    | (intro _)
    | with_reducible first | assumption | apply State.mended_follows | apply State.wr_follows | apply State.Follows.foldl

theorem State.regsReset_follows {orig : State} (s : State) (full : Bool) (lo hi : Nat) (hyp : orig.Follows s) :
    orig.Follows (State.regsReset s full lo hi) := by
  unfold State.regsReset
  repeat' with_reducible first | assumption | apply State.Follows.ite | apply State.clearRegs_follows |
      apply State.regsKeep_follows

theorem State.settleVecs_follows {orig : State} (s : State) (vs : List Nat) (hyp : orig.Follows s) :
    orig.Follows (State.settleVecs s vs) := by
  unfold State.settleVecs
  repeat' first
    | (intro _)
    | with_reducible first | assumption | apply State.settleVec_follows | apply State.Follows.foldl

theorem State.coreClear_follows {orig : State} (s : State) (n : Nat) (full : Bool) (hyp : orig.Follows s) :
    orig.Follows (State.coreClear s n full) := by
  unfold State.coreClear
  repeat' first
    | (intro _)
    | with_reducible first | assumption | apply State.Follows.ite | apply State.partsBypass_follows | apply State.setCore_follows |
      apply State.turnsGone_follows
    | (simp only [State.Follows.mk_iff]; with_reducible apply State.Keeps.of)
    | split

theorem State.sliceClear_follows {orig : State} (s : State) (n : Nat) (full : Bool) (hyp : orig.Follows s) :
    orig.Follows (State.sliceClear s n full) := by
  unfold State.sliceClear
  repeat' first
    | (intro _)
    | with_reducible first | assumption | apply State.Follows.ite | apply State.coreClear_follows |
      apply State.setPort_follows
    | (simp only [State.Follows.mk_iff]; with_reducible apply State.Keeps.of)

theorem State.reedClear_follows {orig : State} (s : State) (u : Nat) (hyp : orig.Follows s) :
    orig.Follows (State.reedClear s u) := by
  unfold State.reedClear
  repeat' first
    | (intro _)
    | with_reducible first | assumption
    | (simp only [State.Follows.mk_iff]; with_reducible apply State.Keeps.of)

theorem State.reedsClear_follows {orig : State} (s : State) (n : Nat) (full : Bool) (hyp : orig.Follows s) :
    orig.Follows (State.reedsClear s n full) := by
  unfold State.reedsClear
  repeat' first
    | (intro _)
    | with_reducible first | assumption | apply State.Follows.ite
    | (simp only [State.Follows.mk_iff]; with_reducible apply State.Keeps.of)

theorem State.sliceReset_follows {orig : State} (s : State) (n : Nat) (full : Bool) (hyp : orig.Follows s) :
    orig.Follows (State.sliceReset s n full) := by
  unfold State.sliceReset
  repeat' with_reducible first | assumption | apply State.reedsClear_follows | apply State.regsReset_follows |
      apply State.settleVecs_follows | apply State.sliceClear_follows

theorem State.displayReset_follows {orig : State} (s : State) (full : Bool) (hyp : orig.Follows s) :
    orig.Follows (State.displayReset s full) := by
  unfold State.displayReset
  repeat' first
    | (intro _)
    | with_reducible first | assumption | apply State.Follows.ite | apply State.outputStop_follows |
      apply State.regsReset_follows | apply State.settleVecs_follows
    | (simp only [State.Follows.mk_iff]; with_reducible apply State.Keeps.of)

theorem State.harnessClear_follows {orig : State} (s : State) (p : Nat) (hyp : orig.Follows s) :
    orig.Follows (State.harnessClear s p) := by
  unfold State.harnessClear
  repeat' first
    | (intro _)
    | with_reducible first | assumption | apply State.clearRegs_follows | apply State.functionReset_follows | apply
      State.turnsGone_follows
    | (simp only [State.Follows.mk_iff]; with_reducible apply State.Keeps.of)

theorem State.busClear_follows {orig : State} (s : State) (n : Nat) (hyp : orig.Follows s) :
    orig.Follows (State.busClear s n) := by
  unfold State.busClear
  repeat' first
    | (intro _)
    | with_reducible first | assumption | apply State.Follows.ite | apply State.pushBus_follows |
      apply State.setTrd_follows | apply State.Follows.foldl

theorem State.shedAbandon_follows {orig : State} (s : State) (n k : Nat) (hyp : orig.Follows s) :
    orig.Follows (State.shedAbandon s n k) := by
  unfold State.shedAbandon
  repeat' first
    | (intro _)
    | with_reducible first | assumption | apply State.Follows.ite | apply State.shedCut_follows | apply State.shedPosted_follows
    | split

theorem State.recordsAbandon_follows {orig : State} (s : State) (c : Nat) (hyp : orig.Follows s) :
    orig.Follows (State.recordsAbandon s c) := by
  unfold State.recordsAbandon
  repeat' first
    | (intro _)
    | with_reducible first | assumption | apply State.specClose_follows | apply State.rawClose_follows | apply
      State.Follows.foldl
    | (simp only [State.Follows.mk_iff]; with_reducible apply State.Keeps.of)
    | split

theorem State.sliceAbsent_follows {orig : State} (s : State) (n : Nat) (hyp : orig.Follows s) :
    orig.Follows (State.sliceAbsent s n) := by
  unfold State.sliceAbsent
  repeat' first
    | (intro _)
    | with_reducible first | assumption | apply State.bitOn_follows | apply State.raise_follows | apply
      State.degradeOn_follows | apply State.busClear_follows | apply State.shedAbandon_follows | apply
      State.recordsAbandon_follows | apply State.Follows.foldl
    | (simp only [State.Follows.mk_iff]; with_reducible apply State.Keeps.of)
    | split

theorem State.domainClear_follows {orig : State} (s : State) (d : Nat) (hyp : orig.Follows s) :
    orig.Follows (State.domainClear s d) := by
  unfold State.domainClear
  repeat' with_reducible first | assumption | apply State.Follows.ite | apply State.displayReset_follows |
      apply State.harnessClear_follows | apply State.sliceReset_follows

theorem State.brownoutOn_follows {orig : State} (s : State) (hyp : orig.Follows s) :
    orig.Follows (State.brownoutOn s) := by
  unfold State.brownoutOn
  repeat' with_reducible first | assumption | apply State.bitOn_follows | apply State.emcyOnAll_follows

theorem State.brownoutOff_follows {orig : State} (s : State) (hyp : orig.Follows s) :
    orig.Follows (State.brownoutOff s) := by
  unfold State.brownoutOff
  repeat' with_reducible first | assumption | apply State.Follows.ite | apply State.bitOff_follows |
      apply State.emcyOffAll_follows | apply State.emcySend_follows

theorem State.flagSuspects_follows {orig : State} (s : State) (b since : Nat) (hyp : orig.Follows s) :
    orig.Follows (State.flagSuspects s b since) := by
  unfold State.flagSuspects
  repeat' first
    | (intro _)
    | with_reducible first | assumption | apply State.Follows.ite | apply State.raise_follows | apply
      State.setSide_follows | apply State.Follows.foldl
    | (simp only [State.Follows.mk_iff]; with_reducible apply State.Keeps.of)
    | split

theorem State.logCount_follows {orig : State} (s : State) (vec num sev unit a0 a1 n : Nat) (hyp : orig.Follows s) :
    orig.Follows (State.logCount s vec num sev unit a0 a1 n) := by
  unfold State.logCount
  repeat' with_reducible first | assumption | apply State.erlAllocate_follows | apply State.erlCommit_follows

theorem State.bootFail_follows {orig : State} (s : State) (hyp : orig.Follows s) :
    orig.Follows (State.bootFail s) := by
  unfold State.bootFail
  repeat' with_reducible first | assumption | apply State.Follows.ite | apply State.bitOn_follows |
      apply State.emcyOnAll_follows | apply State.fatalStop_follows | apply State.fset_follows |
      apply State.logOpen_follows

theorem State.showNominals_follows {orig : State} (s : State) (hyp : orig.Follows s) :
    orig.Follows (State.showNominals s) := by
  unfold State.showNominals
  repeat' first
    | (intro _)
    | with_reducible first | assumption | apply State.fset_follows | apply State.Follows.foldl

theorem State.bootStart_follows {orig : State} (s0 : State) (hyp : orig.Follows s0) :
    orig.Follows (State.bootStart s0) := by
  unfold State.bootStart
  extract_lets s nonce s1 src1 src2 s2
  have h1 : orig.Follows s1 :=
    State.setPair_follows _ _ _ _ (State.fset_follows _ _ _ _ (State.showNominals_follows _ (State.took_follows _ hyp)))
  clear_value s1
  have h2 : orig.Follows s2 := State.Follows.upd h1 rfl rfl rfl rfl rfl rfl
  exact State.journal_follows _ _ (State.took_follows _ h2)

theorem State.farCut_follows {orig : State} (s : State) (hyp : orig.Follows s) : orig.Follows s.farCut := by
  unfold State.farCut
  apply State.Follows.foldl
  · intro x k hx
    exact State.setSlot_follows _ _ _ (State.took_follows _ hx)
  · exact hyp

theorem State.withFuses_follows {orig : State} (s : State) (hyp : orig.Follows s) :
    orig.Follows ((State.reset.withWorld s).withFuses s) := by
  have hc := State.farCut_follows s (State.Follows.refl s)
  have h1 : orig.Follows { State.reset.withWorld s with
      far := { (State.reset.withWorld s).far with slots := s.farCut.far.slots }
      fresh := s.farCut.fresh
      brd := { (State.reset.withWorld s).brd with secretOff := s.brd.secretOff, owners := s.brd.owners } } :=
    ⟨hyp.pending, hyp.beats, hyp.outs, Nat.le_trans hyp.fresh hc.fresh, fun _ => rfl, fun _ => rfl⟩
  unfold State.withFuses
  extract_lets
  split
  · exact State.fon_follows _ _ _ (State.fset_follows _ _ _ _ (State.wr_follows _ _ _ (State.wr_follows _ _ _ h1)))
  · exact State.fset_follows _ _ _ _ (State.wr_follows _ _ _ (State.wr_follows _ _ _ h1))

theorem State.powerOn_follows {orig : State} (s : State) (hyp : orig.Follows s) :
    orig.Follows (State.powerOn s) := by
  unfold State.powerOn
  repeat' first
    | (intro _)
    | with_reducible first | assumption | apply State.withFuses_follows
    | (simp only [State.Follows.mk_iff]; with_reducible apply State.Keeps.of)

theorem State.deviceReset_follows {orig : State} (s : State) (cause : Nat) (hyp : orig.Follows s) :
    orig.Follows (s.deviceReset cause) := by
  unfold State.deviceReset
  extract_lets r r1 r2 r2' r3 r4 failed r5
  have h1 : orig.Follows r1 :=
    State.Follows.foldl (fun x a hx => State.wr_follows x a _ hx) (State.withFuses_follows s hyp) keptRegs
  have h2 : orig.Follows r2' := State.fset_follows _ _ _ _ (State.fset_follows _ _ _ _ (State.wr_follows _ _ _ h1))
  have h3 : orig.Follows r3 := by
    show orig.Follows (ite _ _ _)
    split
    · exact State.bitOn_follows _ _ _ h2
    · exact h2
  have h4 : orig.Follows r4 := by
    show orig.Follows (ite _ _ _)
    split
    · exact State.bitOn_follows _ _ _ h3
    · exact h3
  have h5 : orig.Follows r5 :=
    State.Follows.ite (State.bitOn_follows _ _ _ (State.fset_follows _ _ _ _ (State.fset_follows _ _ _ _ h4))) h4
  rw [State.Follows.mk_iff]
  exact State.Keeps.of h5

theorem State.thermalReset_follows {orig : State} (s : State) (hyp : orig.Follows s) :
    orig.Follows (State.thermalReset s) := by
  unfold State.thermalReset
  repeat' first
    | (intro _)
    | with_reducible first | assumption | apply State.bitOn_follows | apply State.deviceReset_follows
    | (simp only [State.Follows.mk_iff]; with_reducible apply State.Keeps.of)

/-! ### Power -/

theorem State.domTargetPut_follows {orig : State} (s : State) (value : Word) (hyp : orig.Follows s) :
    orig.Follows (State.domTargetPut s value) := by
  unfold State.domTargetPut
  repeat' first
    | (intro _)
    | with_reducible first | assumption | apply State.wr_follows | apply State.event_follows | apply
      State.Follows.foldl
    | (simp only [State.Follows.mk_iff]; with_reducible apply State.Keeps.of)
    | split

theorem State.domainMoves_follows {orig : State} (s : State) (d : Nat) (up : Bool) (hyp : orig.Follows s) :
    orig.Follows (State.domainMoves s d up) := by
  unfold State.domainMoves
  repeat' first
    | (intro _)
    | with_reducible first | assumption | apply State.fon_follows
    | (simp only [State.Follows.mk_iff]; with_reducible apply State.Keeps.of)

theorem State.domainStill_follows {orig : State} (s : State) (hyp : orig.Follows s) :
    orig.Follows (State.domainStill s) := by
  unfold State.domainStill
  repeat' first
    | (intro _)
    | with_reducible first | assumption | apply State.foff_follows
    | (simp only [State.Follows.mk_iff]; with_reducible apply State.Keeps.of)
    | split

theorem execDomainPowerDown_follows {orig : State} (s : State) (hyp : orig.Follows s) :
    orig.Ends (execDomainPowerDown s) := by
  unfold execDomainPowerDown
  repeat' first
    | (intro _)
    | with_reducible first | assumption | apply State.Ends.next | apply State.Follows.ite |
      apply State.domainMoves_follows | apply State.sliceAbsent_follows | apply State.spnQuiesce_follows
    | (simp only [State.Follows.mk_iff]; with_reducible apply State.Keeps.of)
    | split

theorem execDomainOff_follows {orig : State} (s : State) (hyp : orig.Follows s) :
    orig.Ends (execDomainOff s) := by
  unfold execDomainOff
  repeat' first
    | (intro _)
    | with_reducible first | assumption | apply State.Ends.next | apply State.Follows.ite |
      apply State.bitOff_follows | apply State.domainClear_follows | apply State.domainStill_follows |
      apply State.linkFell_follows | apply State.logSev_follows | apply State.portLoss_follows |
      apply State.raise_follows
    | (simp only [State.Follows.mk_iff]; with_reducible apply State.Keeps.of)
    | split

theorem execDomainPowerUp_follows {orig : State} (s : State) (hyp : orig.Follows s) :
    orig.Ends (execDomainPowerUp s) := by
  unfold execDomainPowerUp
  repeat' first
    | (intro _)
    | with_reducible first | assumption | apply State.Ends.next | apply State.Follows.ite | apply State.took_follows |
      apply State.domainMoves_follows
    | (simp only [State.Follows.mk_iff]; with_reducible apply State.Keeps.of)
    | split

theorem execDomainOn_follows {orig : State} (s : State) (hyp : orig.Follows s) :
    orig.Ends (execDomainOn s) := by
  unfold execDomainOn
  apply State.Ends.next
  split
  · refine State.spnResume_follows _ _ (State.domainStill_follows _ (State.resetEnded_follows _ _ _ _ ?_))
    exact State.logSev_follows _ _ _ _ _ _ (State.raise_follows _ _ _ (State.bitOn_follows _ _ _ (State.domainClear_follows _ _ hyp)))
  · exact hyp

theorem execVstbyBrownoutBegin_follows {orig : State} (s : State) (hyp : orig.Follows s) :
    orig.Ends (execVstbyBrownoutBegin s) := by
  unfold execVstbyBrownoutBegin
  repeat' first
    | (intro _)
    | with_reducible first | assumption | apply State.Ends.next | apply State.Follows.ite | apply State.brdBrownout_follows | apply
      State.brownoutOn_follows | apply State.event_follows | apply State.farAbort_follows | apply
      State.fon_follows
    | (simp only [State.Follows.mk_iff]; with_reducible apply State.Keeps.of)
    | split

theorem execVstbyBrownoutEnd_follows {orig : State} (lowest : BitVec 16) (s : State) (hyp : orig.Follows s) :
    orig.Ends (execVstbyBrownoutEnd lowest s) := by
  unfold execVstbyBrownoutEnd
  repeat' first
    | (intro _)
    | with_reducible first | assumption | apply State.Ends.next | apply State.foff_follows | apply State.count_follows
      | apply State.event_follows | apply State.farReturn_follows | apply State.manifestAgain_follows | apply
      State.brownoutOff_follows
    | (simp only [State.Follows.mk_iff]; with_reducible apply State.Keeps.of)
    | split

theorem execVioBrownoutBegin_follows {orig : State} (bank : Fin 7) (s : State) (hyp : orig.Follows s) :
    orig.Ends (execVioBrownoutBegin bank s) := by
  unfold execVioBrownoutBegin
  repeat' first
    | (intro _)
    | with_reducible first | assumption | apply State.Ends.next | apply State.Follows.ite | apply State.bitOn_follows
      | apply State.event_follows | apply State.brownoutOn_follows
    | (simp only [State.Follows.mk_iff]; with_reducible apply State.Keeps.of)
    | split

theorem execVioBrownoutEnd_follows {orig : State} (bank : Fin 7) (lowest : BitVec 16) (s : State) (hyp : orig.Follows
  s) :
    orig.Ends (execVioBrownoutEnd bank lowest s) := by
  unfold execVioBrownoutEnd
  repeat' first
    | (intro _)
    | with_reducible first | assumption | apply State.Ends.next | apply State.Follows.ite | apply State.bitOff_follows
      | apply State.raise_follows | apply State.log_follows | apply State.drivePins_follows | apply
      State.brownoutOff_follows | apply State.flagSuspects_follows | apply State.logCount_follows
    | (simp only [State.Follows.mk_iff]; with_reducible apply State.Keeps.of)
    | split

theorem execVioLost_follows {orig : State} (bank : Fin 7) (s : State) (hyp : orig.Follows s) :
    orig.Ends (execVioLost bank s) := by
  unfold execVioLost
  repeat' with_reducible first | assumption | apply State.Ends.next | apply State.Follows.ite |
      apply State.bitOn_follows | apply State.bootFail_follows | apply State.drivePins_follows |
      apply State.event_follows

theorem State.bootIfReleased_follows {orig : State} (s : State) (hyp : orig.Follows s) :
    orig.Follows (State.bootIfReleased s) := by
  unfold State.bootIfReleased
  repeat' first
    | (intro _)
    | with_reducible first | assumption | apply State.Follows.ite | apply State.bootStart_follows
    | (simp only [State.Follows.mk_iff]; with_reducible apply State.Keeps.of)
    | split

theorem execPowerOnReset_follows {orig : State} (s : State) (hyp : orig.Follows s) :
    orig.Ends (execPowerOnReset s) := by
  unfold execPowerOnReset
  repeat' with_reducible first | assumption | apply State.Ends.next | apply State.powerOn_follows

theorem execNresetAssert_follows {orig : State} (s : State) (hyp : orig.Follows s) :
    orig.Ends (execNresetAssert s) := by
  unfold execNresetAssert
  repeat' first
    | (intro _)
    | with_reducible first | assumption | apply State.Ends.next | apply State.deviceReset_follows
    | (simp only [State.Follows.mk_iff]; with_reducible apply State.Keeps.of)

theorem execPwrOkLow_follows {orig : State} (s : State) (hyp : orig.Follows s) :
    orig.Ends (execPwrOkLow s) := by
  unfold execPwrOkLow
  repeat' first
    | (intro _)
    | with_reducible first | assumption | apply State.Ends.next | apply State.deviceReset_follows
    | (simp only [State.Follows.mk_iff]; with_reducible apply State.Keeps.of)

theorem State.driftCheck_follows {orig : State} (s : State) (hyp : orig.Follows s) :
    orig.Follows (State.driftCheck s) := by
  unfold State.driftCheck
  repeat' first
    | with_reducible assumption
    | (intro x; refine State.Follows.cut (P := orig.Follows x) ?_ ?_; all_goals first | (intro _; clear_value x) | subst x)
    | (intro x; clear_value x)
    | (intro _)
    | with_reducible first | assumption | apply State.Follows.ite | apply State.event_follows
    | (simp only [State.Follows.mk_iff]; with_reducible apply State.Keeps.of)
    | lift_lets
    | split
    | dsimp only

theorem execNresetRelease_follows {orig : State} (canid : BitVec 7) (vstby : BitVec 16) (vio : List (BitVec 16)) (s
    : State) (hyp : orig.Follows s) :
    orig.Ends (execNresetRelease canid vstby vio s) := by
  unfold execNresetRelease
  repeat' first
    | (intro _)
    | with_reducible first | assumption | apply State.Ends.next | apply State.Follows.ite |
      apply State.bootIfReleased_follows | apply State.driftCheck_follows | apply State.fset_follows |
      apply State.Follows.foldl
    | (simp only [State.Follows.mk_iff]; with_reducible apply State.Keeps.of)

theorem execDeviceReset_follows {orig : State} (s : State) (hyp : orig.Follows s) :
    orig.Ends (execDeviceReset s) := by
  unfold execDeviceReset
  repeat' with_reducible first | assumption | apply State.Ends.next | apply State.bootIfReleased_follows |
      apply State.deviceReset_follows | apply State.driftCheck_follows

theorem execThermalHoldEnd_follows {orig : State} (s : State) (hyp : orig.Follows s) :
    orig.Ends (execThermalHoldEnd s) := by
  unfold execThermalHoldEnd
  repeat' first
    | (intro _)
    | with_reducible first | assumption | apply State.Ends.next | apply State.Follows.ite |
      apply State.bitOff_follows | apply State.bootIfReleased_follows
    | (simp only [State.Follows.mk_iff]; with_reducible apply State.Keeps.of)

theorem State.blockReset_follows {orig : State} (s : State) (d : Nat) (hyp : orig.Follows s) :
    orig.Follows (State.blockReset s d) := by
  unfold State.blockReset
  repeat' first
    | (intro _)
    | with_reducible first | assumption | apply State.Follows.ite | apply State.raise_follows | apply
      State.resetEnded_follows | apply State.portApply_follows | apply State.functionReset_follows | apply
      State.sliceReset_follows | apply State.displayReset_follows | apply State.sliceAbsent_follows
    | (simp only [State.Follows.mk_iff]; with_reducible apply State.Keeps.of)
    | split

theorem execPwrBlkReset_follows {orig : State} (value : BitVec 32) (s : State) (hyp : orig.Follows s) :
    orig.Ends (execPwrBlkReset value s) := by
  unfold execPwrBlkReset
  repeat' first
    | (intro _)
    | with_reducible first | assumption | apply State.Ends.next | apply State.blockReset_follows |
      apply State.Follows.foldl

theorem execErlCoalesceCommit_follows {orig : State} (s : State) (hyp : orig.Follows s) :
    orig.Ends (execErlCoalesceCommit s) := by
  unfold execErlCoalesceCommit
  repeat' first
    | (intro _)
    | with_reducible first | assumption | apply State.Ends.next | apply State.erlClose_follows |
      apply State.Follows.foldl

theorem execAgeTick_follows {orig : State} (s : State) (hyp : orig.Follows s) :
    orig.Ends (execAgeTick s) := by
  unfold execAgeTick
  repeat' first
    | (intro _)
    | with_reducible first | assumption | apply State.Ends.next | apply State.Follows.ite |
      apply State.count_follows | apply State.event_follows
    | (simp only [State.Follows.mk_iff]; with_reducible apply State.Keeps.of)

theorem execDriftCheck_follows {orig : State} (s : State) (hyp : orig.Follows s) :
    orig.Ends (execDriftCheck s) := by
  unfold execDriftCheck
  repeat' with_reducible first | assumption | apply State.Ends.next | apply State.driftCheck_follows

/-! ### RunOps -/

theorem State.runRefuse_follows {orig : State} (s : State) (cmd : Nat) (hyp : orig.Follows s) :
    orig.Follows (State.runRefuse s cmd) := by
  unfold State.runRefuse
  repeat' with_reducible first | assumption | apply State.Follows.ite | apply State.event_follows |
      apply State.fon_follows

theorem State.enableBlocks_follows {orig : State} (s : State) (hyp : orig.Follows s) :
    orig.Follows (State.enableBlocks s) := by
  unfold State.enableBlocks
  repeat' first
    | (intro _)
    | with_reducible first | assumption | apply State.Follows.ite | apply State.fon_follows |
      apply State.Follows.foldl

theorem State.condArm_follows {orig : State} (s : State) (n : Nat) (hyp : orig.Follows s) :
    orig.Follows (State.condArm s n) := by
  unfold State.condArm
  repeat' first
    | (intro _)
    | with_reducible first | assumption | apply State.foff_follows | apply State.setCch_follows |
      apply State.Follows.foldl

theorem State.planeArm_follows {orig : State} (s : State) (p : Nat) (hyp : orig.Follows s) :
    orig.Follows (State.planeArm s p) := by
  unfold State.planeArm
  repeat' with_reducible first | assumption | apply State.Follows.ite | apply State.setPlane_follows

theorem State.freqRefuse_follows {orig : State} (s : State) (k : Nat) (hyp : orig.Follows s) :
    orig.Follows (State.freqRefuse s k) := by
  unfold State.freqRefuse
  repeat' first
    | (intro _)
    | with_reducible first | assumption | apply State.Follows.ite | apply State.foff_follows | apply State.raise_follows | apply
      State.setStack_follows
    | (simp only [State.Follows.mk_iff]; with_reducible apply State.Keeps.of)
    | split

theorem State.stackArm_follows {orig : State} (s0 : State) (k : Nat) (hyp : orig.Follows s0) :
    orig.Follows (State.stackArm s0 k) := by
  unfold State.stackArm
  repeat' first
    | (intro _)
    | with_reducible first | assumption | apply State.Follows.ite | apply State.freqRefuse_follows | apply State.setStack_follows |
      apply State.srCtrlDone_follows | apply State.srGo_follows
    | (simp only [State.Follows.mk_iff]; with_reducible apply State.Keeps.of)
    | split

theorem State.reedsReady_follows {orig : State} (s : State) (hyp : orig.Follows s) :
    orig.Follows (State.reedsReady s) := by
  unfold State.reedsReady
  repeat' first
    | (intro _)
    | with_reducible first | assumption | apply State.Follows.ite | apply State.fon_follows |
      apply State.Follows.foldl

theorem State.armBegin_follows {orig : State} (s : State) (hyp : orig.Follows s) :
    orig.Follows (State.armBegin s) := by
  unfold State.armBegin
  repeat' first
    | (intro _)
    | with_reducible first | assumption | apply State.Follows.ite | apply State.bobReady_follows | apply State.condArm_follows | apply
      State.degradeOff_follows | apply State.enableBlocks_follows | apply State.fon_follows | apply
      State.hfbReady_follows | apply State.lnkArm_follows | apply State.planeArm_follows | apply
      State.reedsReady_follows | apply State.setLambda_follows | apply State.stackArm_follows | apply
      State.tapReady_follows | apply State.Follows.foldl
    | (simp only [State.Follows.mk_iff]; with_reducible apply State.Keeps.of)
    | split

theorem State.slicesBack_follows {orig : State} (s : State) (hyp : orig.Follows s) :
    orig.Follows (State.slicesBack s) := by
  unfold State.slicesBack
  repeat' first
    | (intro _)
    | with_reducible first | assumption | apply State.Follows.ite | apply State.bitOff_follows | apply State.degradeOff_follows | apply
      State.Follows.foldl
    | split

theorem State.armEnd_follows {orig : State} (s : State) (hyp : orig.Follows s) :
    orig.Follows (State.armEnd s) := by
  unfold State.armEnd
  repeat' first
    | (intro _)
    | with_reducible first | assumption | apply State.Follows.ite | apply State.degradeOn_follows |
      apply State.drivePins_follows | apply State.foff_follows | apply State.raise_follows |
      apply State.setRunState_follows | apply State.shedArm_follows | apply State.slicesBack_follows |
      apply State.Follows.foldl
    | (simp only [State.Follows.mk_iff]; with_reducible apply State.Keeps.of)
    | split

theorem State.armGiveUp_follows {orig : State} (s : State) (hyp : orig.Follows s) :
    orig.Follows (State.armGiveUp s) := by
  unfold State.armGiveUp
  repeat' first
    | (intro _)
    | with_reducible first | assumption | apply State.disableBlocks_follows | apply State.foff_follows |
      apply State.fon_follows | apply State.log_follows | apply State.raise_follows |
      apply State.setRunState_follows | apply State.Follows.foldl
    | (simp only [State.Follows.mk_iff]; with_reducible apply State.Keeps.of)

theorem State.calLoad_follows {orig : State} (s : State) (c : Nat) (hyp : orig.Follows s) :
    orig.Follows (State.calLoad s c) := by
  unfold State.calLoad
  repeat' first
    | (intro _)
    | with_reducible first | assumption | apply State.Follows.ite | apply State.foff_follows | apply State.fon_follows | apply
      State.fset_follows | apply State.raise_follows | apply State.setCch_follows | apply State.settled_follows
    | (simp only [State.Follows.mk_iff]; with_reducible apply State.Keeps.of)
    | split

theorem State.ringsStart_follows {orig : State} (s : State) (hyp : orig.Follows s) :
    orig.Follows (State.ringsStart s) := by
  unfold State.ringsStart
  repeat' first
    | (intro _)
    | with_reducible first | assumption | apply State.Follows.ite | apply State.fon_follows | apply State.foff_follows
      | apply State.setPair_follows | apply State.Follows.foldl
    | (simp only [State.Follows.mk_iff]; with_reducible apply State.Keeps.of)
    | split

theorem State.streamsStart_follows {orig : State} (s : State) (hyp : orig.Follows s) :
    orig.Follows (State.streamsStart s) := by
  unfold State.streamsStart
  repeat' first
    | (intro _)
    | with_reducible first | assumption | apply State.wr_follows | apply State.Follows.foldl
    | (simp only [State.Follows.mk_iff]; with_reducible apply State.Keeps.of)

theorem State.tagsStart_follows {orig : State} (s : State) (hyp : orig.Follows s) :
    orig.Follows (State.tagsStart s) := by
  unfold State.tagsStart
  repeat' first
    | (intro _)
    | with_reducible first | assumption | apply State.setCore_follows | apply State.Follows.foldl

theorem State.runStart_follows {orig : State} (s : State) (hyp : orig.Follows s) :
    orig.Follows (State.runStart s) := by
  unfold State.runStart
  repeat' first
    | (intro _)
    | with_reducible first | assumption | apply State.brdRunStart_follows | apply State.calLoad_follows |
      apply State.emcyOffAll_follows | apply State.hfbStart_follows | apply State.planesStart_follows |
      apply State.raise_follows | apply State.reedsStart_follows | apply State.ringsStart_follows |
      apply State.setRunState_follows | apply State.statsStart_follows | apply State.streamsStart_follows |
      apply State.tagsStart_follows | apply State.trdStart_follows | apply State.wr_follows |
      apply State.Follows.foldl
    | (simp only [State.Follows.mk_iff]; with_reducible apply State.Keeps.of)

theorem State.logDiscards_follows {orig : State} (s : State) (hyp : orig.Follows s) :
    orig.Follows (State.logDiscards s) := by
  unfold State.logDiscards
  repeat' first
    | (intro _)
    | with_reducible first | assumption | apply State.Follows.ite | apply State.log_follows |
      apply State.Follows.foldl

theorem State.quillsResume_follows {orig : State} (s : State) (hyp : orig.Follows s) :
    orig.Follows (State.quillsResume s) := by
  unfold State.quillsResume
  repeat' first
    | (intro _)
    | with_reducible first | assumption | apply State.Follows.ite | apply State.quillRefill_follows | apply State.Follows.foldl
    | split

theorem State.runEnd_follows {orig : State} (s : State) (hyp : orig.Follows s) :
    orig.Follows (State.runEnd s) := by
  unfold State.runEnd
  repeat' first
    | (intro _)
    | with_reducible first | assumption | apply State.disableBlocks_follows | apply State.foff_follows | apply
      State.logDiscards_follows | apply State.quillsResume_follows | apply State.raise_follows | apply
      State.restored_follows | apply State.setRunState_follows
    | (simp only [State.Follows.mk_iff]; with_reducible apply State.Keeps.of)

theorem State.softStopped_follows {orig : State} (s : State) (cmd : Nat) (hyp : orig.Follows s) :
    orig.Follows (State.softStopped s cmd) := by
  unfold State.softStopped
  repeat' first
    | (intro _)
    | with_reducible first | assumption
    | (simp only [State.Follows.mk_iff]; with_reducible apply State.Keeps.of)

theorem State.softCommand_follows {orig : State} (s : State) (cmd : Nat) (hyp : orig.Follows s) :
    orig.Follows (State.softCommand s cmd) := by
  unfold State.softCommand
  repeat' first
    | (intro _)
    | with_reducible first | assumption | apply State.Follows.ite | apply State.log_follows | apply
      State.setRunState_follows | apply State.runStop_follows | apply State.disarm_follows | apply
      State.abortDiscard_follows | apply State.runRefuse_follows | apply State.softStopped_follows
    | (simp only [State.Follows.mk_iff]; with_reducible apply State.Keeps.of)
    | split

/-! ### Spectral -/

theorem execSpectrumDelivery_follows {orig : State} (channel : Fin 192) (mem : Fin 3) (s : State) (hyp : orig.Follows
    s) :
    orig.Ends (execSpectrumDelivery channel mem s) := by
  unfold execSpectrumDelivery
  repeat' first
    | (intro _)
    | with_reducible first | assumption | apply State.Ends.next | apply State.Follows.ite | apply State.count_follows | apply
      State.raise_follows | apply State.setStrm_follows | apply State.specDeliver_follows | apply
      State.specSkip_follows
    | (simp only [State.Follows.mk_iff]; with_reducible apply State.Keeps.of)
    | split

theorem State.dropLoading_follows {orig : State} (s : State) (c : Nat) (hyp : orig.Follows s) :
    orig.Follows (State.dropLoading s c) := by
  unfold State.dropLoading
  repeat' first
    | (intro _)
    | with_reducible first | assumption | apply State.setStrm_follows | apply State.specSkip_follows
    | (simp only [State.Follows.mk_iff]; with_reducible apply State.Keeps.of)

theorem execTableScrub_follows {orig : State} (slice : Fin 24) (table : Fin 2) (_entry : Fin 16384) (ue : Bool) (s :
    State) (hyp : orig.Follows s) :
    orig.Ends (execTableScrub slice table _entry ue s) := by
  unfold execTableScrub
  repeat' first
    | (intro _)
    | with_reducible first | assumption | apply State.Ends.next | apply State.Follows.ite |
      apply State.bitOn_follows | apply State.count_follows | apply State.dropLoading_follows |
      apply State.event_follows | apply State.raise_follows | apply State.Follows.foldl
    | (simp only [State.Follows.mk_iff]; with_reducible apply State.Keeps.of)

theorem State.winDataPut_follows {orig : State} (s : State) (src : Src) (n : Nat) (value : Word) (hyp : orig.Follows
  s) :
    orig.Follows (State.winDataPut s src n value) := by
  unfold State.winDataPut
  repeat' first
    | (intro _)
    | with_reducible first | assumption | apply State.Follows.ite | apply State.fset_follows | apply
      State.bitOff_follows | apply State.egReject_follows | apply State.egStored_follows
    | (simp only [State.Follows.mk_iff]; with_reducible apply State.Keeps.of)
    | split

theorem State.retirePut_follows {orig : State} (s : State) (src : Src) (n : Nat) (value : Word) (hyp : orig.Follows s)
  :
    orig.Follows (State.retirePut s src n value) := by
  unfold State.retirePut
  repeat' first
    | (intro _)
    | with_reducible first | assumption | apply State.Follows.ite | apply State.fset_follows | apply
      State.egReject_follows | apply State.egStored_follows
    | (simp only [State.Follows.mk_iff]; with_reducible apply State.Keeps.of)
    | split

end Sys2Proof.Machine
end

