-- ==== Sys2Proof/Laws/Keeps7.lean ====
section
/-!
SUPPORT. Each operation and meaning of Treadle, Display, Shuttle, Spindle keeps what State.Follows says: one lemma for
  each, named after it.
-/

set_option linter.all false

namespace Sys2Proof.Machine

/-! ### Treadle -/

theorem execTriggerBusInput_follows {orig : State} (s : State) (hyp : orig.Follows s) :
    orig.Ends (execTriggerBusInput s) := by
  unfold execTriggerBusInput
  repeat' with_reducible first | assumption | apply State.Ends.next | apply State.matrix_follows

theorem execMaskStop_follows {orig : State} (s : State) (hyp : orig.Follows s) :
    orig.Ends (execMaskStop s) := by
  unfold execMaskStop
  repeat' first
    | (intro _)
    | with_reducible first | assumption | apply State.Ends.next | apply State.Follows.ite |
      apply State.event_follows | apply State.fon_follows | apply State.stopFor_follows
    | (simp only [State.Follows.mk_iff]; with_reducible apply State.Keeps.of)
    | split

theorem execLiteralDelayExpire_follows {orig : State} (term : Fin 64) (literal : Fin 8) (s : State) (hyp :
    orig.Follows s) :
    orig.Ends (execLiteralDelayExpire term literal s) := by
  unfold execLiteralDelayExpire
  repeat' with_reducible first | assumption | apply State.Ends.next | apply State.Follows.ite | apply State.matrix_follows

theorem execEdgeWindowEnd_follows {orig : State} (term : Fin 64) (literal : Fin 8) (s : State) (hyp : orig.Follows
    s) :
    orig.Ends (execEdgeWindowEnd term literal s) := by
  unfold execEdgeWindowEnd
  repeat' with_reducible first | assumption | apply State.Ends.next | apply State.Follows.ite | apply State.matrix_follows

theorem execOutPulseEnd_follows {orig : State} (output : Fin 16) (s : State) (hyp : orig.Follows s) :
    orig.Ends (execOutPulseEnd output s) := by
  unfold execOutPulseEnd
  repeat' first
    | (intro _)
    | with_reducible first | assumption | apply State.Ends.next | apply State.Follows.ite |
      apply State.drivePins_follows | apply State.setTrd_follows

theorem execTrigInEdge_follows {orig : State} (input : Fin 8) (high : Bool) (phase : Fin 8) (s : State) (hyp :
    orig.Follows s) :
    orig.Ends (execTrigInEdge input high phase s) := by
  unfold execTrigInEdge
  repeat' first
    | (intro _)
    | with_reducible first | assumption | apply State.Ends.next | apply State.Follows.ite | apply State.inDrives_follows | apply
      State.setTrd_follows | apply State.stamp_follows
    | (simp only [State.Follows.mk_iff]; with_reducible apply State.Keeps.of)
    | split

theorem execSoftTrigger_follows {orig : State} (value : BitVec 8) (s : State) (hyp : orig.Follows s) :
    orig.Ends (execSoftTrigger value s) := by
  unfold execSoftTrigger
  repeat' first
    | (intro _)
    | with_reducible first | assumption | apply State.Ends.next | apply State.Follows.ite | apply State.pulseBus_follows | apply
      State.Follows.foldl
    | split

theorem State.setCopy_follows {orig : State} (s : State) (k : Nat) (x : CopySt) (hyp : orig.Follows s) :
    orig.Follows (State.setCopy s k x) := by
  unfold State.setCopy
  repeat' first
    | (intro _)
    | with_reducible first | assumption | apply State.setTrd_follows

theorem execTmrDisagree_follows {orig : State} (copy : Fin 3) (s : State) (hyp : orig.Follows s) :
    orig.Ends (execTmrDisagree copy s) := by
  unfold execTmrDisagree
  repeat' with_reducible first | assumption | apply State.Ends.next | apply State.Follows.ite | apply State.count_follows | apply
      State.logCoalesce_follows | apply State.raise_follows | apply State.setCopy_follows | apply
      State.upsets_follows

theorem execCopyStuck_follows {orig : State} (copy : Fin 3) (s : State) (hyp : orig.Follows s) :
    orig.Ends (execCopyStuck copy s) := by
  unfold execCopyStuck
  repeat' first
    | (intro _)
    | with_reducible first | assumption | apply State.Ends.next | apply State.Follows.ite |
      apply State.bitOn_follows | apply State.event_follows | apply State.fatal_follows

theorem execCopyRecovered_follows {orig : State} (copy : Fin 3) (s : State) (hyp : orig.Follows s) :
    orig.Ends (execCopyRecovered copy s) := by
  unfold execCopyRecovered
  repeat' with_reducible first | assumption | apply State.Ends.next | apply State.Follows.ite |
      apply State.bitOff_follows | apply State.setCopy_follows

theorem execTaintRetentionEnd_follows {orig : State} (s : State) (hyp : orig.Follows s) :
    orig.Ends (execTaintRetentionEnd s) := by
  unfold execTaintRetentionEnd
  repeat' first
    | (intro _)
    | with_reducible first | assumption | apply State.Ends.next | apply State.setTrd_follows
    | (simp only [State.Follows.mk_iff]; with_reducible apply State.Keeps.of)

theorem execShedArm_follows {orig : State} (shed : Fin 64) (s : State) (hyp : orig.Follows s) :
    orig.Ends (execShedArm shed s) := by
  unfold execShedArm
  repeat' first
    | (intro _)
    | with_reducible first | assumption | apply State.Ends.next | apply State.Follows.ite |
      apply State.raise_follows | apply State.shedArm_follows

theorem execShedDisarm_follows {orig : State} (shed : Fin 64) (s : State) (hyp : orig.Follows s) :
    orig.Ends (execShedDisarm shed s) := by
  unfold execShedDisarm
  repeat' with_reducible first | assumption | apply State.Ends.next | apply State.shedDisarm_follows

theorem execShedForce_follows {orig : State} (shed : Fin 64) (s : State) (hyp : orig.Follows s) :
    orig.Ends (execShedForce shed s) := by
  unfold execShedForce
  repeat' with_reducible first | assumption | apply State.Ends.next | apply State.shedForce_follows

theorem execShedPrefillDone_follows {orig : State} (shed : Fin 64) (s : State) (hyp : orig.Follows s) :
    orig.Ends (execShedPrefillDone shed s) := by
  unfold execShedPrefillDone
  repeat' with_reducible first | assumption | apply State.Ends.next | apply State.Follows.ite | apply State.shedGo_follows

theorem execShedPostEnd_follows {orig : State} (shed : Fin 64) (s : State) (hyp : orig.Follows s) :
    orig.Ends (execShedPostEnd shed s) := by
  unfold execShedPostEnd
  repeat' with_reducible first | assumption | apply State.Ends.next | apply State.Follows.ite |
      apply State.shedPosted_follows

theorem execShedHoldoffEnd_follows {orig : State} (shed : Fin 64) (s : State) (hyp : orig.Follows s) :
    orig.Ends (execShedHoldoffEnd shed s) := by
  unfold execShedHoldoffEnd
  repeat' with_reducible first | assumption | apply State.Ends.next | apply State.Follows.ite | apply State.shedGo_follows

theorem State.maskDataPut_follows {orig : State} (s : State) (src : Src) (n : Nat) (value : Word) (hyp : orig.Follows
  s) :
    orig.Follows (State.maskDataPut s src n value) := by
  unfold State.maskDataPut
  repeat' first
    | (intro _)
    | with_reducible first | assumption | apply State.Follows.ite | apply State.fset_follows | apply
      State.setTrd_follows | apply State.egReject_follows | apply State.egStored_follows
    | (simp only [State.Follows.mk_iff]; with_reducible apply State.Keeps.of)
    | split

/-! ### Display -/

theorem execPnlEnable_follows {orig : State} (s : State) (hyp : orig.Follows s) :
    orig.Ends (execPnlEnable s) := by
  unfold execPnlEnable
  repeat' first
    | (intro _)
    | with_reducible first | assumption | apply State.Ends.next | apply State.Follows.ite |
      apply State.composeBegin_follows | apply State.fon_follows | apply State.log_follows |
      apply State.setOutput_follows | apply State.took_follows | apply State.Follows.foldl

theorem execPnlDisable_follows {orig : State} (s : State) (hyp : orig.Follows s) :
    orig.Ends (execPnlDisable s) := by
  unfold execPnlDisable
  repeat' first
    | (intro _)
    | with_reducible first | assumption | apply State.Ends.next | apply State.Follows.ite |
      apply State.bitOn_follows | apply State.foff_follows | apply State.setOutput_follows |
      apply State.Follows.foldl

theorem execCommit_follows {orig : State} (s : State) (hyp : orig.Follows s) :
    orig.Ends (execCommit s) := by
  unfold execCommit
  repeat' with_reducible first | assumption | apply State.Ends.next | apply State.commitFor_follows

theorem execCommit1_follows {orig : State} (s : State) (hyp : orig.Follows s) :
    orig.Ends (execCommit1 s) := by
  unfold execCommit1
  repeat' with_reducible first | assumption | apply State.Ends.next | apply State.Follows.ite |
      apply State.commitFor_follows

theorem execPal_follows {orig : State} (s : State) (hyp : orig.Follows s) :
    orig.Ends (execPal s) := by
  unfold execPal
  repeat' with_reducible first | assumption | apply State.Ends.next | apply State.commitPal_follows

theorem execTrain0_follows {orig : State} (s : State) (hyp : orig.Follows s) :
    orig.Ends (execTrain0 s) := by
  unfold execTrain0
  repeat' first
    | (intro _)
    | with_reducible first | assumption | apply State.Ends.next | apply State.bitOn_follows | apply
      State.train_follows
    | (simp only [State.Follows.mk_iff]; with_reducible apply State.Keeps.of)
    | split

theorem execTrain1_follows {orig : State} (s : State) (hyp : orig.Follows s) :
    orig.Ends (execTrain1 s) := by
  unfold execTrain1
  repeat' first
    | (intro _)
    | with_reducible first | assumption | apply State.Ends.next | apply State.bitOn_follows | apply
      State.train_follows
    | (simp only [State.Follows.mk_iff]; with_reducible apply State.Keeps.of)
    | split

theorem execTrainDone_follows {orig : State} (output : Fin 2) (fails : Nat) (s : State) (hyp : orig.Follows s) :
    orig.Ends (execTrainDone output fails s) := by
  unfold execTrainDone
  repeat' first
    | (intro _)
    | with_reducible first | assumption | apply State.Ends.next | apply State.fset_follows | apply State.fon_follows |
      apply State.foff_follows | apply State.trainEnd_follows | apply State.trainFail_follows | apply
      State.auxRelease_follows
    | (simp only [State.Follows.mk_iff]; with_reducible apply State.Keeps.of)
    | split

theorem execVblank_follows {orig : State} (output : Fin 2) (s : State) (hyp : orig.Follows s) :
    orig.Ends (execVblank output s) := by
  unfold execVblank
  repeat' with_reducible first | assumption | apply State.Ends.next | apply State.Follows.ite |
      apply State.commitAges_follows | apply State.count_follows | apply State.flip_follows |
      apply State.outputStop_follows | apply State.planesBlank_follows | apply State.raise_follows |
      apply State.setOutput_follows

theorem execComposeDone_follows {orig : State} (output : Fin 2) (s : State) (hyp : orig.Follows s) :
    orig.Ends (execComposeDone output s) := by
  unfold execComposeDone
  repeat' first
    | (intro _)
    | with_reducible first | assumption | apply State.Ends.next | apply State.Follows.ite | apply State.composeFrame_follows | apply
      State.layersReach_follows | apply State.setOutput_follows | apply State.setSlot_follows | apply
      State.took_follows | apply State.Follows.foldl
    | (simp only [State.Follows.mk_iff]; with_reducible apply State.Keeps.of)
    | split

theorem execHpdPlug_follows {orig : State} (output : Fin 2) (s : State) (hyp : orig.Follows s) :
    orig.Ends (execHpdPlug output s) := by
  unfold execHpdPlug
  repeat' with_reducible first | assumption | apply State.Ends.next | apply State.Follows.ite | apply State.fon_follows |
      apply State.raise_follows | apply State.train_follows

theorem execHpdUnplug_follows {orig : State} (output : Fin 2) (s : State) (hyp : orig.Follows s) :
    orig.Ends (execHpdUnplug output s) := by
  unfold execHpdUnplug
  repeat' with_reducible first | assumption | apply State.Ends.next | apply State.Follows.ite |
      apply State.foff_follows | apply State.fon_follows | apply State.raise_follows

theorem execIrqHpd_follows {orig : State} (output : Fin 2) (s : State) (hyp : orig.Follows s) :
    orig.Ends (execIrqHpd output s) := by
  unfold execIrqHpd
  repeat' with_reducible first | assumption | apply State.Ends.next | apply State.raise_follows

theorem execAuxGo_follows {orig : State} (output : Fin 2) (s : State) (hyp : orig.Follows s) :
    orig.Ends (execAuxGo output s) := by
  unfold execAuxGo
  repeat' first
    | (intro _)
    | with_reducible first | assumption | apply State.Ends.next | apply State.Follows.ite | apply State.again_follows | apply
      State.auxSend_follows | apply State.fon_follows | apply State.setOutput_follows
    | (simp only [State.Follows.mk_iff]; with_reducible apply State.Keeps.of)
    | split

theorem execAuxDone_follows {orig : State} (output : Fin 2) (reply : Fin 4) (bytes : List (BitVec 8)) (s : State) (hyp
    : orig.Follows s) :
    orig.Ends (execAuxDone output reply bytes s) := by
  unfold execAuxDone
  repeat' first
    | (intro _)
    | with_reducible first | assumption | apply State.Ends.next | apply State.Follows.ite | apply State.auxSend_follows | apply
      State.foff_follows | apply State.fset_follows | apply State.raise_follows | apply State.setOutput_follows
      | apply State.wr_follows | apply State.Follows.foldl
    | (simp only [State.Follows.mk_iff]; with_reducible apply State.Keeps.of)
    | split

theorem execScanStoreEcc_follows {orig : State} (output : Fin 2) (x : Fin 1920) (y : Fin 1200) (uncorrectable :
    Bool) (s : State) (hyp : orig.Follows s) :
    orig.Ends (execScanStoreEcc output x y uncorrectable s) := by
  unfold execScanStoreEcc
  repeat' first
    | (intro _)
    | with_reducible first | assumption | apply State.Ends.next | apply State.Follows.ite |
      apply State.count_follows | apply State.event_follows
    | (simp only [State.Follows.mk_iff]; with_reducible apply State.Keeps.of)

/-! ### Shuttle -/

theorem execNop_follows {orig : State} (core : Fin 24) (ecc : Ecc) (s : State) (hyp : orig.Follows s) :
    orig.Ends (execNop core ecc s) := by
  unfold execNop
  repeat' first
    | (intro _)
    | with_reducible first | assumption | apply State.Ends.next | apply State.Gives.done | apply State.Gives.fault |
      apply State.shuRun_follows | apply onCore_follows

theorem execHalt_follows {orig : State} (core : Fin 24) (ecc : Ecc) (s : State) (hyp : orig.Follows s) :
    orig.Ends (execHalt core ecc s) := by
  unfold execHalt
  repeat' first
    | (intro _)
    | with_reducible first | assumption | apply State.Ends.next | apply State.Gives.done | apply State.Gives.fault |
      apply State.shuRun_follows | apply onCore_follows

theorem execWait_follows {orig : State} (core : Fin 24) (ecc : Ecc) (s : State) (hyp : orig.Follows s) :
    orig.Ends (execWait core ecc s) := by
  unfold execWait
  repeat' first
    | (intro _)
    | with_reducible first | assumption | apply State.Ends.next | apply State.Gives.done | apply State.Gives.fault |
      apply State.Follows.ite | apply State.fon_follows | apply State.shuRun_follows

theorem execTrap_follows {orig : State} (core : Fin 24) (ecc : Ecc) (s : State) (hyp : orig.Follows s) :
    orig.Ends (execTrap core ecc s) := by
  unfold execTrap
  repeat' first
    | (intro _)
    | with_reducible first | assumption | apply State.Ends.next | apply State.Gives.done | apply State.Gives.fault |
      apply State.shuRun_follows

theorem execMov_follows {orig : State} (core : Fin 24) (ecc : Ecc) (s : State) (hyp : orig.Follows s) :
    orig.Ends (execMov core ecc s) := by
  unfold execMov
  repeat' first
    | (intro _)
    | with_reducible first | assumption | apply State.Ends.next | apply State.Gives.done | apply State.Gives.fault |
      apply State.shuRun_follows | apply onCore_follows

theorem execMovi_follows {orig : State} (core : Fin 24) (ecc : Ecc) (s : State) (hyp : orig.Follows s) :
    orig.Ends (execMovi core ecc s) := by
  unfold execMovi
  repeat' first
    | (intro _)
    | with_reducible first | assumption | apply State.Ends.next | apply State.Gives.done | apply State.Gives.fault |
      apply State.shuRun_follows | apply onCore_follows

theorem execMovc_follows {orig : State} (core : Fin 24) (ecc : Ecc) (s : State) (hyp : orig.Follows s) :
    orig.Ends (execMovc core ecc s) := by
  unfold execMovc
  repeat' first
    | with_reducible assumption
    | (intro x; refine State.Follows.cut (P := orig.Follows x) ?_ ?_; all_goals first | (intro _; clear_value x) | subst x)
    | (intro x; clear_value x)
    | (intro _)
    | with_reducible first | assumption | apply State.Ends.next | apply State.Gives.done | apply State.Gives.fault |
      apply State.setCore_follows | apply State.shuRun_follows
    | (simp only [State.Follows.mk_iff]; with_reducible apply State.Keeps.of)
    | lift_lets
    | split
    | dsimp only

theorem execAdd_follows {orig : State} (core : Fin 24) (ecc : Ecc) (s : State) (hyp : orig.Follows s) :
    orig.Ends (execAdd core ecc s) := by
  unfold execAdd
  repeat' first
    | (intro _)
    | with_reducible first | assumption | apply State.Ends.next | apply State.Gives.done | apply State.Gives.fault |
      apply State.shuRun_follows | apply onCore_follows

theorem execSub_follows {orig : State} (core : Fin 24) (ecc : Ecc) (s : State) (hyp : orig.Follows s) :
    orig.Ends (execSub core ecc s) := by
  unfold execSub
  repeat' first
    | (intro _)
    | with_reducible first | assumption | apply State.Ends.next | apply State.Gives.done | apply State.Gives.fault |
      apply State.shuRun_follows | apply onCore_follows

theorem execAdds_follows {orig : State} (core : Fin 24) (ecc : Ecc) (s : State) (hyp : orig.Follows s) :
    orig.Ends (execAdds core ecc s) := by
  unfold execAdds
  repeat' first
    | (intro _)
    | with_reducible first | assumption | apply State.Ends.next | apply State.Gives.done | apply State.Gives.fault |
      apply State.shuRun_follows | apply onCore_follows

theorem execSubs_follows {orig : State} (core : Fin 24) (ecc : Ecc) (s : State) (hyp : orig.Follows s) :
    orig.Ends (execSubs core ecc s) := by
  unfold execSubs
  repeat' first
    | (intro _)
    | with_reducible first | assumption | apply State.Ends.next | apply State.Gives.done | apply State.Gives.fault |
      apply State.shuRun_follows | apply onCore_follows

theorem execAddi_follows {orig : State} (core : Fin 24) (ecc : Ecc) (s : State) (hyp : orig.Follows s) :
    orig.Ends (execAddi core ecc s) := by
  unfold execAddi
  repeat' first
    | (intro _)
    | with_reducible first | assumption | apply State.Ends.next | apply State.Gives.done | apply State.Gives.fault |
      apply State.shuRun_follows | apply onCore_follows

theorem execCmp_follows {orig : State} (core : Fin 24) (ecc : Ecc) (s : State) (hyp : orig.Follows s) :
    orig.Ends (execCmp core ecc s) := by
  unfold execCmp
  repeat' first
    | (intro _)
    | with_reducible first | assumption | apply State.Ends.next | apply State.Gives.done | apply State.Gives.fault |
      apply State.shuRun_follows | apply onCore_follows

theorem execCmpi_follows {orig : State} (core : Fin 24) (ecc : Ecc) (s : State) (hyp : orig.Follows s) :
    orig.Ends (execCmpi core ecc s) := by
  unfold execCmpi
  repeat' first
    | (intro _)
    | with_reducible first | assumption | apply State.Ends.next | apply State.Gives.done | apply State.Gives.fault |
      apply State.shuRun_follows | apply onCore_follows

theorem execAbs_follows {orig : State} (core : Fin 24) (ecc : Ecc) (s : State) (hyp : orig.Follows s) :
    orig.Ends (execAbs core ecc s) := by
  unfold execAbs
  repeat' first
    | (intro _)
    | with_reducible first | assumption | apply State.Ends.next | apply State.Gives.done | apply State.Gives.fault |
      apply State.Follows.ite | apply State.shuRun_follows | apply onCore_follows

theorem execMin_follows {orig : State} (core : Fin 24) (ecc : Ecc) (s : State) (hyp : orig.Follows s) :
    orig.Ends (execMin core ecc s) := by
  unfold execMin
  repeat' first
    | (intro _)
    | with_reducible first | assumption | apply State.Ends.next | apply State.Gives.done | apply State.Gives.fault |
      apply State.Follows.ite | apply State.shuRun_follows | apply onCore_follows

theorem execMax_follows {orig : State} (core : Fin 24) (ecc : Ecc) (s : State) (hyp : orig.Follows s) :
    orig.Ends (execMax core ecc s) := by
  unfold execMax
  repeat' first
    | (intro _)
    | with_reducible first | assumption | apply State.Ends.next | apply State.Gives.done | apply State.Gives.fault |
      apply State.Follows.ite | apply State.shuRun_follows | apply onCore_follows

theorem execShuAnd_follows {orig : State} (core : Fin 24) (ecc : Ecc) (s : State) (hyp : orig.Follows s) :
    orig.Ends (execShuAnd core ecc s) := by
  unfold execShuAnd
  repeat' first
    | (intro _)
    | with_reducible first | assumption | apply State.Ends.next | apply State.Gives.done | apply State.Gives.fault |
      apply State.shuRun_follows | apply onCore_follows

theorem execShuOr_follows {orig : State} (core : Fin 24) (ecc : Ecc) (s : State) (hyp : orig.Follows s) :
    orig.Ends (execShuOr core ecc s) := by
  unfold execShuOr
  repeat' first
    | (intro _)
    | with_reducible first | assumption | apply State.Ends.next | apply State.Gives.done | apply State.Gives.fault |
      apply State.shuRun_follows | apply onCore_follows

theorem execShuXor_follows {orig : State} (core : Fin 24) (ecc : Ecc) (s : State) (hyp : orig.Follows s) :
    orig.Ends (execShuXor core ecc s) := by
  unfold execShuXor
  repeat' first
    | (intro _)
    | with_reducible first | assumption | apply State.Ends.next | apply State.Gives.done | apply State.Gives.fault |
      apply State.shuRun_follows | apply onCore_follows

theorem execAndi_follows {orig : State} (core : Fin 24) (ecc : Ecc) (s : State) (hyp : orig.Follows s) :
    orig.Ends (execAndi core ecc s) := by
  unfold execAndi
  repeat' first
    | (intro _)
    | with_reducible first | assumption | apply State.Ends.next | apply State.Gives.done | apply State.Gives.fault |
      apply State.shuRun_follows | apply onCore_follows

theorem execAsh_follows {orig : State} (core : Fin 24) (ecc : Ecc) (s : State) (hyp : orig.Follows s) :
    orig.Ends (execAsh core ecc s) := by
  unfold execAsh
  repeat' first
    | (intro _)
    | with_reducible first | assumption | apply State.Ends.next | apply State.Gives.done | apply State.Gives.fault |
      apply State.shuRun_follows | apply onCore_follows

theorem execLsh_follows {orig : State} (core : Fin 24) (ecc : Ecc) (s : State) (hyp : orig.Follows s) :
    orig.Ends (execLsh core ecc s) := by
  unfold execLsh
  repeat' first
    | (intro _)
    | with_reducible first | assumption | apply State.Ends.next | apply State.Gives.done | apply State.Gives.fault |
      apply State.shuRun_follows | apply onCore_follows

theorem execLd_follows {orig : State} (core : Fin 24) (ecc : Ecc) (s : State) (hyp : orig.Follows s) :
    orig.Ends (execLd core ecc s) := by
  unfold execLd
  repeat' first
    | with_reducible assumption
    | (intro x; refine State.Follows.cut (P := orig.Follows x) ?_ ?_; all_goals first | (intro _; clear_value x) | subst x)
    | (intro x; clear_value x)
    | (intro _)
    | with_reducible first | assumption | apply State.Ends.next | apply State.Gives.done | apply State.Gives.fault |
      apply State.Follows.ite | apply State.setCore_follows | apply State.shuRun_follows
    | (simp only [State.Follows.mk_iff]; with_reducible apply State.Keeps.of)
    | lift_lets
    | split
    | dsimp only

theorem execSt_follows {orig : State} (core : Fin 24) (ecc : Ecc) (s : State) (hyp : orig.Follows s) :
    orig.Ends (execSt core ecc s) := by
  unfold execSt
  repeat' first
    | with_reducible assumption
    | (intro x; refine State.Follows.cut (P := orig.Follows x) ?_ ?_; all_goals first | (intro _; clear_value x) | subst x)
    | (intro x; clear_value x)
    | (intro _)
    | with_reducible first | assumption | apply State.Ends.next | apply State.Gives.done | apply State.Gives.fault |
      apply State.Follows.ite | apply State.setCore_follows | apply State.shuRun_follows
    | (simp only [State.Follows.mk_iff]; with_reducible apply State.Keeps.of)
    | lift_lets
    | split
    | dsimp only

theorem shuExtWrite_follows {orig : State} (t : State) (n x : Nat) (v : Half) (hyp : orig.Follows t) :
    orig.Gives (shuExtWrite t n x v) := by
  unfold shuExtWrite
  repeat' first
    | (intro _)
    | with_reducible first | assumption | apply State.Gives.done | apply State.Gives.fault |
      apply State.setCore_follows
    | (simp only [State.Follows.mk_iff]; with_reducible apply State.Keeps.of)
    | split

theorem execMovx_follows {orig : State} (core : Fin 24) (ecc : Ecc) (s : State) (hyp : orig.Follows s) :
    orig.Ends (execMovx core ecc s) := by
  unfold execMovx
  repeat' first
    | (intro _)
    | with_reducible first | assumption | apply State.Ends.next | apply State.Gives.done | apply State.Gives.fault |
      apply State.shuRun_follows | apply shuExtWrite_follows

theorem execMovxi_follows {orig : State} (core : Fin 24) (ecc : Ecc) (s : State) (hyp : orig.Follows s) :
    orig.Ends (execMovxi core ecc s) := by
  unfold execMovxi
  repeat' first
    | (intro _)
    | with_reducible first | assumption | apply State.Ends.next | apply State.Gives.done | apply State.Gives.fault |
      apply State.shuRun_follows | apply shuExtWrite_follows

theorem execMovfx_follows {orig : State} (core : Fin 24) (ecc : Ecc) (s : State) (hyp : orig.Follows s) :
    orig.Ends (execMovfx core ecc s) := by
  unfold execMovfx
  repeat' first
    | (intro _)
    | with_reducible first | assumption | apply State.Ends.next | apply State.Gives.done | apply State.Gives.fault |
      apply State.setCore_follows | apply State.shuRun_follows
    | (simp only [State.Follows.mk_iff]; with_reducible apply State.Keeps.of)
    | split

theorem execMpy_follows {orig : State} (core : Fin 24) (ecc : Ecc) (s : State) (hyp : orig.Follows s) :
    orig.Ends (execMpy core ecc s) := by
  unfold execMpy
  repeat' first
    | (intro _)
    | with_reducible first | assumption | apply State.Ends.next | apply State.Gives.done | apply State.Gives.fault |
      apply State.shuRun_follows | apply onCore_follows

theorem execMac_follows {orig : State} (core : Fin 24) (ecc : Ecc) (s : State) (hyp : orig.Follows s) :
    orig.Ends (execMac core ecc s) := by
  unfold execMac
  repeat' first
    | (intro _)
    | with_reducible first | assumption | apply State.Ends.next | apply State.Gives.done | apply State.Gives.fault |
      apply State.shuRun_follows | apply onCore_follows

theorem execMsu_follows {orig : State} (core : Fin 24) (ecc : Ecc) (s : State) (hyp : orig.Follows s) :
    orig.Ends (execMsu core ecc s) := by
  unfold execMsu
  repeat' first
    | (intro _)
    | with_reducible first | assumption | apply State.Ends.next | apply State.Gives.done | apply State.Gives.fault |
      apply State.shuRun_follows | apply onCore_follows

theorem execMacm_follows {orig : State} (core : Fin 24) (ecc : Ecc) (s : State) (hyp : orig.Follows s) :
    orig.Ends (execMacm core ecc s) := by
  unfold execMacm
  repeat' first
    | with_reducible assumption
    | (intro x; refine State.Follows.cut (P := orig.Follows x) ?_ ?_; all_goals first | (intro _; clear_value x) | subst x)
    | (intro x; clear_value x)
    | (intro _)
    | with_reducible first | assumption | apply State.Ends.next | apply State.Gives.done | apply State.Gives.fault |
      apply State.Follows.ite | apply State.setCore_follows | apply State.shuRun_follows |
      apply State.took_follows
    | (simp only [State.Follows.mk_iff]; with_reducible apply State.Keeps.of)
    | lift_lets
    | split
    | dsimp only

theorem execMacsq_follows {orig : State} (core : Fin 24) (ecc : Ecc) (s : State) (hyp : orig.Follows s) :
    orig.Ends (execMacsq core ecc s) := by
  unfold execMacsq
  repeat' first
    | with_reducible assumption
    | (intro x; refine State.Follows.cut (P := orig.Follows x) ?_ ?_; all_goals first | (intro _; clear_value x) | subst x)
    | (intro x; clear_value x)
    | (intro _)
    | with_reducible first | assumption | apply State.Ends.next | apply State.Gives.done | apply State.Gives.fault |
      apply State.setCore_follows | apply State.shuRun_follows
    | (simp only [State.Follows.mk_iff]; with_reducible apply State.Keeps.of)
    | lift_lets
    | split
    | dsimp only

theorem execAclr_follows {orig : State} (core : Fin 24) (ecc : Ecc) (s : State) (hyp : orig.Follows s) :
    orig.Ends (execAclr core ecc s) := by
  unfold execAclr
  repeat' first
    | (intro _)
    | with_reducible first | assumption | apply State.Ends.next | apply State.Gives.done | apply State.Gives.fault |
      apply State.shuRun_follows | apply onCore_follows

theorem execAcadd_follows {orig : State} (core : Fin 24) (ecc : Ecc) (s : State) (hyp : orig.Follows s) :
    orig.Ends (execAcadd core ecc s) := by
  unfold execAcadd
  repeat' first
    | with_reducible assumption
    | (intro x; refine State.Follows.cut (P := orig.Follows x) ?_ ?_; all_goals first | (intro _; clear_value x) | subst x)
    | (intro x; clear_value x)
    | (intro _)
    | with_reducible first | assumption | apply State.Ends.next | apply State.Gives.done | apply State.Gives.fault |
      apply State.Follows.ite | apply State.setCore_follows | apply State.shuRun_follows
    | (simp only [State.Follows.mk_iff]; with_reducible apply State.Keeps.of)
    | lift_lets
    | split
    | dsimp only

theorem execAcsh_follows {orig : State} (core : Fin 24) (ecc : Ecc) (s : State) (hyp : orig.Follows s) :
    orig.Ends (execAcsh core ecc s) := by
  unfold execAcsh
  repeat' first
    | (intro _)
    | with_reducible first | assumption | apply State.Ends.next | apply State.Gives.done | apply State.Gives.fault |
      apply State.Follows.ite | apply State.shuRun_follows | apply onCore_follows

theorem execRnd_follows {orig : State} (core : Fin 24) (ecc : Ecc) (s : State) (hyp : orig.Follows s) :
    orig.Ends (execRnd core ecc s) := by
  unfold execRnd
  repeat' first
    | (intro _)
    | with_reducible first | assumption | apply State.Ends.next | apply State.Gives.done | apply State.Gives.fault |
      apply State.shuRun_follows | apply onCore_follows

theorem execMovh_follows {orig : State} (core : Fin 24) (ecc : Ecc) (s : State) (hyp : orig.Follows s) :
    orig.Ends (execMovh core ecc s) := by
  unfold execMovh
  repeat' first
    | (intro _)
    | with_reducible first | assumption | apply State.Ends.next | apply State.Gives.done | apply State.Gives.fault |
      apply State.shuRun_follows | apply onCore_follows

theorem execMovl_follows {orig : State} (core : Fin 24) (ecc : Ecc) (s : State) (hyp : orig.Follows s) :
    orig.Ends (execMovl core ecc s) := by
  unfold execMovl
  repeat' first
    | (intro _)
    | with_reducible first | assumption | apply State.Ends.next | apply State.Gives.done | apply State.Gives.fault |
      apply State.shuRun_follows | apply onCore_follows

theorem execMovg_follows {orig : State} (core : Fin 24) (ecc : Ecc) (s : State) (hyp : orig.Follows s) :
    orig.Ends (execMovg core ecc s) := by
  unfold execMovg
  repeat' first
    | (intro _)
    | with_reducible first | assumption | apply State.Ends.next | apply State.Gives.done | apply State.Gives.fault |
      apply State.shuRun_follows | apply onCore_follows

theorem execShuB_follows {orig : State} (core : Fin 24) (ecc : Ecc) (s : State) (hyp : orig.Follows s) :
    orig.Ends (execShuB core ecc s) := by
  unfold execShuB
  repeat' first
    | (intro _)
    | with_reducible first | assumption | apply State.Ends.next | apply State.Gives.done | apply State.Gives.fault |
      apply State.setCore_follows | apply State.shuRun_follows
    | (simp only [State.Follows.mk_iff]; with_reducible apply State.Keeps.of)
    | split

theorem execCall_follows {orig : State} (core : Fin 24) (ecc : Ecc) (s : State) (hyp : orig.Follows s) :
    orig.Ends (execCall core ecc s) := by
  unfold execCall
  repeat' first
    | with_reducible assumption
    | (intro x; refine State.Follows.cut (P := orig.Follows x) ?_ ?_; all_goals first | (intro _; clear_value x) | subst x)
    | (intro x; clear_value x)
    | (intro _)
    | with_reducible first | assumption | apply State.Ends.next | apply State.Gives.done | apply State.Gives.fault |
      apply State.Follows.ite | apply State.setCore_follows | apply State.shuRun_follows
    | (simp only [State.Follows.mk_iff]; with_reducible apply State.Keeps.of)
    | lift_lets
    | split
    | dsimp only

theorem execRet_follows {orig : State} (core : Fin 24) (ecc : Ecc) (s : State) (hyp : orig.Follows s) :
    orig.Ends (execRet core ecc s) := by
  unfold execRet
  repeat' first
    | with_reducible assumption
    | (intro x; refine State.Follows.cut (P := orig.Follows x) ?_ ?_; all_goals first | (intro _; clear_value x) | subst x)
    | (intro x; clear_value x)
    | (intro _)
    | with_reducible first | assumption | apply State.Ends.next | apply State.Gives.done | apply State.Gives.fault |
      apply State.setCore_follows | apply State.shuRun_follows
    | (simp only [State.Follows.mk_iff]; with_reducible apply State.Keeps.of)
    | lift_lets
    | split
    | dsimp only

theorem execReti_follows {orig : State} (core : Fin 24) (ecc : Ecc) (s : State) (hyp : orig.Follows s) :
    orig.Ends (execReti core ecc s) := by
  unfold execReti
  repeat' first
    | with_reducible assumption
    | (intro x; refine State.Follows.cut (P := orig.Follows x) ?_ ?_; all_goals first | (intro _; clear_value x) | subst x)
    | (intro x; clear_value x)
    | (intro _)
    | with_reducible first | assumption | apply State.Ends.next | apply State.Gives.done | apply State.Gives.fault |
      apply State.Follows.ite | apply State.setCore_follows | apply State.shuRun_follows
    | (simp only [State.Follows.mk_iff]; with_reducible apply State.Keeps.of)
    | lift_lets
    | split
    | dsimp only

theorem shuLoop_follows {orig : State} (t : State) (n last count : Nat) (hyp : orig.Follows t) :
    orig.Gives (shuLoop t n last count) := by
  unfold shuLoop
  repeat' first
    | with_reducible assumption
    | (intro x; refine State.Follows.cut (P := orig.Follows x) ?_ ?_; all_goals first | (intro _; clear_value x) | subst x)
    | (intro x; clear_value x)
    | (intro _)
    | with_reducible first | assumption | apply State.Gives.done | apply State.Gives.fault |
      apply State.Follows.ite | apply State.count_follows | apply State.setCore_follows
    | (simp only [State.Follows.mk_iff]; with_reducible apply State.Keeps.of)
    | lift_lets
    | split
    | dsimp only

theorem execLoop_follows {orig : State} (core : Fin 24) (ecc : Ecc) (s : State) (hyp : orig.Follows s) :
    orig.Ends (execLoop core ecc s) := by
  unfold execLoop
  repeat' first
    | (intro _)
    | with_reducible first | assumption | apply State.Ends.next | apply State.Gives.done | apply State.Gives.fault |
      apply State.Follows.ite | apply State.shuRun_follows | apply shuLoop_follows

theorem execLoopd_follows {orig : State} (core : Fin 24) (ecc : Ecc) (s : State) (hyp : orig.Follows s) :
    orig.Ends (execLoopd core ecc s) := by
  unfold execLoopd
  repeat' first
    | (intro _)
    | with_reducible first | assumption | apply State.Ends.next | apply State.Gives.done | apply State.Gives.fault |
      apply State.shuRun_follows | apply shuLoop_follows

theorem State.setMboxIn_follows {orig : State} (s : State) (n : Nat) (q : List Half) (hyp : orig.Follows s) :
    orig.Follows (State.setMboxIn s n q) := by
  unfold State.setMboxIn
  repeat' with_reducible first | assumption | apply State.fset_follows | apply State.setCore_follows

theorem execShuIn_follows {orig : State} (core : Fin 24) (ecc : Ecc) (s : State) (hyp : orig.Follows s) :
    orig.Ends (execShuIn core ecc s) := by
  unfold execShuIn
  refine State.Ends.next (State.shuRun_follows _ _ _ _ _ hyp fun t w ht => ?_)
  dsimp only
  repeat' split
  all_goals first
    | exact State.Gives.fault ht
    | refine State.Gives.done ?_
      repeat' first | exact ht | apply State.Follows.ite | apply State.took_follows | apply State.log_follows |
        apply State.setMboxIn_follows | apply State.setCore_follows | apply State.turnPop_follows

theorem execOut_follows {orig : State} (core : Fin 24) (ecc : Ecc) (s : State) (hyp : orig.Follows s) :
    orig.Ends (execOut core ecc s) := by
  unfold execOut
  refine State.Ends.next (State.shuRun_follows _ _ _ _ _ hyp fun t w ht => ?_)
  dsimp only
  split
  · exact State.Gives.fault ht
  split
  · exact State.Gives.done (State.turnWait_follows _ _ _ _ (State.setCore_follows _ _ _ ht))
  · have h := State.turnPush_follows (t.setCore core.val { (t.core core.val).setSb 2 true with
      mboxOut := (t.core core.val).mboxOut ++ [(t.core core.val).dr (fD w)] }) (qnMboxOut core.val)
      (t.core core.val).mboxOut.length (State.setCore_follows _ _ _ ht)
    exact State.Gives.done (State.Follows.ite (State.raise_follows _ _ _ h) h)

theorem execPass_follows {orig : State} (core : Fin 24) (ecc : Ecc) (s : State) (hyp : orig.Follows s) :
    orig.Ends (execPass core ecc s) := by
  unfold execPass
  repeat' first
    | with_reducible assumption
    | (intro x; refine State.Follows.cut (P := orig.Follows x) ?_ ?_; all_goals first | (intro _; clear_value x) | subst x)
    | (intro x; clear_value x)
    | (intro _)
    | with_reducible first | assumption | apply State.Ends.next | apply State.Gives.done | apply State.Gives.fault |
      apply State.Follows.ite | apply State.partEnd_follows | apply State.setCore_follows |
      apply State.shuRun_follows | apply State.verdictStale_follows
    | (simp only [State.Follows.mk_iff]; with_reducible apply State.Keeps.of)
    | lift_lets
    | split
    | dsimp only

theorem execVeto_follows {orig : State} (core : Fin 24) (ecc : Ecc) (s : State) (hyp : orig.Follows s) :
    orig.Ends (execVeto core ecc s) := by
  unfold execVeto
  repeat' first
    | (intro _)
    | with_reducible first | assumption | apply State.Ends.next | apply State.Gives.done | apply State.Gives.fault |
      apply State.Follows.ite | apply State.count_follows | apply State.partEnd_follows |
      apply State.shuRun_follows | apply State.verdictStale_follows
    | (simp only [State.Follows.mk_iff]; with_reducible apply State.Keeps.of)
    | split

theorem execReservedOpcode_follows {orig : State} (core : Fin 24) (ecc : Ecc) (s : State) (hyp : orig.Follows s) :
    orig.Ends (execReservedOpcode core ecc s) := by
  unfold execReservedOpcode
  repeat' first
    | (intro _)
    | with_reducible first | assumption | apply State.Ends.next | apply State.Gives.done | apply State.Gives.fault |
      apply State.shuRun_follows

theorem execWaitWake_follows {orig : State} (core : Fin 24) (s : State) (hyp : orig.Follows s) :
    orig.Ends (execWaitWake core s) := by
  unfold execWaitWake
  repeat' with_reducible first | assumption | apply State.Ends.next | apply State.Follows.ite |
      apply State.foff_follows | apply State.setCore_follows

theorem execInterruptEntry_follows {orig : State} (core : Fin 24) (s : State) (hyp : orig.Follows s) :
    orig.Ends (execInterruptEntry core s) := by
  unfold execInterruptEntry
  repeat' first
    | (intro _)
    | with_reducible first | assumption | apply State.Ends.next | apply State.Follows.ite | apply State.fon_follows |
      apply State.foff_follows | apply State.bitOff_follows | apply State.count_follows | apply State.setCore_follows
    | (simp only [State.Follows.mk_iff]; with_reducible apply State.Keeps.of)
    | split

theorem execTickExpire_follows {orig : State} (core : Fin 24) (s : State) (hyp : orig.Follows s) :
    orig.Ends (execTickExpire core s) := by
  unfold execTickExpire
  repeat' with_reducible first | assumption | apply State.Ends.next | apply State.Follows.ite |
      apply State.setCore_follows

theorem execPartWrite_follows {orig : State} (core : Fin 24) (s : State) (hyp : orig.Follows s) :
    orig.Ends (execPartWrite core s) := by
  unfold execPartWrite
  repeat' first
    | (intro _)
    | with_reducible first | assumption | apply State.Ends.next | apply State.Follows.ite | apply
      State.mapWaves_follows | apply State.setCore_follows | apply State.partOffer_follows | apply
      State.partBypass_follows
    | (simp only [State.Follows.mk_iff]; with_reducible apply State.Keeps.of)
    | split

theorem execPartTimeout_follows {orig : State} (core : Fin 24) (s : State) (hyp : orig.Follows s) :
    orig.Ends (execPartTimeout core s) := by
  unfold execPartTimeout
  repeat' first
    | (intro _)
    | with_reducible first | assumption | apply State.Ends.next | apply State.Follows.ite | apply State.count_follows | apply
      State.event_follows | apply State.partEnd_follows
    | split

theorem execShuRun_follows {orig : State} (core : Fin 24) (s : State) (hyp : orig.Follows s) :
    orig.Ends (execShuRun core s) := by
  unfold execShuRun
  repeat' first
    | (intro _)
    | with_reducible first | assumption | apply State.Ends.next | apply State.Follows.ite | apply State.coreRun_follows | apply
      State.setCore_follows
    | (simp only [State.Follows.mk_iff]; with_reducible apply State.Keeps.of)
    | split

theorem execShuHalt_follows {orig : State} (core : Fin 24) (s : State) (hyp : orig.Follows s) :
    orig.Ends (execShuHalt core s) := by
  unfold execShuHalt
  repeat' with_reducible first | assumption | apply State.Ends.next | apply State.Follows.ite |
      apply State.bitOn_follows | apply State.coreHalt_follows | apply State.setCore_follows

theorem execCoreHalted_follows {orig : State} (core : Fin 24) (s : State) (hyp : orig.Follows s) :
    orig.Ends (execCoreHalted core s) := by
  unfold execCoreHalted
  repeat' with_reducible first | assumption | apply State.Ends.next | apply State.Follows.ite |
      apply State.coreHalt_follows

theorem execShuStep_follows {orig : State} (core : Fin 24) (s : State) (hyp : orig.Follows s) :
    orig.Ends (execShuStep core s) := by
  unfold execShuStep
  repeat' with_reducible first | assumption | apply State.Ends.next | apply State.Follows.ite |
      apply State.bitOn_follows | apply State.foff_follows | apply State.setCore_follows

theorem State.shuRegsClear_follows {orig : State} (s : State) (n : Nat) (hyp : orig.Follows s) :
    orig.Follows (State.shuRegsClear s n) := by
  unfold State.shuRegsClear
  repeat' first
    | (intro _)
    | with_reducible first | assumption | apply State.settleVec_follows | apply State.wr_follows |
      apply State.Follows.foldl

theorem execShuReset_follows {orig : State} (core : Fin 24) (s : State) (hyp : orig.Follows s) :
    orig.Ends (execShuReset core s) := by
  unfold execShuReset
  repeat' first
    | (intro _)
    | with_reducible first | assumption | apply State.Ends.next | apply State.Follows.ite | apply State.coreHalt_follows | apply
      State.resetEnded_follows | apply State.setCore_follows | apply State.setMboxIn_follows | apply
      State.setTurn_follows | apply State.shuRegsClear_follows | apply State.wr_follows
    | (simp only [State.Follows.mk_iff]; with_reducible apply State.Keeps.of)
    | split

theorem execShuIrq_follows {orig : State} (core : Fin 24) (s : State) (hyp : orig.Follows s) :
    orig.Ends (execShuIrq core s) := by
  unfold execShuIrq
  repeat' with_reducible first | assumption | apply State.Ends.next | apply State.Follows.ite |
      apply State.bitOn_follows | apply State.setCore_follows

theorem execMboxPush_follows {orig : State} (core : Fin 24) (value : BitVec 16) (s : State) (hyp : orig.Follows s) :
    orig.Ends (execMboxPush core value s) := by
  unfold execMboxPush
  repeat' first
    | (intro _)
    | with_reducible first | assumption | apply State.Ends.next | apply State.Follows.ite | apply State.setCore_follows | apply
      State.setMboxIn_follows | apply State.turnPush_follows | apply State.turnWait_follows
    | (simp only [State.Follows.mk_iff]; with_reducible apply State.Keeps.of)
    | split

theorem State.mboxTake_follows {orig : State} (s : State) (n : Nat) (hyp : orig.Follows s) :
    orig.Follows (State.mboxTake s n).1 := by
  unfold State.mboxTake
  dsimp only
  split
  · exact hyp
  · split
    · exact hyp
    · exact State.setCore_follows _ _ _ (State.turnPop_follows _ _ _ hyp)

theorem execMboxOutRead_follows {orig : State} (src : Src) (core : Fin 24) (parity : Bool) (tag : Nat) (s : State)
    (hyp : orig.Follows s) :
    orig.Ends (execMboxOutRead src core parity tag s) := by
  unfold execMboxOutRead
  repeat' with_reducible first | assumption | apply State.Ends.next | apply State.Follows.ite |
      apply State.busErr_follows | apply State.emit_follows | apply State.log_follows |
      apply State.mboxTake_follows | apply State.took_follows

/-! ### Spindle -/

theorem execSpnStart_follows {orig : State} (channel : Fin 64) (s : State) (hyp : orig.Follows s) :
    orig.Ends (execSpnStart channel s) := by
  unfold execSpnStart
  repeat' first
    | (intro _)
    | with_reducible first | assumption | apply State.Ends.next | apply State.Follows.ite | apply State.fon_follows |
      apply State.spnGo_follows | apply State.pokeOne_follows
    | (simp only [State.Follows.mk_iff]; with_reducible apply State.Keeps.of)
    | split

theorem execSpnHalt_follows {orig : State} (channel : Fin 64) (s : State) (hyp : orig.Follows s) :
    orig.Ends (execSpnHalt channel s) := by
  unfold execSpnHalt
  repeat' first
    | (intro _)
    | with_reducible first | assumption | apply State.Ends.next | apply State.Follows.ite | apply State.spnGo_follows
    | (simp only [State.Follows.mk_iff]; with_reducible apply State.Keeps.of)
    | split

theorem State.stopAlone_follows {orig : State} (s : State) (k : Nat) (hyp : orig.Follows s) :
    orig.Follows (State.stopAlone s k) := by
  unfold State.stopAlone
  repeat' first
    | (intro _)
    | with_reducible first | assumption | apply State.Follows.ite | apply State.pokeDone_follows | apply State.setSpch_follows
    | (simp only [State.Follows.mk_iff]; with_reducible apply State.Keeps.of)
    | split

theorem execSpnStop_follows {orig : State} (channel : Fin 64) (s : State) (hyp : orig.Follows s) :
    orig.Ends (execSpnStop channel s) := by
  unfold execSpnStop
  repeat' first
    | (intro _)
    | with_reducible first | assumption | apply State.Ends.next | apply State.Follows.ite | apply State.spnGo_follows | apply
      State.stopAlone_follows
    | (simp only [State.Follows.mk_iff]; with_reducible apply State.Keeps.of)
    | split

theorem execSpnPoke_follows {orig : State} (channel : Fin 64) (s : State) (hyp : orig.Follows s) :
    orig.Ends (execSpnPoke channel s) := by
  unfold execSpnPoke
  repeat' first
    | (intro _)
    | with_reducible first | assumption | apply State.Ends.next | apply State.pokeWrite_follows
    | (simp only [State.Follows.mk_iff]; with_reducible apply State.Keeps.of)
    | split

theorem State.spnEvents_follows {orig : State} (s : State) (k v : Nat) (hyp : orig.Follows s) :
    orig.Follows (State.spnEvents s k v) := by
  unfold State.spnEvents
  repeat' with_reducible first | assumption | apply State.wr_follows

theorem execSpnEventSet_follows {orig : State} (channel : Fin 64) (value : BitVec 8) (s : State) (hyp : orig.Follows
    s) :
    orig.Ends (execSpnEventSet channel value s) := by
  unfold execSpnEventSet
  repeat' with_reducible first | assumption | apply State.Ends.next | apply State.spnEvents_follows

theorem execSpnEnd_follows {orig : State} (channel : Fin 64) (ue : Bool) (s : State) (hyp : orig.Follows s) :
    orig.Ends (execSpnEnd channel ue s) := by
  unfold execSpnEnd
  repeat' first
    | (intro _)
    | with_reducible first | assumption | apply State.Ends.next | apply State.Follows.ite | apply State.pokeDone_follows | apply
      State.spnGo_follows | apply State.spnRun_follows
    | (simp only [State.Follows.mk_iff]; with_reducible apply State.Keeps.of)
    | split

theorem execSpnLink_follows {orig : State} (channel : Fin 64) (ue : Bool) (s : State) (hyp : orig.Follows s) :
    orig.Ends (execSpnLink channel ue s) := by
  unfold execSpnLink
  repeat' first
    | (intro _)
    | with_reducible first | assumption | apply State.Ends.next | apply State.setSpnPc_follows |
      apply State.spnRun_follows

theorem execSpnReservedOpcode_follows {orig : State} (channel : Fin 64) (ue : Bool) (s : State) (hyp : orig.Follows s)
    :
    orig.Ends (execSpnReservedOpcode channel ue s) := by
  unfold execSpnReservedOpcode
  repeat' first
    | (intro _)
    | with_reducible first | assumption | apply State.Ends.next | apply State.Follows.ite | apply State.readReach_follows | apply
      State.spnBeside_follows | apply State.spnFault_follows | apply State.spnFetchFault_follows
    | split

theorem execSpnMove_follows {orig : State} (channel : Fin 64) (ue : Bool) (s : State) (hyp : orig.Follows s) :
    orig.Ends (execSpnMove channel ue s) := by
  unfold execSpnMove
  repeat' first
    | (intro _)
    | with_reducible first | assumption | apply State.Ends.next | apply State.Follows.ite | apply State.spnGo_follows
      | apply State.spnFault_follows | apply State.spnRun_follows
    | (simp only [State.Follows.mk_iff]; with_reducible apply State.Keeps.of)
    | split

theorem State.spnElementWrite_follows {orig : State} (s : State) (k : Nat) (i : SpnIns) (done n : Nat) (bs : List
    Byte) (hyp : orig.Follows s) :
    orig.Follows (State.spnElementWrite s k i done n bs) := by
  unfold State.spnElementWrite
  repeat' first
    | with_reducible assumption
    | (intro x; refine State.Follows.cut (P := orig.Follows x) ?_ ?_; all_goals first | (intro _; clear_value x) | subst x)
    | (intro x; clear_value x)
    | (intro _)
    | with_reducible first | assumption | apply State.Follows.ite | apply State.spnAdvance_follows |
      apply State.spnBoundary_follows | apply State.spnFault_follows | apply State.spnHole_follows |
      apply State.spnNext_follows | apply State.spnWrite_follows
    | (simp only [State.Follows.mk_iff]; with_reducible apply State.Keeps.of)
    | lift_lets
    | split
    | dsimp only

theorem execSpnElementDone_follows {orig : State} (channel : Fin 64) (ue : Option Nat) (given : Option (List (BitVec
  8))) (s : State) (hyp : orig.Follows s) :
    orig.Ends (execSpnElementDone channel ue given s) := by
  unfold execSpnElementDone
  repeat' first
    | with_reducible assumption
    | (intro x; refine State.Follows.cut (P := orig.Follows x) ?_ ?_; all_goals first | (intro _; clear_value x) | subst x)
    | (intro x; refine State.Follows.cut (P := ∀ a, orig.Follows (x a)) ?_ ?_; all_goals first | (subst x; intro _) | (intro kf; clear_value x))
    | (intro x; refine State.Follows.cut (P := ∀ t a, orig.Follows t → orig.Follows (x t a)) ?_ ?_; all_goals first | (subst x; intro _ _ _) | (intro kf; clear_value x))
    | (intro x; refine State.Follows.cut (P := ∀ t a b, orig.Follows t → orig.Follows (x t a b)) ?_ ?_; all_goals first | (subst x; intro _ _ _ _) | (intro kf; clear_value x))
    | (intro x; refine State.Follows.cut (P := orig.Follows x.1) ?_ ?_; all_goals first | (intro _; clear_value x) | subst x)
    | (intro x; refine State.Follows.cut (P := orig.Follows x.2) ?_ ?_; all_goals first | (intro _; clear_value x) | subst x)
    | (intro x; refine State.Follows.cut (P := orig.Follows x.state) ?_ ?_; all_goals first | (intro _; clear_value x) | subst x)
    | (intro x; clear_value x)
    | (intro _)
    | with_reducible first | assumption | apply State.Ends.next | apply State.Follows.ite | apply
      State.readReach_follows | apply State.spnFault_follows | apply State.spnAsk_follows | apply
      State.spnReadFault_follows | apply State.spnServed_follows | apply State.spnElementWrite_follows
    | (simp only [State.Follows.mk_iff]; with_reducible apply State.Keeps.of)
    | lift_lets
    | split
    | dsimp only

theorem execSpnQuiesceTimeout_follows {orig : State} (channel : Fin 64) (s : State) (hyp : orig.Follows s) :
    orig.Ends (execSpnQuiesceTimeout channel s) := by
  unfold execSpnQuiesceTimeout
  repeat' first
    | (intro _)
    | with_reducible first | assumption | apply State.Ends.next | apply State.Follows.ite |
      apply State.raise_follows | apply State.spnFault_follows
    | (simp only [State.Follows.mk_iff]; with_reducible apply State.Keeps.of)
    | split

theorem execSpnLoop_follows {orig : State} (channel : Fin 64) (ue : Bool) (s : State) (hyp : orig.Follows s) :
    orig.Ends (execSpnLoop channel ue s) := by
  unfold execSpnLoop
  repeat' first
    | (intro _)
    | with_reducible first | assumption | apply State.Ends.next | apply State.Follows.ite |
      apply State.count_follows | apply State.setSpch_follows | apply State.setSpnPc_follows |
      apply State.spnFault_follows | apply State.spnGo_follows | apply State.spnNext_follows |
      apply State.spnRun_follows
    | (simp only [State.Follows.mk_iff]; with_reducible apply State.Keeps.of)
    | split

theorem execSpnWait_follows {orig : State} (channel : Fin 64) (ue : Bool) (s : State) (hyp : orig.Follows s) :
    orig.Ends (execSpnWait channel ue s) := by
  unfold execSpnWait
  repeat' first
    | (intro _)
    | with_reducible first | assumption | apply State.Ends.next | apply State.Follows.ite | apply State.spnGo_follows
      | apply State.spnFault_follows | apply State.spnRun_follows
    | (simp only [State.Follows.mk_iff]; with_reducible apply State.Keeps.of)
    | split

theorem execSpnWaitPoll_follows {orig : State} (channel : Fin 64) (ue : Bool) (given : Option (List (BitVec 8))) (s :
  State) (hyp : orig.Follows s) :
    orig.Ends (execSpnWaitPoll channel ue given s) := by
  unfold execSpnWaitPoll
  repeat' first
    | (intro _)
    | with_reducible first | assumption | apply State.Ends.next | apply State.Follows.ite | apply
      State.readReach_follows | apply State.setSpch_follows | apply State.spnBeside_follows | apply
      State.spnAsk_follows | apply State.spnReadFault_follows
    | (simp only [State.Follows.mk_iff]; with_reducible apply State.Keeps.of)
    | split

theorem execSpnWaitEnd_follows {orig : State} (channel : Fin 64) (s : State) (hyp : orig.Follows s) :
    orig.Ends (execSpnWaitEnd channel s) := by
  unfold execSpnWaitEnd
  repeat' first
    | (intro _)
    | with_reducible first | assumption | apply State.Ends.next | apply State.Follows.ite |
      apply State.spnNext_follows | apply State.wr_follows
    | (simp only [State.Follows.mk_iff]; with_reducible apply State.Keeps.of)
    | split

theorem execSpnWaitTimeout_follows {orig : State} (channel : Fin 64) (s : State) (hyp : orig.Follows s) :
    orig.Ends (execSpnWaitTimeout channel s) := by
  unfold execSpnWaitTimeout
  repeat' first
    | (intro _)
    | with_reducible first | assumption | apply State.Ends.next | apply State.Follows.ite | apply State.spnBeside_follows | apply
      State.spnFault_follows | apply State.took_follows
    | split

theorem State.spnFlush_follows {orig : State} (s : State) (k : Nat) (i : SpnIns) (hyp : orig.Follows s) :
    orig.Follows (State.spnFlush s k i) := by
  unfold State.spnFlush
  repeat' first
    | (intro _)
    | with_reducible first | assumption | apply State.Follows.ite | apply State.partnerGet_follows | apply
      State.spnGo_follows | apply State.Follows.foldl
    | (simp only [State.Follows.mk_iff]; with_reducible apply State.Keeps.of)
    | split

theorem execSpnSignal_follows {orig : State} (channel : Fin 64) (ue : Bool) (s : State) (hyp : orig.Follows s) :
    orig.Ends (execSpnSignal channel ue s) := by
  unfold execSpnSignal
  repeat' first
    | (intro _)
    | with_reducible first | assumption | apply State.Ends.next | apply State.Follows.ite | apply
      State.spnFault_follows | apply State.spnRun_follows | apply State.spnFlush_follows
    | (simp only [State.Follows.mk_iff]; with_reducible apply State.Keeps.of)
    | split

theorem State.spnSignalled_follows {orig : State} (s : State) (k : Nat) (i : SpnIns) (hyp : orig.Follows s) :
    orig.Follows (State.spnSignalled s k i) := by
  unfold State.spnSignalled
  repeat' first
    | (intro _)
    | with_reducible first | assumption | apply State.Follows.ite | apply State.bitOn_follows | apply State.raise_follows | apply
      State.setPair_follows | apply State.setSpch_follows | apply State.spnEvents_follows | apply
      State.spnNext_follows
    | (simp only [State.Follows.mk_iff]; with_reducible apply State.Keeps.of)
    | split

theorem execSpnSignalFlushed_follows {orig : State} (channel : Fin 64) (failed : Bool) (s : State) (hyp : orig.Follows
    s) :
    orig.Ends (execSpnSignalFlushed channel failed s) := by
  unfold execSpnSignalFlushed
  repeat' first
    | (intro _)
    | with_reducible first | assumption | apply State.Ends.next | apply State.Follows.ite | apply State.spnBeside_follows | apply
      State.spnFault_follows | apply State.spnHole_follows | apply State.spnSignalled_follows | apply
      State.spnWrite_follows
    | split

theorem execCompletionTimeout_follows {orig : State} (channel : Fin 64) (s : State) (hyp : orig.Follows s) :
    orig.Ends (execCompletionTimeout channel s) := by
  unfold execCompletionTimeout
  repeat' first
    | (intro _)
    | with_reducible first | assumption | apply State.Ends.next | apply State.Follows.ite | apply
      State.spnFault_follows | apply State.spnBeside_follows
    | (simp only [State.Follows.mk_iff]; with_reducible apply State.Keeps.of)
    | split

end Sys2Proof.Machine
end

