-- ==== Sys2Proof/Laws/Keeps8.lean ====
section
/-!
SUPPORT. Each operation and meaning of Calibration, Paddock, TackOps, Tack, Monitors, Run, RegOps, Beat, Bridle keeps
  what State.Follows says: one lemma for each, named after it.
-/

set_option linter.all false

namespace Sys2Proof.Machine

/-! ### Calibration -/

theorem execFarProg_follows {orig : State} (s : State) (hyp : orig.Follows s) :
    orig.Ends (execFarProg s) := by
  unfold execFarProg
  repeat' first
    | (intro _)
    | with_reducible first | assumption | apply State.Ends.next | apply State.Follows.ite | apply State.fon_follows |
      apply State.again_follows | apply State.raise_follows | apply State.farProg_follows
    | (simp only [State.Follows.mk_iff]; with_reducible apply State.Keeps.of)
    | split

theorem execFarProgDone_follows {orig : State} (readback : Option (List (BitVec 8))) (s : State) (hyp : orig.Follows
    s) :
    orig.Ends (execFarProgDone readback s) := by
  unfold execFarProgDone
  repeat' first
    | (intro _)
    | with_reducible first | assumption | apply State.Ends.next | apply State.farFailed_follows |
      apply State.farNext_follows | apply State.farResult_follows | apply State.farWritten_follows |
      apply State.foff_follows | apply State.raise_follows | apply State.setSlot_follows |
      apply State.showStore_follows
    | (simp only [State.Follows.mk_iff]; with_reducible apply State.Keeps.of)
    | split

theorem execStatsGo_follows {orig : State} (s : State) (hyp : orig.Follows s) :
    orig.Ends (execStatsGo s) := by
  unfold execStatsGo
  repeat' with_reducible first | assumption | apply State.Ends.next | apply State.fon_follows

theorem execStatsCancel_follows {orig : State} (s : State) (hyp : orig.Follows s) :
    orig.Ends (execStatsCancel s) := by
  unfold execStatsCancel
  repeat' first
    | (intro _)
    | with_reducible first | assumption | apply State.Ends.next | apply State.foff_follows
    | (simp only [State.Follows.mk_iff]; with_reducible apply State.Keeps.of)

theorem execStatsCountDone_follows {orig : State} (channel : Fin 192) (s : State) (hyp : orig.Follows s) :
    orig.Ends (execStatsCountDone channel s) := by
  unfold execStatsCountDone
  repeat' first
    | (intro _)
    | with_reducible first | assumption | apply State.Ends.next | apply State.Follows.ite
    | (simp only [State.Follows.mk_iff]; with_reducible apply State.Keeps.of)
    | split

theorem execStatsApply_follows {orig : State} (channel : Fin 192) (s : State) (hyp : orig.Follows s) :
    orig.Ends (execStatsApply channel s) := by
  unfold execStatsApply
  repeat' first
    | (intro _)
    | with_reducible first | assumption | apply State.Ends.next | apply State.Follows.ite | apply State.fset_follows |
      apply State.journal_follows
    | (simp only [State.Follows.mk_iff]; with_reducible apply State.Keeps.of)
    | split

/-! ### Paddock -/

theorem State.unitClear_follows {orig : State} (s : State) (u : Nat) (hyp : orig.Follows s) :
    orig.Follows (State.unitClear s u) := by
  unfold State.unitClear
  repeat' first
    | (intro _)
    | with_reducible first | assumption | apply State.Follows.ite | apply State.clearRegs_follows | apply State.displayReset_follows |
      apply State.drivePins_follows | apply State.harnessClear_follows | apply State.reedsClear_follows | apply
      State.settleVecs_follows | apply State.sliceClear_follows | apply State.turnsGone_follows | apply
      State.wr_follows
    | (simp only [State.Follows.mk_iff]; with_reducible apply State.Keeps.of)
    | split

theorem State.unitReset_follows {orig : State} (s : State) (u : Nat) (hyp : orig.Follows s) :
    orig.Follows (State.unitReset s u) := by
  unfold State.unitReset
  repeat' first
    | (intro _)
    | with_reducible first | assumption | apply State.resetEnded_follows | apply State.unitClear_follows
    | (simp only [State.Follows.mk_iff]; with_reducible apply State.Keeps.of)

theorem State.pdkShow_follows {orig : State} (s : State) (hyp : orig.Follows s) :
    orig.Follows (State.pdkShow s) := by
  unfold State.pdkShow
  repeat' first
    | (intro _)
    | with_reducible first | assumption | apply State.wr_follows

theorem State.pdkEnd_follows {orig : State} (s : State) (result : Nat) (hyp : orig.Follows s) :
    orig.Follows (State.pdkEnd s result) := by
  unfold State.pdkEnd
  repeat' with_reducible first | assumption | apply State.foff_follows | apply State.fset_follows |
      apply State.raise_follows

theorem execPdkGo_follows {orig : State} (s : State) (hyp : orig.Follows s) :
    orig.Ends (execPdkGo s) := by
  unfold execPdkGo
  extract_lets req busy s1 s2 mode src s3 s4
  have h1 : orig.Follows s1 := State.Follows.foldl (fun x w hx => State.wr_follows _ _ _ hx) hyp _
  have h2 : orig.Follows s2 := State.fset_follows _ _ _ _ (State.fon_follows _ _ _ h1)
  have h3 : orig.Follows s3 := State.Follows.upd h2 rfl rfl rfl rfl rfl rfl
  have h4 : orig.Follows s4 := State.Follows.foldl (fun x w hx => State.wr_follows _ _ _ hx) hyp _
  apply State.Ends.next
  exact State.Follows.ite (State.again_follows _ _ _ hyp) (State.Follows.ite
    (State.Follows.ite (State.pdkEnd_follows _ _ h3) h3) (State.raise_follows _ _ _ (State.fset_follows _ _ _ _ h4)))

theorem execPdkAbort_follows {orig : State} (s : State) (hyp : orig.Follows s) :
    orig.Ends (execPdkAbort s) := by
  unfold execPdkAbort
  repeat' first
    | (intro _)
    | with_reducible first | assumption | apply State.Ends.next | apply State.Follows.ite |
      apply State.pdkEnd_follows | apply State.unitReset_follows | apply State.Follows.foldl

theorem State.reedResult_follows {orig : State} (s : State) (u : Nat) (failed : Bool) (hyp : orig.Follows s) :
    orig.Follows (State.reedResult s u failed) := by
  unfold State.reedResult
  repeat' with_reducible first | assumption | apply State.Follows.ite | apply State.fset_follows

theorem execPdkTestDone_follows {orig : State} (unit : Fin 130) (signature : BitVec 32) (memInfo : BitVec 25)
    (repair : BitVec 16) (s : State) (hyp : orig.Follows s) :
    orig.Ends (execPdkTestDone unit signature memInfo repair s) := by
  unfold execPdkTestDone
  repeat' first
    | (intro _)
    | with_reducible first | assumption | apply State.Ends.next | apply State.Follows.ite |
      apply State.bitOn_follows | apply State.event_follows | apply State.pdkEnd_follows |
      apply State.pdkShow_follows | apply State.reedResult_follows | apply State.unitReset_follows
    | (simp only [State.Follows.mk_iff]; with_reducible apply State.Keeps.of)

/-! ### TackOps -/

theorem State.setTck_follows {orig : State} (s : State) (x : TckSt) (hyp : orig.Follows s) :
    orig.Follows (State.setTck s x) := by
  unfold State.setTck
  repeat' first
    | (intro _)
    | with_reducible first | assumption
    | (simp only [State.Follows.mk_iff]; with_reducible apply State.Keeps.of)

theorem State.groupStart_follows {orig : State} (s : State) (injected : Bool) (first : Nat) (hyp : orig.Follows s) :
    orig.Follows (State.groupStart s injected first) := by
  unfold State.groupStart
  repeat' first
    | (intro _)
    | with_reducible first | assumption | apply State.injected_follows | apply State.setTck_follows
    | (simp only [State.Follows.mk_iff]; with_reducible apply State.Keeps.of)

theorem State.tckHalt_follows {orig : State} (s : State) (hyp : orig.Follows s) :
    orig.Follows (State.tckHalt s) := by
  unfold State.tckHalt
  repeat' with_reducible first | assumption | apply State.foff_follows | apply State.setTck_follows

theorem State.tckGo_follows {orig : State} (s : State) (hyp : orig.Follows s) :
    orig.Follows (State.tckGo s) := by
  unfold State.tckGo
  repeat' first
    | (intro _)
    | with_reducible first | assumption | apply State.Follows.ite | apply State.groupStart_follows |
      apply State.setTck_follows | apply State.tckHalt_follows
    | (simp only [State.Follows.mk_iff]; with_reducible apply State.Keeps.of)
    | split

theorem State.corrReplace_follows {orig : State} (s : State) (i : Nat) (hyp : orig.Follows s) :
    orig.Follows (State.corrReplace s i) := by
  unfold State.corrReplace
  repeat' first
    | (intro _)
    | with_reducible first | assumption | apply State.Follows.ite | apply State.setTck_follows
    | (simp only [State.Follows.mk_iff]; with_reducible apply State.Keeps.of)
    | split

theorem State.corrLoad_follows {orig : State} (s : State) (p : List Byte) (i : Nat) (hyp : orig.Follows s) :
    orig.Follows (State.corrLoad s p i) := by
  unfold State.corrLoad
  repeat' first
    | (intro _)
    | with_reducible first | assumption | apply State.fload_follows | apply State.setTck_follows
    | (simp only [State.Follows.mk_iff]; with_reducible apply State.Keeps.of)
    | split

theorem State.regStart_follows {orig : State} (s0 : State) (hyp : orig.Follows s0) :
    orig.Follows (State.regStart s0) := by
  unfold State.regStart
  repeat' first
    | (intro _)
    | with_reducible first | assumption | apply State.fon_follows | apply State.settled_follows | apply
      State.corrsDue_follows | apply State.setTck_follows | apply State.tckGo_follows | apply State.corrLoad_follows |
      apply State.Follows.foldl
    | (simp only [State.Follows.mk_iff]; with_reducible apply State.Keeps.of)
    | split

theorem State.tackWrite_follows {orig : State} (s : State) (bytes : List Byte) (hyp : orig.Follows s) :
    orig.Follows (State.tackWrite s bytes) := by
  unfold State.tackWrite
  repeat' first
    | (intro _)
    | with_reducible first | assumption | apply State.Follows.ite | apply State.event_follows |
      apply State.foff_follows | apply State.fset_follows | apply State.hbmEnter_follows |
      apply State.setPair_follows | apply State.setTck_follows
    | (simp only [State.Follows.mk_iff]; with_reducible apply State.Keeps.of)
    | split

theorem State.tackEntry_follows {orig : State} (s : State) (g : TckGroup) (e code : Nat) (hyp : orig.Follows s) :
    orig.Follows (State.tackEntry s g e code) := by
  unfold State.tackEntry
  repeat' first
    | with_reducible assumption
    | (intro x; refine State.Follows.cut (P := orig.Follows x) ?_ ?_; all_goals first | (intro _; clear_value x) | subst x)
    | (intro x; refine State.Follows.cut (P := ∀ a, orig.Follows (x a)) ?_ ?_; all_goals first | (subst x; intro _) | (intro kf; clear_value x))
    | (intro x; refine State.Follows.cut (P := ∀ t a, orig.Follows t → orig.Follows (x t a)) ?_ ?_; all_goals first | (subst x; intro _ _ _) | (intro kf; clear_value x))
    | (intro x; refine State.Follows.cut (P := ∀ t a b, orig.Follows t → orig.Follows (x t a b)) ?_ ?_; all_goals first | (subst x; intro _ _ _ _) | (intro kf; clear_value x))
    | (intro x; refine State.Follows.cut (P := orig.Follows x.1) ?_ ?_; all_goals first | (intro _; clear_value x) | subst x)
    | (intro x; refine State.Follows.cut (P := orig.Follows x.2) ?_ ?_; all_goals first | (intro _; clear_value x) | subst x)
    | (intro x; refine State.Follows.cut (P := orig.Follows x.state) ?_ ?_; all_goals first | (intro _; clear_value x) | subst x)
    | (intro x; clear_value x)
    | (intro _)
    | with_reducible first | assumption | apply State.Follows.ite | apply State.fset_follows | apply
      State.setPair_follows | apply State.sidePush_follows | apply State.injected_follows | apply
      State.tackWrite_follows
    | (simp only [State.Follows.mk_iff]; with_reducible apply State.Keeps.of)
    | lift_lets
    | split
    | dsimp only

theorem State.tckRefuse_follows {orig : State} (s : State) (hyp : orig.Follows s) :
    orig.Follows (State.tckRefuse s) := by
  unfold State.tckRefuse
  repeat' with_reducible first | assumption | apply State.raise_follows

/-! ### Tack -/

theorem execTckStart_follows {orig : State} (s : State) (hyp : orig.Follows s) :
    orig.Ends (execTckStart s) := by
  unfold execTckStart
  repeat' with_reducible first | assumption | apply State.Ends.next | apply State.Follows.ite | apply State.fon_follows |
      apply State.logOpen_follows | apply State.setTck_follows | apply State.took_follows

theorem execTckStop_follows {orig : State} (s : State) (hyp : orig.Follows s) : orig.Ends (execTckStop s) := by
  unfold execTckStop
  extract_lets src s1
  have h1 : orig.Follows s1 := by
    show orig.Follows (ite _ _ _)
    split
    · exact State.raise_follows _ _ _ (State.foff_follows _ _ _ (State.setTck_follows _ _ hyp))
    · exact hyp
  apply State.Ends.next
  split
  · exact State.tckGo_follows _ (State.setTck_follows _ _ h1)
  · exact h1

theorem execRegGo_follows {orig : State} (s : State) (hyp : orig.Follows s) :
    orig.Ends (execRegGo s) := by
  unfold execRegGo
  repeat' first
    | (intro _)
    | with_reducible first | assumption | apply State.Ends.next | apply State.Follows.ite | apply State.again_follows
      | apply State.regStart_follows | apply State.tckRefuse_follows
    | (simp only [State.Follows.mk_iff]; with_reducible apply State.Keeps.of)
    | split

theorem execInjGo_follows {orig : State} (s : State) (hyp : orig.Follows s) :
    orig.Ends (execInjGo s) := by
  unfold execInjGo
  repeat' first
    | (intro _)
    | with_reducible first | assumption | apply State.Ends.next | apply State.Follows.ite | apply State.fon_follows |
      apply State.again_follows | apply State.setTck_follows | apply State.tckGo_follows | apply
      State.tckRefuse_follows
    | (simp only [State.Follows.mk_iff]; with_reducible apply State.Keeps.of)
    | split

theorem execPeriodicStart_follows {orig : State} (s : State) (hyp : orig.Follows s) :
    orig.Ends (execPeriodicStart s) := by
  unfold execPeriodicStart
  repeat' with_reducible first | assumption | apply State.Ends.next | apply State.Follows.ite |
      apply State.count_follows | apply State.event_follows | apply State.regStart_follows

theorem execTackGroupDone_follows {orig : State} (codes : List (BitVec 16)) (s : State) (hyp : orig.Follows s) :
    orig.Ends (execTackGroupDone codes s) := by
  unfold execTackGroupDone
  repeat' first
    | (intro _)
    | with_reducible first | assumption | apply State.Ends.next | apply State.Follows.ite |
      apply State.count_follows | apply State.foff_follows | apply State.raise_follows |
      apply State.setTck_follows | apply State.tackEntry_follows | apply State.tckGo_follows |
      apply State.Follows.foldl
    | (simp only [State.Follows.mk_iff]; with_reducible apply State.Keeps.of)
    | split

theorem execTckCalGo_follows {orig : State} (s : State) (hyp : orig.Follows s) :
    orig.Ends (execTckCalGo s) := by
  unfold execTckCalGo
  repeat' first
    | (intro _)
    | with_reducible first | assumption | apply State.Ends.next | apply State.Follows.ite | apply State.fon_follows |
      apply State.again_follows | apply State.setTck_follows | apply State.tckGo_follows | apply
      State.tckRefuse_follows
    | (simp only [State.Follows.mk_iff]; with_reducible apply State.Keeps.of)
    | split

theorem execTackCalDone_follows {orig : State} (codes : List (BitVec 16)) (s : State) (hyp : orig.Follows s) :
    orig.Ends (execTackCalDone codes s) := by
  unfold execTackCalDone
  apply State.Ends.next
  split
  · exact hyp
  split
  · exact hyp
  refine State.Follows.ite hyp ?_
  exact State.tckGo_follows _ (State.raise_follows _ _ _ (State.foff_follows _ _ _ (State.setTck_follows _ _
    (State.wr_follows _ _ _ hyp))))

theorem execCalCommit_follows {orig : State} (s : State) (hyp : orig.Follows s) :
    orig.Ends (execCalCommit s) := by
  unfold execCalCommit
  repeat' with_reducible first | assumption | apply State.Ends.next | apply State.Follows.ite |
      apply State.corrReplace_follows | apply State.fset_follows | apply State.raise_follows |
      apply State.wr_follows

/-! ### Monitors -/

theorem State.trimLoad_follows {orig : State} (s0 : State) (t : Nat) (hyp : orig.Follows s0) :
    orig.Follows (State.trimLoad s0 t) := by
  unfold State.trimLoad
  repeat' first
    | (intro _)
    | with_reducible first | assumption | apply State.Follows.ite | apply State.fload_follows | apply
      State.settled_follows | apply State.trimsDue_follows
    | (simp only [State.Follows.mk_iff]; with_reducible apply State.Keeps.of)
    | split

theorem State.trimReplace_follows {orig : State} (s : State) (t : Nat) (hyp : orig.Follows s) :
    orig.Follows (State.trimReplace s t) := by
  unfold State.trimReplace
  repeat' first
    | (intro _)
    | with_reducible first | assumption | apply State.Follows.ite
    | (simp only [State.Follows.mk_iff]; with_reducible apply State.Keeps.of)
    | split

theorem State.warnLevel_follows {orig : State} (s : State) (x : Int) (t : Nat) (hyp : orig.Follows s) :
    orig.Follows (State.warnLevel s x t) := by
  unfold State.warnLevel
  repeat' with_reducible first | assumption | apply State.Follows.ite | apply State.degradeOff_follows | apply State.degradeOn_follows |
      apply State.foff_follows | apply State.fon_follows | apply State.logSev_follows | apply
      State.raise_follows

theorem State.critLevel_follows {orig : State} (s : State) (x : Int) (t : Nat) (hyp : orig.Follows s) :
    orig.Follows (State.critLevel s x t) := by
  unfold State.critLevel
  repeat' first
    | (intro _)
    | with_reducible first | assumption | apply State.Follows.ite | apply State.bitOff_follows |
      apply State.bitOn_follows | apply State.fatal_follows | apply State.foff_follows |
      apply State.fon_follows | apply State.logOpen_follows | apply State.took_follows
    | (simp only [State.Follows.mk_iff]; with_reducible apply State.Keeps.of)

theorem State.thermalLevels_follows {orig : State} (s : State) (hyp : orig.Follows s) :
    orig.Follows (State.thermalLevels s) := by
  unfold State.thermalLevels
  repeat' first
    | (intro _)
    | with_reducible first | assumption | apply State.critLevel_follows | apply State.took_follows |
      apply State.warnLevel_follows | apply State.wr_follows
    | (simp only [State.Follows.mk_iff]; with_reducible apply State.Keeps.of)
    | split

theorem execThermalConversion_follows {orig : State} (monitor : Fin 32) (raw : Int) (s : State) (hyp : orig.Follows
    s) :
    orig.Ends (execThermalConversion monitor raw s) := by
  unfold execThermalConversion
  repeat' with_reducible first | assumption | apply State.Ends.next | apply State.Follows.ite |
      apply State.bitOff_follows | apply State.bitOn_follows | apply State.event_follows |
      apply State.fset_follows | apply State.thermalLevels_follows | apply State.thermalReset_follows |
      apply State.trimLoad_follows

theorem execVoltageConversion_follows {orig : State} (monitor : Fin 16) (reading : BitVec 16) (s : State) (hyp :
    orig.Follows s) :
    orig.Ends (execVoltageConversion monitor reading s) := by
  unfold execVoltageConversion
  repeat' first
    | (intro _)
    | with_reducible first | assumption | apply State.Ends.next | apply State.Follows.ite |
      apply State.bitOff_follows | apply State.bitOn_follows | apply State.event_follows |
      apply State.fset_follows
    | (simp only [State.Follows.mk_iff]; with_reducible apply State.Keeps.of)

theorem execProcessConversion_follows {orig : State} (monitor : Fin 16) (count : BitVec 32) (s : State) (hyp :
    orig.Follows s) :
    orig.Ends (execProcessConversion monitor count s) := by
  unfold execProcessConversion
  repeat' with_reducible first | assumption | apply State.Ends.next | apply State.Follows.ite |
      apply State.count_follows | apply State.settled_follows | apply State.wr_follows

/-! ### Run -/

theorem State.cfgPass_follows {orig : State} (s : State) (hyp : orig.Follows s) :
    orig.Follows (State.cfgPass s) := by
  unfold State.cfgPass
  repeat' first
    | (intro _)
    | with_reducible first | assumption | apply State.foff_follows | apply State.setRunState_follows |
      apply State.showAlloc_follows | apply State.showRetired_follows | apply State.Follows.foldl

theorem State.cfgFail_follows {orig : State} (s : State) (f : Fail) (hyp : orig.Follows s) :
    orig.Follows (State.cfgFail s f) := by
  unfold State.cfgFail
  repeat' first
    | (intro _)
    | with_reducible first | assumption | apply State.fon_follows | apply State.log_follows |
      apply State.setRunState_follows

theorem execConfigure_follows {orig : State} (s : State) (hyp : orig.Follows s) :
    orig.Ends (execConfigure s) := by
  unfold execConfigure
  repeat' first
    | (intro _)
    | with_reducible first | assumption | apply State.Ends.next | apply State.Follows.ite |
      apply State.cfgFail_follows | apply State.cfgPass_follows | apply State.runRefuse_follows
    | (simp only [State.Follows.mk_iff]; with_reducible apply State.Keeps.of)
    | split

theorem execArm_follows {orig : State} (s : State) (hyp : orig.Follows s) :
    orig.Ends (execArm s) := by
  unfold execArm
  repeat' with_reducible first | assumption | apply State.Ends.next | apply State.Follows.ite |
      apply State.armBegin_follows | apply State.runRefuse_follows

theorem execArmComplete_follows {orig : State} (s : State) (hyp : orig.Follows s) :
    orig.Ends (execArmComplete s) := by
  unfold execArmComplete
  repeat' with_reducible first | assumption | apply State.Ends.next | apply State.Follows.ite | apply State.armEnd_follows

theorem execArmTimeout_follows {orig : State} (s : State) (hyp : orig.Follows s) :
    orig.Ends (execArmTimeout s) := by
  unfold execArmTimeout
  repeat' first
    | (intro _)
    | with_reducible first | assumption | apply State.Ends.next | apply State.Follows.ite |
      apply State.armGiveUp_follows
    | (simp only [State.Follows.mk_iff]; with_reducible apply State.Keeps.of)
    | split

theorem execStart_follows {orig : State} (s : State) (hyp : orig.Follows s) :
    orig.Ends (execStart s) := by
  unfold execStart
  repeat' first
    | (intro _)
    | with_reducible first | assumption | apply State.Ends.next | apply State.Follows.ite | apply State.fon_follows |
      apply State.runRefuse_follows
    | (simp only [State.Follows.mk_iff]; with_reducible apply State.Keeps.of)

theorem execTimedStart_follows {orig : State} (s : State) (hyp : orig.Follows s) :
    orig.Ends (execTimedStart s) := by
  unfold execTimedStart
  repeat' with_reducible first | assumption | apply State.Ends.next | apply State.Follows.ite |
      apply State.runStart_follows

theorem execStop_follows {orig : State} (s : State) (hyp : orig.Follows s) :
    orig.Ends (execStop s) := by
  unfold execStop
  repeat' with_reducible first | assumption | apply State.Ends.next | apply State.softCommand_follows

theorem execAbort_follows {orig : State} (s : State) (hyp : orig.Follows s) :
    orig.Ends (execAbort s) := by
  unfold execAbort
  repeat' with_reducible first | assumption | apply State.Ends.next | apply State.softCommand_follows

theorem execStoppingEnd_follows {orig : State} (s : State) (hyp : orig.Follows s) :
    orig.Ends (execStoppingEnd s) := by
  unfold execStoppingEnd
  repeat' with_reducible first | assumption | apply State.Ends.next | apply State.Follows.ite | apply State.runEnd_follows

/-! ### RegOps -/

theorem State.latchHigh_follows {orig : State} (s : State) (src : Src) (a : Nat) (v : Word) (hyp : orig.Follows s) :
    orig.Follows (State.latchHigh s src a v) := by
  unfold State.latchHigh
  repeat' first
    | (intro _)
    | with_reducible first | assumption
    | (simp only [State.Follows.mk_iff]; with_reducible apply State.Keeps.of)

theorem State.shown_follows {orig : State} (s : State) (r : RegRow) (a : Nat) (v : Word) (hyp : orig.Follows s) :
    orig.Follows (State.shown s r a v).1 := by
  unfold State.shown
  repeat' first
    | with_reducible assumption
    | (intro x; refine State.Follows.cut (P := orig.Follows x) ?_ ?_; all_goals first | (intro _; clear_value x) | subst x)
    | (intro x; clear_value x)
    | (intro _)
    | with_reducible first | assumption | apply State.Follows.ite | apply State.took_follows
    | (simp only [State.Follows.mk_iff]; with_reducible apply State.Keeps.of)
    | lift_lets
    | split
    | dsimp only

theorem State.readPlain_follows {orig : State} (s : State) (src : Src) (r : RegRow) (a : Nat) (hyp : orig.Follows s) :
    orig.Follows (State.readPlain s src r a).1 := by
  unfold State.readPlain
  repeat' first
    | (intro _)
    | with_reducible first | assumption | apply State.Follows.ite | apply State.doorTake_follows | apply State.latchHigh_follows |
      apply State.mboxTake_follows | apply State.wr_follows | apply State.Follows.foldl
    | split

theorem State.readReg_follows {orig : State} (s : State) (src : Src) (r : RegRow) (a : Nat) (hyp : orig.Follows s) :
    orig.Follows (State.readReg s src r a).1 := by
  unfold State.readReg
  repeat' with_reducible first | assumption | apply State.readPlain_follows | apply State.shown_follows

theorem State.after_follows {orig : State} (s : State) (o : Host.Outcome State Fault Refusal) (hyp : orig.Follows s)
    (h : orig.Ends o) : orig.Follows (s.after o) := by
  unfold State.after
  split
  · exact h.next_follows _ rfl
  · exact hyp

theorem State.cmds_follows {orig : State} (s : State) (v : Word)
    (xs : List (Nat × (State → Host.Outcome State Fault Refusal))) (hyp : orig.Follows s)
    (h : orig.AllEnd xs) : orig.Follows (s.cmds v xs) := by
  unfold State.cmds
  induction h generalizing s with
  | nil => exact hyp
  | cons h _ ih =>
    rw [List.foldl_cons]
    apply ih
    split
    · exact State.after_follows _ _ hyp (h _ hyp)
    · exact hyp

theorem State.shuCtrl_follows {orig : State} (s : State) (n : Fin 24) (v : Word) (hyp : orig.Follows s) :
    orig.Follows (State.shuCtrl s n v) := by
  unfold State.shuCtrl
  repeat' first
    | (intro _)
    | with_reducible first | assumption | apply State.AllEnd.nil | apply State.AllEnd.cons |
      apply State.Follows.ite | apply State.after_follows | apply State.cmds_follows |
      apply execShuHalt_follows | apply execShuIrq_follows | apply execShuReset_follows |
      apply execShuRun_follows | apply execShuStep_follows

theorem State.spnCtrl_follows {orig : State} (s : State) (k : Fin 64) (v : Word) (hyp : orig.Follows s) :
    orig.Follows (State.spnCtrl s k v) := by
  unfold State.spnCtrl
  repeat' first
    | (intro _)
    | with_reducible first | assumption | apply State.AllEnd.nil | apply State.AllEnd.cons | apply State.Ends.next |
      apply State.Follows.ite | apply State.after_follows | apply State.cmds_follows |
      apply execSpnHalt_follows | apply State.pokeWrite_follows | apply execSpnStart_follows |
      apply execSpnStop_follows

theorem State.shedCtrl_follows {orig : State} (s : State) (k : Fin 64) (v : Word) (hyp : orig.Follows s) :
    orig.Follows (State.shedCtrl s k v) := by
  unfold State.shedCtrl
  repeat' first
    | (intro _)
    | with_reducible first | assumption | apply State.AllEnd.nil | apply State.AllEnd.cons |
      apply State.cmds_follows | apply execShedArm_follows | apply execShedDisarm_follows |
      apply execShedForce_follows

theorem State.lnkCtrl_follows {orig : State} (s : State) (p : Fin 24) (v : Word) (hyp : orig.Follows s) :
    orig.Follows (State.lnkCtrl s p v) := by
  unfold State.lnkCtrl
  repeat' first
    | (intro _)
    | with_reducible first | assumption | apply State.AllEnd.nil | apply State.AllEnd.cons |
      apply State.cmds_follows | apply execBringup_follows | apply execDrop_follows |
      apply execFwdDoze_follows | apply execFwdOff_follows | apply execFwdWake_follows |
      apply execRetDoze_follows | apply execRetOff_follows | apply execRetWake_follows |
      apply execSendMsg_follows

theorem State.runCommand_follows {orig : State} (s : State) (code : Nat) (hyp : orig.Follows s) :
    orig.Follows (State.runCommand s code) := by
  unfold State.runCommand
  repeat' first
    | (intro _)
    | with_reducible first | assumption | apply State.after_follows | apply State.runRefuse_follows |
      apply execAbort_follows | apply execArm_follows | apply execConfigure_follows | apply execStart_follows |
      apply execStop_follows
    | (simp only [State.Follows.mk_iff]; with_reducible apply State.Keeps.of)
    | split

theorem State.command_follows {orig : State} (s : State) (srcByte : Nat) (r : RegRow) (a : Nat) (v : Word)
    (hyp : orig.Follows s) : orig.Follows (s.command srcByte r a v) := by
  unfold State.command
  extract_lets i j b s1
  have h1 : orig.Follows s1 := State.after_follows _ _ hyp (execTapFrame_follows _ _ hyp)
  clear_value s1 i j b
  repeat' first
    | with_reducible first
      | exact hyp
      | apply State.Follows.ite
      | apply State.lnkCtrl_follows
      | apply State.shedCtrl_follows
      | apply State.shuCtrl_follows
      | apply State.spnCtrl_follows
      | apply State.runCommand_follows
      | apply State.brdGo_follows
      | apply State.cmds_follows
      | apply State.after_follows
      | apply execAuxGo_follows
      | apply execCalCommit_follows
      | apply execCommit_follows
      | apply execCommit1_follows
      | apply execDecGo_follows
      | apply execDecStop_follows
      | apply execDeviceReset_follows
      | apply execFarProg_follows
      | apply execFreqGo_follows
      | apply execHfbCal_follows
      | apply execInjGo_follows
      | apply execInjectGo_follows
      | apply execLookupGo_follows
      | apply execMsixSend_follows
      | apply execPal_follows
      | apply execPcPendingSet_follows
      | apply execPdkAbort_follows
      | apply execPdkGo_follows
      | apply execPnlDisable_follows
      | apply execPnlEnable_follows
      | apply execPwrBlkReset_follows
      | apply execRegGo_follows
      | apply execRelock_follows
      | apply execSoftTrigger_follows
      | apply execSpnEventSet_follows
      | apply execSrEnter_follows
      | apply execSrExit_follows
      | apply execStatsCancel_follows
      | apply execStatsGo_follows
      | apply execSyncArm_follows
      | apply execTapClear_follows
      | apply execTapFrame_follows
      | apply execTckCalGo_follows
      | apply execTckStart_follows
      | apply execTckStop_follows
      | apply execTrain0_follows
      | apply execTrain1_follows
      | apply execUserGo_follows
      | apply execWarpLoad_follows
      | apply State.AllEnd.nil
      | apply State.AllEnd.cons
      | assumption
    | (intro _ _)

theorem State.outWritten_follows {orig : State} (s old : State) (i : Nat) (hyp : orig.Follows s) :
    orig.Follows (State.outWritten s old i) := by
  unfold State.outWritten
  repeat' first
    | (intro _)
    | with_reducible first | assumption | apply State.Follows.ite | apply State.bitOff_follows |
      apply State.bitOn_follows | apply State.setClk_follows

theorem State.spnPointers_follows {orig : State} (s old : State) (k : Nat) (hyp : orig.Follows s) :
    orig.Follows (State.spnPointers s old k) := by
  unfold State.spnPointers
  repeat' first
    | (intro _)
    | with_reducible first | assumption | apply State.Follows.ite | apply State.setPair_follows
    | (simp only [State.Follows.mk_iff]; with_reducible apply State.Keeps.of)
    | split

theorem State.streamWritten_follows {orig : State} (s old : State) (k : Nat) (hyp : orig.Follows s) :
    orig.Follows (State.streamWritten s old k) := by
  unfold State.streamWritten
  repeat' first
    | (intro _)
    | with_reducible first | assumption | apply State.Follows.ite | apply State.ringIdle_follows
    | (simp only [State.Follows.mk_iff]; with_reducible apply State.Keeps.of)
    | split

theorem State.writerWritten_follows {orig : State} (s old : State) (hyp : orig.Follows s) :
    orig.Follows (State.writerWritten s old) := by
  unfold State.writerWritten
  repeat' first
    | (intro _)
    | with_reducible first | assumption | apply State.Follows.ite | apply State.foff_follows |
      apply State.fon_follows | apply State.wr_follows
    | (simp only [State.Follows.mk_iff]; with_reducible apply State.Keeps.of)

theorem State.prbsWritten_follows {orig : State} (s old : State) (p l : Nat) (hyp : orig.Follows s) :
    orig.Follows (State.prbsWritten s old p l) := by
  unfold State.prbsWritten
  repeat' first
    | (intro _)
    | with_reducible first | assumption | apply State.Follows.ite | apply State.prbsReset_follows | apply
      State.prbsReseed_follows | apply State.lnkPrbs_follows
    | (simp only [State.Follows.mk_iff]; with_reducible apply State.Keeps.of)
    | split

theorem State.regWritten_follows {orig : State} (s old : State) (r : RegRow) (a : Nat) (hyp : orig.Follows s) :
    orig.Follows (State.regWritten s old r a) := by
  unfold State.regWritten
  repeat' first
    | (intro _)
    | with_reducible first | assumption | apply State.Follows.ite | apply State.bitOff_follows | apply
      State.breached_follows | apply State.resettleVec_follows | apply State.inWritten_follows | apply
      State.drivePins_follows | apply State.retPrbsShow_follows | apply State.injectEnd_follows | apply
      State.hfbReady_follows | apply State.setSpch_follows | apply State.pdkShow_follows | apply
      State.outWritten_follows | apply State.spnPointers_follows | apply State.streamWritten_follows | apply
      State.writerWritten_follows | apply State.prbsWritten_follows
    | (simp only [State.Follows.mk_iff]; with_reducible apply State.Keeps.of)
    | split

theorem State.rebase_follows {orig : State} (s : State) (r : RegRow) (a : Nat) (v : Word) (hyp : orig.Follows s) :
    orig.Follows (State.rebase s r a v) := by
  unfold State.rebase
  repeat' first
    | (intro _)
    | with_reducible first | assumption | apply State.Follows.ite
    | (simp only [State.Follows.mk_iff]; with_reducible apply State.Keeps.of)
    | split

theorem State.hostGib_follows {orig : State} (s : State) (v : Nat) (hyp : orig.Follows s) :
    orig.Follows (State.hostGib s v) := by
  unfold State.hostGib
  repeat' with_reducible first | assumption | apply State.Follows.ite | apply State.fon_follows |
      apply State.fset_follows | apply State.showLayout_follows

theorem State.vecMask_follows {orig : State} (s : State) (w : Nat) (v : Word) (hyp : orig.Follows s) :
    orig.Follows (State.vecMask s w v) := by
  unfold State.vecMask
  repeat' first
    | (intro _)
    | with_reducible first | assumption | apply State.Follows.ite | apply State.sendMsgi_follows |
      apply State.wr_follows | apply State.Follows.foldl

theorem State.writeReg_follows {orig : State} (s : State) (src : Src) (srcByte : Nat) (r : RegRow) (a : Nat) (v :
  Word) (hyp : orig.Follows s) :
    orig.Follows (State.writeReg s src srcByte r a v) := by
  unfold State.writeReg
  repeat' first
    | with_reducible assumption
    | (intro x; refine State.Follows.cut (P := orig.Follows x) ?_ ?_; all_goals first | (intro _; clear_value x) | subst x)
    | (intro x; refine State.Follows.cut (P := ∀ a, orig.Follows (x a)) ?_ ?_; all_goals first | (subst x; intro _) | (intro kf; clear_value x))
    | (intro x; refine State.Follows.cut (P := ∀ t a, orig.Follows t → orig.Follows (x t a)) ?_ ?_; all_goals first | (subst x; intro _ _ _) | (intro kf; clear_value x))
    | (intro x; refine State.Follows.cut (P := ∀ t a b, orig.Follows t → orig.Follows (x t a b)) ?_ ?_; all_goals first | (subst x; intro _ _ _ _) | (intro kf; clear_value x))
    | (intro x; refine State.Follows.cut (P := orig.Follows x.1) ?_ ?_; all_goals first | (intro _; clear_value x) | subst x)
    | (intro x; refine State.Follows.cut (P := orig.Follows x.2) ?_ ?_; all_goals first | (intro _; clear_value x) | subst x)
    | (intro x; refine State.Follows.cut (P := orig.Follows x.state) ?_ ?_; all_goals first | (intro _; clear_value x) | subst x)
    | (intro x; clear_value x)
    | (intro _)
    | with_reducible first | assumption | apply State.Follows.ite | apply State.wr_follows | apply
      State.egReject_follows | apply State.egStored_follows | apply State.domTargetPut_follows | apply
      State.winDataPut_follows | apply State.retirePut_follows | apply State.maskDataPut_follows | apply
      execMboxPush_follows | apply State.corrReplace_follows | apply State.trimReplace_follows | apply
      State.after_follows | apply State.command_follows | apply State.regWritten_follows | apply State.rebase_follows
      | apply State.hostGib_follows | apply State.vecMask_follows
    | (simp only [State.Follows.mk_iff]; with_reducible apply State.Keeps.of)
    | lift_lets
    | split
    | dsimp only

/-! ### Beat -/

theorem State.sliceDrain_follows {orig : State} (s : State) (n : Nat) (hyp : orig.Follows s) :
    orig.Follows (State.sliceDrain s n) := by
  unfold State.sliceDrain
  repeat' first
    | (intro _)
    | with_reducible first | assumption | apply State.Follows.ite | apply State.foff_follows | apply State.Follows.foldl
    | split

theorem State.drain_follows {orig : State} (s : State) (hyp : orig.Follows s) :
    orig.Follows (State.drain s) := by
  unfold State.drain
  repeat' first
    | (intro _)
    | with_reducible first | assumption | apply State.Follows.ite | apply State.drainAll_follows | apply State.foff_follows | apply
      State.sliceDrain_follows | apply State.tapsIdle_follows | apply State.Follows.foldl
    | split

theorem State.refusal_follows {orig : State} (s : State) (k : Nat) (hyp : orig.Follows s) :
    orig.Follows (State.refusal s k) := by
  unfold State.refusal
  repeat' with_reducible first | assumption | apply State.Follows.ite | apply State.doorRefusal_follows | apply State.fon_follows | apply
      State.sideRefusal_follows | apply State.stampRefusal_follows

theorem State.cycleEnd_follows {orig : State} (s : State) (hyp : orig.Follows s) :
    orig.Follows (State.cycleEnd s) := by
  unfold State.cycleEnd
  repeat' first
    | (intro _)
    | with_reducible first | assumption | apply State.refusal_follows | apply State.Follows.foldl
    | (simp only [State.Follows.mk_iff]; with_reducible apply State.Keeps.of)
    | split

theorem State.againRefused_follows {orig : State} (s : State) (a : Nat) (hyp : orig.Follows s) :
    orig.Follows (State.againRefused s a) := by
  unfold State.againRefused
  repeat' first
    | (intro _)
    | with_reducible first | assumption | apply State.Follows.ite | apply State.fon_follows | apply
      State.raise_follows | apply State.tckRefuse_follows
    | (simp only [State.Follows.mk_iff]; with_reducible apply State.Keeps.of)
    | split

theorem State.reissueOne_follows {orig : State} (s : State) (a b src : Nat) (hyp : orig.Follows s) :
    orig.Follows (State.reissueOne s a b src) := by
  unfold State.reissueOne
  repeat' first
    | (intro _)
    | with_reducible first | assumption | apply State.Follows.ite | apply State.command_follows | apply
      State.againRefused_follows
    | (simp only [State.Follows.mk_iff]; with_reducible apply State.Keeps.of)
    | split

theorem State.reissue_follows {orig : State} (s : State) (hyp : orig.Follows s) :
    orig.Follows (State.reissue s) := by
  unfold State.reissue
  repeat' first
    | (intro _)
    | with_reducible first | assumption | apply State.again_follows | apply State.reissueOne_follows | apply
      State.Follows.foldl
    | (simp only [State.Follows.mk_iff]; with_reducible apply State.Keeps.of)
    | split

theorem State.passes_follows {orig : State} (s : State) (hyp : orig.Follows s) :
    orig.Follows (State.passes s) := by
  unfold State.passes
  repeat' first
    | (intro _)
    | with_reducible first | assumption | apply State.Follows.ite | apply State.tapBeat_follows | apply
      State.specBeat_follows | apply State.riseDue_follows | apply State.condBeat_follows | apply
      State.runStart_follows | apply State.drain_follows | apply State.cycleEnd_follows
    | (simp only [State.Follows.mk_iff]; with_reducible apply State.Keeps.of)
    | split

/-! ### Bridle -/

theorem State.sessionOpened_follows {orig : State} (s0 : State) (p : Nat) (qp np : List Byte) (hyp : orig.Follows s0)
    :
    orig.Follows (State.sessionOpened s0 p qp np) := by
  unfold State.sessionOpened
  repeat' first
    | (intro _)
    | with_reducible first | assumption | apply State.Follows.ite | apply State.brdOut_follows | apply State.deriveRun_follows | apply
      State.foff_follows | apply State.journal_follows | apply State.portResume_follows | apply
      State.setSession_follows | apply State.took_follows
    | split

theorem execSessionOpen_follows {orig : State} (s : State) (hyp : orig.Follows s) :
    orig.Ends (execSessionOpen s) := by
  unfold execSessionOpen
  repeat' first
    | (intro _)
    | with_reducible first | assumption | apply State.Ends.next | apply State.Follows.ite | apply
      State.brdFail_follows | apply State.brdOpen_follows | apply State.brdRun_follows | apply State.dikFail_follows |
      apply State.sessionOpened_follows
    | (simp only [State.Follows.mk_iff]; with_reducible apply State.Keeps.of)
    | split

theorem execSessionClose_follows {orig : State} (s : State) (hyp : orig.Follows s) :
    orig.Ends (execSessionClose s) := by
  unfold execSessionClose
  repeat' first
    | (intro _)
    | with_reducible first | assumption | apply State.Ends.next | apply State.Follows.ite |
      apply State.brdFail_follows | apply State.brdOut_follows | apply State.brdRun_follows |
      apply State.journal_follows | apply State.keysGone_follows

theorem execAttest_follows {orig : State} (s : State) (hyp : orig.Follows s) :
    orig.Ends (execAttest s) := by
  unfold execAttest
  repeat' first
    | (intro _)
    | with_reducible first | assumption | apply State.Ends.next | apply State.Follows.ite |
      apply State.brdFail_follows | apply State.brdOut_follows | apply State.brdRun_follows |
      apply State.dikFail_follows

theorem execVerifyImage_follows {orig : State} (s : State) (hyp : orig.Follows s) :
    orig.Ends (execVerifyImage s) := by
  unfold execVerifyImage
  repeat' first
    | (intro _)
    | with_reducible first | assumption | apply State.Ends.next | apply State.Follows.ite | apply
      State.brdFail_follows | apply State.brdOpen_follows | apply State.brdOut_follows | apply State.brdRun_follows |
      apply State.imagePassed_follows
    | (simp only [State.Follows.mk_iff]; with_reducible apply State.Keeps.of)
    | split

theorem execOwnerInstall_follows {orig : State} (s : State) (hyp : orig.Follows s) :
    orig.Ends (execOwnerInstall s) := by
  unfold execOwnerInstall
  repeat' first
    | (intro _)
    | with_reducible first | assumption | apply State.Ends.next | apply State.Follows.ite |
      apply State.brdFail_follows | apply State.brdOpen_follows | apply State.brdOut_follows |
      apply State.brdRun_follows | apply State.keyEvent_follows | apply State.setOwner_follows
    | (simp only [State.Follows.mk_iff]; with_reducible apply State.Keeps.of)
    | split

theorem execOwnerRevoke_follows {orig : State} (s : State) (hyp : orig.Follows s) :
    orig.Ends (execOwnerRevoke s) := by
  unfold execOwnerRevoke
  repeat' first
    | (intro _)
    | with_reducible first | assumption | apply State.Ends.next | apply State.Follows.ite |
      apply State.brdFail_follows | apply State.brdOut_follows | apply State.brdRun_follows |
      apply State.keyEvent_follows | apply State.setOwner_follows

theorem execDebugUnlock_follows {orig : State} (s : State) (hyp : orig.Follows s) :
    orig.Ends (execDebugUnlock s) := by
  unfold execDebugUnlock
  repeat' first
    | (intro _)
    | with_reducible first | assumption | apply State.Ends.next | apply State.Follows.ite | apply State.fset_follows |
      apply State.fon_follows | apply State.took_follows | apply State.journal_follows | apply State.brdFail_follows |
      apply State.brdOut_follows | apply State.brdRun_follows | apply State.zeroise_follows
    | (simp only [State.Follows.mk_iff]; with_reducible apply State.Keeps.of)
    | split

theorem execZeroise_follows {orig : State} (s : State) (hyp : orig.Follows s) :
    orig.Ends (execZeroise s) := by
  unfold execZeroise
  repeat' first
    | (intro _)
    | with_reducible first | assumption | apply State.Ends.next | apply State.brdOut_follows |
      apply State.brdRun_follows | apply State.zeroise_follows

theorem execDecommission_follows {orig : State} (s : State) (hyp : orig.Follows s) :
    orig.Ends (execDecommission s) := by
  unfold execDecommission
  repeat' first
    | (intro _)
    | with_reducible first | assumption | apply State.Ends.next | apply State.Follows.ite | apply
      State.keyEvent_follows | apply State.brdFail_follows | apply State.brdOut_follows | apply State.brdRun_follows
    | (simp only [State.Follows.mk_iff]; with_reducible apply State.Keeps.of)
    | split

theorem execGetCert_follows {orig : State} (s : State) (hyp : orig.Follows s) :
    orig.Ends (execGetCert s) := by
  unfold execGetCert
  repeat' first
    | (intro _)
    | with_reducible first | assumption | apply State.Ends.next | apply State.brdOpen_follows | apply
      State.brdOut_follows | apply State.brdRun_follows
    | (simp only [State.Follows.mk_iff]; with_reducible apply State.Keeps.of)
    | split

theorem execKeyRetire_follows {orig : State} (port : Fin 4) (s : State) (hyp : orig.Follows s) :
    orig.Ends (execKeyRetire port s) := by
  unfold execKeyRetire
  repeat' first
    | (intro _)
    | with_reducible first | assumption | apply State.Ends.next | apply State.setSession_follows

theorem execJournalExport_follows {orig : State} (s : State) (hyp : orig.Follows s) :
    orig.Ends (execJournalExport s) := by
  unfold execJournalExport
  repeat' first
    | (intro _)
    | with_reducible first | assumption | apply State.Ends.next | apply State.Follows.ite | apply
      State.sidePush_follows | apply State.setBacklog_follows
    | (simp only [State.Follows.mk_iff]; with_reducible apply State.Keeps.of)
    | split

theorem execManifestBegin_follows {orig : State} (s : State) (hyp : orig.Follows s) :
    orig.Ends (execManifestBegin s) := by
  unfold execManifestBegin
  repeat' first
    | (intro _)
    | with_reducible first | assumption | apply State.Ends.next | apply State.Follows.ite | apply State.took_follows |
      apply State.raise_follows | apply State.log_follows | apply State.manifestStart_follows | apply
      State.runEnd_follows
    | (simp only [State.Follows.mk_iff]; with_reducible apply State.Keeps.of)
    | split

theorem execManifestPush_follows {orig : State} (s : State) (hyp : orig.Follows s) :
    orig.Ends (execManifestPush s) := by
  unfold execManifestPush
  repeat' first
    | (intro _)
    | with_reducible first | assumption | apply State.Ends.next | apply State.Follows.ite | apply State.foff_follows |
      apply State.raise_follows | apply State.sidePush_follows
    | (simp only [State.Follows.mk_iff]; with_reducible apply State.Keeps.of)
    | split

end Sys2Proof.Machine
end

