-- ==== Sys2Proof/Laws/Keeps9.lean ====
section
/-!
SUPPORT. Each operation and meaning of HitchOps, DictOps, Dictionary, Control, NarrowWrites keeps what State.Follows
  says: one lemma for each, named after it.
-/

set_option linter.all false

namespace Sys2Proof.Machine

/-! ### HitchOps -/

theorem State.jsoft_follows {orig : State} (s : State) (e : JEntry) (keeps : Bool) (hyp : orig.Follows s) :
    orig.Follows (State.jsoft s e keeps) := by
  unfold State.jsoft
  repeat' first
    | (intro _)
    | with_reducible first | assumption
    | (simp only [State.Follows.mk_iff]; with_reducible apply State.Keeps.of)

theorem State.chainLeft_follows {orig : State} (s : State) (rest : List JEntry) (hyp : orig.Follows s) :
    orig.Follows (State.chainLeft s rest) := by
  unfold State.chainLeft
  repeat' first
    | (intro _)
    | with_reducible first | assumption
    | (simp only [State.Follows.mk_iff]; with_reducible apply State.Keeps.of)

theorem State.chainOne_follows {orig : State} (s : State) (hyp : orig.Follows s) :
    orig.Follows (State.chainOne s) := by
  unfold State.chainOne
  repeat' first
    | (intro _)
    | with_reducible first | assumption | apply State.chainEntry_follows | apply State.chainLeft_follows
    | (simp only [State.Follows.mk_iff]; with_reducible apply State.Keeps.of)
    | split

theorem State.closeRun_follows {orig : State} (s : State) (w : WinRun) (hyp : orig.Follows s) :
    orig.Follows (State.closeRun s w) := by
  unfold State.closeRun
  repeat' first
    | (intro _)
    | with_reducible first | assumption | apply State.jsoft_follows
    | (simp only [State.Follows.mk_iff]; with_reducible apply State.Keeps.of)

theorem State.winAccess_follows {orig : State} (s : State) (src a : Nat) (v : Option (Word × Nat)) (hyp : orig.Follows s) :
    orig.Follows (s.winAccess src a v) := by
  unfold State.winAccess
  extract_lets bytes open_
  have ho : ∀ x, orig.Follows x → orig.Follows (open_ x) := by
    intro x hx
    show orig.Follows (match v, memWindow a with
      | some (d, f), some _ => { x with brd := { x.brd with windows := x.brd.windows ++ [⟨src, a, a + 4, bytes d, f⟩] } }
      | _, _ => x)
    split
    · rw [State.Follows.mk_iff]; exact State.Keeps.of hx
    · exact hx
  split
  · exact ho _ hyp
  · split
    · split
      · extract_lets w1 s1
        have h1 : orig.Follows s1 := by
          show orig.Follows (State.mk ..)
          rw [State.Follows.mk_iff]; exact State.Keeps.of hyp
        split
        · exact State.closeRun_follows _ _ h1
        · exact h1
      · exact ho _ (State.closeRun_follows _ _ hyp)
    · exact State.closeRun_follows _ _ hyp

theorem State.writePlace_follows {orig : State} (s : State) (src : Src) (a : Nat) (p : Place) (v : Word) (hyp :
  orig.Follows s) :
    orig.Follows (State.writePlace s src a p v) := by
  unfold State.writePlace
  repeat' first
    | (intro _)
    | with_reducible first | assumption | apply State.Follows.ite | apply State.fon_follows | apply
      State.setPlane_follows | apply State.egReject_follows | apply State.coefPut_follows | apply
      State.palWrite_follows | apply State.setCore_follows
    | (simp only [State.Follows.mk_iff]; with_reducible apply State.Keeps.of)
    | split

theorem State.writeEntry_follows {orig : State} (s : State) (j : Journal) (flags a : Nat) (v : Word) (keeps : Bool)
  (hyp : orig.Follows s) :
    orig.Follows (State.writeEntry s j flags a v keeps) := by
  unfold State.writeEntry
  repeat' first
    | (intro _)
    | with_reducible first | assumption | apply State.jsoft_follows | apply State.winAccess_follows
    | (simp only [State.Follows.mk_iff]; with_reducible apply State.Keeps.of)
    | split

theorem State.writeWord_follows {orig : State} (s : State) (src : Src) (j : Journal) (a : Nat) (v : Word) (hyp :
  orig.Follows s) :
    orig.Follows (State.writeWord s src j a v) := by
  unfold State.writeWord
  repeat' first
    | (intro _)
    | with_reducible first | assumption | apply State.Follows.ite | apply State.writeReg_follows | apply
      State.winAccess_follows | apply State.writePlace_follows | apply State.writeEntry_follows
    | (simp only [State.Follows.mk_iff]; with_reducible apply State.Keeps.of)
    | split

theorem State.readWord_follows {orig : State} (s : State) (src : Src) (j : Journal) (ecc : Ecc) (a : Nat) (hyp :
  orig.Follows s) :
    orig.Follows (State.readWord s src j ecc a).1 := by
  unfold State.readWord
  repeat' first
    | (intro _)
    | with_reducible first | assumption | apply State.Follows.ite | apply State.took_follows | apply
      State.winCheck_follows | apply State.shown_follows | apply State.readReg_follows | apply State.winAccess_follows
    | (simp only [State.Follows.mk_iff]; with_reducible apply State.Keeps.of)
    | split

theorem State.laneCheck_follows {orig : State} (s : State) (q : HitchReq) (hyp : orig.Follows s) :
    orig.Follows (State.laneCheck s q).1 := by
  unfold State.laneCheck
  repeat' first
    | (intro _)
    | with_reducible first | assumption | apply State.winCheck_follows
    | split

theorem State.writeWords_follows {orig : State} (s : State) (src : Src) (j : Journal) (l : List Nat) (v : Nat)
    (hyp : orig.Follows s) : orig.Follows (s.writeWords src j l v) := by
  induction l generalizing s v with
  | nil => exact hyp
  | cons a l ih => exact ih _ _ (State.writeWord_follows _ _ _ _ _ hyp)

theorem State.readWords_follows {orig : State} (s : State) (src : Src) (j : Journal) (ecc : Ecc) (l : List Nat)
    (hyp : orig.Follows s) : orig.Follows (s.readWords src j ecc l).1 := by
  induction l generalizing s ecc with
  | nil => exact hyp
  | cons a l ih => exact ih _ _ (State.readWord_follows _ _ _ _ _ hyp)

theorem State.access_follows {orig : State} (s : State) (q : HitchReq) (j : Journal) (hyp : orig.Follows s) :
    orig.Follows (State.access s q j).state := by
  unfold State.access
  repeat' first
    | with_reducible assumption
    | (intro x; refine State.Follows.cut (P := orig.Follows x) ?_ ?_; all_goals first | (intro _; clear_value x) | subst x)
    | (intro x; refine State.Follows.cut (P := ∀ a, orig.Follows (x a)) ?_ ?_; all_goals first | (subst x; intro _) | (intro kf; clear_value x))
    | (intro x; refine State.Follows.cut (P := ∀ t a, orig.Follows t → orig.Follows (x t a)) ?_ ?_; all_goals first | (subst x; intro _ _ _) | (intro kf; clear_value x))
    | (intro x; refine State.Follows.cut (P := ∀ t a b, orig.Follows t → orig.Follows (x t a b)) ?_ ?_; all_goals first | (subst x; intro _ _ _ _) | (intro kf; clear_value x))
    | (intro x; refine State.Follows.cut (P := orig.Follows x.1) ?_ ?_; all_goals first | (intro _; clear_value x) | subst x)
    | (intro x; refine State.Follows.cut (P := orig.Follows x.2) ?_ ?_; all_goals first | (intro _; clear_value x) | subst x)
    | (intro x; refine State.Follows.cut (P := orig.Follows x.state) ?_ ?_; all_goals first | (intro _; clear_value x) | subst x)
    | (intro x; clear_value x)
    | (intro _)
    | with_reducible first | assumption | apply State.Follows.ite | apply State.busErr_follows | apply
      State.winAccess_follows | apply State.laneCheck_follows | apply State.writeWords_follows | apply
      State.readWords_follows
    | (simp only [State.Follows.mk_iff]; with_reducible apply State.Keeps.of)
    | lift_lets
    | split
    | dsimp only

theorem State.hitchAnswer_follows {orig : State} (s : State) (q : HitchReq) (tries : Nat) (hyp : orig.Follows s) :
    orig.Follows (State.hitchAnswer s q tries) := by
  unfold State.hitchAnswer
  repeat' first
    | (intro _)
    | with_reducible first | assumption | apply State.Follows.ite | apply State.access_follows |
      apply State.emit_follows | apply State.journal_follows
    | (simp only [State.Follows.mk_iff]; with_reducible apply State.Keeps.of)

theorem State.hitchHbm_follows {orig : State} (s : State) (q : HitchReq) (off : Nat) (hyp : orig.Follows s) :
    orig.Follows (State.hitchHbm s q off) := by
  unfold State.hitchHbm
  repeat' first
    | with_reducible assumption
    | (intro x; refine State.Follows.cut (P := orig.Follows x) ?_ ?_; all_goals first | (intro _; clear_value x) | subst x)
    | (intro x; clear_value x)
    | (intro _)
    | with_reducible first | assumption | apply State.Follows.ite | apply State.busErr_follows | apply State.emit_follows | apply
      State.hbmBusErr_follows | apply State.hbmEnter_follows | apply State.winAccess_follows
    | (simp only [State.Follows.mk_iff]; with_reducible apply State.Keeps.of)
    | lift_lets
    | split
    | dsimp only

theorem State.hitch__follows {orig : State} (s : State) (q : HitchReq) (hyp : orig.Follows s) :
    orig.Follows (State.hitch_ s q) := by
  unfold State.hitch_
  repeat' first
    | (intro _)
    | with_reducible first | assumption | apply State.Follows.ite | apply State.busErr_follows | apply State.emit_follows | apply
      State.hitchAnswer_follows | apply State.hitchHbm_follows
    | (simp only [State.Follows.mk_iff]; with_reducible apply State.Keeps.of)
    | split

theorem State.hitchResume_follows {orig : State} (s : State) (hyp : orig.Follows s) :
    orig.Follows (State.hitchResume s) := by
  unfold State.hitchResume
  repeat' first
    | (intro _)
    | with_reducible first | assumption | apply State.hitch__follows | apply State.Follows.foldl
    | (simp only [State.Follows.mk_iff]; with_reducible apply State.Keeps.of)

theorem State.chainNext_follows {orig : State} (s : State) (hyp : orig.Follows s) :
    orig.Follows (State.chainNext s) := by
  unfold State.chainNext
  repeat' with_reducible first | assumption | apply State.chainOne_follows | apply State.hitchResume_follows

theorem State.chainFlush_follows {orig : State} (s : State) (n : Nat) (hyp : orig.Follows s) :
    orig.Follows (s.chainFlush n) := by
  induction n generalizing s with
  | zero => exact hyp
  | succ n ih =>
    unfold State.chainFlush
    split
    · exact hyp
    · exact ih _ (State.chainNext_follows _ hyp)

theorem State.bridgeReady_follows {orig : State} (s : State) (hyp : orig.Follows s) :
    orig.Follows (State.bridgeReady s) := by
  unfold State.bridgeReady
  repeat' with_reducible first | assumption | apply State.chainFlush_follows

/-! ### DictOps -/

theorem State.firmAccess_follows {orig : State} (s : State) (q : HitchReq) (j : Journal) (hyp : orig.Follows s) :
    orig.Follows (State.firmAccess s q j).state := by
  unfold State.firmAccess
  repeat' first
    | with_reducible assumption
    | (intro x; refine State.Follows.cut (P := orig.Follows x) ?_ ?_; all_goals first | (intro _; clear_value x) | subst x)
    | (intro x; refine State.Follows.cut (P := ∀ a, orig.Follows (x a)) ?_ ?_; all_goals first | (subst x; intro _) | (intro kf; clear_value x))
    | (intro x; refine State.Follows.cut (P := ∀ t a, orig.Follows t → orig.Follows (x t a)) ?_ ?_; all_goals first | (subst x; intro _ _ _) | (intro kf; clear_value x))
    | (intro x; refine State.Follows.cut (P := ∀ t a b, orig.Follows t → orig.Follows (x t a b)) ?_ ?_; all_goals first | (subst x; intro _ _ _ _) | (intro kf; clear_value x))
    | (intro x; refine State.Follows.cut (P := orig.Follows x.1) ?_ ?_; all_goals first | (intro _; clear_value x) | subst x)
    | (intro x; refine State.Follows.cut (P := orig.Follows x.2) ?_ ?_; all_goals first | (intro _; clear_value x) | subst x)
    | (intro x; refine State.Follows.cut (P := orig.Follows x.state) ?_ ?_; all_goals first | (intro _; clear_value x) | subst x)
    | (intro x; clear_value x)
    | (intro _)
    | with_reducible first | assumption | apply kf | apply State.Follows.ite | apply State.access_follows |
      apply State.bridgeReady_follows | apply State.busErr_follows | apply State.Follows.foldl
    | (simp only [State.Follows.mk_iff]; with_reducible apply State.Keeps.of)
    | lift_lets
    | split
    | dsimp only

theorem State.dictReg_follows {orig : State} (s : State) (p : Nat) (write : Bool) (size data : Nat) (hyp :
    orig.Follows s) :
    orig.Follows (State.dictReg s p write size data).state := by
  unfold State.dictReg
  repeat' first
    | with_reducible assumption
    | (intro x; refine State.Follows.cut (P := orig.Follows x) ?_ ?_; all_goals first | (intro _; clear_value x) | subst x)
    | (intro x; refine State.Follows.cut (P := ∀ a, orig.Follows (x a)) ?_ ?_; all_goals first | (subst x; intro _) | (intro kf; clear_value x))
    | (intro x; refine State.Follows.cut (P := ∀ t a, orig.Follows t → orig.Follows (x t a)) ?_ ?_; all_goals first | (subst x; intro _ _ _) | (intro kf; clear_value x))
    | (intro x; refine State.Follows.cut (P := ∀ t a b, orig.Follows t → orig.Follows (x t a b)) ?_ ?_; all_goals first | (subst x; intro _ _ _ _) | (intro kf; clear_value x))
    | (intro x; refine State.Follows.cut (P := orig.Follows x.1) ?_ ?_; all_goals first | (intro _; clear_value x) | subst x)
    | (intro x; refine State.Follows.cut (P := orig.Follows x.2) ?_ ?_; all_goals first | (intro _; clear_value x) | subst x)
    | (intro x; refine State.Follows.cut (P := orig.Follows x.state) ?_ ?_; all_goals first | (intro _; clear_value x) | subst x)
    | (intro x; clear_value x)
    | (intro _)
    | with_reducible first | assumption | apply kf | apply State.Follows.ite | apply State.firmAccess_follows |
      apply State.setCan_follows | apply State.Follows.foldl
    | (simp only [State.Follows.mk_iff]; with_reducible apply State.Keeps.of)
    | lift_lets
    | split
    | dsimp only

theorem State.odRead_follows {orig : State} (s : State) (p index sub : Nat) (hyp : orig.Follows s) :
    orig.Follows (State.odRead s p index sub).state := by
  unfold State.odRead
  repeat' first
    | (intro _)
    | with_reducible first | assumption | apply State.Follows.ite | apply State.dictReg_follows |
      apply State.took_follows
    | (simp only [State.Follows.mk_iff]; with_reducible apply State.Keeps.of)
    | split

theorem State.canSend_follows {orig : State} (s : State) (p cob : Nat) (bytes : List Byte) (hyp : orig.Follows s) :
    orig.Follows (State.canSend s p cob bytes) := by
  unfold State.canSend
  repeat' with_reducible first | assumption | apply State.Follows.ite | apply State.emit_follows

theorem State.usdo_follows {orig : State} (s : State) (p abort : Nat) (bytes : List Byte) (hyp : orig.Follows s) :
    orig.Follows (State.usdo s p abort bytes) := by
  unfold State.usdo
  repeat' with_reducible first | assumption | apply State.Follows.ite | apply State.emit_follows

theorem State.canBeat_follows {orig : State} (s : State) (p code : Nat) (hyp : orig.Follows s) :
    orig.Follows (State.canBeat s p code) := by
  unfold State.canBeat
  repeat' with_reducible first | assumption | apply State.canSend_follows | apply State.setCan_follows

theorem State.dictDrop_follows {orig : State} (s : State) (p : Nat) (hyp : orig.Follows s) :
    orig.Follows (State.dictDrop s p) := by
  unfold State.dictDrop
  repeat' first
    | (intro _)
    | with_reducible first | assumption
    | (simp only [State.Follows.mk_iff]; with_reducible apply State.Keeps.of)
    | split

theorem State.canRates_follows {orig : State} (s : State) (p : Nat) (hyp : orig.Follows s) :
    orig.Follows (State.canRates s p) := by
  unfold State.canRates
  repeat' first
    | (intro _)
    | with_reducible first | assumption | apply State.setCan_follows
    | (simp only [State.Follows.mk_iff]; with_reducible apply State.Keeps.of)
    | split

theorem State.canStart_follows {orig : State} (s : State) (p : Nat) (hyp : orig.Follows s) :
    orig.Follows (State.canStart s p) := by
  unfold State.canStart
  repeat' first
    | (intro _)
    | with_reducible first | assumption | apply State.setCan_follows | apply State.canBeat_follows | apply
      State.dictDrop_follows
    | (simp only [State.Follows.mk_iff]; with_reducible apply State.Keeps.of)
    | split

theorem State.canBoot_follows {orig : State} (s : State) (p : Nat) (hyp : orig.Follows s) :
    orig.Follows (State.canBoot s p) := by
  unfold State.canBoot
  repeat' first
    | (intro _)
    | with_reducible first | assumption | apply State.canRates_follows | apply State.canStart_follows
    | (simp only [State.Follows.mk_iff]; with_reducible apply State.Keeps.of)
    | split

theorem State.commReset_follows {orig : State} (s : State) (hyp : orig.Follows s) :
    orig.Follows (State.commReset s) := by
  unfold State.commReset
  repeat' first
    | (intro _)
    | with_reducible first | assumption
    | (simp only [State.Follows.mk_iff]; with_reducible apply State.Keeps.of)

theorem State.nmtJournal_follows {orig : State} (s : State) (p code : Nat) (hyp : orig.Follows s) :
    orig.Follows (State.nmtJournal s p code) := by
  unfold State.nmtJournal
  repeat' with_reducible first | assumption | apply State.bridgeReady_follows | apply State.jsoft_follows

theorem State.setTpdoTx_follows {orig : State} (s : State) (p k : Nat) (x : TpdoTx) (hyp : orig.Follows s) :
    orig.Follows (State.setTpdoTx s p k x) := by
  unfold State.setTpdoTx
  repeat' first
    | (intro _)
    | with_reducible first | assumption | apply State.setCan_follows

theorem State.tpdoSend_follows {orig : State} (s : State) (p k : Nat) (hyp : orig.Follows s) :
    orig.Follows (State.tpdoSend s p k) := by
  unfold State.tpdoSend
  repeat' with_reducible first | assumption | apply State.canSend_follows | apply State.setTpdoTx_follows

theorem State.tpdoStart_follows {orig : State} (s : State) (p : Nat) (hyp : orig.Follows s) :
    orig.Follows (State.tpdoStart s p) := by
  unfold State.tpdoStart
  repeat' first
    | (intro _)
    | with_reducible first | assumption | apply State.setTpdoTx_follows | apply State.Follows.foldl

theorem State.nmtGo_follows {orig : State} (s : State) (p st : Nat) (hyp : orig.Follows s) :
    orig.Follows (State.nmtGo s p st) := by
  unfold State.nmtGo
  extract_lets s0 src s1
  have h0 : orig.Follows s0 := State.Follows.ite (State.dictDrop_follows _ _ hyp) hyp
  have h1 : orig.Follows s1 := State.setCan_follows _ _ _ h0
  exact State.Follows.ite (State.tpdoStart_follows _ _ h1) h1

theorem State.imageBy_follows {orig : State} (s : State) (src : Nat) (image : List Byte) (hyp : orig.Follows s) :
    orig.Follows (State.imageBy s src image) := by
  unfold State.imageBy
  repeat' first
    | (intro _)
    | with_reducible first | assumption | apply State.imagePassed_follows
    | (simp only [State.Follows.mk_iff]; with_reducible apply State.Keeps.of)
    | split

theorem State.oseriWrite_follows {orig : State} (s : State) (j : Journal) (payload : List Byte) (i n : Nat)
    (hyp : orig.Follows s) : orig.Follows (s.oseriWrite j payload i n).1 := by
  induction n generalizing s i with
  | zero => exact hyp
  | succ n ih =>
    unfold State.oseriWrite
    extract_lets a value mask r v w
    have hr : orig.Follows r.state := by
      show orig.Follows (ite _ _ _ : Answer).state
      split
      · exact hyp
      · exact State.firmAccess_follows _ _ _ hyp
    have hw : orig.Follows w.state := State.firmAccess_follows _ _ _ hr
    split
    · exact hr
    · split
      · exact hw
      · exact ih _ _ hw

theorem State.oseriApply_follows {orig : State} (s : State) (src : Nat) (image : List Byte) (hyp : orig.Follows s) :
    orig.Follows (State.oseriApply s src image).1 := by
  unfold State.oseriApply
  repeat' first
    | (intro _)
    | with_reducible first | assumption | apply State.bridgeReady_follows | apply State.jsoft_follows |
      apply State.oseriWrite_follows
    | (simp only [State.Follows.mk_iff]; with_reducible apply State.Keeps.of)

theorem State.firmBridle_follows {orig : State} (s : State) (p code : Nat) (input : List Byte)
    (run : State → Host.Outcome State Fault Refusal) (hyp : orig.Follows s)
    (h : ∀ x, orig.Follows x → orig.Ends (run x)) : orig.Follows (s.firmBridle p code input run).1 := by
  unfold State.firmBridle
  extract_lets j put s1 go t
  have hp : ∀ x a v, orig.Follows x → orig.Follows (put x a v) := fun x a v hx => State.firmAccess_follows _ _ _ hx
  have h1 : orig.Follows s1 := State.Follows.foldl (fun x i hx => hp x _ _ hx) hyp _
  have h2 : orig.Follows go.state := State.firmAccess_follows _ _ _ (hp _ _ _ h1)
  split
  · exact State.after_follows _ _ h2 (h _ h2)
  · exact h2

theorem State.dictBridle_follows {orig : State} (s : State) (p code : Nat) (input : List Byte)
    (run : State → Host.Outcome State Fault Refusal) (keep : State → List Byte → State) (hyp : orig.Follows s)
    (h : ∀ x, orig.Follows x → orig.Ends (run x)) (k : ∀ x b, orig.Follows x → orig.Follows (keep x b)) :
    orig.Follows (s.dictBridle p code input run keep).1 := by
  unfold State.dictBridle
  split
  · exact hyp
  · split
    · exact hyp
    · have hr := State.firmBridle_follows s p code input run hyp h
      extract_lets r
      split
      · exact k _ _ hr
      · exact State.took_follows _ (k _ _ hr)

theorem State.portEnWrite_follows {orig : State} (s : State) (v : Nat) (hyp : orig.Follows s) :
    orig.Follows (State.portEnWrite s v) := by
  unfold State.portEnWrite
  repeat' first
    | (intro _)
    | with_reducible first | assumption | apply State.Follows.ite | apply State.setCan_follows | apply
      State.dictDrop_follows | apply State.canBoot_follows | apply State.Follows.foldl
    | (simp only [State.Follows.mk_iff]; with_reducible apply State.Keeps.of)
    | split

theorem State.commRecord_follows {orig : State} (s : State) (hyp : orig.Follows s) :
    orig.Follows (State.commRecord s) := by
  unfold State.commRecord
  repeat' first
    | (intro _)
    | with_reducible first | assumption | apply State.portEnWrite_follows
    | (simp only [State.Follows.mk_iff]; with_reducible apply State.Keeps.of)
    | split

theorem State.dictRun_follows {orig : State} (s : State) (p code : Nat) (hyp : orig.Follows s) :
    orig.Follows (State.dictRun s p code).1 := by
  unfold State.dictRun
  repeat' first
    | with_reducible assumption
    | (intro x; refine State.Follows.cut (P := orig.Follows x) ?_ ?_; all_goals first | (intro _; clear_value x) | subst x)
    | (intro x; refine State.Follows.cut (P := ∀ a, orig.Follows (x a)) ?_ ?_; all_goals first | (subst x; intro _) | (intro kf; clear_value x))
    | (intro x; refine State.Follows.cut (P := ∀ t a, orig.Follows t → orig.Follows (x t a)) ?_ ?_; all_goals first | (subst x; intro _ _ _) | (intro kf; clear_value x))
    | (intro x; refine State.Follows.cut (P := ∀ t a b, orig.Follows t → orig.Follows (x t a b)) ?_ ?_; all_goals first | (subst x; intro _ _ _ _) | (intro kf; clear_value x))
    | (intro x; refine State.Follows.cut (P := orig.Follows x.1) ?_ ?_; all_goals first | (intro _; clear_value x) | subst x)
    | (intro x; refine State.Follows.cut (P := orig.Follows x.2) ?_ ?_; all_goals first | (intro _; clear_value x) | subst x)
    | (intro x; refine State.Follows.cut (P := orig.Follows x.state) ?_ ?_; all_goals first | (intro _; clear_value x) | subst x)
    | (intro x; clear_value x)
    | (intro _)
    | with_reducible first | assumption | apply kf | apply State.Follows.ite | apply State.after_follows |
      apply State.bridgeReady_follows | apply State.firmAccess_follows | apply State.foff_follows |
      apply execAbort_follows | apply execArm_follows | apply execConfigure_follows | apply execStart_follows |
      apply execStop_follows
    | (simp only [State.Follows.mk_iff]; with_reducible apply State.Keeps.of)
    | lift_lets
    | split
    | dsimp only

theorem State.odAct_follows {orig : State} (s : State) (p index sub : Nat) (bytes : List Byte) (hyp : orig.Follows s) :
    orig.Follows (s.odAct p index sub bytes).1 := by
  unfold State.odAct
  extract_lets v d put firm r src k t set
  have hp : ∀ d1, orig.Follows (put d1).1 := fun _ => State.Follows.upd hyp rfl rfl rfl rfl rfl rfl
  have hf : ∀ a b c, orig.Follows (firm a b c).1 := fun a b c => State.firmAccess_follows _ _ _ hyp
  have hd : ∀ x b, orig.Follows x → orig.Follows { x with dict := { x.dict with attestReport := b } } :=
    fun x b hx => State.Follows.upd hx rfl rfl rfl rfl rfl rfl
  have hs : ∀ x b, orig.Follows x → orig.Follows { x with dict := { x.dict with sessionIn := bytes, sessionOut := b } } :=
    fun x b hx => State.Follows.upd hx rfl rfl rfl rfl rfl rfl
  have hr : orig.Follows r.1 := State.oseriApply_follows _ _ _ (State.imageBy_follows _ _ _ hyp)
  have he : ∀ d1, orig.Follows (set d1).1 := fun _ => hp _
  clear_value put firm r set
  split
  all_goals first
    | exact hp _
    | exact hf _ _ _
    | exact State.dictRun_follows _ _ _ hyp
    | exact State.dictReg_follows _ _ _ _ _ hyp
    | exact State.dictBridle_follows _ _ _ _ _ _ hyp (fun x hx => execAttest_follows _ hx) hd
    | exact State.dictBridle_follows _ _ _ _ _ _ hyp (fun x hx => execSessionOpen_follows _ hx) hs
    | (repeat' split) <;> first
      | exact hyp
      | exact hp _
      | exact hf _ _ _
      | exact he _
      | exact hr
      | exact State.portEnWrite_follows _ _ hyp
      | exact State.setCan_follows _ _ _ hyp
      | exact State.took_follows _ hyp

theorem State.writeAborted_follows {orig : State} (s : State) (p abort : Nat) (hyp : orig.Follows s) :
    orig.Follows (State.writeAborted s p abort) := by
  unfold State.writeAborted
  repeat' first
    | (intro _)
    | with_reducible first | assumption | apply State.usdo_follows
    | (simp only [State.Follows.mk_iff]; with_reducible apply State.Keeps.of)

theorem State.odWrite_follows {orig : State} (s : State) (p client index sub : Nat) (bytes : List Byte) (hyp :
    orig.Follows s) :
    orig.Follows (State.odWrite s p client index sub bytes) := by
  unfold State.odWrite
  repeat' with_reducible first | assumption | apply State.Follows.ite | apply State.bridgeReady_follows |
      apply State.jsoft_follows | apply State.odAct_follows | apply State.usdo_follows |
      apply State.writeAborted_follows

theorem State.odUpload_follows {orig : State} (s : State) (p client index sub : Nat) (hyp : orig.Follows s) :
    orig.Follows (State.odUpload s p client index sub) := by
  unfold State.odUpload
  repeat' with_reducible first | assumption | apply State.Follows.ite | apply State.odRead_follows |
      apply State.setCan_follows | apply State.usdo_follows

theorem State.dictHold_follows {orig : State} (s : State) (q : DictReq) (hyp : orig.Follows s) :
    orig.Follows (State.dictHold s q) := by
  unfold State.dictHold
  repeat' first
    | (intro _)
    | with_reducible first | assumption
    | (simp only [State.Follows.mk_iff]; with_reducible apply State.Keeps.of)
    | split

theorem State.dictDo_follows {orig : State} (s : State) (q : DictReq) (hyp : orig.Follows s) :
    orig.Follows (State.dictDo s q) := by
  unfold State.dictDo
  repeat' first
    | (intro _)
    | with_reducible first | assumption | apply State.Follows.ite | apply State.usdo_follows | apply
      State.odWrite_follows | apply State.odUpload_follows
    | (simp only [State.Follows.mk_iff]; with_reducible apply State.Keeps.of)
    | split

theorem State.dictFail_follows {orig : State} (s : State) (q : DictReq) (r : HitchReq) (hyp : orig.Follows s) :
    orig.Follows (State.dictFail s q r) := by
  unfold State.dictFail
  repeat' first
    | (intro _)
    | with_reducible first | assumption | apply State.Follows.ite | apply State.busErr_follows | apply
      State.usdo_follows | apply State.writeAborted_follows
    | (simp only [State.Follows.mk_iff]; with_reducible apply State.Keeps.of)
    | split

theorem State.dictServe_follows {orig : State} (s : State) (q : DictReq) (tries : Nat) (hyp : orig.Follows s) :
    orig.Follows (State.dictServe s q tries) := by
  unfold State.dictServe
  repeat' first
    | (intro _)
    | with_reducible first | assumption | apply State.Follows.ite | apply State.again_follows | apply
      State.access_follows | apply State.bridgeReady_follows | apply State.dictHold_follows | apply
      State.dictDo_follows | apply State.dictFail_follows
    | (simp only [State.Follows.mk_iff]; with_reducible apply State.Keeps.of)
    | split

theorem State.dictAsk_follows {orig : State} (s : State) (q : DictReq) (hyp : orig.Follows s) :
    orig.Follows (State.dictAsk s q) := by
  unfold State.dictAsk
  repeat' first
    | (intro _)
    | with_reducible first | assumption | apply State.Follows.ite | apply State.dictHold_follows | apply
      State.dictServe_follows
    | (simp only [State.Follows.mk_iff]; with_reducible apply State.Keeps.of)
    | split

theorem State.dictResume_follows {orig : State} (s : State) (hyp : orig.Follows s) :
    orig.Follows (State.dictResume s) := by
  unfold State.dictResume
  repeat' first
    | (intro _)
    | with_reducible first | assumption | apply State.dictAsk_follows | apply State.Follows.foldl
    | (simp only [State.Follows.mk_iff]; with_reducible apply State.Keeps.of)
    | split

theorem State.resumeAll_follows {orig : State} (s : State) (hyp : orig.Follows s) :
    orig.Follows (State.resumeAll s) := by
  unfold State.resumeAll
  repeat' first
    | (intro _)
    | with_reducible first | assumption | apply State.hitchResume_follows | apply State.dictResume_follows
    | (simp only [State.Follows.mk_iff]; with_reducible apply State.Keeps.of)
    | split

theorem State.dictReissue_follows {orig : State} (s : State) (hyp : orig.Follows s) :
    orig.Follows (State.dictReissue s) := by
  unfold State.dictReissue
  repeat' first
    | (intro _)
    | with_reducible first | assumption | apply State.Follows.ite | apply State.hitchResume_follows | apply
      State.dictServe_follows | apply State.dictAsk_follows | apply State.Follows.foldl
    | (simp only [State.Follows.mk_iff]; with_reducible apply State.Keeps.of)
    | split

/-! ### Dictionary -/

theorem execNmtStartRemoteNode_follows {orig : State} (port : Fin 2) (s : State) (hyp : orig.Follows s) :
    orig.Ends (execNmtStartRemoteNode port s) := by
  unfold execNmtStartRemoteNode
  repeat' with_reducible first | assumption | apply State.Ends.next | apply State.Follows.ite |
      apply State.nmtGo_follows | apply State.nmtJournal_follows

theorem execNmtStopRemoteNode_follows {orig : State} (port : Fin 2) (s : State) (hyp : orig.Follows s) :
    orig.Ends (execNmtStopRemoteNode port s) := by
  unfold execNmtStopRemoteNode
  repeat' first
    | with_reducible assumption
    | (intro x; refine State.Follows.cut (P := orig.Follows x) ?_ ?_; all_goals first | (intro _; clear_value x) | subst x)
    | (intro x; clear_value x)
    | (intro _)
    | with_reducible first | assumption | apply State.Ends.next | apply State.Follows.ite | apply State.firmAccess_follows | apply
      State.nmtGo_follows | apply State.nmtJournal_follows
    | (simp only [State.Follows.mk_iff]; with_reducible apply State.Keeps.of)
    | lift_lets
    | split
    | dsimp only

theorem execNmtEnterPreOperational_follows {orig : State} (port : Fin 2) (s : State) (hyp : orig.Follows s) :
    orig.Ends (execNmtEnterPreOperational port s) := by
  unfold execNmtEnterPreOperational
  repeat' with_reducible first | assumption | apply State.Ends.next | apply State.Follows.ite |
      apply State.nmtGo_follows | apply State.nmtJournal_follows

theorem execNmtResetCommunication_follows {orig : State} (port : Fin 2) (s : State) (hyp : orig.Follows s) :
    orig.Ends (execNmtResetCommunication port s) := by
  unfold execNmtResetCommunication
  repeat' first
    | (intro _)
    | with_reducible first | assumption | apply State.Ends.next | apply State.Follows.ite | apply
      State.canRates_follows | apply State.canStart_follows | apply State.commReset_follows | apply
      State.nmtJournal_follows | apply State.commRecord_follows
    | (simp only [State.Follows.mk_iff]; with_reducible apply State.Keeps.of)
    | split

theorem execNmtResetNode_follows {orig : State} (port : Fin 2) (s : State) (hyp : orig.Follows s) :
    orig.Ends (execNmtResetNode port s) := by
  unfold execNmtResetNode
  repeat' first
    | (intro _)
    | with_reducible first | assumption | apply State.Ends.next | apply State.Follows.ite | apply State.setCan_follows
      | apply State.canRates_follows | apply State.canStart_follows | apply State.canBoot_follows | apply
      State.commReset_follows | apply State.nmtJournal_follows | apply State.commRecord_follows
    | (simp only [State.Follows.mk_iff]; with_reducible apply State.Keeps.of)
    | split

theorem execUsdoDownload_follows {orig : State} (port : Fin 2) (client : BitVec 7) (index : BitVec 16) (sub : BitVec
  8) (total : Option Nat) (data : List (BitVec 8)) (s : State) (hyp : orig.Follows s) :
    orig.Ends (execUsdoDownload port client index sub total data s) := by
  unfold execUsdoDownload
  repeat' first
    | (intro _)
    | with_reducible first | assumption | apply State.Ends.next | apply State.Follows.ite | apply State.setCan_follows
      | apply State.usdo_follows | apply State.writeAborted_follows | apply State.dictAsk_follows
    | (simp only [State.Follows.mk_iff]; with_reducible apply State.Keeps.of)
    | split

theorem execUsdoUpload_follows {orig : State} (port : Fin 2) (client : BitVec 7) (index : BitVec 16) (sub : BitVec 8)
  (s : State) (hyp : orig.Follows s) :
    orig.Ends (execUsdoUpload port client index sub s) := by
  unfold execUsdoUpload
  repeat' first
    | (intro _)
    | with_reducible first | assumption | apply State.Ends.next | apply State.Follows.ite | apply State.usdo_follows |
      apply State.dictAsk_follows
    | (simp only [State.Follows.mk_iff]; with_reducible apply State.Keeps.of)
    | split

theorem execUsdoSegment_follows {orig : State} (port : Fin 2) (data : List (BitVec 8)) (last : Bool) (s : State) (hyp
  : orig.Follows s) :
    orig.Ends (execUsdoSegment port data last s) := by
  unfold execUsdoSegment
  repeat' first
    | (intro _)
    | with_reducible first | assumption | apply State.Ends.next | apply State.Follows.ite | apply State.setCan_follows
      | apply State.usdo_follows | apply State.writeAborted_follows | apply State.dictAsk_follows
    | (simp only [State.Follows.mk_iff]; with_reducible apply State.Keeps.of)
    | split

theorem execUsdoTimeout_follows {orig : State} (port : Fin 2) (s : State) (hyp : orig.Follows s) :
    orig.Ends (execUsdoTimeout port s) := by
  unfold execUsdoTimeout
  repeat' first
    | (intro _)
    | with_reducible first | assumption | apply State.Ends.next | apply State.Follows.ite |
      apply State.setCan_follows | apply State.usdo_follows | apply State.writeAborted_follows
    | (simp only [State.Follows.mk_iff]; with_reducible apply State.Keeps.of)
    | split

theorem execDictRunCmd_follows {orig : State} (port : Fin 2) (client : BitVec 7) (data : List (BitVec 8)) (s : State)
  (hyp : orig.Follows s) :
    orig.Ends (execDictRunCmd port client data s) := by
  unfold execDictRunCmd
  repeat' first
    | (intro _)
    | with_reducible first | assumption | apply State.Ends.next | apply State.Follows.ite | apply State.usdo_follows |
      apply State.writeAborted_follows | apply State.dictAsk_follows
    | (simp only [State.Follows.mk_iff]; with_reducible apply State.Keeps.of)
    | split

theorem execDictRegAccess_follows {orig : State} (port : Fin 2) (client : BitVec 7) (wide : Bool) (write : Bool) (data
  : List (BitVec 8)) (s : State) (hyp : orig.Follows s) :
    orig.Ends (execDictRegAccess port client wide write data s) := by
  unfold execDictRegAccess
  repeat' first
    | (intro _)
    | with_reducible first | assumption | apply State.Ends.next | apply State.Follows.ite | apply State.usdo_follows |
      apply State.writeAborted_follows | apply State.dictAsk_follows
    | (simp only [State.Follows.mk_iff]; with_reducible apply State.Keeps.of)
    | split

theorem execOseriApply_follows {orig : State} (image : List (BitVec 8)) (s : State) (hyp : orig.Follows s) :
    orig.Ends (execOseriApply image s) := by
  unfold execOseriApply
  repeat' first
    | (intro _)
    | with_reducible first | assumption | apply State.Ends.next | apply State.Follows.ite | apply
      State.imageBy_follows | apply State.oseriApply_follows
    | (simp only [State.Follows.mk_iff]; with_reducible apply State.Keeps.of)
    | split

theorem execHeartbeat_follows {orig : State} (port : Fin 2) (s : State) (hyp : orig.Follows s) :
    orig.Ends (execHeartbeat port s) := by
  unfold execHeartbeat
  repeat' with_reducible first | assumption | apply State.Ends.next | apply State.Follows.ite |
      apply State.canBeat_follows

theorem execEmcyInhibitEnd_follows {orig : State} (port : Fin 2) (s : State) (hyp : orig.Follows s) :
    orig.Ends (execEmcyInhibitEnd port s) := by
  unfold execEmcyInhibitEnd
  repeat' first
    | (intro _)
    | with_reducible first | assumption | apply State.Ends.next | apply State.Follows.ite | apply State.emit_follows |
      apply State.setCan_follows
    | (simp only [State.Follows.mk_iff]; with_reducible apply State.Keeps.of)
    | split

theorem execTpdoEventTimer_follows {orig : State} (port : Fin 2) (k : Fin 4) (s : State) (hyp : orig.Follows s) :
    orig.Ends (execTpdoEventTimer port k s) := by
  unfold execTpdoEventTimer
  repeat' with_reducible first | assumption | apply State.Ends.next | apply State.Follows.ite |
      apply State.event_follows | apply State.tpdoSend_follows

theorem execTpdoInhibitEnd_follows {orig : State} (port : Fin 2) (k : Fin 4) (s : State) (hyp : orig.Follows s) :
    orig.Ends (execTpdoInhibitEnd port k s) := by
  unfold execTpdoInhibitEnd
  repeat' with_reducible first | assumption | apply State.Ends.next | apply State.Follows.ite |
      apply State.tpdoSend_follows

theorem execCanBusOffRecovery_follows {orig : State} (port : Fin 2) (s : State) (hyp : orig.Follows s) :
    orig.Ends (execCanBusOffRecovery port s) := by
  unfold execCanBusOffRecovery
  repeat' with_reducible first | assumption | apply State.Ends.next | apply State.emcyOff_follows |
      apply State.emcyOn_follows

theorem execCanRxOverrun_follows {orig : State} (port : Fin 2) (clear : Bool) (s : State) (hyp : orig.Follows s) :
    orig.Ends (execCanRxOverrun port clear s) := by
  unfold execCanRxOverrun
  repeat' first
    | (intro _)
    | with_reducible first | assumption | apply State.Ends.next | apply State.Follows.ite |
      apply State.emcyOff_follows | apply State.emcyOn_follows

theorem execCanErrorPassive_follows {orig : State} (port : Fin 2) (s : State) (hyp : orig.Follows s) :
    orig.Ends (execCanErrorPassive port s) := by
  unfold execCanErrorPassive
  repeat' first
    | (intro _)
    | with_reducible first | assumption | apply State.Ends.next | apply State.Follows.ite | apply State.emcyOn_follows

theorem execCanErrorActive_follows {orig : State} (port : Fin 2) (s : State) (hyp : orig.Follows s) :
    orig.Ends (execCanErrorActive port s) := by
  unfold execCanErrorActive
  repeat' with_reducible first | assumption | apply State.Ends.next | apply State.emcyOff_follows

/-! ### Control -/

theorem execPaletteCopyDone_follows {orig : State} (s : State) (hyp : orig.Follows s) :
    orig.Ends (execPaletteCopyDone s) := by
  unfold execPaletteCopyDone
  repeat' first
    | (intro _)
    | with_reducible first | assumption | apply State.Ends.next | apply State.Follows.ite | apply
      State.palWrite_follows | apply State.resumeAll_follows | apply State.Follows.foldl
    | (simp only [State.Follows.mk_iff]; with_reducible apply State.Keeps.of)
    | split

theorem execRegisterWrite_follows {orig : State} (src : Src) (tag : Nat) (addr : BitVec 48) (size : Nat) (data :
    BitVec 64) (s : State) (hyp : orig.Follows s) :
    orig.Ends (execRegisterWrite src tag addr size data s) := by
  unfold execRegisterWrite
  repeat' with_reducible first | assumption | apply State.Ends.next | apply State.hitch__follows

theorem execAliasWrite_follows {orig : State} (src : Src) (tag : Nat) (offset : BitVec 29) (size : Nat) (data : BitVec
    64) (s : State) (hyp : orig.Follows s) :
    orig.Ends (execAliasWrite src tag offset size data s) := by
  unfold execAliasWrite
  repeat' with_reducible first | assumption | apply State.Ends.next | apply State.hitch__follows

theorem execShLowRead_follows {orig : State} (src : Src) (tag : Nat) (addr : BitVec 48) (wide : Bool) (s : State) (hyp
    : orig.Follows s) :
    orig.Ends (execShLowRead src tag addr wide s) := by
  unfold execShLowRead
  repeat' with_reducible first | assumption | apply State.Ends.next | apply State.Follows.ite | apply State.hitch__follows

theorem execHitchRead_follows {orig : State} (src : Src) (tag : Nat) (addr : BitVec 48) (load : HitchLoad) (s : State)
    (hyp : orig.Follows s) :
    orig.Ends (execHitchRead src tag addr load s) := by
  unfold execHitchRead
  repeat' with_reducible first | assumption | apply State.Ends.next | apply State.hitch__follows

theorem execHitchHbmAccess_follows {orig : State} (src : Src) (tag : Nat) (addr : BitVec 48) (len : Nat) (be : BitVec
    8) (data : Option (List (BitVec 8))) (s : State) (hyp : orig.Follows s) :
    orig.Ends (execHitchHbmAccess src tag addr len be data s) := by
  unfold execHitchHbmAccess
  repeat' with_reducible first | assumption | apply State.Ends.next | apply State.hitch__follows

theorem execHbmAccessDone_follows {orig : State} (pc : Fin 64) (ready : BitVec 48) (how : AccessEnd)
    (activate : Bool) (s : State) (hyp : orig.Follows s) :
    orig.Ends (execHbmAccessDone pc ready how activate s) := by
  unfold execHbmAccessDone
  repeat' first
    | (intro _)
    | with_reducible first | assumption | apply State.Ends.next | apply State.Follows.ite | apply State.accessDone_follows | apply
      State.hitchResume_follows | apply State.pokesServe_follows | apply State.setPc_follows
    | (simp only [State.Follows.mk_iff]; with_reducible apply State.Keeps.of)
    | split

theorem execHitchRetryReissue_follows {orig : State} (tag : Nat) (s : State) (hyp : orig.Follows s) :
    orig.Ends (execHitchRetryReissue tag s) := by
  unfold execHitchRetryReissue
  repeat' first
    | (intro _)
    | with_reducible first | assumption | apply State.Ends.next | apply State.Follows.ite | apply
      State.hitchAnswer_follows | apply State.hitchResume_follows | apply State.dictReissue_follows
    | (simp only [State.Follows.mk_iff]; with_reducible apply State.Keeps.of)
    | split

theorem execHitchReservedType_follows {orig : State} (code : BitVec 8) (s : State) (hyp : orig.Follows s) :
    orig.Ends (execHitchReservedType code s) := by
  unfold execHitchReservedType
  repeat' first
    | (intro _)
    | with_reducible first | assumption | apply State.Ends.next | apply State.Follows.ite |
      apply State.logOpen_follows
    | (simp only [State.Follows.mk_iff]; with_reducible apply State.Keeps.of)

theorem execJournalEntry_follows {orig : State} (s : State) (hyp : orig.Follows s) :
    orig.Ends (execJournalEntry s) := by
  unfold execJournalEntry
  repeat' with_reducible first | assumption | apply State.Ends.next | apply State.chainNext_follows

theorem execUcieModuleFail_follows {orig : State} (unit : Fin 2) (s : State) (hyp : orig.Follows s) :
    orig.Ends (execUcieModuleFail unit s) := by
  unfold execUcieModuleFail
  repeat' first
    | (intro _)
    | with_reducible first | assumption | apply State.Ends.next | apply State.Follows.ite |
      apply State.foff_follows | apply State.fon_follows | apply State.logOpen_follows
    | (simp only [State.Follows.mk_iff]; with_reducible apply State.Keeps.of)

theorem execUcieLinkLost_follows {orig : State} (s : State) (hyp : orig.Follows s) :
    orig.Ends (execUcieLinkLost s) := by
  unfold execUcieLinkLost
  repeat' first
    | (intro _)
    | with_reducible first | assumption | apply State.Ends.next | apply State.Follows.ite | apply State.bitOn_follows
      | apply State.emit_follows | apply State.busErr_follows | apply State.logOpen_follows | apply
      State.dictResume_follows | apply State.Follows.foldl
    | (simp only [State.Follows.mk_iff]; with_reducible apply State.Keeps.of)
    | split

theorem execUcieLinkReturn_follows {orig : State} (both : Bool) (s : State) (hyp : orig.Follows s) :
    orig.Ends (execUcieLinkReturn both s) := by
  unfold execUcieLinkReturn
  repeat' first
    | (intro _)
    | with_reducible first | assumption | apply State.Ends.next | apply State.Follows.ite | apply State.fset_follows |
      apply State.bitOff_follows | apply State.sendMsgi_follows | apply State.resumeAll_follows | apply
      State.Follows.foldl
    | (simp only [State.Follows.mk_iff]; with_reducible apply State.Keeps.of)
    | split

theorem State.fuseDict_follows {orig : State} (s : State) (hyp : orig.Follows s) :
    orig.Follows (State.fuseDict s) := by
  unfold State.fuseDict
  repeat' first
    | with_reducible assumption
    | (intro x; refine State.Follows.cut (P := orig.Follows x) ?_ ?_; all_goals first | (intro _; clear_value x) | subst x)
    | (intro x; refine State.Follows.cut (P := ∀ a, orig.Follows (x a)) ?_ ?_; all_goals first | (subst x; intro _) | (intro kf; clear_value x))
    | (intro x; refine State.Follows.cut (P := ∀ t a, orig.Follows t → orig.Follows (x t a)) ?_ ?_; all_goals first | (subst x; intro _ _ _) | (intro kf; clear_value x))
    | (intro x; refine State.Follows.cut (P := ∀ t a b, orig.Follows t → orig.Follows (x t a b)) ?_ ?_; all_goals first | (subst x; intro _ _ _ _) | (intro kf; clear_value x))
    | (intro x; refine State.Follows.cut (P := orig.Follows x.1) ?_ ?_; all_goals first | (intro _; clear_value x) | subst x)
    | (intro x; refine State.Follows.cut (P := orig.Follows x.2) ?_ ?_; all_goals first | (intro _; clear_value x) | subst x)
    | (intro x; refine State.Follows.cut (P := orig.Follows x.state) ?_ ?_; all_goals first | (intro _; clear_value x) | subst x)
    | (intro x; clear_value x)
    | (intro _)
    | with_reducible first | assumption
    | (simp only [State.Follows.mk_iff]; with_reducible apply State.Keeps.of)
    | lift_lets
    | split
    | dsimp only

theorem State.fuseNode_follows {orig : State} (s : State) (hyp : orig.Follows s) :
    orig.Follows (State.fuseNode s) := by
  unfold State.fuseNode
  repeat' first
    | (intro _)
    | with_reducible first | assumption | apply State.Follows.ite | apply State.logOpen_follows
    | (simp only [State.Follows.mk_iff]; with_reducible apply State.Keeps.of)
    | split

theorem State.fuseRepair_follows {orig : State} (s : State) (e : Nat) (hyp : orig.Follows s) :
    orig.Follows (State.fuseRepair s e) := by
  unfold State.fuseRepair
  repeat' first
    | (intro _)
    | with_reducible first | assumption | apply State.bitOff_follows | apply State.bitOn_follows |
      apply State.fset_follows
    | (simp only [State.Follows.mk_iff]; with_reducible apply State.Keeps.of)
    | split

theorem State.fuseHbm_follows {orig : State} (s : State) (hyp : orig.Follows s) :
    orig.Follows (State.fuseHbm s) := by
  unfold State.fuseHbm
  repeat' first
    | with_reducible assumption
    | (intro x; refine State.Follows.cut (P := orig.Follows x) ?_ ?_; all_goals first | (intro _; clear_value x) | subst x)
    | (intro x; clear_value x)
    | (intro _)
    | with_reducible first | assumption | apply State.degradeOn_follows | apply State.fset_follows | apply State.fuseRepair_follows |
      apply State.showLayout_follows | apply State.wr_follows | apply State.Follows.foldl
    | (simp only [State.Follows.mk_iff]; with_reducible apply State.Keeps.of)
    | lift_lets
    | split
    | dsimp only

theorem State.fuseCal_follows {orig : State} (s : State) (hyp : orig.Follows s) :
    orig.Follows (State.fuseCal s) := by
  unfold State.fuseCal
  repeat' first
    | with_reducible assumption
    | (intro x; refine State.Follows.cut (P := orig.Follows x) ?_ ?_; all_goals first | (intro _; clear_value x) | subst x)
    | (intro x; clear_value x)
    | (intro _)
    | with_reducible first | assumption | apply State.Follows.ite | apply State.fset_follows |
      apply State.Follows.foldl
    | (simp only [State.Follows.mk_iff]; with_reducible apply State.Keeps.of)
    | lift_lets
    | split
    | dsimp only

theorem State.fuseCert_follows {orig : State} (s : State) (hyp : orig.Follows s) :
    orig.Follows (State.fuseCert s) := by
  unfold State.fuseCert
  repeat' first
    | (intro _)
    | with_reducible first | assumption | apply State.Follows.foldl
    | (simp only [State.Follows.mk_iff]; with_reducible apply State.Keeps.of)
    | split

theorem State.applyFuses_follows {orig : State} (s : State) (hyp : orig.Follows s) :
    orig.Follows (State.applyFuses s) := by
  unfold State.applyFuses
  repeat' first
    | (intro _)
    | with_reducible first | assumption | apply State.showStore_follows | apply State.applyXtal_follows | apply
      State.fuseDict_follows | apply State.fuseNode_follows | apply State.fuseHbm_follows | apply
      State.fuseCal_follows | apply State.fuseCert_follows
    | (simp only [State.Follows.mk_iff]; with_reducible apply State.Keeps.of)
    | split

theorem State.bootImage_follows {orig : State} (s : State) (image : List Byte) (hyp : orig.Follows s) :
    orig.Follows (State.bootImage s image) := by
  unfold State.bootImage
  repeat' first
    | (intro _)
    | with_reducible first | assumption | apply State.imageBy_follows
    | (simp only [State.Follows.mk_iff]; with_reducible apply State.Keeps.of)
    | split

theorem State.hbmStage_follows {orig : State} (s : State) (hyp : orig.Follows s) : orig.Follows s.hbmStage := by
  unfold State.hbmStage
  apply State.Follows.foldl
  · intro x p hx
    split
    · exact State.canBoot_follows _ _ (State.commReset_follows _ hx)
    · exact hx
  · exact ⟨hyp.pending, hyp.beats, hyp.outs, hyp.fresh, hyp.regs, fun _ => rfl⟩

theorem State.stageEnd_follows {orig : State} (s : State) (st : Nat) (header : List Byte) (hyp : orig.Follows s) :
    orig.Follows (State.stageEnd s st header) := by
  unfold State.stageEnd
  repeat' first
    | (intro _)
    | with_reducible first | assumption | apply State.Follows.ite | apply State.applyFuses_follows |
      apply State.bootImage_follows | apply State.fon_follows | apply State.hbmStage_follows
    | (simp only [State.Follows.mk_iff]; with_reducible apply State.Keeps.of)

theorem execBootStageDone_follows {orig : State} (failed : Bool) (image : List (BitVec 8)) (s : State) (hyp :
  orig.Follows s) :
    orig.Ends (execBootStageDone failed image s) := by
  unfold execBootStageDone
  repeat' first
    | (intro _)
    | with_reducible first | assumption | apply State.Ends.next | apply State.Follows.ite | apply State.fset_follows |
      apply State.bootFail_follows | apply State.stageEnd_follows
    | (simp only [State.Follows.mk_iff]; with_reducible apply State.Keeps.of)
    | split

theorem execHostGibDefault_follows {orig : State} (s : State) (hyp : orig.Follows s) :
    orig.Ends (execHostGibDefault s) := by
  unfold execHostGibDefault
  repeat' with_reducible first | assumption | apply State.Ends.next | apply State.Follows.ite |
      apply State.hostGib_follows

/-! ### NarrowWrites -/

theorem State.narrowWrite_follows {orig : State} (s : State) (src a : Nat) (v : Word) (shut same : Bool) (hyp :
  orig.Follows s) :
    orig.Follows (State.narrowWrite s src a v shut same) := by
  unfold State.narrowWrite
  repeat' first
    | (intro _)
    | with_reducible first | assumption | apply State.Follows.ite | apply State.writeEntry_follows
    | (simp only [State.Follows.mk_iff]; with_reducible apply State.Keeps.of)
    | split

theorem execCoefWrite_follows {orig : State} (src : Src) (slice : Fin 24) (set : Fin 4) (word : Fin 256) (value :
  BitVec 32) (s : State) (hyp : orig.Follows s) :
    orig.Ends (execCoefWrite src slice set word value s) := by
  unfold execCoefWrite
  repeat' first
    | (intro _)
    | with_reducible first | assumption | apply State.Ends.next | apply State.coefPut_follows | apply
      State.bridgeReady_follows | apply State.narrowWrite_follows
    | (simp only [State.Follows.mk_iff]; with_reducible apply State.Keeps.of)
    | split

theorem execWinDataWrite_follows {orig : State} (src : Src) (slice : Fin 24) (value : BitVec 32) (s : State) (hyp :
  orig.Follows s) :
    orig.Ends (execWinDataWrite src slice value s) := by
  unfold execWinDataWrite
  repeat' first
    | (intro _)
    | with_reducible first | assumption | apply State.Ends.next | apply State.winDataPut_follows | apply
      State.bridgeReady_follows | apply State.narrowWrite_follows
    | (simp only [State.Follows.mk_iff]; with_reducible apply State.Keeps.of)
    | split

theorem execRetireWrite_follows {orig : State} (src : Src) (slice : Fin 24) (value : BitVec 32) (s : State) (hyp :
  orig.Follows s) :
    orig.Ends (execRetireWrite src slice value s) := by
  unfold execRetireWrite
  repeat' first
    | (intro _)
    | with_reducible first | assumption | apply State.Ends.next | apply State.retirePut_follows | apply
      State.bridgeReady_follows | apply State.narrowWrite_follows
    | (simp only [State.Follows.mk_iff]; with_reducible apply State.Keeps.of)
    | split

theorem execMaskDataWrite_follows {orig : State} (src : Src) (slice : Fin 24) (value : BitVec 32) (s : State) (hyp :
  orig.Follows s) :
    orig.Ends (execMaskDataWrite src slice value s) := by
  unfold execMaskDataWrite
  repeat' first
    | (intro _)
    | with_reducible first | assumption | apply State.Ends.next | apply State.maskDataPut_follows | apply
      State.bridgeReady_follows | apply State.narrowWrite_follows
    | (simp only [State.Follows.mk_iff]; with_reducible apply State.Keeps.of)
    | split

theorem execVecMaskWrite_follows {orig : State} (word : Fin 8) (value : BitVec 32) (s : State) (hyp : orig.Follows s)
  :
    orig.Ends (execVecMaskWrite word value s) := by
  unfold execVecMaskWrite
  repeat' first
    | (intro _)
    | with_reducible first | assumption | apply State.Ends.next | apply State.took_follows | apply
      State.vecMask_follows | apply State.bridgeReady_follows | apply State.narrowWrite_follows
    | (simp only [State.Follows.mk_iff]; with_reducible apply State.Keeps.of)
    | split

theorem execHostGibWrite_follows {orig : State} (value : BitVec 32) (s : State) (hyp : orig.Follows s) :
    orig.Ends (execHostGibWrite value s) := by
  unfold execHostGibWrite
  repeat' first
    | (intro _)
    | with_reducible first | assumption | apply State.Ends.next | apply State.took_follows | apply
      State.hostGib_follows | apply State.bridgeReady_follows | apply State.narrowWrite_follows
    | (simp only [State.Follows.mk_iff]; with_reducible apply State.Keeps.of)
    | split

theorem execPwrDomTargetWrite_follows {orig : State} (value : BitVec 32) (s : State) (hyp : orig.Follows s) :
    orig.Ends (execPwrDomTargetWrite value s) := by
  unfold execPwrDomTargetWrite
  repeat' first
    | (intro _)
    | with_reducible first | assumption | apply State.Ends.next | apply State.took_follows | apply
      State.domTargetPut_follows | apply State.bridgeReady_follows | apply State.narrowWrite_follows
    | (simp only [State.Follows.mk_iff]; with_reducible apply State.Keeps.of)
    | split

end Sys2Proof.Machine
end

