-- ==== Sys2Proof/WellFormed.lean ====
section
/-!
DEFINITION. Which commands can be presented to the device at all: the ranges of the operands that the spec's interfaces
give and that the operand's type does not. The machine gives every command a meaning, well-formed or not.
-/

namespace Sys2Proof

/-- A requester has a hart from 0 to 7 (R385). -/
def Src.wf (x : Src) : Bool := decide (x.hart < 8)

/-- A Hitch tag has 10 bits (R376). -/
def tagOk (tag : Nat) : Bool := decide (tag < 1024)

/-- A Hitch register access carries 1, 2, 4 or 8 bytes; only 4 and 8 are served (R365, R377). -/
def busSize (size : Nat) : Bool := size == 1 || size == 2 || size == 4 || size == 8

/-- A partner access of 4 or 8 bytes, aligned (R300). -/
def pageSize (size offset : Nat) : Bool := (size == 4 || size == 8) && offset % size == 0

/-- A request to HBM lies within one 256-byte unit (R176). -/
def inUnit (offset len : Nat) : Bool := decide (0 < len) && decide (offset % 256 + len ≤ 256)

/-- An offset of the elastic buffer from its centre, as the signed 8-bit field shows it (R48). -/
def inRing (offset : Int) : Bool := decide (-128 ≤ offset) && decide (offset ≤ 127)

/-- The command's operands lie in the ranges of the interface that presents it. -/
def Instr.wf (i : Instr) : Bool :=
  match i with
  | .configure => true
  | .arm => true
  | .armComplete => true
  | .armTimeout => true
  | .start => true
  | .timedStart => true
  | .stop => true
  | .abort => true
  | .stoppingEnd => true
  | .linkaiBlock _ _ _ _ _ => true
  | .linkaiFrame _ _ _ offset => inRing offset
  | .crcResult _ _ => true
  | .crcWindowEnd _ _ => true
  | .convResponse _ _ _ => true
  | .msgTransmit _ => true
  | .msgAckTimeout _ => true
  | .lossOfSignal _ _ => true
  | .signalRestored _ _ => true
  | .fwdClockLost _ => true
  | .fwdClockRestored _ => true
  | .downHoldEnd _ => true
  | .retStartDone _ => true
  | .fwdClockDetect _ => true
  | .adaptDone _ => true
  | .lockDone _ => true
  | .verifyPass _ => true
  | .stepSwitchDone _ => true
  | .alignDone _ _ _ spread => decide (spread < 256 * 4096)
  | .phaseTimeout _ => true
  | .bringupRetry _ => true
  | .bringup _ => true
  | .drop _ => true
  | .fwdDoze _ => true
  | .fwdOff _ => true
  | .fwdWake _ => true
  | .retDoze _ => true
  | .retOff _ => true
  | .retWake _ => true
  | .sendMsg _ => true
  | .msgRxRead _ tag => tagOk tag
  | .prbsLock _ _ => true
  | .prbsLockLoss _ _ => true
  | .prbsErrRead _ _ tag => tagOk tag
  | .injectGo _ _ => true
  | .tapARelease _ => true
  | .captureRelease _ => true
  | .coefScrub _ _ _ _ => true
  | .coefWrite src _ _ _ _ => src.wf
  | .spectrumDelivery _ _ => true
  | .tableScrub _ _ _ _ => true
  | .winDataWrite src _ _ => src.wf
  | .retireWrite src _ _ => src.wf
  | .triggerBusInput => true
  | .maskStop => true
  | .literalDelayExpire _ _ => true
  | .edgeWindowEnd _ _ => true
  | .outPulseEnd _ => true
  | .trigInEdge _ _ _ => true
  | .softTrigger _ => true
  | .tmrDisagree _ => true
  | .copyStuck _ => true
  | .copyRecovered _ => true
  | .taintRetentionEnd => true
  | .shedArm _ => true
  | .shedDisarm _ => true
  | .shedForce _ => true
  | .shedPrefillDone _ => true
  | .shedPostEnd _ => true
  | .shedHoldoffEnd _ => true
  | .maskDataWrite src _ _ => src.wf
  | .partialUnitFlush _ => true
  | .unitCommit _ => true
  | .lookupGo => true
  | .lookupDone => true
  | .hbmRequest _ write offset len _ data => inUnit offset.toNat len && (!write || data.length == len)
  | .hbmAccessDone _ _ _ _ => true
  | .refreshDue _ _ => true
  | .rfmThreshold _ _ => true
  | .tempPoll _ _ _ => true
  | .patrolScrub => true
  | .pcPendingSet _ _ => true
  | .srEnter _ => true
  | .srExit _ => true
  | .freqGo _ => true
  | .srIdleExpire _ => true
  | .srEntering _ => true
  | .sreIssue _ => true
  | .srResidencyEnd _ => true
  | .freqSwitchDone _ => true
  | .srExitDone _ => true
  | .framePeriod _ => true
  | .tapFrame _ => true
  | .tapClear _ => true
  | .frameClose _ => true
  | .sweepDone _ => true
  | .planeZeroDone _ => true
  | .pnlEnable => true
  | .pnlDisable => true
  | .commit => true
  | .commit1 => true
  | .pal => true
  | .train0 => true
  | .train1 => true
  | .trainDone _ _ => true
  | .vblank _ => true
  | .paletteCopyDone => true
  | .composeDone _ => true
  | .hpdPlug _ => true
  | .hpdUnplug _ => true
  | .irqHpd _ => true
  | .auxGo _ => true
  | .auxDone _ _ bytes => decide (bytes.length ≤ 16)
  | .nop _ _ => true
  | .halt _ _ => true
  | .wait _ _ => true
  | .waitWake _ => true
  | .trap _ _ => true
  | .mov _ _ => true
  | .movi _ _ => true
  | .movc _ _ => true
  | .add _ _ => true
  | .sub _ _ => true
  | .adds _ _ => true
  | .subs _ _ => true
  | .addi _ _ => true
  | .shuAnd _ _ => true
  | .shuOr _ _ => true
  | .shuXor _ _ => true
  | .andi _ _ => true
  | .ash _ _ => true
  | .lsh _ _ => true
  | .cmp _ _ => true
  | .cmpi _ _ => true
  | .abs _ _ => true
  | .min _ _ => true
  | .max _ _ => true
  | .ld _ _ => true
  | .st _ _ => true
  | .movx _ _ => true
  | .movxi _ _ => true
  | .movfx _ _ => true
  | .mpy _ _ => true
  | .mac _ _ => true
  | .msu _ _ => true
  | .macm _ _ => true
  | .macsq _ _ => true
  | .aclr _ _ => true
  | .acadd _ _ => true
  | .acsh _ _ => true
  | .rnd _ _ => true
  | .movh _ _ => true
  | .movl _ _ => true
  | .movg _ _ => true
  | .shuB _ _ => true
  | .call _ _ => true
  | .ret _ _ => true
  | .reti _ _ => true
  | .loop _ _ => true
  | .loopd _ _ => true
  | .shuIn _ _ => true
  | .out _ _ => true
  | .pass _ _ => true
  | .veto _ _ => true
  | .interruptEntry _ => true
  | .tickExpire _ => true
  | .partWrite _ => true
  | .partTimeout _ => true
  | .shuRun _ => true
  | .shuHalt _ => true
  | .coreHalted _ => true
  | .shuStep _ => true
  | .shuReset _ => true
  | .shuIrq _ => true
  | .mboxPush _ _ => true
  | .mboxOutRead src _ _ tag => src.wf && tagOk tag
  | .waveformOpen _ => true
  | .spectrumRecordTimeout _ => true
  | .sideEntry _ _ _ => true
  | .sideRecordHold _ _ => true
  | .runEndEmit _ => true
  | .userGo => true
  | .userCopyDone _ => true
  | .skeinPacket _ _ _ _ => true
  | .decGo _ => true
  | .decStop _ => true
  | .decDone _ _ => true
  | .qMaxRead _ tag => tagOk tag
  | .fragmentTag _ => true
  | .ringEntryWrite _ => true
  | .notifyHoldExpire _ _ => true
  | .notifySend _ _ => true
  | .notifyTransmitted _ _ => true
  | .perstAssert _ => true
  | .perstDeassert _ => true
  | .hotReset _ => true
  | .flr _ => true
  | .linkUp _ _ _ _ => true
  | .linkDown _ => true
  | .bmeClear _ => true
  | .ringCfgWrite _ _ _ => true
  | .ringNotifyNow _ _ _ => true
  | .ringRdWrite _ _ _ => true
  | .partnerDoorbell _ _ => true
  | .partnerPageWrite _ offset size _ => pageSize size offset.toNat
  | .partnerLatchRead _ offset size => pageSize size offset.toNat
  | .bar2Read _ _ len _ => decide (len ≤ 4096)
  | .bar2Write _ => true
  | .msixSend _ _ => true
  | .partnerDbRead _ tag => tagOk tag
  | .spnStart _ => true
  | .spnHalt _ => true
  | .spnStop _ => true
  | .spnPoke _ => true
  | .spnEventSet _ _ => true
  | .spnEnd _ _ => true
  | .spnMove _ _ => true
  | .spnElementDone _ _ _ => true
  | .spnLoop _ _ => true
  | .spnWait _ _ => true
  | .spnWaitPoll _ _ _ => true
  | .spnWaitEnd _ => true
  | .spnWaitTimeout _ => true
  | .spnSignal _ _ => true
  | .spnSignalFlushed _ _ => true
  | .spnLink _ _ => true
  | .spnQuiesceTimeout _ => true
  | .relock => true
  | .cycleSlip => true
  | .refinQualifyTimeout => true
  | .relockLockDetect => true
  | .relockRestart => true
  | .refinLost _ => true
  | .holdoverLimit => true
  | .refinQualified _ _ => true
  | .snapRestart => true
  | .slewDone => true
  | .syncEvent => true
  | .syncAction => true
  | .syncArm => true
  | .warpLoad => true
  | .warpLoadApply => true
  | .hfbEdge _ _ _ => true
  | .hfbDllLock _ => true
  | .hfbCal => true
  | .hfbCalDone tables => tables.all (fun t => t.length == 256)
  | .registerWrite src tag _ size _ => src.wf && tagOk tag && busSize size
  | .aliasWrite src tag _ size _ => src.wf && tagOk tag && busSize size
  | .shLowRead src tag _ _ => src.wf && tagOk tag
  | .vecMaskWrite _ _ => true
  | .hitchHbmAccess src tag _ len _ data => src.wf && tagOk tag && (match data with | some d => d.length == len | none => true)
  | .hitchRetryReissue tag => tagOk tag
  | .hitchReservedType code => !(decide (1 ≤ code.toNat) && decide (code.toNat ≤ 5))
  | .ucieModuleFail _ => true
  | .ucieLinkLost => true
  | .ucieLinkReturn _ => true
  | .bootStageDone _ _ => true
  | .hostGibWrite _ => true
  | .hostGibDefault => true
  | .nmtStartRemoteNode _ => true
  | .nmtStopRemoteNode _ => true
  | .nmtEnterPreOperational _ => true
  | .nmtResetCommunication _ => true
  | .nmtResetNode _ => true
  | .usdoDownload _ _ _ _ total data => match total with | some n => decide (data.length ≤ n) | none => true
  | .usdoUpload _ _ _ _ => true
  | .usdoSegment _ _ _ => true
  | .usdoTimeout _ => true
  | .dictRunCmd _ _ _ => true
  | .dictRegAccess _ _ wide write data => !write || data.length == (if wide then 8 else 4)
  | .oseriApply _ => true
  | .heartbeat _ => true
  | .emcyInhibitEnd _ => true
  | .tpdoEventTimer _ _ => true
  | .tpdoInhibitEnd _ _ => true
  | .canBusOffRecovery _ => true
  | .canRxOverrun _ _ => true
  | .canErrorPassive _ => true
  | .canErrorActive _ => true
  | .sessionOpen => true
  | .sessionClose => true
  | .attest => true
  | .verifyImage => true
  | .ownerInstall => true
  | .ownerRevoke => true
  | .debugUnlock => true
  | .zeroise => true
  | .decommission => true
  | .getCert => true
  | .keyRetire _ => true
  | .journalEntry => true
  | .journalExport => true
  | .manifestBegin => true
  | .manifestPush => true
  | .farProg => true
  | .farProgDone _ => true
  | .statsGo => true
  | .statsCancel => true
  | .statsCountDone _ => true
  | .statsApply _ => true
  | .thermalConversion _ _ => true
  | .voltageConversion _ _ => true
  | .processConversion _ _ => true
  | .tckStart => true
  | .tckStop => true
  | .regGo => true
  | .injGo => true
  | .periodicStart => true
  | .tackGroupDone codes => decide (codes.length ≤ 4)
  | .tckCalGo => true
  | .tackCalDone codes => codes.length == 256
  | .calCommit => true
  | .pwrDomTargetWrite _ => true
  | .domainPowerDown => true
  | .domainOff => true
  | .domainPowerUp => true
  | .domainOn => true
  | .vstbyBrownoutBegin => true
  | .vstbyBrownoutEnd _ => true
  | .vioBrownoutBegin _ => true
  | .vioBrownoutEnd _ _ => true
  | .vioLost _ => true
  | .powerOnReset => true
  | .nresetAssert => true
  | .pwrOkLow => true
  | .nresetRelease _ _ vio => vio.length == 7
  | .deviceReset => true
  | .thermalHoldEnd => true
  | .pwrBlkReset _ => true
  | .pdkGo => true
  | .pdkAbort => true
  | .pdkTestDone _ _ _ _ => true
  | .erlCoalesceCommit => true
  | .ageTick => true
  | .driftCheck => true
  | .prbsErr _ _ => true
  | .scanStoreEcc _ _ _ _ => true
  | .hitchRead src tag _ load => src.wf && tagOk tag && busSize load.size
  | .spectrumRecordClose _ => true
  | .bmeSet _ _ _ _ => true
  | .completionTimeout _ => true
  | .refFreqBad _ => true
  | .dllUnlock _ => true
  | .reservedOpcode _ _ => true
  | .spnReservedOpcode _ _ => true

end Sys2Proof
end

