-- ==== Sys2Proof/Tests/Slice0.lean ====
section
/-!
SUPPORT. The model's own tests: the checks of WellFormed each refuse a term; and for every statement a state and operands
that meet what it assumes, clause by clause, so that no statement is about nothing.
-/

namespace Sys2Proof.Tests
set_option Elab.async false
open Sys2Proof.Machine

/-- The state after reset with fields of registers set. -/
def fs (xs : List (Nat × Fld × Nat)) : State := xs.foldl (fun s x => s.fset x.1 x.2.1 x.2.2) State.reset

/-- A state in a later beat. -/
def late (n : Nat) (s : State) : State := { s with beats := n }

/-- The state after reset with GLB_RUN.STATE set. -/
def inRun (k : Nat) : State := fs [(R.GLB_RUN, F.GLB_RUN_STATE, k)]

/-- Engine 0 holds a tagged fragment with a body of this length that ring 0 of port 0 takes, and channel 0 of Spindle, of this priority, is to
write an element of this length to port 0. -/
def turnsAt (prio body element : Nat) : State :=
  { fs [(R.HNS_PORT_STATUS 0, F.HNS_PORT_STATUS_PERST, 0), (R.HNS_PORT_STATUS 0, F.HNS_PORT_STATUS_LINK_UP, 1),
      (R.HNS_PORT_STATUS 0, F.HNS_PORT_STATUS_BME, 1), (R.HNS_RING_STATUS 0 0, F.HNS_RING_STATUS_EN, 1),
      (R.HNS_RING_STATUS 0 0, F.HNS_RING_STATUS_SIZE_EXP, 18), (R.SPN_CH_CFG 0, F.SPN_CH_CFG_PRIO, prio),
      (R.SPN_CH_STATUS 0, F.SPN_CH_STATUS_STATE, 1)] with
    recs := { RecSt.init with engines := [(0, { EngSt.init with
      held := some ⟨⟨0, 0, 0, 0, 0, 0, 0, 0, 0, 0, 0, 0, 0, 0, 0, 0, 0, 0⟩, List.replicate body 0#8, some [], none⟩ })] }
    spn := [(0, { SpnCh.init with work := some (.move ⟨1 + 2 ^ 32 * element, 0x4000000000, 0xC0 * 2 ^ 56⟩ 0) })] }

/-- A record of kind 4, index 0, generation 1, one part: the bytes it does not list read 0, and bytes 12 to 15 make its CRC 0. -/
def rec4 : List (BitVec 8) :=
  [124#8, 250#8, 4#8, 0#8, 0#8, 0#8, 1#8, 0#8, 0#8, 1#8, 4#8, 0#8, 131#8, 227#8, 57#8, 251#8]

/-- The same of the unlisted kind 12. -/
def rec12 : List (BitVec 8) :=
  [124#8, 250#8, 12#8, 0#8, 0#8, 0#8, 1#8, 0#8, 0#8, 1#8, 4#8, 0#8, 119#8, 163#8, 238#8, 232#8]

/-- The same of kind 1, whose payload is not plausible. -/
def rec1 : List (BitVec 8) :=
  [124#8, 250#8, 1#8, 0#8, 0#8, 0#8, 1#8, 0#8, 0#8, 1#8, 4#8, 0#8, 199#8, 40#8, 16#8, 29#8]

/-- The same of kind 9, whose bases are all 0x01010101. -/
def rec9 : List (BitVec 8) :=
  [124#8, 250#8, 9#8, 0#8, 0#8, 0#8, 1#8, 0#8, 0#8, 1#8, 4#8, 0#8] ++ List.replicate 36 0#8 ++ List.replicate 64 1#8
    ++ [231#8, 53#8, 151#8, 15#8]

/-- WellFormed refuses a Hitch read of 3 bytes (R365, R377). -/
theorem test_wf_refuses_size : Instr.wf (.hitchRead ⟨true, 0⟩ 0 0#48 ⟨3, .clean⟩) = false := by decide

/-- WellFormed refuses a requester of hart 8 (R385). -/
theorem test_wf_refuses_hart : Instr.wf (.coefWrite ⟨true, 8⟩ 0 0 0 0#32) = false := by decide

/-- WellFormed refuses a tag of 11 bits (R376). -/
theorem test_wf_refuses_tag : Instr.wf (.msgRxRead 0 1024) = false := by decide

/-- WellFormed refuses a partner access of 2 bytes (R300). -/
theorem test_wf_refuses_page_size : Instr.wf (.partnerLatchRead 0 0#16 2) = false := by decide

/-- WellFormed refuses a partner access of 8 bytes at 4 (R300). -/
theorem test_wf_refuses_page_align : Instr.wf (.partnerLatchRead 0 4#16 8) = false := by decide

/-- WellFormed refuses a request across two units (R176). -/
theorem test_wf_refuses_unit : Instr.wf (.hbmRequest .builder false 255#36 2 0 []) = false := by decide

/-- WellFormed refuses a request of no byte (R176). -/
theorem test_wf_refuses_unit_empty : Instr.wf (.hbmRequest .builder false 0#36 0 0 []) = false := by decide

/-- WellFormed refuses a write of 2 bytes that carries 1 (R176). -/
theorem test_wf_refuses_unit_data : Instr.wf (.hbmRequest .builder true 0#36 2 0 [some 0#8]) = false := by decide

/-- WellFormed refuses an elastic buffer 128 off its centre (R48). -/
theorem test_wf_refuses_elastic : Instr.wf (.linkaiFrame 0 0 0 128) = false := by decide

/-- WellFormed refuses a spread of 4,096 grid steps. -/
theorem test_wf_refuses_spread : Instr.wf (.alignDone 0 0 0#48 1048576) = false := by decide

/-- WellFormed refuses an AUX answer of 17 bytes. -/
theorem test_wf_refuses_aux : Instr.wf (.auxDone 0 0 (List.replicate 17 0#8)) = false := by decide

/-- WellFormed refuses a readback of 4,097 bytes. -/
theorem test_wf_refuses_bar2 : Instr.wf (.bar2Read 0 0#64 4097 none) = false := by decide

/-- WellFormed refuses a table of 2 entries. -/
theorem test_wf_refuses_hfb_tables : Instr.wf (.hfbCalDone [List.replicate 2 0#16]) = false := by decide

/-- WellFormed refuses a Hitch write of 4 bytes that carries none. -/
theorem test_wf_refuses_hbm_data : Instr.wf (.hitchHbmAccess ⟨true, 0⟩ 0 0#48 4 0xF#8 (some [])) = false := by decide

/-- WellFormed refuses a packet type that is not reserved. -/
theorem test_wf_refuses_reserved_type : Instr.wf (.hitchReservedType 5#8) = false := by decide

/-- WellFormed refuses a first segment longer than the whole. -/
theorem test_wf_refuses_usdo_total : Instr.wf (.usdoDownload 0 1#7 0x1017#16 0#8 (some 1) [0#8, 0#8]) = false := by decide

/-- WellFormed refuses a 64-bit write of 4 bytes. -/
theorem test_wf_refuses_dict_data : Instr.wf (.dictRegAccess 0 1#7 true true (List.replicate 4 0#8)) = false := by decide

/-- WellFormed refuses a group of 5 conversions. -/
theorem test_wf_refuses_group : Instr.wf (.tackGroupDone (List.replicate 5 0#16)) = false := by decide

/-- WellFormed refuses a calibration of 1 conversion. -/
theorem test_wf_refuses_cal : Instr.wf (.tackCalDone [0#16]) = false := by decide

/-- WellFormed refuses a release that measures 6 banks. -/
theorem test_wf_refuses_vio : Instr.wf (.nresetRelease 0 0#16 (List.replicate 6 0#16)) = false := by decide

/-- No row gives bits, so no word spells a command (log entry 1). -/
theorem test_no_word_spells : decodeTableWord 32 0xFFFFFFFF = none := by decide

/-! CONFIGURE finds nothing wrong right after reset. -/

theorem test_reset_slice_checks : (eachOf 24 (fun n => State.reset.lnkChecks n ++ State.reset.cndChecks n
    ++ State.reset.spcChecks n ++ State.reset.primChecks n ++ State.reset.scChecks n ++ State.reset.rawChecks n)) = [] := by
  decide +kernel

theorem test_reset_term_checks : State.reset.termChecks = [] := by decide +kernel

theorem test_reset_bob_checks : State.reset.bobChecks = [] := by decide +kernel

theorem test_reset_other_checks : State.reset.hfbChecks = [] ∧ State.reset.tapChecks = [] ∧ State.reset.pnlChecks = []
    ∧ State.reset.recChecks = [] := by decide +kernel

theorem test_reset_shed_masks : (upTo 64).all (fun k => (upTo 6).all (fun w =>
    State.reset.rd (R.TRD_SHED_CHMASK k w) == 0#32)) = true := by decide +kernel

theorem test_each_nil (xs : List Nat) (f : Nat → List Fail) (h : ∀ i ∈ xs, f i = []) :
    xs.foldl (fun ys i => ys ++ f i) [] = [] := by
  induction xs with
  | nil => rfl
  | cons i t ih =>
    simp only [List.foldl_cons, h i (by simp), List.append_nil]
    exact ih fun j m => h j (by simp [m])

theorem test_reset_shed_chans (k : Nat) (hk : k ∈ upTo 64) : State.reset.shedChans k = [] := by
  have h := test_reset_shed_masks
  rw [List.all_eq_true] at h
  have hk' := h k hk
  rw [List.all_eq_true] at hk'
  unfold State.shedChans
  rw [List.filter_eq_nil_iff]
  intro c hc
  have hw : c / 32 ∈ upTo 6 := by
    simp only [upTo, List.mem_range] at hc ⊢
    omega
  have e : State.reset.rd (R.TRD_SHED_CHMASK k (c / 32)) = 0#32 := by simpa using hk' (c / 32) hw
  simp [e]

theorem test_reset_shed_checks : State.reset.shedChecks = [] := by
  unfold State.shedChecks eachOf
  refine test_each_nil _ _ ?_
  intro k hk
  simp only [test_reset_shed_chans k hk, List.isEmpty_nil, if_true]

theorem test_reset_configures : State.reset.cfgFails = [] := by
  unfold State.cfgFails
  rw [test_reset_slice_checks, test_reset_term_checks, test_reset_bob_checks, test_reset_shed_checks,
    test_reset_other_checks.1, test_reset_other_checks.2.1, test_reset_other_checks.2.2.1, test_reset_other_checks.2.2.2]
  rfl

/-! What the statements assume can be met, clause by clause. -/

/-- Operands and states that meet what StepRunsTheFrontCommand assumes. -/
theorem test_meets_StepRunsTheFrontCommand :
    (State.reset.pending = [] ∧ State.reset.clk.snap = none ∧ State.reset.released = false ∧ State.reset.tick.again = [] ∧
     State.reset.run.startNext = false ∧ State.reset.runState ≠ 4 ∧ State.reset.turns = [] ∧ State.reset.cond.chans = [] ∧
     State.reset.spec.streams = [] ∧ ∀ p, p < 16 → (State.reset.plane p).forming = [] ∧ (State.reset.plane p).queue = [] ∧
       (State.reset.plane p).sweep = none) ∧
    (({ State.reset with clk := { ClkSt.init with snap := some 5 } } : State).clk.snap ≠ none) ∧
    (({ State.reset with pwr := { PwrSt.init with nresetLow := false } } : State).released = true) ∧
    (State.reset.trd.fired = [] ∧ State.reset.trd.rises = [] ∧ State.reset.clk.stage ≠ 0 ∧
     ({ State.reset with clk := { ClkSt.init with stage := 0 } } : State).clk.stage = 0) :=
  by and_intros <;> decide +kernel

/-- Operands and states that meet what EveryStepKeepsForm assumes. -/
theorem test_meets_EveryStepKeepsForm :
    (State.reset.wf = true) ∧
    (exec .syncArm State.reset = .next (State.reset.fon R.STP_CTRL F.STP_CTRL_SYNC_ARM)) ∧
    (step State.reset = .next State.reset.beat) :=
  ⟨by decide +kernel, rfl, rfl⟩

/-- Operands and states that meet what EventsAndEntries assumes. -/
theorem test_meets_EventsAndEntries :
    (State.reset.vecPend 7 = false ∧ State.reset.vecMasked 7 = false ∧ State.reset.hitch.linkLost = false) ∧
    ((State.reset.raise 7 31).vecPend 7 = false) ∧
    (((State.reset.wr (intEnable 255) 0x80000000#32).raise 255 31).vecPend 255 = true) ∧
    ((State.reset.wr R.ERL_NEXT 1024#32).rd R.ERL_NEXT = 1024#32 ∧
     (State.reset.wr R.ERL_NEXT 0xFFFFFFFE#32).rd R.ERL_NEXT = 0xFFFFFFFE#32) ∧
    (State.reset.fget R.ERL_CFG F.ERL_CFG_EXPORT_MIN ≤ 3 ∧ (State.reset.side 0).quill.length < 512) ∧
    (0 < (fs [(R.ERL_CFG, F.ERL_CFG_EXPORT_MIN, 3)]).fget R.ERL_CFG F.ERL_CFG_EXPORT_MIN) ∧
    (let s : State := { State.reset with recs := { RecSt.init with sides := [(0, { SideSt.init with quill := List.replicate 512 ⟨0, 0, 0, [], 0⟩ })] } };
     s.fget R.ERL_CFG F.ERL_CFG_EXPORT_MIN ≤ 3 ∧ 512 ≤ (s.side 0).quill.length) :=
  by and_intros <;> decide +kernel

/-- Operands and states that meet what RunCommandsRefused assumes. -/
theorem test_meets_RunCommandsRefused :
    ((inRun 2).runState = 2 ∧ (inRun 3).runState = 3 ∧ (inRun 4).runState = 4 ∧ State.reset.runState ≠ 1) ∧
    ((fs [(R.GLB_RUN, F.GLB_RUN_BUSY, 1)]).flag R.GLB_RUN F.GLB_RUN_BUSY = true) ∧
    ((fs [(R.GLB_STATUS, F.GLB_STATUS_CFG_DIRTY, 1)]).flag R.GLB_STATUS F.GLB_STATUS_CFG_DIRTY = true) ∧
    (({ State.reset with pdk := { PdkSt.init with running := [0] } } : State).pdk.running ≠ []) ∧
    (State.reset.flag R.GLB_RUN F.GLB_RUN_BUSY = false ∧ State.reset.run.fatalAt ≠ some State.reset.beats ∧
     State.reset.runState = 0) ∧
    ((inRun 4).flag R.GLB_RUN F.GLB_RUN_BUSY = false ∧ (inRun 4).run.fatalAt ≠ some (inRun 4).beats) :=
  by and_intros <;> decide +kernel

/-- Operands and states that meet what ConfigureAndArm assumes. -/
theorem test_meets_ConfigureAndArm :
    (State.reset.pdk.running = [] ∧ State.reset.flag R.GLB_RUN F.GLB_RUN_BUSY = false ∧ State.reset.runState = 0) ∧
    ((fs [(R.HFB_IN_CFG 0, F.HFB_IN_CFG_EN, 1), (R.HFB_IN_CFG 0, F.HFB_IN_CFG_EDGE, 3)]).hfbChecks = [(R.HFB_IN_CFG 0, 0)]) ∧
    ((inRun 1).runState = 1 ∧ (inRun 1).flag R.GLB_STATUS F.GLB_STATUS_CFG_DIRTY = false ∧ (inRun 1).pdk.running = []) ∧
    (let s : State := { fs [(R.HFB_STATUS, F.HFB_STATUS_READY, 1), (R.BOB_STATUS, F.BOB_STATUS_READY, 1), (R.TAP_STATUS, F.TAP_STATUS_READY, 1)] with run := { RunSt.init with armSince := some 0 } };
     s.run.armSince.isSome = true ∧ s.armReady = true) ∧
    (let s : State := { State.reset with run := { RunSt.init with armSince := some 0 }, beats := armLimit };
     s.run.armSince = some 0 ∧ 0 + armLimit ≤ s.beats ∧ s.armReady = false) ∧
    (State.reset.cfgFails = []) :=
  ⟨by decide +kernel, by decide +kernel, by decide +kernel, by decide +kernel, by decide +kernel, test_reset_configures⟩

/-- Operands and states that meet what RunStartAndStop assumes. -/
theorem test_meets_RunStartAndStop :
    ((inRun 2).runState = 2 ∧ (inRun 2).flag R.GLB_RUN F.GLB_RUN_BUSY = false ∧ (inRun 2).run.timedStart = false ∧
     (inRun 2).run.startNext = false) ∧
    ((inRun 2).flag R.GLB_RUN F.GLB_RUN_START_MODE = false ∧
     (fs [(R.GLB_RUN, F.GLB_RUN_START_MODE, 1)]).flag R.GLB_RUN F.GLB_RUN_START_MODE = true) ∧
    (let s : State := { inRun 2 with run := { RunSt.init with timedStart := true } }; s.runState = 2 ∧
     s.run.timedStart = true ∧ s.pair R.GLB_START_AT_LO R.GLB_START_AT_HI ≤ s.wt) ∧
    (((inRun 2).wr R.GLB_START_AT_LO 1#32).wt < ((inRun 2).wr R.GLB_START_AT_LO 1#32).pair R.GLB_START_AT_LO R.GLB_START_AT_HI) ∧
    ((inRun 1).flag R.GLB_RUN F.GLB_RUN_BUSY = false ∧ (inRun 1).runState = 1 ∧
     (inRun 3).flag R.GLB_RUN F.GLB_RUN_BUSY = false ∧ (inRun 3).runState = 3) ∧
    ((inRun 4).flag R.GLB_RUN F.GLB_RUN_BUSY = false ∧ (inRun 4).runState = 4 ∧
     (inRun 4).run.fatalAt ≠ some (inRun 4).beats) ∧
    (let s : State := { inRun 4 with run := { RunSt.init with manifest := 3 } }; s.runState = 4 ∧
     s.stoppingOver = true ∧ s.bob.candidates = [] ∧ (inRun 2).bob.candidates = []) :=
  by and_intros <;> decide +kernel

/-- Operands and states that meet what LinkaiReceiver assumes. -/
theorem test_meets_LinkaiReceiver :
    (let s := fs [(R.LNK_STATUS 23, F.LNK_STATUS_STATE, lsActive), (R.LNK_CFG 23, ⟨0, 8⟩, 0x80), (R.LNK_LANE_STATUS 23 7, F.LNK_LANE_STATUS_BLOCK_LOCK, 1)];
     s.lnkListening 23 = true ∧ s.lnkUsed 23 7 = true ∧ s.lnkUsed 23 6 = false ∧ (s.lane 23 7).inject ≠ 2 ∧
     (s.lane 23 7).inject = 0 ∧ (s.lane 23 7).winBad < 15 ∧ s.lnkState 23 ≠ lsVerify ∧
     s.flag (R.LNK_LANE_STATUS 23 7) F.LNK_LANE_STATUS_BLOCK_LOCK = true) ∧
    (let f : InFlight := ⟨0, true, true, false, true, 0, false, false, true, 0, ⟨0, 0, 1⟩, 0, 0⟩;
     let s : State := { State.reset with lanes := [(0, { LaneSt.init with flight := [f] })] };
     (s.lane 0 0).flight = f :: [] ∧ f.crcGood = true ∧ f.markerGood = true ∧ f.training = false ∧
     f.indexGood = true ∧ f.stale = false) ∧
    (let f : InFlight := ⟨0, false, true, false, true, 0, false, false, true, 0, ⟨0, 0, 1⟩, 0, 0⟩;
     let s : State := { State.reset with lanes := [(0, { LaneSt.init with flight := [f] })] };
     (s.lane 0 0).flight = f :: [] ∧ f.crcGood = false) ∧
    (let s := late 553648128 (fs [(R.LNK_STATUS 0, F.LNK_STATUS_STATE, lsActive)]); s.lnkState 0 = lsActive ∧
     (s.lane 0 0).failSince + 2 ^ s.fget (R.LNK_STEP_CFG 0) F.LNK_STEP_CFG_WINDOW * s.lnkFrameBeats 0 ≤ s.beats) ∧
    (let m : LinkMsg := ⟨2, 0, 0, true, 0, 0⟩;
     let s : State := { State.reset with ports := [(0, { PortSt.init with software := some m })] };
     (s.port 0).outstanding = none ∧ (s.port 0).devQueue = [] ∧ (s.port 0).software = some m ∧ s.lnkReturnFree 0 = true ∧
     s.lnkV1 0 = false ∧ v1Type m.mtype = true ∧ m.tag = 0) ∧
    (let m : LinkMsg := ⟨2, 0, 0, false, 0, 0⟩;
     let s : State := { State.reset with ports := [(0, { PortSt.init with devQueue := [m] })] };
     (s.port 0).outstanding = none ∧ (s.port 0).devQueue = m :: [] ∧ m.mtype ≠ 5 ∧ m.mtype ≠ 9 ∧ s.lnkReturnFree 0 = true) ∧
    ((fs [(R.LNK_STATUS 0, F.LNK_STATUS_STATE, lsRetStart)]).lnkReturnFree 0 = false ∧ (State.reset.port 0).devQueue = [] ∧
     (State.reset.port 0).software = none) ∧
    (let m : LinkMsg := ⟨2, 0, 1, true, 0, 0⟩;
     let s : State := { fs [(R.LNK_STATUS 0, F.LNK_STATUS_STATE, lsActive)] with beats := 1000000, ports := [(0, { PortSt.init with outstanding := some m })] };
     (s.port 0).outstanding = some m ∧ m.sent + 128 * s.lnkFrameBeats 0 ≤ s.beats ∧ m.resends < 3 ∧
     s.lnkListening 0 = true ∧ m.tag = (1#16).toNat % 256 ∧ m.software = true ∧ m.mtype ≠ 6) ∧
    (let m : LinkMsg := ⟨2, 0, 1, true, 3, 0⟩;
     let s : State := { State.reset with beats := 1000000, ports := [(0, { PortSt.init with outstanding := some m })] };
     (s.port 0).outstanding = some m ∧ m.sent + 128 * s.lnkFrameBeats 0 ≤ s.beats ∧ m.resends = 3 ∧ m.software = true) ∧
    ((fs [(R.LNK_STATUS 0, F.LNK_STATUS_STATE, lsCap)]).lnkState 0 = lsCap ∧
     (fs [(R.LNK_CTRL 0, F.LNK_CTRL_SEND_MSG, 1)]).flag (R.LNK_CTRL 0) F.LNK_CTRL_SEND_MSG = true) ∧
    (State.reset.flag (R.LNK_CTRL 0) F.LNK_CTRL_SEND_MSG = false ∧ State.reset.lnkV1 0 = false) ∧
    (let s : State := { fs [(R.LNK_STATUS 23, F.LNK_STATUS_STATE, lsActive), (R.LNK_CFG 23, ⟨0, 8⟩, 0x80), (R.LNK_LANE_STATUS 23 7, F.LNK_LANE_STATUS_BLOCK_LOCK, 1)] with clk := { ClkSt.init with stage := 0 }, lanes := [(191, { LaneSt.init with inject := 3 })] };
     s.lnkListening 23 = true ∧ s.lnkUsed 23 7 = true ∧ s.flag (R.LNK_LANE_STATUS 23 7) F.LNK_LANE_STATUS_BLOCK_LOCK = true ∧
     (s.lane 23 7).inject = 3 ∧ s.flag (R.LNK_CFG 23) F.LNK_CFG_INJ_ALLOW = false ∧ s.clk.stage = 0 ∧ State.reset.clk.stage ≠ 0 ∧
     s.breach.contains (vLNK 23) = false) ∧
    (let m : LinkMsg := ⟨9, 0, 0, false, 0, 0⟩;
     let s : State := { fs [(R.LNK_STATUS 0, F.LNK_STATUS_VERSION, 1)] with ports := [(0, { PortSt.init with devQueue := [m] })] };
     (s.port 0).outstanding = none ∧ s.lnkReturnFree 0 = true ∧ s.lnkV1 0 = true ∧ v1Type m.mtype = false ∧ v1Type 2 = true ∧
     (s.port 0).devQueue = m :: []) ∧
    (let m : LinkMsg := ⟨2, 0, 1, true, 0, 0⟩;
     let s : State := { fs [(R.LNK_STATUS 0, F.LNK_STATUS_STATE, lsActive)] with ports := [(0, { PortSt.init with outstanding := some m })] };
     s.lnkListening 0 = true ∧ (s.port 0).outstanding = some m ∧ m.tag = (1#16).toNat % 256 ∧ m.software = true ∧ m.mtype ≠ 6 ∧
     s.beats ≤ m.sent + 68 * 66 + 65 * s.lnkFrameBeats 0) :=
  by and_intros <;> decide +kernel

/-- Operands and states that meet what LinkaiBringup assumes. -/
theorem test_meets_LinkaiBringup :
    (let s : State := { State.reset with beats := 12000, ports := [(0, { PortSt.init with attempt := 1 })] };
     s.lnkState 0 = lsDown ∧ (s.port 0).attempt ≠ 0 ∧ (s.port 0).waiting = none ∧ (s.port 0).offSince = some 0 ∧
     0 + 10 * beatsPerUs ≤ s.beats) ∧
    (let s := late (64 * 66) (fs [(R.LNK_STATUS 0, F.LNK_STATUS_STATE, lsRetStart)]); s.lnkState 0 = lsRetStart ∧
     (s.port 0).since + 64 * 66 ≤ s.beats) ∧
    ((fs [(R.LNK_STATUS 0, F.LNK_STATUS_STATE, lsWaitConv)]).lnkState 0 = lsWaitConv ∧
     (fs [(R.LNK_STATUS 0, F.LNK_STATUS_STATE, lsAdapt)]).lnkState 0 = lsAdapt) ∧
    (let s := fs [(R.LNK_STATUS 0, F.LNK_STATUS_STATE, lsLock), (R.LNK_CFG 0, ⟨0, 8⟩, 1), (R.LNK_LANE_STATUS 0 0, F.LNK_LANE_STATUS_BLOCK_LOCK, 1), (R.LNK_LANE_STATUS 0 0, F.LNK_LANE_STATUS_FRAME_LOCK, 1)];
     s.lnkState 0 = lsLock ∧ s.lnkLocked 0 = true ∧ (s.port 0).lockFor = .cap) ∧
    (let s : State := { fs [(R.LNK_STATUS 0, F.LNK_STATUS_STATE, lsLock)] with ports := [(0, { PortSt.init with lockFor := .verify })] };
     s.lnkState 0 = lsLock ∧ s.lnkLocked 0 = true ∧ (s.port 0).lockFor = .verify) ∧
    (let s : State := { fs [(R.LNK_STATUS 0, F.LNK_STATUS_STATE, lsVerify), (R.LNK_CFG 0, ⟨0, 8⟩, 1)] with ports := [(0, { PortSt.init with target := 1 })], lanes := [(0, { LaneSt.init with clean := 4096 })] };
     s.lnkState 0 = lsVerify ∧ (∀ l ∈ s.lnkLanes 0, s.lnkVerifyCount 0 ≤ (s.lane 0 l).clean) ∧
     (s.port 0).stepping = false ∧ (s.port 0).fallback = false ∧ s.speed 0 < (s.port 0).target) ∧
    (let s : State := { fs [(R.LNK_STATUS 0, F.LNK_STATUS_STATE, lsVerify), (R.LNK_CFG 0, ⟨0, 8⟩, 1)] with lanes := [(0, { LaneSt.init with clean := 4096 })] };
     (∀ l ∈ s.lnkLanes 0, s.lnkVerifyCount 0 ≤ (s.lane 0 l).clean) ∧ (s.port 0).stepping = false ∧
     (s.port 0).target ≤ s.speed 0) ∧
    (let s : State := { fs [(R.LNK_STATUS 0, F.LNK_STATUS_STATE, lsVerify), (R.LNK_CFG 0, ⟨0, 8⟩, 1)] with ports := [(0, { PortSt.init with stepping := true })], lanes := [(0, { LaneSt.init with clean := 1024 })] };
     (∀ l ∈ s.lnkLanes 0, s.lnkVerifyCount 0 ≤ (s.lane 0 l).clean) ∧ (s.port 0).stepping = true) ∧
    (let s : State := fs [(R.LNK_STATUS 0, F.LNK_STATUS_STATE, lsStep)]; s.lnkState 0 = lsStep ∧
     (s.port 0).outstanding = none ∧ (s.port 0).devQueue = [] ∧ (s.port 0).wantSpeed = s.speed 0) ∧
    (let s : State := { fs [(R.LNK_STATUS 0, F.LNK_STATUS_STATE, lsAlign)] with ports := [(0, { PortSt.init with indexReady := true })] };
     s.lnkState 0 = lsAlign ∧ (s.port 0).indexReady = true ∧ (s.port 0).recovery = false ∧ s.run.armSince = none ∧
     s.gangCode 0 0 = 0) ∧
    (let s := late 67585 (fs [(R.LNK_STATUS 0, F.LNK_STATUS_STATE, lsCap)]); s.lnkLimit 0 = some 67584 ∧
     (s.port 0).since + 67584 < s.beats ∧ s.lnkState 0 ≠ lsAlign ∧ s.lnkState 0 ≠ lsWaitConv ∧ (s.port 0).stepping = false) ∧
    (let s : State := { late 348001 (fs [(R.LNK_STATUS 0, F.LNK_STATUS_STATE, lsStep)]) with ports := [(0, { PortSt.init with stepping := true })] };
     s.lnkLimit 0 = some (290 * beatsPerUs) ∧ (s.port 0).since + 290 * beatsPerUs < s.beats ∧ (s.port 0).stepping = true ∧
     (late 348000 s).beats ≤ (s.port 0).since + 290 * beatsPerUs) ∧
    (let s := late 120001 (fs [(R.LNK_STATUS 0, F.LNK_STATUS_STATE, lsWaitConv)]); s.lnkState 0 = lsWaitConv ∧
     (s.port 0).stepping = false ∧ (s.port 0).since + 100 * beatsPerUs < s.beats ∧ 10 * beatsPerUs < 12001 ∧
     (s.port 0).since + 12001 ≤ s.beats) ∧
    (let s : State := { State.reset with beats := 120000, ports := [(0, { PortSt.init with waiting := some 0 })] };
     (s.port 0).waiting = some 0 ∧ 0 + 100 * beatsPerUs ≤ s.beats) :=
  by and_intros <;> decide +kernel

/-- Operands and states that meet what LinkaiCommands assumes. -/
theorem test_meets_LinkaiCommands :
    ((fs [(R.LNK_STATUS 0, F.LNK_STATUS_ENABLE, 1)]).lnkEnabled 0 = true ∧ State.reset.lnkEnabled 0 = false ∧
     (inRun 4).runState = 4 ∧ State.reset.runState ≠ 4) ∧
    (let s : State := { State.reset with ports := [(0, { PortSt.init with attempt := 1 })] };
     s.lnkState 0 = lsDown ∧ (s.port 0).attempt ≠ 0 ∧ (State.reset.port 0).attempt = 0) ∧
    (let s := fs [(R.LNK_CFG 0, F.LNK_CFG_INJ_ALLOW, 1), (R.LNK_INJ 0 0, F.LNK_INJ_MODE, 4)];
     s.flag (R.LNK_CFG 0) F.LNK_CFG_INJ_ALLOW = true ∧ s.fget (R.LNK_INJ 0 0) F.LNK_INJ_MODE = 4) ∧
    (State.reset.flag (R.LNK_CTRL 0) F.LNK_CTRL_BRINGUP = false ∧
     State.reset.flag (R.LNK_CTRL 0) F.LNK_CTRL_FWD_WAKE = false) ∧
    (let s := fs [(R.LNK_STATUS 0, F.LNK_STATUS_STATE, lsActive)]; s.flag (R.LNK_CTRL 0) F.LNK_CTRL_DROP = false ∧
     s.lnkState 0 = lsActive ∧ s.lnkV1 0 = false ∧ s.lnkEnabled 0 = false ∧
     s.flag (R.LNK_CTRL 0) F.LNK_CTRL_FWD_DOZE = false ∧ s.flag (R.LNK_CTRL 0) F.LNK_CTRL_FWD_OFF = false) ∧
    ((fs [(R.LNK_STATUS 0, F.LNK_STATUS_FWD_PWR, 1)]).fget (R.LNK_STATUS 0) F.LNK_STATUS_FWD_PWR = 1 ∧
     (fs [(R.LNK_STATUS 0, F.LNK_STATUS_FWD_PWR, 2)]).fget (R.LNK_STATUS 0) F.LNK_STATUS_FWD_PWR = 2) ∧
    (let s := fs [(R.LNK_STATUS 0, F.LNK_STATUS_RET_PWR, 0)]; s.fget (R.LNK_STATUS 0) F.LNK_STATUS_RET_PWR = 0 ∧
     s.lnkV1 0 = false ∧ s.flag (R.LNK_CTRL 0) F.LNK_CTRL_RET_DOZE = false ∧
     s.flag (R.LNK_CTRL 0) F.LNK_CTRL_RET_OFF = false) ∧
    (let s := fs [(R.LNK_STATUS 0, F.LNK_STATUS_STATE, lsPrbs), (R.LNK_PRBS_CTRL 0 0, F.LNK_PRBS_CTRL_CHK_EN, 1)];
     s.lnkState 0 = lsPrbs ∧ s.lnkEnabled 0 = false ∧ s.flag (R.LNK_PRBS_CTRL 0 0) F.LNK_PRBS_CTRL_CHK_EN = true) ∧
    (State.reset.flag (R.LNK_CFG 0) F.LNK_CFG_INJ_ALLOW = false) ∧
    (let s := fs [(R.LNK_CFG 0, F.LNK_CFG_INJ_ALLOW, 1), (R.LNK_INJ 0 0, F.LNK_INJ_MODE, 5), (R.LNK_INJ 0 7, F.LNK_INJ_MODE, 3)];
     s.flag (R.LNK_CFG 0) F.LNK_CFG_INJ_ALLOW = true ∧ 5 ≤ s.fget (R.LNK_INJ 0 0) F.LNK_INJ_MODE ∧
     s.fget (R.LNK_INJ 0 7) F.LNK_INJ_MODE = 3) ∧
    (State.reset.runState ≠ 4 ∧ State.reset.flag (R.LNK_CTRL 0) F.LNK_CTRL_DROP = false ∧
     State.reset.lnkState 0 ≠ lsActive ∧ State.reset.breach.contains (vLNK 0) = false) ∧
    (let s := fs [(R.LNK_STATUS 0, F.LNK_STATUS_STATE, lsSleep), (R.LNK_STATUS 0, F.LNK_STATUS_FWD_PWR, 1)];
     s.lnkState 0 = lsSleep ∧ s.fget (R.LNK_STATUS 0) F.LNK_STATUS_FWD_PWR = 1 ∧ s.lnkEnabled 0 = false ∧
     s.flag (R.LNK_CTRL 0) F.LNK_CTRL_FWD_WAKE = false) ∧
    (let s := fs [(R.LNK_STATUS 0, F.LNK_STATUS_FWD_PWR, 2)]; s.fget (R.LNK_STATUS 0) F.LNK_STATUS_FWD_PWR ≠ 0 ∧
     ¬(s.fget (R.LNK_STATUS 0) F.LNK_STATUS_FWD_PWR = 1 ∧ s.lnkState 0 = lsSleep)) ∧
    (let s := fs [(R.LNK_STATUS 0, F.LNK_STATUS_VERSION, 1), (R.LNK_STATUS 0, F.LNK_STATUS_RET_PWR, 0)];
     s.lnkV1 0 = true ∧ s.fget (R.LNK_STATUS 0) F.LNK_STATUS_RET_PWR = 0 ∧
     s.flag (R.LNK_CTRL 0) F.LNK_CTRL_RET_DOZE = false ∧ s.flag (R.LNK_CTRL 0) F.LNK_CTRL_RET_OFF = false) :=
  by and_intros <;> decide +kernel

/-- Operands and states that meet what ConditionersAndReeds assumes. -/
theorem test_meets_ConditionersAndReeds :
    (State.reset.runState ≠ 3 ∧ (State.reset.cch 191).store = [] ∧ (State.reset.cch 191).capture = []) ∧
    (let y : Samp := ⟨2560, 0, 0, false, false, 0, 1⟩;
     let s : State := { State.reset with cond := { CondSt.init with chans := [(0, { CondCh.init with store := [y] })] } };
     (s.cch 0).store = y :: [] ∧ (s.wt : Int) < y.stamp / 256 + s.lambda 0) ∧
    (let y : Samp := ⟨0, 0, 0, false, false, 0, 1⟩;
     let s : State := { State.reset with cond := { CondSt.init with chans := [(0, { CondCh.init with store := [y] })] } };
     (s.cch 0).store = y :: [] ∧ y.stamp / 256 + s.lambda 0 ≤ (s.wt : Int) ∧
     s.flag (R.CND_CH_CFG 0 0) F.CND_CH_CFG_EN = false) ∧
    (let y : Samp := ⟨0, 0, 0, false, false, 0, 1⟩;
     let s : State := { fs [(R.CND_CH_CFG 0 0, F.CND_CH_CFG_EN, 1)] with cond := { CondSt.init with chans := [(0, { CondCh.init with store := [y] })] } };
     y.stamp / 256 + s.lambda 0 ≤ (s.wt : Int) ∧ s.flag (R.CND_CH_CFG 0 0) F.CND_CH_CFG_EN = true ∧ s.runState ≠ 3) ∧
    (let y : Samp := ⟨0, 0, 0, false, false, 0, 1⟩;
     let s : State := { ((inRun 3).fset (R.CND_CH_CFG 0 0) F.CND_CH_CFG_EN 1) with beats := 5, run := { RunSt.init with startBeat := 9 }, cond := { CondSt.init with chans := [(0, { CondCh.init with store := [y] })] } };
     y.stamp / 256 + s.lambda 0 ≤ (s.wt : Int) ∧ s.flag (R.CND_CH_CFG 0 0) F.CND_CH_CFG_EN = true ∧ s.runState = 3 ∧
     s.analysed (s.takenAt y.stamp) = false) ∧
    (let w : CapWord := ⟨1, false, 0, ⟨0, 0, 0, 0, 0, 0, false, false, false, false, 0⟩⟩;
     let s : State := { State.reset with cond := { CondSt.init with chans := [(0, { CondCh.init with capture := [w] })] } };
     (s.cch 0).capture = w :: [] ∧ s.beats < w.due ∧ w.due ≤ (late 1 s).beats) ∧
    ((fs [(R.CND_STATUS 0, F.CND_STATUS_ENABLE, 1)]).egShut (vCND 0) = true ∧ State.reset.egShut (vCND 0) = false ∧
     (1#32).toNat % 2 ^ 18 ≠ State.reset.coefWord 0 0 0 ∧ (1#32).toNat < 2 ^ 18 ∧
     State.reset.bit (R.CND_STATUS 0) (4 + 3) = false ∧ 2 ^ 18 ≤ (0x40000#32).toNat ∧
     State.reset.breach.contains (vCND 0) = false) ∧
    ((State.reset.strm 191).pend = []) ∧
    (let w : PendWin := ⟨0, true, 0, 1, 0, 0, 0, 0, false, false, false, 0, 0, []⟩;
     let s : State := { State.reset with spec := { SpecSt.init with streams := [(0, { StreamRt.init with pend := [w] })] } };
     (s.strm 0).pend = w :: [] ∧ s.beats < w.due ∧ w.due ≤ (late 1 s).beats ∧ w.placed = true ∧
     ({ w with placed := false } : PendWin).placed = false) ∧
    (State.reset.fget (R.SPC_WIN_ADDR 0) F.SPC_WIN_ADDR_TABLE = 0 ∧
     State.reset.fget (R.SPC_WIN_ADDR 0) F.SPC_WIN_ADDR_ENTRY = 0 ∧
     (1#32).toNat % 2 ^ 18 ≠ State.reset.tableEntry 0 0 0 ∧ State.reset.egShut (vSPC 0) = false ∧
     State.reset.bit (R.SPC_STATUS 0) (4 + 0) = false) ∧
    ((fs [(R.SPC_STATUS 0, F.SPC_STATUS_ENABLE, 1)]).egShut (vSPC 0) = true) ∧
    ((0#32).toNat % 16 = State.reset.fget (R.SPC_RETIRE 0) F.SPC_RETIRE_RETIRE ∧
     (15#32).toNat % 16 ≠ State.reset.fget (R.SPC_RETIRE 0) F.SPC_RETIRE_RETIRE) :=
  by and_intros <;> decide +kernel

/-- Operands and states that meet what ConditionerArithmetic assumes. -/
theorem test_meets_ConditionerArithmetic :
    (1 ≤ 1 ∧ 1 ≤ [(3 : Int)].length ∧ (1 : Nat) ≠ 0) ∧
    (2 * ((1 : Int) - roundConv 1 1 * 2 ^ 1).natAbs = 2 ^ 1) ∧
    (let s := State.reset; (s.calFor 0 0).1 = 0 ∧ (s.calFor 0 0).2 = 65536 ∧ s.breach.contains (vCND (0 / 8)) = false ∧
     (s.run.startBeat : Int) ≤ 0 / 256) :=
  by and_intros <;> decide +kernel

/-- Operands and states that meet what PlacementHoldsLimits assumes. -/
theorem test_meets_PlacementHoldsLimits :
    (let xs : List AllocStream := [⟨0, 5 * oneSlot, 0, 64, false⟩, ⟨1, oneSlot, 0, 64, true⟩];
     (∀ y ∈ xs, y.mem ≤ 32768 ∧ y.load ≤ 8 * oneSlot) ∧
     (match allocate (fun r => r == 3) xs 25 with | .ok p => p.2 == xs | .error _ => false) = true) ∧
    (let xs : List AllocStream := [⟨0, 5 * oneSlot, 0, 64, false⟩, ⟨1, 2 * oneSlot, 2, 64, false⟩];
     (∀ y ∈ xs, y.mem ≤ 32768 ∧ y.load ≤ 8 * oneSlot) ∧
     (match allocate (fun r => r == 3) xs 25 with | .ok p => p.2 != xs | .error _ => false) = true) :=
  by and_intros <;> decide +kernel

/-- Operands and states that meet what TriggerCommands assumes. -/
theorem test_meets_TriggerCommands :
    (State.reset.flag (R.TRD_LIT_A 63 7) F.TRD_LIT_A_EN = false) ∧
    (let s := fs [(R.TRD_OUT_CFG 15, F.TRD_OUT_CFG_MODE, 1)]; s.flag (R.TRD_OUT_CFG 15) F.TRD_OUT_CFG_MODE = true ∧
     Tab.get (fun _ => 0) s.trd.pulses 15 ≤ s.beats) ∧
    (nbit (State.reset.fget R.TRD_IN_CFG F.TRD_IN_CFG_EN) 7 = false ∧ State.reset.bankLost 4 = false) ∧
    (nbit ((fs [(R.TRD_IN_CFG, F.TRD_IN_CFG_EN, 0x80)]).fget R.TRD_IN_CFG F.TRD_IN_CFG_EN) 7 = true ∧
     nbit State.reset.trd.inPins 7 = false ∧ (State.reset.bitOn R.PWR_VIO_STATUS 28).bankLost 4 = true) ∧
    (let s : State := { inRun 3 with trd := { TrdSt.init with maskRise := some (0, 1) } };
     s.trd.maskRise = some (0, 1) ∧ s.beats < 0 + 16 ∧ 0 + 16 ≤ (late 16 s).beats ∧ (late 16 s).runState = 3 ∧
     (late 16 s).maskAwaits 0 = false) ∧
    ((State.reset.copy 2).bad = 0) ∧
    (let s : State := { State.reset with trd := { TrdSt.init with copies := [(2, ⟨4096, 0⟩)] } }; (s.copy 2).bad ≠ 0 ∧
     (s.copy 2).lastBad = s.beats ∧ 4096 ≤ (s.copy 2).bad ∧ s.beats ≤ (s.copy 2).lastBad + 1 ∧
     s.bit R.TRD_STATUS (2 + 2) = false) ∧
    (let s : State := { (State.reset.bitOn R.TRD_STATUS 4) with beats := 4096 }; s.bit R.TRD_STATUS (2 + 2) = true ∧
     (s.copy 2).lastBad + 4096 ≤ s.beats) ∧
    (State.reset.beats < (State.reset.copy 0).lastBad + 4096) :=
  by and_intros <;> decide +kernel

/-- Operands and states that meet what MatrixIsSumOfProducts assumes. -/
theorem test_meets_MatrixIsSumOfProducts :
    (inRun 3).runState = 3 ∧ (inRun 4).runState = 4 ∧ State.reset.runState ≠ 3 := by decide +kernel

/-- Operands and states that meet what ShedCommands assumes. -/
theorem test_meets_ShedCommands :
    (¬((State.reset.runState = 2 ∨ State.reset.runState = 3) ∧ (State.reset.shedState 0 = 0 ∨ State.reset.shedState 0 = 6))) ∧
    (let s := (((inRun 2).bitOn (R.TRD_SHED_CHMASK 63 5) 31).bitOn (R.BOB_RING_CFG 191) 0).wr (R.BOB_RING_SIZE 191) 2#32;
     s.runState = 2 ∧ s.shedState 63 = 0 ∧ s.shedChans 63 = [191] ∧
     (∀ c ∈ s.shedChans 63, s.shedNeeds 63 c ≤ s.ringHolds c)) ∧
    (let s := (inRun 3).fset (R.TRD_SHED_STATUS 0) F.TRD_SHED_STATUS_STATE 6; s.runState = 3 ∧ s.shedState 0 = 6 ∧
     s.shedChans 0 = []) ∧
    (let s := (inRun 3).bitOn (R.TRD_SHED_CHMASK 0 0) 0; s.shedChans 0 = [0] ∧ s.ringHolds 0 < s.shedNeeds 0 0) ∧
    (let s := late 1 (fs [(R.TRD_SHED_STATUS 0, F.TRD_SHED_STATUS_STATE, 3)]); s.shedAtStart 0 = 3 ∧
     s.shedState 0 = 3 ∧ s.shedState 0 ≠ 4) ∧
    (let s := fs [(R.TRD_SHED_STATUS 0, F.TRD_SHED_STATUS_STATE, 2)]; s.shedState 0 = 2 ∧ s.prefilled 0 = true ∧
     s.shedState 0 ≠ 3) ∧
    (let s := late 1 (fs [(R.TRD_SHED_STATUS 0, F.TRD_SHED_STATUS_STATE, 4)]); s.shedState 0 = 4 ∧
     (s.shed 0).firedBeat < s.beats ∧ s.postReleased 0 = true) ∧
    (let s := fs [(R.TRD_SHED_STATUS 0, F.TRD_SHED_STATUS_STATE, 5)]; s.shedState 0 = 5 ∧ s.holdMet 0 = true) ∧
    (State.reset.fget (R.STR_MASK_ADDR 0) F.STR_MASK_ADDR_ENTRY = 0 ∧ State.reset.maskEntry 0 0 ≠ 1#32 ∧
     State.reset.egShut (vSTR 0) = false) ∧
    ((fs [(R.STR_MASK_ADDR 0, F.STR_MASK_ADDR_ENTRY, 32767)]).fget (R.STR_MASK_ADDR 0) F.STR_MASK_ADDR_ENTRY = 32767) ∧
    ((fs [(R.STR_STATUS 0, F.STR_STATUS_ENABLE, 1)]).egShut (vSTR 0) = true) ∧
    ((State.reset.shed 0).disarmAt ≠ some State.reset.beats ∧
     ({ State.reset with trd := { TrdSt.init with sheds := [(0, { ShedSt.init with disarmAt := some 0 })] } } : State).shed 0 = { ShedSt.init with disarmAt := some 0 }) ∧
    (({ State.reset with trd := { TrdSt.init with fired := [63] } } : State).trd.fired ≠ []) ∧
    (State.reset.bridgeReady.maskEntry 0 0 ≠ 1#32) :=
  by and_intros <;> decide +kernel

/-- Operands and states that meet what PrimitiveUnit assumes. -/
theorem test_meets_PrimitiveUnit :
    (fieldOf (setField 0#32 F.STR_PRIM_CFG_KIND 2) F.STR_PRIM_CFG_KIND = 2 ∧
     fieldOf (setField 0#32 F.STR_PRIM_CFG_QUAL 3) F.STR_PRIM_CFG_QUAL = 3) ∧
    ((primStep (setField 0#32 F.STR_PRIM_CFG_KIND 1) 0#32 0#32 0 0 { PrimSt.init with st := 1 } ⟨0, 0, 0, false⟩).1.st = 2) ∧
    (let p : PrimSt := { PrimSt.init with st := 2, taint := true }; p.st = 2 ∧ p.taint = true ∧
     (⟨0, 0, 0, true⟩ : PrimVal).taint = true) :=
  by and_intros <;> decide +kernel

/-- Operands and states that meet what BobbinUpkeep assumes. -/
theorem test_meets_BobbinUpkeep :
    (let s : State := { State.reset with beats := 65536, bob := { BobSt.init with rings := [(0, { RingSt.init with buf := [0#8], since := [0] })] } };
     (s.ring 0).buf ≠ [] ∧ (s.ring 0).since.headD s.beats + 65536 ≤ s.beats ∧ (s.ring 0).buf.length < s.unitRoom 0) ∧
    (State.reset.beats < (State.reset.ring 0).since.headD State.reset.beats + 65536 ∧ (State.reset.ring 0).buf.length < State.reset.unitRoom 0) ∧
    (let s : State := { State.reset with bob := { BobSt.init with rings := [(0, { RingSt.init with buf := List.replicate 256 0#8 })] } };
     s.unitRoom 0 ≤ (s.ring 0).buf.length) ∧
    (State.reset.flag R.BOB_LOOKUP_CTRL F.BOB_LOOKUP_CTRL_GO = false ∧
     (fs [(R.BOB_LOOKUP_CTRL, F.BOB_LOOKUP_CTRL_GO, 1)]).flag R.BOB_LOOKUP_CTRL F.BOB_LOOKUP_CTRL_GO = true) ∧
    (({ State.reset with bob := { BobSt.init with lookup := some ⟨0, 0⟩ } } : State).bob.lookup = some ⟨0, 0⟩) ∧
    (let s : State := { fs [(R.BOB_SR_STATUS 0, F.BOB_SR_STATUS_STATE, srActive)] with bob := { BobSt.init with pcs := [(0, { PcSt.init with queue := [⟨.builder, 2, false, 0, 256, 0, [], 0, 0, none⟩], owed := [(0, 8)] })] } };
     s.srState 0 = srActive ∧
     (s.pc 0).queue.any (fun r => decide (r.unit % 48 = 0) && decide (s.classNow r ≤ 3)) = true ∧
     Tab.get (fun _ => 0) (s.pc 0).owed 0 = 8 ∧ Tab.get (fun _ => 0) (s.pc 0).owed 1 = 0) ∧
    (State.reset.fget R.BOB_CFG F.BOB_CFG_HOT_C ≤ (127#8).toNat ∧
     (0#8).toNat + 3 ≤ State.reset.fget R.BOB_CFG F.BOB_CFG_HOT_C) ∧
    (let h := State.reset.fget R.BOB_CFG F.BOB_CFG_HOT_C; h - 1 < h ∧ h < h - 1 + 3 ∧ h < 128) ∧
    ((fs [(R.BOB_SCRUB_CFG, F.BOB_SCRUB_CFG_HOURS, 0)]).fget R.BOB_SCRUB_CFG F.BOB_SCRUB_CFG_HOURS = 0) ∧
    (let s := fs [(R.BOB_SCRUB_CFG, F.BOB_SCRUB_CFG_HOURS, 1), (R.BOB_HOST, F.BOB_HOST_GIB, 4)];
     s.fget R.BOB_SCRUB_CFG F.BOB_SCRUB_CFG_HOURS ≠ 0 ∧ s.bob.patrol < s.hostBytes / 256 ∧
     (s.hbmUnit (s.hostBase + 256 * s.bob.patrol)).isSome = true) ∧
    (State.reset.srState 0 = srActive ∧
     (fs [(R.BOB_SR_STATUS 0, F.BOB_SR_STATUS_STATE, srRefresh)]).srState 0 ≠ srActive) ∧
    (State.reset.atRest = true ∧ (inRun 3).atRest = false ∧ State.reset.fget (R.BOB_SR_CFG 0) F.BOB_SR_CFG_FSEL ≠ 3 ∧
     (fs [(R.BOB_SR_CFG 0, F.BOB_SR_CFG_FSEL, 3)]).fget (R.BOB_SR_CFG 0) F.BOB_SR_CFG_FSEL = 3) ∧
    (let s := late 1000000000000 (fs [(R.BOB_SR_CFG 0, F.BOB_SR_CFG_AUTO, 1)]);
     s.flag (R.BOB_SR_CFG 0) F.BOB_SR_CFG_AUTO = true ∧ s.srState 0 = srActive ∧
     (s.stack 0).idleSince + max 1 (s.fget (R.BOB_SR_CFG 0) F.BOB_SR_CFG_IDLE_BEATS) ≤ s.beats) ∧
    (State.reset.flag (R.BOB_SR_CFG 0) F.BOB_SR_CFG_AUTO = false) ∧
    (let s := fs [(R.BOB_SR_STATUS 0, F.BOB_SR_STATUS_STATE, srPending)]; s.srState 0 = srPending ∧
     s.stackIdle 0 = true ∧ (∀ j, j < 64 → s.shedArmed j = false)) ∧
    ((fs [(R.TRD_SHED_STATUS 63, F.TRD_SHED_STATUS_STATE, 3)]).shedArmed 63 = true) ∧
    ((fs [(R.BOB_SR_STATUS 0, F.BOB_SR_STATUS_STATE, srEntering)]).srState 0 = srEntering) ∧
    (let s : State := { fs [(R.BOB_SR_STATUS 0, F.BOB_SR_STATUS_STATE, srRefresh)] with beats := 96, clk := { ClkSt.init with stage := 0 }, bob := { BobSt.init with stackSt := [(0, { StackSt.init with exitWanted := true })] } };
     s.srState 0 = srRefresh ∧ (s.stack 0).since + 96 ≤ s.beats ∧ (s.stack 0).exitWanted = true ∧ s.clk.stage = 0) ∧
    (let s : State := { fs [(R.BOB_SR_STATUS 0, F.BOB_SR_STATUS_STATE, srSwitch)] with bob := { BobSt.init with stackSt := [(0, { StackSt.init with freqWanted := some 1 })] } };
     (s.stack 0).freqWanted = some 1 ∧ s.srState 0 = srSwitch ∧ s.beats < (s.stack 0).since + 96 ∧
     (s.stack 0).since + 96 ≤ (late 96 s).beats) ∧
    (let s := late 480 (fs [(R.BOB_SR_STATUS 0, F.BOB_SR_STATUS_STATE, srExiting)]); s.srState 0 = srExiting ∧
     (s.stack 0).since + 480 ≤ s.beats ∧ s.run.armSince = none ∧ State.reset.beats < (State.reset.stack 0).since + 96) :=
  by and_intros <;> decide +kernel

/-- Operands and states that meet what HbmRequests assumes. -/
theorem test_meets_HbmRequests :
    (let s := fs [(R.BOB_HOST, F.BOB_HOST_GIB, 4)]; (s.hbmUnit 0).isSome = true ∧ s.hbmUnit 0xFFFFFFFFF = none) ∧
    ((fs [(R.BOB_SR_STATUS 0, F.BOB_SR_STATUS_STATE, srRefresh)]).srState 0 ≠ srActive ∧
     (fs [(R.BOB_SR_STATUS 0, F.BOB_SR_STATUS_STATE, srRefresh)]).srState 0 ≠ srPending ∧
     State.reset.pcNext 0 1#48 = none) ∧
    (let r : HbmReq := ⟨.capture, 1, true, 0, 32, 0, [], 0, 0, none⟩;
     let s : State := { State.reset with bob := { BobSt.init with pcs := [(0, { PcSt.init with queue := [r], pickedAt := some 0 })] } };
     s.srState 0 = srActive ∧ (s.pc 0).pickedAt = some s.beats ∧ s.pcNext 0 1#48 = some (0, r)) ∧
    (let a : HbmReq := ⟨.builder, 3, false, 0, 32, 0, [], 0, 0, none⟩;
     let b : HbmReq := ⟨.capture, 1, true, 0, 32, 1, [], 0, 0, none⟩;
     let s : State := { State.reset with bob := { BobSt.init with pcs := [(0, { PcSt.init with queue := [a, b] })] } };
     s.pcNext 0 3#48 = some (1, b) ∧ (3#48).getLsbD 0 = true ∧ s.bankNext 0 0 = some a) ∧
    (let r : HbmReq := ⟨.capture, 1, true, 0, 32, 0, [], 0, 0, none⟩;
     let s : State := { State.reset with bob := { BobSt.init with pcs := [(0, { PcSt.init with queue := [r] })] } };
     s.srState 0 = srActive ∧ (s.pc 0).pickedAt ≠ some s.beats ∧ s.pcNext 0 1#48 = some (0, r) ∧ r.write = true ∧
     r.who ≠ .hitch ∧ r.who ≠ .writeBack ∧ r.data.length ≠ 256) ∧
    (let r : HbmReq := ⟨.hitch, 4, true, 0, 32, 0, [], 0, 0, none⟩;
     let s : State := { State.reset with bob := { BobSt.init with pcs := [(0, { PcSt.init with queue := [r] })] } };
     s.pcNext 0 1#48 = some (0, r) ∧ r.write = true ∧ r.who = .hitch ∧ r.data.length ≠ 256) ∧
    (let r : HbmReq := ⟨.hitch, 4, false, 0, 32, 0, [], 0, 0, none⟩;
     let s : State := { State.reset with bob := { BobSt.init with pcs := [(0, { PcSt.init with queue := [r] })] } };
     s.pcNext 0 1#48 = some (0, r) ∧ r.write = false ∧ r.who = .hitch ∧ r.off < s.hostBase ∧
     (s.pc 0).lost.contains r.unit = false) ∧
    (let r : HbmReq := ⟨.hitch, 4, false, 0, 32, 0, [], 0, 0, none⟩;
     let s : State := { State.reset with bob := { BobSt.init with pcs := [(0, { PcSt.init with queue := [r], lost := [0] })] } };
     s.pcNext 0 1#48 = some (0, r) ∧ r.write = false ∧ r.who = .hitch ∧ (s.pc 0).lost.contains r.unit = true ∧
     (0 : Fin 5) ≠ 1) ∧
    (let r : HbmReq := ⟨.builder, 3, false, 0, 32, 0, [], 0, 0, none⟩;
     let s : State := { State.reset with bob := { BobSt.init with pcs := [(0, { PcSt.init with queue := [r] })] } };
     s.pcNext 0 1#48 = some (0, r) ∧ r.write = false ∧ r.who = .builder ∧ (s.pc 0).lost.contains r.unit = false) :=
  by and_intros <;> decide +kernel

/-- Operands and states that meet what HbmLayoutOneToOne assumes. -/
theorem test_meets_HbmLayoutOneToOne :
    let s := fs [(R.BOB_HOST, F.BOB_HOST_GIB, 8)]; s.bob.hostMask = 2 ^ 32 - 1 ∧ s.hostBytes ≤ stack1Base ∧
    s.hbmCell 0 ≠ none := by decide +kernel

/-- Operands and states that meet what DensityFrames assumes. -/
theorem test_meets_DensityFrames :
    (let s := (inRun 3).fset (R.TAP_PL_CFG 0) F.TAP_PL_CFG_EN 1; s.runState = rsRunning ∧ s.planeOn 0 = true ∧
     s.fget (R.TAP_PL_CFG 0) F.TAP_PL_CFG_FSRC = 0 ∧ (s.plane 0).nextBoundary ≤ s.beats) ∧
    (({ State.reset with tap := ⟨[(15, { PlaneSt.init with nextBoundary := 1 })]⟩ } : State).beats < (({ State.reset with tap := ⟨[(15, { PlaneSt.init with nextBoundary := 1 })]⟩ } : State).plane 15).nextBoundary) ∧
    (let s := ((inRun 3).fset (R.TAP_PL_CFG 15) F.TAP_PL_CFG_EN 1).fset (R.TAP_PL_CFG 15) F.TAP_PL_CFG_FSRC 3;
     s.runState = rsRunning ∧ s.planeOn 15 = true ∧ s.fget (R.TAP_PL_CFG 15) F.TAP_PL_CFG_FSRC = 3) ∧
    (let s : State := { State.reset with tap := ⟨[(0, { PlaneSt.init with frame := some (FrameCnt.init 0 0 false) })]⟩ };
     (s.plane 0).frame = some (FrameCnt.init 0 0 false) ∧ (s.plane 0).closing = none ∧ (s.plane 0).sweep = none ∧
     s.bit R.GLB_DEGRADE dgThermal = s.flag (R.TAP_PL_STATUS 0) F.TAP_PL_STATUS_HALF_RATE) ∧
    (let cf : ClosingFrame := ⟨FrameCnt.init 0 0 false, 0, false, false, 0#32, 0#32, 0#32⟩;
     let s : State := { State.reset with tap := ⟨[(0, { PlaneSt.init with frame := some (FrameCnt.init 1 0 false), closing := some cf })]⟩ };
     (s.plane 0).frame = some (FrameCnt.init 1 0 false) ∧ (s.plane 0).closing = some cf ∧
     (s.plane 0).frameAbsorbed cf.cnt.number = true ∧ cf.cnt.drop = 0 ∧
     ({ (s.plane 0) with queue := [(0, 0, 0)] } : PlaneSt).frameAbsorbed cf.cnt.number = false) ∧
    ((State.reset.plane 0).closing = none ∧ (State.reset.plane 0).stopped = none ∧ (State.reset.plane 0).sweep = none) ∧
    (let cf : ClosingFrame := ⟨FrameCnt.init 0 0 false, 0, false, false, 0#32, 0#32, 0#32⟩;
     let s : State := { State.reset with tap := ⟨[(0, { PlaneSt.init with sweep := some ⟨cf, 2 ^ 20, [], none⟩, zeroUntil := some 5, stopped := some cf })]⟩ };
     (s.plane 0).sweep = some ⟨cf, 2 ^ 20, [], none⟩ ∧ s.planeCols 0 * s.planeRows 0 ≤ 2 ^ 20 ∧
     (let u := fs [(R.TAP_PL_GEOM 0, F.TAP_PL_GEOM_COLS16, 1), (R.TAP_PL_GEOM 0, F.TAP_PL_GEOM_ROWS16, 1)];
      255 < u.planeCols 0 * u.planeRows 0) ∧ (s.plane 0).zeroUntil ≠ none ∧
     (s.plane 0).stopped = some cf) ∧
    (let cf : ClosingFrame := ⟨FrameCnt.init 0 0 false, 0, false, false, 0#32, 0#32, 0#32⟩;
     State.reset.planeStalls 0 ⟨cf, 2 ^ 20, [], none⟩ = false ∧ State.reset.planeStalls 0 ⟨cf, 0, [], some ⟨0, 0, []⟩⟩ = true ∧
     fieldOf cf.persist F.TAP_PL_PERSIST_EVERY = 0 ∧ autoLoads cf.map 0 = false) :=
  by and_intros <;> decide +kernel

/-- Operands and states that meet what SpectrumCountsOnce assumes. -/
theorem test_meets_SpectrumCountsOnce :
    (let s : State := { fs [(R.TAP_PL_GEOM 0, F.TAP_PL_GEOM_COLS16, 1), (R.TAP_PL_GEOM 0, F.TAP_PL_GEOM_ROWS16, 1)] with tap := ⟨[(0, { PlaneSt.init with frame := some (FrameCnt.init 0 0 false) })]⟩ };
     (s.plane 0).frame = some (FrameCnt.init 0 0 false) ∧ s.flag (R.TAP_PL_CFG 0) F.TAP_PL_CFG_TAINT_SKIP = false ∧
     (s.plane 0).queued + s.planeCols 0 ≤ 16384 ∧ 0 < s.planeRows 0 ∧ (s.plane 0).closing = none ∧
     s.flag (R.TAP_PL_CFG 0) F.TAP_PL_CFG_UNDER = false ∧ s.flag (R.TAP_PL_CFG 0) F.TAP_PL_CFG_OVER = false ∧
     s.columnRows 0 [] ≠ [] ∧ (s.plane 0).acc = [] ∧ 0 + ([] : List (Nat × Nat × Nat)).length ≤ maxCount) ∧
    (let s : State := { fs [(R.TAP_PL_GEOM 0, F.TAP_PL_GEOM_COLS16, 1)] with tap := ⟨[(0, { PlaneSt.init with frame := some (FrameCnt.init 0 0 false), queue := List.replicate 16384 (0, 0, 0) })]⟩ };
     16384 < (s.plane 0).queued + s.planeCols 0) ∧
    (let f : FormSpec := ⟨0, 0, 1, none, []⟩; nbit f.flags 0 = true ∧
     (fs [(R.TAP_PL_CFG 0, F.TAP_PL_CFG_TAINT_SKIP, 1)]).flag (R.TAP_PL_CFG 0) F.TAP_PL_CFG_TAINT_SKIP = true) :=
  by and_intros <;> decide +kernel

/-- Operands and states that meet what PaletteAndDecay assumes. -/
theorem test_meets_PaletteAndDecay :
    fieldOf (setField 0#32 F.TAP_PL_PERSIST_MODE 2) F.TAP_PL_PERSIST_MODE = 2 ∧ 0 < 1 ∧ 2 ≤ 2 := by decide +kernel

/-- Operands and states that meet what DisplayCommands assumes. -/
theorem test_meets_DisplayCommands :
    (State.reset.flag R.PNL_STATUS F.PNL_STATUS_ENABLE = false ∧
     (∀ u, u ∈ State.reset.usedOutputs → State.reset.outputFits u.1 u.2 = true)) ∧
    (let s := fs [(R.PNL_CFG, F.PNL_CFG_OUT_EN, 3), (R.PNL_PCLK 0, F.PNL_PCLK_KHZ, 25000), (R.PNL_PCLK 1, F.PNL_PCLK_KHZ, 200000)];
     s.fget R.PNL_CFG F.PNL_CFG_OUT_EN ≠ 0 ∧ s.independent = false ∧
     (∀ u, u ∈ s.usedOutputs → s.outputFits u.1 u.2 = true)) ∧
    ((fs [(R.PNL_CFG, F.PNL_CFG_MODE, 1), (R.PNL_CFG, F.PNL_CFG_OUT_EN, 2)]).independent = true ∧
     (fs [(R.PNL_CFG, F.PNL_CFG_MODE, 1), (R.PNL_CFG, F.PNL_CFG_OUT_EN, 2)]).fget R.PNL_CFG F.PNL_CFG_OUT_EN = 2 ^ 1) ∧
    (let s := fs [(R.PNL_CFG, F.PNL_CFG_OUT_EN, 1), (R.PNL_PCLK 0, F.PNL_PCLK_KHZ, 24999)]; (0, 0) ∈ s.usedOutputs ∧
     s.outputFits 0 0 = false) ∧
    ((fs [(R.PNL_STATUS, F.PNL_STATUS_ENABLE, 1)]).flag R.PNL_STATUS F.PNL_STATUS_ENABLE = true) ∧
    (let s : State := { State.reset with pnl := { PnlSt.init with outputs := [(0, { OutputSt.init with running := true })] } };
     (s.output 0).running = true ∧ (s.output 0).stopAsked = false ∧ (s.output 0).composed = false ∧
     (s.output 0).front < 2 ∧ s.clk.stage ≠ 0 ∧
     ({ s with clk := { ClkSt.init with stage := 0 } } : State).clk.stage = 0 ∧
     (∀ k, k < 8 → s.layerKind (s.output 0).snap 0 k = 0) ∧ s.independent = false ∧
     (s.output 0).snap.layer 0 = ((s.output 0).snap.layer 1) ∧
     ((⟨0#32, 0#32, 0#32, 4, 0#32⟩ : LayerSet).base ≠ ((s.output 0).snap.layer 0).base)) ∧
    ((∀ i, i < 2 → (State.reset.output i).running = false) ∧ (State.reset.output 1).commit = none) ∧
    (let s : State := { State.reset with pnl := { PnlSt.init with outputs := [(1, { OutputSt.init with running := true, stopAsked := true, composed := true, commit := some ⟨Snapshot.init, false, 0, true⟩ })] } };
     (s.output 1).running = true ∧ (s.output 1).stopAsked = true ∧ (s.output 1).composed = true ∧
     (s.output 1).commit = some ⟨Snapshot.init, false, 0, true⟩) ∧
    (let s : State := { State.reset with pnl := { PnlSt.init with outputs := [(1, { OutputSt.init with running := true, stopAsked := true })] } };
     (s.output 1).running = true ∧ (s.output 1).stopAsked = true ∧ (s.output 1).composed = false ∧
     s.runState ≠ rsRunning) ∧
    (let x : Snapshot := { Snapshot.init with rects := List.replicate 4 ⟨1#32, 0#32, 0#32⟩ };
     ∀ r, r ∈ x.rects → fieldOf r.corner1 F.PNL_CRC_RECT1_X1 < fieldOf r.corner0 F.PNL_CRC_RECT0_X0) ∧
    (State.reset.flag R.PNL_CFG F.PNL_CFG_FLIP_REC = false ∧ State.reset.pnl.palCopy = false) ∧
    (let s : State := { State.reset with pnl := { PnlSt.init with palCopy := true, palWaiting := [(0, 1)] } };
     s.pnl.palCopy = true ∧ s.pnl.palWaiting = [(0, 1)] ∧ (0 : Nat) ≠ 4096 ∧ s.hitch.held = [] ∧
     ({ s with pnl := { s.pnl with palWaiting := [] } } : State).pnl.palWaiting = []) ∧
    ((State.reset.output 1).training = none ∧ (State.reset.output 1).auxBusy = false ∧
     (State.reset.output 1).auxWaits = false) ∧
    (State.reset.linkCombos 0 ≠ [] ∧ (fs [(R.PNL_LINK 0, F.PNL_LINK_LANES, 3)]).linkCombos 0 = []) ∧
    (let s : State := { State.reset with pnl := { PnlSt.init with outputs := [(0, { OutputSt.init with training := some [(3, 4)], auxBusy := true })] } };
     (s.output 0).training = some [(3, 4)] ∧ [(3, 4)][0]? = some (3, 4) ∧ [(3, 4)][1]? = none ∧
     (s.output 0).auxWaits = false ∧ (s.output 0).auxBusy = true ∧ (s.output 0).auxDefers < 7 ∧
     7 ≤ ({ OutputSt.init with auxDefers := 7 } : OutputSt).auxDefers) ∧
    ((fs [(R.PNL_LINK 0, F.PNL_LINK_AUTO_TRAIN, 1)]).flag (R.PNL_LINK 0) F.PNL_LINK_AUTO_TRAIN = true ∧
     (fs [(R.PNL_LINK 0, F.PNL_LINK_AUTO_TRAIN, 0)]).flag (R.PNL_LINK 0) F.PNL_LINK_AUTO_TRAIN = false) ∧
    (let s := fs [(R.PNL_AUX_CTRL 0, F.PNL_AUX_CTRL_CMD, 1), (R.PNL_AUX_CTRL 0, F.PNL_AUX_CTRL_LEN, 15)];
     s.fget (R.PNL_AUX_CTRL 0) F.PNL_AUX_CTRL_CMD % 2 = 1 ∧ s.fget (R.PNL_AUX_CTRL 0) F.PNL_AUX_CTRL_LEN = 15 ∧
     (List.replicate 16 0#8).length = 16) ∧
    (State.reset.dict.waiting = [] ∧ State.reset.hitch.held = []) :=
  by and_intros <;> decide +kernel

/-- Operands and states that meet what ComposedFrame assumes. -/
theorem test_meets_ComposedFrame :
    let l : LayerSet := ⟨setField 0#32 F.PNL_LAYER_CFG_KIND 1, 0#32, setField (setField 0#32 F.PNL_LAYER_SIZE_W 1) F.PNL_LAYER_SIZE_H 1, 0x4000000000, 2#32⟩;
    let out : OutputSt := { OutputSt.init with running := true, snap := { Snapshot.init with layers := [l] } };
    ({ State.reset with clk := { ClkSt.init with stage := 0 } } : State).clk.stage = 0 ∧ out.composed = false ∧
    State.reset.layerPixel out 0 0 0 0 = some 0 ∧ (∀ j, j < 8 → 0 < j → State.reset.layerPixel out 0 j 0 0 = none) ∧
    (∀ k, k < 8 → State.reset.layerPixel out 0 k 1919 1199 = none) := by decide +kernel

/-- Operands and states that meet what ShuttleArithmetic assumes. -/
theorem test_meets_ShuttleArithmetic :
    (let s (w : Word) : State := { State.reset.foff (R.SHU_STATUS 23) F.SHU_STATUS_HALTED with shu := [(23, { CoreSt.init with prog := [(0, w)] })] };
     ∀ k ∈ [0, 4, 5, 6, 7, 8, 9, 10, 11, 12, 13, 14, 15, 16, 17, 18, 19, 20, 21, 22], (s (BitVec.ofNat 32 (k * 2 ^ 26))).coreHalted 23 = false ∧
     (s (BitVec.ofNat 32 (k * 2 ^ 26))).coreWaiting 23 = false ∧
     opOf ((s (BitVec.ofNat 32 (k * 2 ^ 26))).coreWord 23) = k ∧
     badBits ((s (BitVec.ofNat 32 (k * 2 ^ 26))).coreWord 23) = false) ∧
    (let s : State := { State.reset.foff (R.SHU_STATUS 23) F.SHU_STATUS_HALTED with shu := [(23, { CoreSt.init with prog := [(0, 0x18000000#32)] })] };
     s.coreRuns 23 0x06 ∧ condOf (s.core 23).sr (fT (s.coreWord 23)) = some true) ∧
    (condOf 0#16 1 = some false ∧ condOf 0#16 13 = none) ∧
    (0 ≤ signed 5 15 ∧ signed 5 16 < 0) :=
  ⟨by decide +kernel, by unfold State.coreRuns; decide +kernel, by decide +kernel, by decide +kernel⟩

/-- Operands and states that meet what ShuttleMemoryAndAccumulators assumes. -/
theorem test_meets_ShuttleMemoryAndAccumulators :
    (badOffset 0 1 = false ∧ badOffset 1 1 = true ∧ (0x8000#16).msb = true ∧ (0x7FFF#16).msb = false) ∧
    (let c : CoreSt := { CoreSt.init with dataBad := [0x7FFF] }; c.badWord 0x7FFF#16 = true ∧ c.badWord 0#16 = false ∧
     c.stBefore = none) ∧
    ((CoreSt.init.extWrite 34 0#16 0).isSome = true ∧ (CoreSt.init.extRead 38).isSome = true) ∧
    (let s (w : Word) : State := { State.reset.foff (R.SHU_STATUS 0) F.SHU_STATUS_HALTED with shu := [(0, { CoreSt.init with prog := [(0, w)] })] };
     ∀ k ∈ [0x17, 0x18, 0x19, 0x1A, 0x1B, 0x1C, 0x1D, 0x1E, 0x1F, 0x20, 0x21, 0x22, 0x23, 0x24, 0x25, 0x26, 0x27], opOf ((s (BitVec.ofNat 32 (k * 2 ^ 26))).coreWord 0) = k ∧
     badBits ((s (BitVec.ofNat 32 (k * 2 ^ 26))).coreWord 0) = false) ∧
    (let s : State := { State.reset.foff (R.SHU_STATUS 0) F.SHU_STATUS_HALTED with shu := [(0, { CoreSt.init with prog := [(0, 0x7C020000#32)] })] };
     s.coreRuns 0 0x1F ∧ bitsOf (s.coreWord 0) 24 22 ≠ bitsOf (s.coreWord 0) 19 17) ∧
    (let s : State := { State.reset.foff (R.SHU_STATUS 0) F.SHU_STATUS_HALTED with shu := [(0, { CoreSt.init with prog := [(0, 0x66300000#32), (1, 0x6A300000#32), (2, 0x6E700000#32)] })] };
     s.coreRuns 0 0x19 ∧ 35 ≤ fX (s.coreWord 0) ∧ 39 ≤ fX 0x6E700000#32 ∧ opOf 0x6E700000#32 = 0x1B) ∧
    (bitsOf 16#32 4 0 ≤ 16 ∧ 16 < bitsOf 17#32 4 0 ∧ 0 ≤ signed 6 (bitsOf 31#32 5 0) ∧ signed 6 (bitsOf 32#32 5 0) < 0) :=
  ⟨by decide +kernel, by decide +kernel, by decide +kernel, by decide +kernel,
  by unfold State.coreRuns; decide +kernel, by unfold State.coreRuns; decide +kernel, by decide +kernel⟩

/-- Operands and states that meet what ShuttleControl assumes. -/
theorem test_meets_ShuttleControl :
    (let s (w : Word) : State := { State.reset.foff (R.SHU_STATUS 0) F.SHU_STATUS_HALTED with shu := [(0, { CoreSt.init with prog := [(0, w)] })] };
     ∀ k ∈ [0x01, 0x02, 0x03, 0x28, 0x29, 0x2A, 0x2B, 0x2C, 0x2D, 0x2E, 0x2F, 0x30, 0x31, 0x32, 0x3F], opOf ((s (BitVec.ofNat 32 (k * 2 ^ 26))).coreWord 0) = k ∧
     badBits ((s (BitVec.ofNat 32 (k * 2 ^ 26))).coreWord 0) = false) ∧
    (let s : State := { State.reset.foff (R.SHU_STATUS 0) F.SHU_STATUS_HALTED with shu := [(0, { CoreSt.init with prog := [(0, 0xA0000000#32)] })] };
     s.coreRuns 0 0x28 ∧ condOf (s.core 0).srBefore (fD (s.coreWord 0)) = some true) ∧
    (CoreSt.init.wakes = false ∧ ({ CoreSt.init with mboxIn := [0#16] } : CoreSt).wakes = true) ∧
    (condOf 0#16 (fD 0xA0400000#32) = some false ∧ condOf 0#16 (fD 0xA3C00000#32) = none) ∧
    (CoreSt.init.calls = [] ∧ CoreSt.init.calls.length < 8 ∧ 8 ≤ (List.replicate 8 0).length) ∧
    ((0x400#16).getLsbD 10 = true ∧ CoreSt.init.sr.getLsbD 10 = false) ∧
    (bitsOf 0xB0000000#32 25 12 ≤ CoreSt.init.pc ∧ CoreSt.init.pc < bitsOf 0xB0002000#32 25 12 ∧
     CoreSt.init.loops.length < 4 ∧ bitsOf 0xB0002000#32 11 0 = 0 ∧ bitsOf 0xB0002FFF#32 11 0 ≠ 0) ∧
    (regAt (List.replicate 16 0#16) (bitsOf 0xB4002000#32 3 0) = 0#16 ∧ (regAt (List.replicate 16 1#16) 0).toNat ≠ 0 ∧
     4 ≤ (List.replicate 4 (⟨1, 5, 1⟩ : LoopEnt)).length) ∧
    ((∀ k ∈ [0, 1, 2, 3, 4, 5, 6, 7], bitsOf (BitVec.ofNat 32 k) 2 0 = k) ∧ CoreSt.init.held = none ∧
     CoreSt.init.mboxIn = [] ∧ CoreSt.init.mboxOut = []) ∧
    (let s : State := { State.reset with shu := [(0, { CoreSt.init with mboxIn := [1#16], mboxOut := List.replicate 8 0#16 })] };
     (s.core 0).mboxIn = 1#16 :: [] ∧ s.popValid (qnMboxIn 0) (s.core 0).mboxIn.length = true ∧
     ({ s with turns := [(qnMboxIn 0, some ⟨0, 1, []⟩)] } : State).popValid (qnMboxIn 0) (s.core 0).mboxIn.length = false ∧
     8 ≤ (s.core 0).mboxOut.length ∧ CoreSt.init.mboxOut.length < 8) ∧
    (let p : Part := ⟨0, 0, 0, 0, [1#16], 0⟩; p.desc[0]? = some 1#16 ∧ p.desc[1]? = none) ∧
    (let c : CoreSt := { CoreSt.init with d := [0x7C00#16, 1024#16] }; (c.dr 0).toNat + (c.dr 1).toNat ≤ 0x8000 ∧
     (c.dr 1).toNat ≤ 1024 ∧ c.dataBad = []) ∧
    (let c : CoreSt := { CoreSt.init with d := [0x7C01#16, 1025#16] }; 0x8000 < (c.dr 0).toNat + (c.dr 1).toNat ∧
     1024 < (c.dr 1).toNat) :=
  ⟨by decide +kernel, by unfold State.coreRuns; decide +kernel, by and_intros <;> decide +kernel⟩

/-- Operands and states that meet what ShuttleEvents assumes. -/
theorem test_meets_ShuttleEvents :
    (let s : State := { (State.reset.foff (R.SHU_STATUS 0) F.SHU_STATUS_HALTED).fon (R.SHU_STATUS 0) F.SHU_STATUS_WAITING with shu := [(0, { CoreSt.init with mboxIn := [0#16] })] };
     s.coreWaiting 0 = true ∧ (s.core 0).wakes = true ∧ s.coreHalted 0 = false) ∧
    (State.reset.coreWaiting 0 = false ∧ State.reset.coreHalted 0 = true ∧ (State.reset.core 0).haltAsked = false ∧
     (State.reset.core 0).delay = none) ∧
    (let s : State := { State.reset.foff (R.SHU_STATUS 0) F.SHU_STATUS_HALTED with shu := [(0, { CoreSt.init with sr := 0x8200#16, ipend := 8 })] };
     s.coreHalted 0 = false ∧ (s.core 0).stepping = false ∧ (s.core 0).sr.getLsbD 9 = true ∧
     (s.core 0).sr.getLsbD 10 = false ∧ (s.core 0).delay = none ∧ nbit (s.core 0).ipend 3 = true ∧
     (s.core 0).sr.getLsbD (12 + 3) = true ∧
     (∀ j, j < 3 → nbit (s.core 0).ipend j = false ∨ (s.core 0).sr.getLsbD (12 + j) = false)) ∧
    (let c : CoreSt := { CoreSt.init with tick := 1#16 }; c.tick ≠ 0#16 ∧
     c.tickBeat + 2 * c.tick.toNat ≤ (late 2 State.reset).beats ∧ State.reset.beats < c.tickBeat + 2 * c.tick.toNat) ∧
    (let r : WaveRec := ⟨0, 0, 0, 0, 0, 0, 0, false, false, false, true, false, [], none, 0, some 0, [], false, [0], false⟩;
     let s : State := { (State.reset.foff (R.SHU_STATUS 0) F.SHU_STATUS_HALTED).fon (R.SHU_STATUS 0) F.SHU_STATUS_ENABLE with recs := { RecSt.init with waves := [r] } };
     s.recs.waves = [r] ∧ r.partsLeft = [0] ∧ r.cause ≠ none ∧ (s.core 0).hasPart r = false ∧
     (∀ x, x ∈ r.chans → x.ch / 8 ≠ 0) ∧ s.waveOverrun { r with chans := r.chans } = r ∧ s.coreHalted 0 = false ∧
     s.flag (R.SHU_STATUS 0) F.SHU_STATUS_ENABLE = true ∧ (s.core 0).held = none) ∧
    (let s : State := { State.reset.fset (R.SHU_CFG 0) F.SHU_CFG_TIMEOUT 1 with beats := 130, shu := [(0, { CoreSt.init with held := some ⟨0, 0, 0, 0, [], 0⟩ })] };
     (s.core 0).held = some ⟨0, 0, 0, 0, [], 0⟩ ∧ s.fget (R.SHU_CFG 0) F.SHU_CFG_TIMEOUT ≠ 0 ∧
     (0 + 128 * s.fget (R.SHU_CFG 0) F.SHU_CFG_TIMEOUT) / 2 < s.beats / 2 ∧
     (late 129 s).beats / 2 ≤ (0 + 128 * s.fget (R.SHU_CFG 0) F.SHU_CFG_TIMEOUT) / 2 ∧
     (fs [(R.SHU_CFG 0, F.SHU_CFG_TIMEOUT, 0)]).fget (R.SHU_CFG 0) F.SHU_CFG_TIMEOUT = 0) ∧
    (let s : State := { State.reset.foff (R.SHU_STATUS 0) F.SHU_STATUS_HALTED with shu := [(0, { CoreSt.init with haltAsked := true, delay := some .reti })] };
     (s.core 0).haltAsked = true ∧ s.coreHalted 0 = false ∧ (s.core 0).delay ≠ none ∧ (s.core 0).held = none ∧
     (s.core 0).queued = none ∧ (s.core 0).runBeat ≠ some s.beats ∧
     ({ (s.core 0) with runBeat := some 0 } : CoreSt).runBeat = some s.beats) ∧
    (let s : State := { State.reset.foff (R.SHU_STATUS 0) F.SHU_STATUS_HALTED with shu := [(0, { CoreSt.init with mboxOut := [1#16] })] };
     (s.core 0).mboxIn = [] ∧ Tab.get (fun _ => none) s.turns (qnMboxIn 0) = none ∧ (s.core 0).mboxOut = 1#16 :: [] ∧
     s.coreHalted 0 = false ∧ s.popValid (qnMboxOut 0) (s.core 0).mboxOut.length = true ∧
     (s.turn (qnMboxOut 0) (s.core 0).mboxOut.length).refused = [] ∧
     (s.turn (qnMboxIn 0) (s.core 0).mboxIn.length).refused = [] ∧
     (let u : State := { s with turns := [(qnMboxOut 0, some ⟨1, 1, [.half 2#16]⟩)] };
      u.popValid (qnMboxOut 0) (u.core 0).mboxOut.length = false ∧
      (u.turn (qnMboxOut 0) (u.core 0).mboxOut.length).refused = .half 2#16 :: [])) ∧
    (8 ≤ (List.replicate 8 0#16).length ∧ (List.replicate 7 0#16).length < 8) :=
  by and_intros <;> decide +kernel

/-- Operands and states that meet what ShuttleInstructionRules assumes. -/
theorem test_meets_ShuttleInstructionRules :
    (let s : State := { fs [(R.SHU_STATUS 0, F.SHU_STATUS_HALTED, 0), (R.SHU_BREAK 0, F.SHU_BREAK_EN, 1)] with shu := [(0, { CoreSt.init with prog := [(0, 0#32)] })] };
     s.coreHalted 0 = false ∧ s.coreWaiting 0 = false ∧ opOf (s.coreWord 0) = 0 ∧
     fieldOf (s.rd (R.SHU_BREAK 0)) F.SHU_BREAK_EN = 1 ∧
     fieldOf (s.rd (R.SHU_BREAK 0)) F.SHU_BREAK_ADDR = (s.core 0).pc) ∧
    (badBits 0x00000001#32 = true ∧ isBranch 0x28 = true ∧ badAtEnd 0x28 = true ∧ badBits 0xA0000000#32 = false) ∧
    (let s : State := { fs [(R.SHU_STATUS 0, F.SHU_STATUS_HALTED, 0)] with shu := [(0, { CoreSt.init with prog := [(0, 0xA0000000#32)], progBad := [1], loops := [⟨0, 0, 2⟩] })] };
     opOf (s.coreWord 0) = 0x28 ∧ (s.core 0).progBad.contains (s.core 0).pc = false ∧
     (s.core 0).progBad.contains 1 = true ∧ (s.core 0).delay = none ∧
     (s.core 0).loops.head?.map (fun e => e.last) = some (s.core 0).pc) ∧
    ((15 : Nat) < 16 ∧ CoreSt.init.pc < 16384 ∧ CoreSt.init.stepping = false ∧ CoreSt.init.late = [] ∧
     CoreSt.init.runBeat ≠ some State.reset.beats) ∧
    (let s : State := { fs [(R.SHU_STATUS 0, F.SHU_STATUS_HALTED, 0)] with shu := [(0, { CoreSt.init with delay := some .reti, prog := [(0, 0#32)] })] };
     (s.core 0).delay = some .reti ∧ (s.core 0).loops = [] ∧ (s.core 0).stepping = false ∧ opOf (s.coreWord 0) ≠ 1) :=
  by and_intros <;> decide +kernel

/-- Operands and states that meet what ShuttleConditions assumes. -/
theorem test_meets_ShuttleConditions :
    CoreSt.init.d.length = 16 ∧ (15 : Nat) < 16 ∧ 13 ≤ 13 ∧ 1 ≤ 16 := by decide +kernel

/-- Operands and states that meet what CircularAndReversed assumes. -/
theorem test_meets_CircularAndReversed :
    let c : CoreSt := { CoreSt.init with l := List.replicate 8 8#16, m := List.replicate 8 4#16 };
    (regAt c.l 7).toNat = 2 ^ 3 ∧ (regAt c.m 7).toNat = 2 ^ (3 - 1) ∧ 7 < c.a.length ∧
    Nat.log2 (regAt c.l 7).toNat = 3 ∧ (regAt CoreSt.init.l 7).toNat = 0 := by decide +kernel

/-- Operands and states that meet what AccumulatorOverflow assumes. -/
theorem test_meets_AccumulatorOverflow :
    (-(2 ^ 39) ≤ (2 ^ 39 - 1 : Int) ∧ ¬(-(2 ^ 39) ≤ (2 ^ 39 : Int) ∧ (2 ^ 39 : Int) ≤ 2 ^ 39 - 1) ∧
     (-(2 ^ 39) - 1 : Int) < -(2 ^ 39)) ∧
    (CoreSt.init.sr.getLsbD 7 = false ∧ (0x80#16).getLsbD 7 = true ∧ -(2 ^ 39) ≤ CoreSt.init.ac 1 ∧
     CoreSt.init.ac 1 ≤ 2 ^ 39 - 1) ∧
    (([2 ^ 38, 2 ^ 38, -(2 ^ 38)] : List Int).foldl (· + ·) (CoreSt.init.ac 1) ≤ 2 ^ 39 - 1) :=
  by and_intros <;> decide +kernel

/-- Operands and states that meet what RecordCommands assumes. -/
theorem test_meets_RecordCommands :
    (let w : WaveRec := ⟨63, 0, 0, 0, 0, 0, 0, false, false, false, false, false, [], none, 0, none, [], false, [], false⟩;
     let s : State := { State.reset with recs := { RecSt.init with waves := [w] } }; s.recs.waves = [w] ∧
     w.shed = 63 ∧ w.seq = none ∧ w.partsLeft = [] ∧ w.vetoed = false ∧ s.beats < w.fired + 1024 ∧
     w.fired + 1024 ≤ (late 1024 s).beats ∧ w.shed ≠ 62 ∧ s.waveWaits w = false ∧
     ({ s with recs := { s.recs with quills := [(s.quillOf w.stream, { QuillSt.init with waiting := [⟨w.producer, 0, w.fired, none⟩] })] } } : State).waveWaits w = true) ∧
    (State.reset.specRecs 191 = [] ∧ (State.reset.side 0).quill = [] ∧ State.reset.sideOpen 0 0 = false ∧
     (State.reset.side 0).gathered = [] ∧ State.reset.recs.user = none) ∧
    (let r : SpecRec := ⟨0, [], 0, 0⟩;
     let s : State := { State.reset with recs := { RecSt.init with specs := [(191, [r])] } };
     s.specRecs 191 = r :: [] ∧ s.beats < r.newest + 512 ∧ r.newest + 512 ≤ (late 1048576 s).beats ∧
     r.oldest + 1048576 ≤ (late 1048576 s).beats ∧ (late 512 s).beats < r.oldest + 1048576 ∧
     r.items.length < s.fget (R.QUL_CH_CFG 23 7) F.QUL_CH_CFG_SPEC_BATCH + 1 ∧ s.runState ≠ rsStopping) ∧
    (let r : SpecRec := ⟨0, List.replicate 300 ⟨0, 0, 0, 0, [], []⟩, 0, 0⟩;
     State.reset.fget (R.QUL_CH_CFG 23 7) F.QUL_CH_CFG_SPEC_BATCH + 1 ≤ r.items.length ∧
     (inRun 4).runState = rsStopping ∧ (inRun 4).streamDone 191 = true) ∧
    (let s : State := { fs [(R.REC_SIDE_CFG 3, F.REC_SIDE_CFG_EN, 1)] with recs := { RecSt.init with sides := [(39, { SideSt.init with quill := [⟨0, 0, 31, [], 0⟩] })] } };
     (s.side (sideKey 3 31)).quill = ⟨0, 0, 31, [], 0⟩ :: [] ∧ s.sideOpen 3 31 = true ∧
     s.popValid (qnSide (sideKey 3 31)) (s.side (sideKey 3 31)).quill.length = true ∧
     ({ s with turns := [(qnSide (sideKey 3 31), some ⟨0, 1, []⟩)] } : State).popValid (qnSide (sideKey 3 31))
       (s.side (sideKey 3 31)).quill.length = false) ∧
    (let x : SideSt := { SideSt.init with gathered := [⟨0, 0, 0, [], 0⟩], cfg := setField 0#32 F.REC_SIDE_CFG_BATCH_EXP 2 };
     x.gathered ≠ [] ∧ x.gathered.length + 1 < 2 ^ min 10 (fieldOf x.cfg F.REC_SIDE_CFG_BATCH_EXP) ∧
     x.since + 1024 * max 1 (fieldOf x.cfg F.REC_SIDE_CFG_HOLD) ≤ (late 1024 State.reset).beats ∧
     State.reset.beats < x.since + 1024 * max 1 (fieldOf x.cfg F.REC_SIDE_CFG_HOLD)) ∧
    (let s := (inRun 4).fset (R.REC_STREAM_CFG 255) F.REC_STREAM_CFG_EN 1; s.runState = rsStopping ∧
     s.streamOn 255 = true ∧ (s.stream 255).runEnd = false) ∧
    (State.reset.runState ≠ rsStopping ∧ State.reset.streamOn 0 = false) ∧
    ((fs [(R.REC_USER_CTRL, F.REC_USER_CTRL_GO, 1)]).flag R.REC_USER_CTRL F.REC_USER_CTRL_GO = true ∧
     State.reset.flag R.REC_USER_CTRL F.REC_USER_CTRL_GO = false) ∧
    (let s := State.reset.wr R.REC_USER_LEN 65536#32; fieldOf (s.rd R.REC_USER_LEN) ⟨0, 17⟩ = 65536 ∧ 1 ≤ 65536 ∧
     65536 ≤ 65536) ∧
    (let v : UserCopy := ⟨0, 0, 0, 0, 0x4000000000, 256, 0⟩;
     let s : State := { fs [(R.REC_STREAM_CFG 0, F.REC_STREAM_CFG_EN, 1)] with recs := { RecSt.init with user := some v } };
     s.recs.user = some v ∧ s.streamOn v.stream = true ∧ s.hbmRange v.addr v.len = some 0 ∧ hbmOffset 0 = none) ∧
    (rtManifest ≠ rtUser ∧ State.reset.hbmLook 0 4 = State.reset.hbmRead 0 4) :=
  by and_intros <;> decide +kernel

/-- Operands and states that meet what SkeinCommands assumes. -/
theorem test_meets_SkeinCommands :
    ((State.reset.quill 31).packets = [] ∧ (State.reset.engine 31).held = none ∧
     State.reset.flag (R.SKN_ENG_STATUS 31) F.SKN_ENG_STATUS_FAILED = false) ∧
    (let h : FragHdr := ⟨0, 0, 0, 0, 0, 0, 0, 0, 0, 0, 0, 0, 0, 0, 0, 0, 0, 0⟩;
     let s : State := { State.reset with recs := { RecSt.init with quills := [(0, { QuillSt.init with packets := [⟨h, [0#8], false, false, 0, 0, 0⟩] })] } };
     (s.quill 0).packets = ⟨h, [0#8], false, false, 0, 0, 0⟩ :: [] ∧ s.beats / 2 ≤ 0 ∧ 0 < (late 2 s).beats / 2 ∧
     (⟨h, [], false, true, 0, 0, 0⟩ : Packet).abort = true) ∧
    (checkOutput [0#8] (storedForm [0#8]) = none ∧ checkOutput [0#8] [] = some (0, 7) ∧ 1 ≤ [0#8].length ∧
     [0#8].length ≤ 65536) ∧
    (((fs [(R.SKN_CLASS 0, F.SKN_CLASS_MODE, 0)]).skeinForm 0 false [0#8]).2 = false ∧
     ((fs [(R.SKN_CLASS 0, F.SKN_CLASS_MODE, 1)]).skeinForm 0 false [0#8]).2 = true) ∧
    ((fs [(R.SKN_ENG_STATUS 0, F.SKN_ENG_STATUS_FAILED, 1)]).flag (R.SKN_ENG_STATUS 0) F.SKN_ENG_STATUS_FAILED = true) ∧
    ((fs [(R.SKN_DEC_STATUS 3, F.SKN_DEC_STATUS_BUSY, 1)]).flag (R.SKN_DEC_STATUS 3) F.SKN_DEC_STATUS_BUSY = true ∧
     State.reset.flag (R.SKN_DEC_STATUS 3) F.SKN_DEC_STATUS_BUSY = false) ∧
    (rangesMeet 0 2 1 2 = true ∧ rangesMeet 0 2 2 2 = false) ∧
    (Tab.get (fun _ => none) State.reset.recs.decs 3 = none ∧
     Tab.get (fun _ => none) [(3, some (⟨0, 1, 2, 1, none⟩ : DecSt))] 3 = some ⟨0, 1, 2, 1, none⟩) :=
  by and_intros <;> decide +kernel

/-- Operands and states that meet what RecordsRebuild assumes. -/
theorem test_meets_RecordsRebuild :
    let s := fs [(R.REC_STREAM_CFG 0, F.REC_STREAM_CFG_EN, 1)]; s.streamOn 0 = true ∧ s.aborts 0 = false ∧
    s.streamEnded 0 = false ∧ (s.quill (s.quillOf 0)).waiting = [] ∧ (s.quill (s.quillOf 0)).opened = none ∧
    s.quillRoom (s.quill (s.quillOf 0)) 0 = true ∧ 511 % 1024 < 512 := by decide +kernel

/-- Operands and states that meet what PartnerRings assumes. -/
theorem test_meets_PartnerRings :
    ((State.reset.engine 31).held = none ∧ (State.reset.pring 3 15).out = none ∧ State.reset.portOpen 3 = false ∧
     State.reset.flag (R.HNS_RING_STATUS 3 15) F.HNS_RING_STATUS_STALLED = false) ∧
    (let h : FragHdr := ⟨0, 0, 0, 0, 0, 0, 0, 0, 0, 0, 0, 0, 0, 0, 0, 0, 0, 0⟩;
     let f : Fragment := ⟨h, [], none, none⟩;
     let s : State := { State.reset with recs := { RecSt.init with engines := [(0, { EngSt.init with held := some f })] } };
     (s.engine 0).held = some f ∧ f.trailer = none ∧
     (s.foff (R.REC_STREAM_CFG 0) F.REC_STREAM_CFG_AUTH).flag (R.REC_STREAM_CFG 0) F.REC_STREAM_CFG_AUTH = false ∧
     s.tagKeys (s.streamPort 0) = none ∧ f.hdr.seq < 2 ^ 56 ∧ 2 ^ 56 ≤ ({ h with seq := 2 ^ 56 } : FragHdr).seq) ∧
    (let s : State := { fs [(R.REC_STREAM_CFG 0, F.REC_STREAM_CFG_AUTH, 1)] with brd := { BrdSt.init with sessions := [(0, ⟨true, 1, 0, some (7, 0), [], none⟩)] } };
     s.flag (R.REC_STREAM_CFG 0) F.REC_STREAM_CFG_AUTH = true ∧ s.tagKeys 0 = some (1, 0, 7)) ∧
    (let s := turnsAt 1 0 512; s.entryTurn 0 = some 0 ∧ s.entryTurn 0 ≠ some 1 ∧
     s.ringNamed 0 0 = false ∧ (s.fset (R.REC_STREAM_CFG 0) F.REC_STREAM_CFG_EN 1).ringNamed 0 0 = true) ∧
    (let f : Fragment := ⟨⟨0, 0, 0, 0, 0, 0, 0, 0, 0, 0, 0, 0, 0, 0, 0, 0, 0, 0⟩, List.replicate 512 0#8, some [], none⟩;
     (turnsAt 1 512 4).ringTakes 0 0 f.entryLen = true ∧ State.reset.ringTakes 0 0 f.entryLen = false) ∧
    (let s := fs [(R.HNS_PORT_STATUS 3, F.HNS_PORT_STATUS_PERST, 0), (R.HNS_PORT_STATUS 3, F.HNS_PORT_STATUS_LINK_UP, 1), (R.HNS_PORT_STATUS 3, F.HNS_PORT_STATUS_BME, 1), (R.HNS_RING_STATUS 3 15, F.HNS_RING_STATUS_EN, 1), (R.HNS_RING_STATUS 3 15, F.HNS_RING_STATUS_SIZE_EXP, 18), (R.HNS_RING_STATUS 3 15, F.HNS_RING_STATUS_ACTIVE, 1)];
     s.portOpen 3 = true ∧ s.portWriting 3 = true ∧ s.ringEn 3 15 = true ∧ s.ringTakes 3 15 64 = true ∧
     s.ringTakes 3 14 64 = false ∧ s.ringEn 3 14 = false ∧
     s.flag (R.HNS_RING_STATUS 3 15) F.HNS_RING_STATUS_ACTIVE = true) ∧
    ((fs [(R.HNS_RING_STATUS 0 0, F.HNS_RING_STATUS_STALLED, 1)]).flag (R.HNS_RING_STATUS 0 0) F.HNS_RING_STATUS_STALLED = true) ∧
    (let s : State := { State.reset with hns := [(0, { PPort.init with rings := [(0, { PRing.init with out := some ⟨64, 1⟩, due := true, open_ := [⟨64, 0, 0, 0⟩] })] })] };
     (s.pring 0 0).out = some ⟨64, 1⟩ ∧ (s.pring 0 0).due = true ∧ (s.pring 0 0).open_ = ⟨64, 0, 0, 0⟩ :: [] ∧
     (s.pring 0 0).written < 2 ^ 64 ∧
     s.beats < 0 + 1024 * max 1 (s.fget (R.HNS_RING_STATUS 0 0) F.HNS_RING_STATUS_HOLD)) ∧
    (let v : BitVec 32 := BitVec.ofNat 32 (1 + 2 * 18 + 128 * 12); v.getLsbD 0 = true ∧ 18 ≤ v.toNat / 2 % 64 ∧
     v.toNat / 2 % 64 ≤ 32 ∧ 12 ≤ v.toNat / 128 % 32 ∧ v.toNat / 128 % 32 ≤ 24 ∧
     v.toNat / 128 % 32 < v.toNat / 2 % 64 ∧ (State.reset.rd (R.HNS_RING_BASE_LO 0 0)).toNat % 4096 = 0 ∧
     (State.reset.pageWord 0 (ringOff 0 + 0x10)).toNat % 32 = 0) ∧
    (let v : BitVec 32 := BitVec.ofNat 32 (1 + 2 * 33 + 128 * 25); 32 < v.toNat / 2 % 64 ∧ 24 < v.toNat / 128 % 32 ∧
     (2#32).getLsbD 0 = false) ∧
    (let s := State.reset.wr (R.HNS_RING_WR_LO 0 0) 64#32;
     let rd := (s.pageWord 0 (ringOff 0 + 0x18)).toNat + 2 ^ 32 * (0#32).toNat; rd % 64 = 0 ∧ s.ringRd 0 0 ≤ rd ∧
     rd ≤ s.ringWr 0 0 ∧ s.ringWr 0 0 < 2 ^ 32 * (1#32).toNat) :=
  by and_intros <;> decide +kernel

/-- Operands and states that meet what HarnessPorts assumes. -/
theorem test_meets_HarnessPorts :
    (State.reset.portOpen 3 = false ∧ State.reset.flag (R.HNS_PORT_STATUS 3) F.HNS_PORT_STATUS_LINK_UP = false ∧
     (State.reset.hport 3).door = []) ∧
    ((fs [(R.HNS_PORT_STATUS 3, F.HNS_PORT_STATUS_PERST, 0)]).flag (R.HNS_PORT_STATUS 3) F.HNS_PORT_STATUS_PERST = false ∧
     (fs [(R.HNS_PORT_STATUS 3, F.HNS_PORT_STATUS_PERST, 1)]).flag (R.HNS_PORT_STATUS 3) F.HNS_PORT_STATUS_PERST = true) ∧
    ((6 : Fin 8).val ≠ 0 ∧ (6 : Fin 8).val ≠ 7 ∧ 1 ≤ fieldOf (State.reset.hport 0).cfg F.HNS_PORT_CFG_MAX_GEN) ∧
    (let s : State := { fs [(R.HNS_PORT_STATUS 3, F.HNS_PORT_STATUS_PERST, 0), (R.HNS_PORT_STATUS 3, F.HNS_PORT_STATUS_LINK_UP, 1)] with hns := [(3, { PPort.init with door := List.replicate 8 0#16 })] };
     s.portOpen 3 = true ∧ 8 ≤ (s.hport 3).door.length ∧ (s.hport 3).door ≠ [] ∧ (List.replicate 7 0#16).length < 8 ∧
     s.popValid (qnDoor 3) (s.hport 3).door.length = true ∧ (s.turn (qnDoor 3) 0).depth = 0 ∧
     (s.turn (qnDoor 3) (s.hport 3).door.length).refused = [] ∧
     (let u : State := { s with turns := [(qnDoor 3, some ⟨1, 8, [.half 0#16]⟩)] };
      (u.turn (qnDoor 3) 0).depth ≠ 0 ∧ u.popValid (qnDoor 3) (u.hport 3).door.length = false ∧
      (u.turn (qnDoor 3) (u.hport 3).door.length).refused = .half 0#16 :: [])) ∧
    (pageAccessOk 0 2 = false ∧ pageListed 0x10 = true ∧ pageListed 0x14 = true ∧ 0x10 % 8 = 0) ∧
    (fieldOf (State.reset.hport 0).cfg F.HNS_PORT_CFG_BAR2_EN = 1 ∨ fieldOf (State.reset.hport 0).cfg F.HNS_PORT_CFG_BAR2_EN = 0) ∧
    (let s := (State.reset.fset (R.HNS_GRANT_SIZE 0 7) F.HNS_GRANT_SIZE_SIZE 1); s.granted 0 0 4096 = true ∧
     s.granted 0 1 4096 = false ∧ 0 + 4096 ≤ 2 ^ 36 ∧ s.reach (0x4000000000 + 0) 4096 = 4096 ∧
     fieldOf (setField 0#32 F.HNS_PORT_CFG_BAR2_EN 1) F.HNS_PORT_CFG_BAR2_EN = 1) ∧
    ((fs [(R.HNS_PORT_STATUS 0, F.HNS_PORT_STATUS_MSIX_EN, 1)]).flag (R.HNS_PORT_STATUS 0) F.HNS_PORT_STATUS_MSIX_EN = true ∧
     State.reset.flag (R.HNS_PORT_STATUS 0) F.HNS_PORT_STATUS_MSIX_EN = false ∧ (0x80000000#32) = 1#32 <<< 31) ∧
    (let f : Fragment := ⟨⟨0, 0, 0, 0, 0, 0, 0, 0, 0, 0, 0, 0, 0, 0, 0, 0, 0, 0⟩, [], some [], none⟩;
     let s : State := { State.reset with recs := { RecSt.init with engines := [(0, { EngSt.init with held := some f })] }, hns := [(0, { PPort.init with entryEngine := some 0, entryTlps := 1 })] };
     s.partEntry 0 0 = some (0, 0, 0) ∧ s.partEntry 0 1 = none ∧ s.ringEn 0 0 = false ∧ s.ringNamed 0 0 = false ∧
     (s.fset (R.REC_STREAM_CFG 0) F.REC_STREAM_CFG_EN 1).ringNamed 0 0 = true) ∧
    (MsixMode.on ≠ .off ∧ MsixMode.masked ≠ .off ∧ (State.reset.hport 0).msixMask = false) :=
  by and_intros <;> decide +kernel

/-- Operands and states that meet what SpindleControl assumes. -/
theorem test_meets_SpindleControl :
    (State.reset.spnState 63 = 0 ∧ (fs [(R.SPN_CH_STATUS 63, F.SPN_CH_STATUS_STATE, 4)]).spnState 63 = 4 ∧
     (fs [(R.SPN_CH_STATUS 63, F.SPN_CH_STATUS_STATE, 6)]).spnState 63 = 6) ∧
    (let s : State := { fs [(R.SPN_CH_STATUS 0, F.SPN_CH_STATUS_STATE, 5)] with spn := [(0, { SpnCh.init with work := some .parked })] };
     s.spnState 0 = 5 ∧ (s.spch 0).pcWritten = false ∧ (s.spch 0).work = some .parked ∧
     s.flag (R.SPN_CH_CTRL 0) F.SPN_CH_CTRL_POKE = false ∧ (s.spch 0).stopped ≠ some s.beats ∧
     (s.spch 0).poked ≠ some s.beats ∧ s.pokeReady 0 = false) ∧
    (let s : State := { fs [(R.SPN_CH_STATUS 0, F.SPN_CH_STATUS_STATE, 3), (R.SPN_CH_CTRL 0, F.SPN_CH_CTRL_POKE, 1)] with spn := [(0, { SpnCh.init with poked := some 0 })] };
     s.spnState 0 = 3 ∧ s.flag (R.SPN_CH_CTRL 0) F.SPN_CH_CTRL_POKE = true ∧ s.pokeHeld 0 = false ∧ s.pokeReady 0 = true ∧
     (s.spch 0).poked = some s.beats ∧
     ({ s with bob := { BobSt.init with pcs := [(0, { PcSt.init with queue := [⟨.hitch, 4, true, 0, 4, 0, [], 0, 0, none⟩] })] } } : State).pokeHeld 0 = true) ∧
    (({ State.reset with spn := [(0, { SpnCh.init with stopped := some 0 })] } : State).spch 0).stopped = some State.reset.beats ∧
    (let s : State := { (fs [(R.SPN_CH_STATUS 0, F.SPN_CH_STATUS_STATE, 5)]).setSpnPc 0 0x4000000001 with spn := [(0, { SpnCh.init with halted := some (0, 1) })] };
     s.spnState 0 = 5 ∧ (s.spch 0).halted = some (s.beats, 1) ∧
     (State.spnFault (s.spnGo 0 1 (s.spch 0)) 0 2 0 0).spnState 0 = 6 ∧ (s.spnGo 0 1 (s.spch 0)).spnState 0 ≠ 6) ∧
    (let s : State := { fs [(R.SPN_CH_STATUS 0, F.SPN_CH_STATUS_STATE, 5)] with spn := [(0, { SpnCh.init with pcWritten := true, work := some (.wait ⟨3, 0, 0⟩ 0 none false) })] };
     s.spnState 0 = 5 ∧ (s.spch 0).pcWritten = true ∧ (s.spch 0).work = some (.wait ⟨3, 0, 0⟩ 0 none false)) ∧
    (let s : State := { fs [(R.SPN_CH_STATUS 0, F.SPN_CH_STATUS_STATE, 1)] with spn := [(0, { SpnCh.init with work := some (.move ⟨1, 0, 0⟩ 0) })] };
     s.spnState 0 = 1 ∧ (s.spch 0).work = some (.move ⟨1, 0, 0⟩ 0)) ∧
    ((fs [(R.SPN_CH_STATUS 0, F.SPN_CH_STATUS_STATE, 3)]).spnState 0 = 3) ∧
    (let s := (fs [(R.SPN_CH_STATUS 0, F.SPN_CH_STATUS_STATE, 1)]).setSpnPc 0 0x4000000000; s.spnState 0 = 1 ∧
     (s.spch 0).work = none ∧ s.spnPc 0 % 32 = 0 ∧ s.reach (s.spnPc 0) 32 = 32 ∧
     s.lostAfter (s.spnPc 0 - 0x4000000000) 32 = none ∧
     (match s.hbmUnit 0 with
      | some (q, w) => (State.lostAfter (s.setPc q { s.pc q with lost := [w] }) 0 32).isSome
      | none => false) = true ∧
     words64 4 (s.hbmLook (s.spnPc 0 - 0x4000000000) 32) = [0, 0, 0, 0]) ∧
    (let s : State := { (fs [(R.SPN_CH_STATUS 0, F.SPN_CH_STATUS_STATE, 1)]).setSpnPc 0 0x4000000000 with hbm := [] };
     let t := s.hbmPut 0 5#8; words64 4 (t.hbmLook 0 32) = [5, 0, 0, 0] ∧
     words64 4 ((s.hbmPut 0 6#8).hbmLook 0 32) = [6, 0, 0, 0] ∧
     words64 4 ((s.hbmPut 0 0x10#8).hbmLook 0 32) = [16, 0, 0, 0]) ∧
    (let s := (fs [(R.SPN_CH_STATUS 0, F.SPN_CH_STATUS_STATE, 1)]).setSpnPc 0 0x4000000001; s.spnPc 0 % 32 ≠ 0) ∧
    (let s := fs [(R.SPN_CH_STATUS 0, F.SPN_CH_STATUS_STATE, 1)]; s.spnPc 0 % 32 = 0 ∧ s.reach (s.spnPc 0) 32 ≠ 32) ∧
    (let s : State := { State.reset with beats := 12000, spn := [(0, { SpnCh.init with quiesce := some (0, 24), work := some (.move ⟨1 + 2 ^ 32 * 4, 0x2000000000, 0x4000000000⟩ 0) })] };
     (s.spch 0).quiesce = some (0, 24) ∧ 0 + 12000 ≤ s.beats ∧ State.reset.beats < 0 + 12000 ∧
     (State.reset.spch 0).quiesce = none) :=
  by and_intros <;> decide +kernel

/-- Operands and states that meet what SpindleInstructions assumes. -/
theorem test_meets_SpindleInstructions :
    (let s : State := (fs [(R.SPN_CH_STATUS 0, F.SPN_CH_STATUS_STATE, 1)]).setSpnPc 0 0x4000000000;
     let t := (s.hbmPut 0 1#8).hbmPut 4 4#8; t.spnState 0 = 1 ∧ (t.spch 0).work = none ∧ t.spnPc 0 % 32 = 0 ∧
     t.reach (t.spnPc 0) 32 = 32 ∧ t.lostAfter (t.spnPc 0 - 0x4000000000) 32 = none ∧ words64 4 (t.hbmLook (t.spnPc 0 - 0x4000000000) 32) = [0x400000001, 0, 0, 0] ∧
     spnReserved 0x400000001 0 0 0 = false ∧ 0x400000001 % 16 = 1 ∧ 0x400000001 / 2 ^ 32 ≠ 0 ∧
     t.spnMoveBad 0 ⟨0x400000001, 0, 0⟩ 0 = none ∧ t.spnMoveBad 0 ⟨0x300000001, 0, 0⟩ 0 = some (1, 0)) ∧
    (spnReserved 1 0 0 0 = false ∧ spnReserved 0x100000002 0xFFFFFFFF 0 0 = false ∧ 0x100000002 % 16 = 2 ∧
     0x100000002 / 2 ^ 32 = 1 ∧ signed 32 0xFFFFFFFF < 0 ∧ 0 ≤ signed 32 1 ∧ spnReserved 0x33 0 0 0 = false ∧
     0x33 / 16 % 4 = 3 ∧ spnReserved 3 0 0 0 = false ∧ spnReserved 0x24 1 0 0 = false ∧ 1 % 32 ≠ 0 ∧
     spnReserved 4 0 0 0 = false) ∧
    (SpnCh.init.loop 0 = none ∧ ({ SpnCh.init with loop1 := some ⟨1, 5⟩ } : SpnCh).loop 1 = some ⟨1, 5⟩) ∧
    (let s : State := { fs [(R.SPN_CH_STATUS 0, F.SPN_CH_STATUS_STATE, 1)] with spn := [(0, { SpnCh.init with work := some (.move ⟨0x400000001, 0x4000000000, 0x4000000100⟩ 0) })] };
     s.spnTurn = some 0 ∧ s.spnReady 0 = true ∧ (s.spch 0).work = some (.move ⟨0x400000001, 0x4000000000, 0x4000000100⟩ 0) ∧
     s.spnMoveBad 0 ⟨0x400000001, 0x4000000000, 0x4000000100⟩ 0 = none ∧ s.spnPrio 0 = false ∧
     s.spnMoveBad 0 ⟨0x400000001, 0x4000000001, 0x4000000100⟩ 0 = some (1, 0x4000000001) ∧
     ({ s with spnTurns := ⟨0, 0⟩ } : State).spnTurns.last0 < 64 ∧ State.reset.spnTurn ≠ some 0 ∧
     (match s.spnRead (s.spnSrc 0 ⟨0x400000001, 0x4000000000, 0x4000000100⟩ 0) 4 false none with | .ok b => b == [0#8, 0#8, 0#8, 0#8] | .error _ => false) = true ∧
     s.spnMayWrite (s.spnDst 0 ⟨0x400000001, 0x4000000000, 0x4000000100⟩ 0) 4 = none ∧ s.spnMayWrite 0 4 = some 3 ∧
     partnerOf 0x4000000000 = none) ∧
    (let s : State := { fs [(R.SPN_CH_STATUS 0, F.SPN_CH_STATUS_STATE, 2)] with beats := 1024, spn := [(0, { SpnCh.init with work := some (.wait ⟨0x100000013, 0, 0⟩ 0 none false) })] };
     s.spnState 0 = 2 ∧ (s.spch 0).work = some (.wait ⟨0x100000013, 0, 0⟩ 0 none false) ∧ 0x100000013 / 16 % 4 = 1 ∧
     s.rd (R.SPN_CH_EVENT 0) &&& w32 (0x100000013 / 256 % 256) = 0#32 ∧ 0 + 1024 * (0x100000013 / 2 ^ 32) ≤ s.beats) ∧
    (let s : State := { fs [(R.SPN_CH_STATUS 0, F.SPN_CH_STATUS_STATE, 2)] with spn := [(0, { SpnCh.init with work := some (.wait ⟨0x23, 0x4000000000, 0⟩ 0 none false) })] };
     (s.spch 0).work = some (.wait ⟨0x23, 0x4000000000, 0⟩ 0 none false) ∧ 0x23 / 16 % 4 = 2 ∧
     (match s.spnRead 0x4000000000 8 false none with | .ok b => b == List.replicate 8 0#8 | .error _ => false) = true) ∧
    (let s : State := { fs [(R.SPN_CH_STATUS 0, F.SPN_CH_STATUS_STATE, 1)] with spn := [(0, { SpnCh.init with work := some (.signal ⟨0x24, 0x4000000000, 0⟩), touched := [(2, 64)] })] };
     s.spnState 0 = 1 ∧ (s.spch 0).work = some (.signal ⟨0x24, 0x4000000000, 0⟩) ∧
     (s.spch 0).touched = (2, 64) :: [] ∧ s.spnMayWrite 0x4000000000 32 = none ∧ SpnCh.init.touched = [] ∧
     s.spnPrio 0 = false ∧ ((partnerOf 0x4000000000).bind s.entryTurn).isSome = false) ∧
    (let s := turnsAt 0 0 512; s.spnPrio 0 = false ∧ ((partnerOf (0xC0 * 2 ^ 56)).bind s.entryTurn).isSome = true) ∧
    ((turnsAt 1 0 512).spnTurn = some 0 ∧ (turnsAt 1 0 512).spnPrio 0 = true ∧ (turnsAt 0 0 512).spnTurn = none) ∧
    ((match State.reset.spnRead 0 8 false none with | .ok _ => false | .error _ => true) = true) ∧
    (let s : State := { fs [(R.SPN_CH_STATUS 0, F.SPN_CH_STATUS_STATE, 1)] with beats := 2 ^ 40, spn := [(0, { SpnCh.init with work := some (.move ⟨0x400000001, 0xC0 * 2 ^ 56, 0x4000000100⟩ 0) })] };
     s.spnState 0 = 1 ∧ partnerOf (s.spnSrc 0 ⟨0x400000001, 0xC0 * 2 ^ 56, 0x4000000100⟩ 0) = some 0 ∧
     (s.spch 0).asked + s.cto 0 ≤ s.beats ∧ State.reset.beats < (s.spch 0).asked + State.reset.cto 0) ∧
    (let s : State := { fs [(R.SPN_CH_STATUS 0, F.SPN_CH_STATUS_STATE, 2)] with spn := [(0, { SpnCh.init with work := some (.wait ⟨0x23, 0xC1 * 2 ^ 56, 0⟩ 0 none false) })] };
     s.spnState 0 = 2 ∧ 0x23 / 16 % 4 = 2 ∧ partnerOf (0xC1 * 2 ^ 56) = some 1 ∧ 0x13 / 16 % 4 ≠ 2) ∧
    ((2, 64) ∈ ({ SpnCh.init with touched := [(2, 64)] } : SpnCh).touched ∧
     (fs [(R.HNS_PORT_STATUS 2, F.HNS_PORT_STATUS_PERST, 0), (R.HNS_PORT_STATUS 2, F.HNS_PORT_STATUS_LINK_UP, 1), (R.HNS_PORT_STATUS 2, F.HNS_PORT_STATUS_BME, 1)]).portWriting 2 = true) :=
  by and_intros <;> decide +kernel

/-- Operands and states that meet what TransfersKeepPages assumes. -/
theorem test_meets_TransfersKeepPages :
    (let i : SpnIns := ⟨0x400000001, 0, 0⟩; 0 < i.len ∧ i.sCirc = false ∧
     State.reset.ringRd 3 15 ≤ State.reset.ringWr 3 15) ∧
    ((⟨0x400000031, 0, 0⟩ : SpnIns).sCirc = true ∧ (⟨0x400000031, 0, 0⟩ : SpnIns).dCirc = true ∧
     State.reset.spnSptr 0 < 2 ^ State.reset.spnSlen 0 ∧ State.reset.spnSlen 0 ≤ 40) :=
  by and_intros <;> decide +kernel

/-- Operands and states that meet what RelocksAndHoldover assumes. -/
theorem test_meets_RelocksAndHoldover :
    ((inRun 3).atRest = false ∧ State.reset.atRest = true ∧ State.reset.clk.stage = 2 ∧
     State.reset.clk.toRefin = false ∧ State.reset.clk.stage ≠ 0) ∧
    (({ State.reset with clk := { ClkSt.init with stage := 0 } } : State).clk.stage = 0 ∧
     ({ State.reset with clk := { ClkSt.init with stage := 3 } } : State).clk.stage = 3 ∧
     ({ inRun 3 with clk := { ClkSt.init with stage := 0 } } : State).softStopNow = none) ∧
    (let s : State := { State.reset with beats := 12000000, clk := { ClkSt.init with stage := 1 } }; s.clk.stage = 1 ∧
     s.clk.since + 10 * 1200000 ≤ s.beats) ∧
    (let s : State := { State.reset with beats := 122880, clk := { ClkSt.init with stage := 3 } }; s.clk.stage = 3 ∧
     s.clk.since + 122880 ≤ s.beats ∧ s.nowFrac < 256) ∧
    (let s : State := { fs [(R.STP_STATUS, F.STP_STATUS_ON_REFIN, 1)] with clk := { ClkSt.init with stage := 0, toRefin := true } };
     s.flag R.STP_STATUS F.STP_STATUS_ON_REFIN = true ∧ s.flag R.STP_STATUS F.STP_STATUS_HOLDOVER = false ∧
     s.clk.toRefin = true) ∧
    (let s := late (1200000001) (fs [(R.STP_STATUS, F.STP_STATUS_HOLDOVER, 1), (R.STP_HOLD_LIMIT, ⟨0, 16⟩, 1)]);
     s.flag R.STP_STATUS F.STP_STATUS_HOLDOVER = true ∧ (s.rd R.STP_HOLD_LIMIT).toNat % 2 ^ 16 ≠ 0 ∧
     s.clk.holdLogged = false ∧ s.clk.holdSince + (s.rd R.STP_HOLD_LIMIT).toNat % 2 ^ 16 * 1000 * 1200000 < s.beats) ∧
    ((fs [(R.STP_CFG, F.STP_CFG_HOLD_STOPS, 1)]).flag R.STP_CFG F.STP_CFG_HOLD_STOPS = true ∧
     (inRun 2).runState = rsArmed) ∧
    ((State.reset.wr R.STP_REF_NOM 40000000#32).refWindow 0 = true ∧
     (State.reset.wr R.STP_REF_NOM 40000000#32).refWindow 100000000 = false) ∧
    (let s : State := { fs [(R.STP_STATUS, F.STP_STATUS_HOLDOVER, 1)] with clk := { ClkSt.init with stage := 0 } };
     s.clk.snap = none ∧ s.flag R.STP_STATUS F.STP_STATUS_SLEWING = false ∧
     s.flag R.STP_STATUS F.STP_STATUS_REF_QUAL = false) ∧
    (({ State.reset with clk := { ClkSt.init with snap := some (-3839) } } : State).clk.snap = some (-3839) ∧
     (fs [(R.STP_STATUS, F.STP_STATUS_SLEWING, 1)]).flag R.STP_STATUS F.STP_STATUS_SLEWING = true) ∧
    (let s : State := { fs [(R.STP_STATUS, F.STP_STATUS_ON_REFIN, 1), (R.STP_STATUS, F.STP_STATUS_LOCKED, 1)] with clk := { ClkSt.init with stage := 0, freqs := [(0, 7)] } };
     s.flag R.STP_STATUS F.STP_STATUS_ON_REFIN = true ∧ s.flag R.STP_STATUS F.STP_STATUS_LOCKED = true ∧
     s.flag R.STP_STATUS F.STP_STATUS_SLEWING = false ∧ s.flag R.STP_STATUS F.STP_STATUS_HOLDOVER = false ∧
     s.clk.freqs = [(0, 7)] ∧ (0, 7) ∈ s.clk.freqs.takeWhile (fun e => decide (s.beats < e.1 + 16 * 1200000))) ∧
    (let s := fs [(R.STP_STATUS, F.STP_STATUS_ON_REFIN, 1), (R.STP_STATUS, F.STP_STATUS_HOLDOVER, 1), (R.STP_STATUS, F.STP_STATUS_SLEWING, 1)];
     s.flag R.STP_STATUS F.STP_STATUS_ON_REFIN = true ∧ s.flag R.STP_STATUS F.STP_STATUS_SLEWING = true ∧
     (fs [(R.STP_STATUS, F.STP_STATUS_HOLDOVER, 1)]).flag R.STP_STATUS F.STP_STATUS_SLEWING = false) ∧
    (let s := (fs [(R.STP_STATUS, F.STP_STATUS_HOLDOVER, 1)]).wr R.STP_REF_NOM 40000000#32; s.refWindow 0 = true ∧
     s.refWindow 100000000 = false ∧ s.flag R.STP_STATUS F.STP_STATUS_HOLDOVER = true ∧
     s.flag R.STP_STATUS F.STP_STATUS_REF_QUAL = false ∧ (s.fon R.STP_STATUS F.STP_STATUS_REF_QUAL).flag R.STP_STATUS F.STP_STATUS_REF_QUAL = true ∧
     s.clk.stage ≠ 1 ∧ s.clk.snap = none) :=
  by and_intros <;> decide +kernel

/-- Operands and states that meet what SyncLoadAndHoofbeat assumes. -/
theorem test_meets_SyncLoadAndHoofbeat :
    (State.reset.bankLost 4 = false ∧ (State.reset.bitOn R.PWR_VIO_STATUS 28).bankLost 4 = true ∧
     State.reset.flag R.STP_SYNC_CFG F.STP_SYNC_CFG_ONESHOT = true ∧
     State.reset.flag R.STP_CTRL F.STP_CTRL_SYNC_ARM = false ∧
     (fs [(R.STP_SYNC_CFG, F.STP_SYNC_CFG_ONESHOT, 0)]).flag R.STP_SYNC_CFG F.STP_SYNC_CFG_ONESHOT = false) ∧
    (let s : State := { State.reset with clk := { ClkSt.init with syncs := [⟨2, 0, 2⟩], snap := some 5 } };
     s.clk.syncs = ⟨2, 0, 2⟩ :: [] ∧ s.beats < 2 ∧ (∃ w ∈ s.clk.syncs, w.beat = s.beats + 2 ∧ w.wrpAct = 2) ∧
     2 ≤ (late 2 s).beats ∧ s.clk.snap = some 5) ∧
    ((fs [(R.WRP_CFG, F.WRP_CFG_RUN_STEP, 1)]).flag R.WRP_CFG F.WRP_CFG_RUN_STEP = true ∧
     (inRun 3).flag R.WRP_CFG F.WRP_CFG_RUN_STEP = false ∧ State.reset.clk.load = none) ∧
    ((fs [(R.STP_OUT_CFG 7, F.STP_OUT_CFG_EN, 1), (R.STP_OUT_CFG 7, F.STP_OUT_CFG_SYNC_EN, 1)]).syncOuts ≠ []) ∧
    (({ State.reset with clk := { ClkSt.init with load := some (5, 2) } } : State).clk.load = some (5, 2) ∧ 5 < 2 ^ 64) ∧
    (let s : State := { ((inRun 3).fset (R.HFB_IN_CFG 31) F.HFB_IN_CFG_EN 1).fset R.HFB_STATUS F.HFB_STATUS_ENABLE 1 with clk := { ClkSt.init with stage := 0 } };
     s.clk.stage = 0 ∧ s.flag (R.HFB_IN_CFG 31) F.HFB_IN_CFG_PS_EN = false ∧ 1 ≤ (s.hfbIn 31).scaled + 1 ∧ s.bankLost (31 / 8) = false ∧ s.hfbOn 31 = true ∧ s.flag R.HFB_STATUS F.HFB_STATUS_ENABLE = true ∧
     s.runState = rsRunning ∧ s.fget (R.HFB_IN_CFG 31) F.HFB_IN_CFG_EDGE = 0 ∧
     2 ^ s.fget (R.HFB_IN_CFG 31) F.HFB_IN_CFG_DECIM ≤ (s.hfbIn 31).skipped + 1 ∧ (s.hfbIn 31).lastAt = none) ∧
    ((State.reset.hfbIn 0).skipped + 1 < 2 ^ (fs [(R.HFB_IN_CFG 0, F.HFB_IN_CFG_DECIM, 1)]).fget (R.HFB_IN_CFG 0) F.HFB_IN_CFG_DECIM) ∧
    (State.reset.bit R.HFB_DLL_LOCK 31 = false ∧ (State.reset.bitOn R.HFB_DLL_LOCK 31).bit R.HFB_DLL_LOCK 31 = true ∧
     State.reset.flag R.HFB_STATUS F.HFB_STATUS_CALIBRATING = false) ∧
    (let s : State := { fs [(R.HFB_STATUS, F.HFB_STATUS_CALIBRATING, 1)] with hfb := { HfbSt.init with calibrating := [31] } };
     s.flag R.HFB_STATUS F.HFB_STATUS_CALIBRATING = true ∧ s.hfb.calibrating = [31] ∧
     (List.replicate 256 0#8).length = 256) ∧
    ((fs [(R.HFB_IN_CFG 0, F.HFB_IN_CFG_REC, 1)]).flag (R.HFB_IN_CFG 0) F.HFB_IN_CFG_REC = true ∧
     (State.reset.side 8).quill.length < 4096 ∧ 4096 ≤ (List.replicate 4096 (⟨0, 0, 0, [], 0⟩ : SideEntry)).length) ∧
    (let s := fs [(R.HFB_IN_CFG 0, F.HFB_IN_CFG_PS_EN, 1), (R.HFB_IN_CFG 0, F.HFB_IN_CFG_PS, 1)];
     s.flag (R.HFB_IN_CFG 0) F.HFB_IN_CFG_PS_EN = true ∧ (s.hfbIn 0).scaled + 1 < 2 ^ s.fget (R.HFB_IN_CFG 0) F.HFB_IN_CFG_PS) ∧
    (({ HfbIn.init with lastAt := some 0 } : HfbIn).lastAt = some 0 ∧ 0 < 0 + 1024 ∧ 0 + 1024 ≤ 1024) ∧
    (State.reset.flag (R.STP_OUT_CFG 0) F.STP_OUT_CFG_EN = false ∧ State.reset.clk.stage ≠ 0) ∧
    (let s : State := { fs [(R.STP_OUT_CFG 7, F.STP_OUT_CFG_EN, 1), (R.STP_OUT_CFG 7, F.STP_OUT_CFG_SYNC_EN, 1)] with beats := 1, clk := { ClkSt.init with stage := 0, phases := [(7, some 0)] } };
     s.flag (R.STP_OUT_CFG 7) F.STP_OUT_CFG_EN = true ∧ s.bit R.STP_OUT_STATUS (16 + 7) = false ∧ s.clk.stage = 0 ∧ s.clk.snap = none ∧
     s.clk.syncs = [] ∧ s.flag (R.STP_OUT_CFG 7) F.STP_OUT_CFG_MODE = false ∧ Tab.get (fun _ => none) s.clk.phases 7 = some 0 ∧
     0 ≤ s.beats ∧ s.atRest = true ∧ 7 ∈ s.syncOuts ∧
     (∃ w ∈ ({ s.clk with syncs := [⟨9, 2, 0⟩] } : ClkSt).syncs, w.divAct = 2 ∧ w.beat ≤ s.beats + 8)) ∧
    (let s := (fs [(R.STP_OUT_CFG 0, F.STP_OUT_CFG_EN, 1), (R.STP_OUT_CFG 0, F.STP_OUT_CFG_MODE, 1), (R.STP_OUT_CFG 0, F.STP_OUT_CFG_SPREAD, 2), (R.STP_OUT_CFG 0, F.STP_OUT_CFG_DEPTH, 5)]).wr (R.STP_OUT_FREQ 0) 800000000#32;
     s.flag (R.STP_OUT_CFG 0) F.STP_OUT_CFG_MODE = true ∧ 10000000 ≤ (s.rd (R.STP_OUT_FREQ 0)).toNat ∧
     (s.rd (R.STP_OUT_FREQ 0)).toNat ≤ 800000000 ∧ s.fget (R.STP_OUT_CFG 0) F.STP_OUT_CFG_SPREAD = 2 ∧
     (s.fset (R.STP_OUT_CFG 0) F.STP_OUT_CFG_SPREAD 1).fget (R.STP_OUT_CFG 0) F.STP_OUT_CFG_SPREAD = 1 ∧
     (s.fset (R.STP_OUT_CFG 0) F.STP_OUT_CFG_SPREAD 0).fget (R.STP_OUT_CFG 0) F.STP_OUT_CFG_SPREAD = 0) ∧
    (State.reset.atRest = true ∧ ({ State.reset with clk := { ClkSt.init with load := some (5, 2) } } : State).clk.load ≠ none ∧
     State.reset.clk.syncs = []) :=
  by and_intros <;> decide +kernel

/-- Operands and states that meet what StepsMoveAlike assumes. -/
theorem test_meets_StepsMoveAlike :
    State.reset.nowFrac < 256 ∧ (7 : Nat) < 8 ∧ 2 ^ 72 - 1 < 2 ^ 72 ∧
    (State.reset.bitOn (R.BOB_RING_CFG 191) 0).ringOn 191 = true := by decide +kernel

/-- Operands and states that meet what HitchAccesses assumes. -/
theorem test_meets_HitchAccesses :
    (let q : HitchReq := ⟨⟨true, 0⟩, 0, true, 4, R.GLB_START_AT_LO, 0, .clean, []⟩; notForwarded q.addr = false ∧
     State.reset.hitch.linkLost = false ∧ hbmOffset q.addr = none ∧ State.reset.mustWait q = false ∧
     State.reset.verdict q = .perform ∧ q.write = true ∧ (memWindow q.addr).isNone = true ∧
     State.reset.hitch.retries = [] ∧ State.reset.hitch.held = [] ∧ State.reset.bob.pcs = [] ∧
     State.reset.pnl.palCopy = false ∧ State.reset.brd.chain.length < 240) ∧
    (let q : HitchReq := ⟨⟨true, 0⟩, 0, true, 4, R.GLB_START_AT_LO, 0, .clean, []⟩;
     ({ State.reset with hitch := { HitchSt.init with held := [q] } } : State).mustWait q = true ∧
     ({ State.reset with hitch := { HitchSt.init with retries := [⟨q, 0, 0⟩] } } : State).mustWait q = true) ∧
    (let q : HitchReq := ⟨⟨true, 0⟩, 0, true, 4, 0x2200000, 0, .clean, []⟩; State.reset.verdict q = .perform ∧
     (match placeOf (q.addr / 4 * 4) with | .palette _ => true | _ => false) = true ∧
     ({ State.reset with pnl := { PnlSt.init with palCopy := true } } : State).mustWait q = true) ∧
    (notForwarded 0x4000000000 = false ∧ State.reset.mustWait ⟨⟨true, 0⟩, 0, false, 4, 0x4000000000, 0, .clean, []⟩ = false) ∧
    (let q : HitchReq := ⟨⟨true, 0⟩, 0, false, 4, R.GLB_START_AT_LO, 0, .clean, []⟩; State.reset.verdict q = .perform ∧
     q.write = false ∧ 4 ≤ q.size) ∧
    (let q : HitchReq := ⟨⟨true, 0⟩, 0, false, 1, R.GLB_START_AT_LO, 0, .clean, []⟩; State.reset.verdict q = .perform ∧ q.size < 4) ∧
    (State.reset.verdict ⟨⟨true, 0⟩, 0, true, 4, 0x0FFFFFFC, 0, .clean, []⟩ = .error 1 ∧ notForwarded 0x2000000000 = true ∧
     notForwarded 0x4000000000 = false) ∧
    (let s : State := { State.reset with pdk := { PdkSt.init with running := [0] } };
     s.verdict ⟨⟨true, 0⟩, 0, false, 4, R.SPC_WIN_ADDR 0, 0, .clean, []⟩ = .retry 0) ∧
    (240 ≤ (List.replicate 240 (⟨0, 0, 0, 0, 0, 0, 0⟩ : JEntry)).length) ∧
    (let s := fs [(R.BOB_HOST, F.BOB_HOST_GIB, 4)]; hbmOffset (0x4000000000#48).toNat = some 0 ∧
     (s.hbmUnit 0).isSome = true ∧ 256 < 256 % 256 + 260 ∧ 4 ≤ 256 ∧ 0 % 256 + 256 ≤ 256) ∧
    (let r : Retry := ⟨⟨⟨true, 0⟩, 5, false, 4, R.GLB_START_AT_LO, 0, .clean, []⟩, 0, 0⟩;
     let s : State := { State.reset with beats := 64, hitch := { HitchSt.init with retries := [r] } };
     s.hitch.retries = [r] ∧ r.req.tag = 5 ∧ r.since + 64 ≤ s.beats ∧ s.reqBlocked r.req = false ∧ 16 ≤ 16 ∧ r.tries < 16 ∧
     ({ State.reset with brd := { BrdSt.init with chain := List.replicate 240 ⟨0, 0, 0, 0, 0, 0, 0⟩ } } : State).reqBlocked ⟨⟨true, 0⟩, 0, true, 4, R.GLB_START_AT_LO, 0, .clean, []⟩ = true ∧
     State.reset.beats < r.since + 64) ∧
    (State.reset.brd.chain = [] ∧ 1 ≤ (5#8).toNat ∧ (5#8).toNat ≤ 5 ∧ 5 < (6#8).toNat) ∧
    (let q : HitchReq := ⟨⟨true, 0⟩, 1029, true, 4, R.GLB_START_AT_LO, 0, .clean, []⟩;
     ({ State.reset with hitch := { HitchSt.init with modulesUp := 3 } } : State).hitch.modulesUp ≠ 0 ∧ State.reset.dict.waiting = [] ∧ State.reset.brd.chain.length + State.reset.entriesOf q ≤ 240 ∧
     ({ State.reset with hitch := { HitchSt.init with held := [{ q with tag := 5, src := ⟨true, 2⟩ }] } } : State).mustWait q = true ∧
     ({ fs [(R.GLB_BOOT, F.GLB_BOOT_STAGE, 7)] with hitch := { HitchSt.init with modulesUp := 0 } } : State).mustWait q = true ∧
     (fs [(R.GLB_BOOT, F.GLB_BOOT_STAGE, 7)]).bootStage = 7 ∧ (accessWords q.addr 8).length = 2) ∧
    (let s : State := { State.reset with pwr := { PwrSt.init with brownout := some 0 } }; s.pwr.brownout ≠ none ∧
     s.flag R.BRD_CMD F.BRD_CMD_GO = false ∧ s.testedUnit R.BRD_CMD = none ∧ 0x101 / 256 % 2 = 1 ∧
     fieldOf (w32 0x101) F.BRD_CMD_CODE ∈ keyOps ∧ s.verdict ⟨⟨true, 0⟩, 0, true, 4, R.BRD_CMD, 0x101, .clean, []⟩ = .busy ∧
     Verdict.busy.again = true) ∧
    (let s : State := { State.reset with pwr := { PwrSt.init with moving := some (0, true, 0), railAt := some 0 } };
     s.verdict ⟨⟨true, 0⟩, 0, false, 4, R.SPC_WIN_ADDR 0, 0, .clean, []⟩ = .update) :=
  by and_intros <;> decide +kernel

/-- Operands and states that meet what LinkBootAndMasks assumes. -/
theorem test_meets_LinkBootAndMasks :
    (({ State.reset with hitch := { HitchSt.init with modulesUp := 3 } } : State).hitch.modulesUp = 3 ∧
     ({ State.reset with hitch := { HitchSt.init with modulesUp := 2 } } : State).hitch.modulesUp = 2 ^ 1) ∧
    (({ State.reset with hitch := { HitchSt.init with linkLost := true } } : State).hitch.linkLost = true ∧
     State.reset.hitch.linkLost = false ∧ State.reset.hitch.retries = [] ∧ State.reset.hitch.held = [] ∧
     State.reset.hitchPending = []) ∧
    (let q : HitchReq := ⟨⟨true, 0⟩, 0, true, 4, 0, 0, .clean, []⟩;
     ({ State.reset with hitch := { HitchSt.init with held := [q] } } : State).hitch.held = [q]) ∧
    (State.reset.released = false ∧ State.reset.bootStage < 7 ∧ (fs [(R.GLB_BOOT, F.GLB_BOOT_STAGE, 7)]).bootStage = 7) ∧
    (let s : State := { fs [(R.GLB_BOOT, F.GLB_BOOT_STAGE, 5)] with pwr := { PwrSt.init with nresetLow := false }, beats := 12000000 };
     s.bootStage = 5 ∧ s.released = true ∧ s.flag R.GLB_BOOT F.GLB_BOOT_HOST_SET = false ∧
     s.hitch.stageSince + 12000000 ≤ s.beats ∧ State.reset.beats < s.hitch.stageSince + 12000000) ∧
    ((fs [(R.GLB_BOOT, F.GLB_BOOT_HOST_SET, 1)]).flag R.GLB_BOOT F.GLB_BOOT_HOST_SET = true ∧ (8#32).toNat % 16 = 8 ∧
     (3#32).toNat % 16 ≠ 2) ∧
    (let s := (((State.reset.wr (intEnable 255) 1#32).raise 255 0)).wr (R.GLB_VEC_MASK 7) 0x80000000#32;
     (s.rd (R.GLB_VEC_MASK 7)).getLsbD 31 = true ∧ (0#32).getLsbD 31 = false ∧ s.vecPend (32 * 7 + 31) = true) ∧
    (State.reset.dict.waiting = [] ∧ ({ State.reset with hitch := { HitchSt.init with modulesUp := 1 } } : State).hitch.modulesUp ≠ 0 ∧ State.reset.brd.chain.length + 4 ≤ 240 ∧
     (let s : State := { fs [(R.GLB_BOOT, F.GLB_BOOT_STAGE, 7)] with hitch := { HitchSt.init with modulesUp := 0 } };
      s.hitch.modulesUp = 0 ∧ 2 < s.bootStage ∧ s.hitch.linkLost = false)) ∧
    (State.reset.stageImage 4 [] = false ∧ State.reset.stageImage 3 [] = true ∧
     (fs [(R.GLB_BOOT, F.GLB_BOOT_STAGE, 3)]).flag R.STP_STATUS F.STP_STATUS_LOCKED = false) ∧
    ((∀ y ∈ State.reset.brd.windows, y.src ≠ 1) ∧
     (∃ y ∈ ({ State.reset with brd := { BrdSt.init with windows := [⟨1, 0, 4, [0#8, 0#8, 0#8, 0#8], 0⟩] } } : State).brd.windows, y.src = 1)) :=
  by and_intros <;> decide +kernel

/-- Operands and states that meet what FieldsUnderTheirClass assumes. -/
theorem test_meets_FieldsUnderTheirClass :
    ((regRowAt R.GLB_START_AT_LO).isSome = true ∧ (regRowAt (R.GLB_START_AT_LO + 4)).isSome = true ∧
     State.reset.gateShut R.GLB_START_AT_LO = false) ∧
    ((match regRowAt R.STP_STATUS with | some r => (State.reset.aliasWord r R.STP_STATUS 0 1#32).isNone | none => false) = true) ∧
    ((fs [(R.CND_STATUS 0, F.CND_STATUS_ENABLE, 1)]).gateShut (R.CND_CH_CFG 0 0) = true ∧
     State.reset.gateShut (R.CND_CH_CFG 0 0) = false) ∧
    ((match regRowAt R.WRP_NOW_LO, regRowAt (R.WRP_NOW_LO + 4) with | some r, some _ => shLows.contains r.base | _, _ => false) = true ∧
     State.reset.breach.contains (vectorOf R.WRP_NOW_LO) = false ∧ State.reset.breach.contains (vectorOf (R.WRP_NOW_LO + 4)) = false) ∧
    ((match regRowAt R.PWR_POWERED, regRowAt R.GLB_START_AT_LO with | some r, some q => isCounter r && !isCounter q | _, _ => false) = true ∧
     State.reset.rd0 R.GLB_START_AT_LO = State.reset.rd R.GLB_START_AT_LO) ∧
    (let s : State := { State.reset with tick := { TickSt.init with hits := [(0, 1#32)], loads := [(0, 1#32)] } };
     (s.hit 0).getLsbD 0 = true ∧ (s.loaded 0).getLsbD 0 = true ∧ (s.hit 0).getLsbD 1 = false ∧ (s.loaded 0).getLsbD 1 = false) ∧
    ((match regRowAt (R.CND_CH_CFG 0 0) with | some r => (State.reset.aliasWord r (R.CND_CH_CFG 0 0) 0 1#32).isSome && decide (State.reset.view r (R.CND_CH_CFG 0 0) = State.reset.rd (R.CND_CH_CFG 0 0)) | none => false) = true) :=
  by and_intros <;> decide +kernel

/-- Operands and states that meet what NmtAndCan assumes. -/
theorem test_meets_NmtAndCan :
    (State.reset.canOn 0 = false ∧ (State.reset.canPort 1).held = []) ∧
    (let s : State := { State.reset with can := [(0, { CanPort.init with nmt := 127 })] }; s.canOn 0 = true ∧
     (s.canPort 0).nmt ≠ 5 ∧ (s.canPort 0).nmt = 127 ∧ s.bankLost 5 = false ∧ s.dict.portEn / 2 ^ 0 % 2 = 1 ∧
     s.dict.cobEmcy < 2 ^ 31 ∧ (s.canPort 0).held = [] ∧ (s.canPort 0).lastEmcy = none ∧ s.tpdoLive 0 0 = false) ∧
    (let s : State := { inRun 3 with can := [(1, { CanPort.init with nmt := 4 })], dict := { DictSt.init with stopLink1 := true } };
     s.canOn 1 = true ∧ (s.canPort 1).nmt = 4 ∧ s.dict.stopLink1 = true ∧ s.runState = rsRunning) ∧
    (let s : State := { State.reset with beats := 6000000000, can := [(0, { CanPort.init with nmt := 5 })] };
     s.tpdoLive 0 0 = true ∧ (s.tpdoObj 0).event ≠ 0 ∧
     (s.tpdoTx 0 0).since + 1200000 * (s.tpdoObj 0).event ≤ s.beats ∧
     (s.tpdoTx 0 0).since + 120000 * (s.tpdoObj 0).inhibit ≤ s.beats ∧
     State.reset.beats < (s.tpdoTx 0 0).since + 1200000 * (s.tpdoObj 0).event) ∧
    (let s : State := { State.reset with can := [(0, { CanPort.init with nmt := 5 })] };
     (s.tpdoTx 0 0).seen ≠ s.tpdoSeen 0 0) ∧
    (let e : Emcy := ⟨0, 0, 0, 0, 0⟩;
     let s : State := { State.reset with beats := 1200000, can := [(0, { CanPort.init with nmt := 5, held := [e], lastEmcy := some 0 })] };
     (s.canPort 0).held = e :: [] ∧ (s.canPort 0).lastEmcy = some 0 ∧ 0 + 120000 * s.dict.inhibitEmcy ≤ s.beats ∧
     s.canOn 0 = true ∧ State.reset.beats < 0 + 120000 * State.reset.dict.inhibitEmcy) :=
  by and_intros <;> decide +kernel

/-- Operands and states that meet what DictionaryService assumes. -/
theorem test_meets_DictionaryService :
    (let s : State := { State.reset with can := [(0, { CanPort.init with nmt := 127 })] }; s.usdoServes 0 = true ∧
     (s.canPort 0).usdo = none ∧ 4096 < 4097) ∧
    (let u : UsdoOpen := ⟨true, 0x1017, 0, [], 2, 0, 0⟩;
     let s : State := { State.reset with beats := 1200000000, can := [(0, { CanPort.init with nmt := 127, usdo := some u })] };
     s.usdoServes 0 = true ∧ (s.canPort 0).usdo = some u ∧ (s.canPort 0).usdo ≠ none ∧
     u.since + 1200000 * s.dict.usdoTimeout ≤ s.beats ∧ State.reset.beats < u.since + 1200000 * s.dict.usdoTimeout ∧
     u.download = true ∧ (u.bytes ++ [0#8, 1#8]).length = u.expected ∧ (u.bytes ++ [0#8]).length ≠ u.expected) ∧
    (let u : UsdoOpen := ⟨false, 0x1008, 0, List.replicate 61 0#8, 61, 0, 0⟩; u.download = false ∧
     60 < u.bytes.length ∧ (u.bytes.drop 60).length ≤ 60) ∧
    ((State.reset.odRead 0 0x1017 0).abort = 0 ∧ (State.reset.odRead 0 0x1017 0).data.length ≤ 56 ∧
     (State.reset.odRead 0 0x0FFF 0).abort ≠ 0) ∧
    (odTop 0x0FFF = none ∧ odTop 0x1017 ≠ none ∧ (odEntry 0x1017 1).isNone = true ∧ (odEntry 0x1017 0).isSome = true) ∧
    ((match odEntry 0x1017 0 with | some e => e.write && e.size == some 2 | none => false) = true ∧
     (match odEntry 0x1000 0 with | some e => !e.write | none => false) = true) ∧
    (State.reset.odWriteAbort 0x1017 0 2 = 0 ∧ State.reset.odWriteAbort 0x1017 0 3 ≠ 0) ∧
    (let s : State := { State.reset with can := [(0, { CanPort.init with address := 0x60001 })] };
     (s.canPort 0).address % 4 ≠ 0 ∧ (s.canPort 1).address % 8 = 0 ∧ 0x60000 % 4 = 0 ∧ 0x60000 / 0x10000 = 6 ∧
     s.regAbort 1 true 4 = 0) ∧
    (let q : DictReq := ⟨0, 1, 0x1017, 0, none, none⟩; q.retry = none ∧ q.touches = false ∧ State.reset.dictProbe q = none ∧
     State.reset.dict.waiting = [] ∧ State.reset.linkRetrains = false ∧ State.reset.hitch.held = [] ∧ (State.reset.canPort 0).usdo = none) ∧
    (let q : DictReq := ⟨0, 1, 0x2F00, 2, some [0#8, 0#8, 0#8, 0#8], some (3, 0)⟩;
     let s : State := { State.reset with beats := 64, dict := { DictSt.init with waiting := [q] } };
     q.touches = true ∧ q.retry ≠ none ∧ s.dict.waiting = q :: [] ∧ 0 + 64 ≤ s.beats ∧ State.reset.beats < 0 + 64 ∧ s.dict.waiting ≠ []) ∧
    (let q : DictReq := ⟨0, 1, 0x2F00, 2, some [0#8, 0#8, 0#8, 0#8], none⟩;
     let s : State := { State.reset with can := [(0, { CanPort.init with nmt := 127, address := R.SPC_WIN_ADDR 0 })], pdk := { PdkSt.init with running := [0] } };
     s.canOn q.port = true ∧ s.bridgeReady.dictStuck q = false ∧
     (match s.bridgeReady.dictProbe q with | some a => (s.bridgeReady.verdict a).again && decide (a.addr < 2 ^ 64) | none => false) = true) ∧
    (let q : DictReq := ⟨0, 1, 0x2F00, 2, some [0#8, 0#8, 0#8, 0#8], none⟩;
     let s : State := { State.reset with can := [(0, { CanPort.init with nmt := 127, address := R.GLB_START_AT_LO })] };
     (match s.bridgeReady.dictProbe q with | some a => (s.bridgeReady.verdict a).again | none => true) = false ∧
     ({ s with hitch := { HitchSt.init with modulesUp := 0 } }.fset R.GLB_BOOT F.GLB_BOOT_STAGE 7).bridgeReady.dictStuck q = true) ∧
    (2048 ≤ 0x800 % 2 ^ 30 ∧ 0x80000081 % 2 ^ 30 < 2048 ∧ 0x80000081 < 2 ^ 32) :=
  by and_intros <;> decide +kernel

/-- Operands and states that meet what NmtStateGoverns assumes. -/
theorem test_meets_NmtStateGoverns :
    (let s : State := { State.reset with can := [(0, { CanPort.init with nmt := 127 })] }; s.canOn 0 = true ∧
     (s.canPort 0).nmt = 127 ∧ (s.canPort 0).usdo = none ∧ ([0#8] : List (BitVec 8)).length = 1) ∧
    (let s : State := { State.reset with beats := 1200000000, can := [(0, { CanPort.init with nmt := 5 })] };
     s.canOn 0 = true ∧ (s.canPort 0).nmt = 5 ∧ (s.canPort 0).usdo = none ∧ s.hitch.linkLost = false ∧
     (s.tpdoObj 0).cobId < 2 ^ 31 ∧ (s.tpdoObj 0).event ≠ 0 ∧
     (s.tpdoTx 0 0).since + 1200000 * (s.tpdoObj 0).event ≤ s.beats ∧ s.dict.heartbeat ≠ 0 ∧
     (s.canPort 0).lastBeat + 1200000 * max 10 s.dict.heartbeat ≤ s.beats) ∧
    (let s : State := { State.reset with can := [(1, { CanPort.init with nmt := 4 })] }; s.canOn 1 = true ∧
     (s.canPort 1).nmt = 4 ∧ s.dict.stopLink0 = false ∧ s.dict.stopLink1 = false) ∧
    (({ State.reset with can := [(0, { CanPort.init with nmt := 127 })] } : State).bridgeReady = { State.reset with can := [(0, { CanPort.init with nmt := 127 })] }) ∧
    (State.reset.dict.waiting = [] ∧ State.reset.linkRetrains = false ∧ State.reset.hitch.held = [] ∧
     State.reset.dictProbe ⟨0, 1, 0x1017, 0, none, none⟩ = none ∧ State.reset.dictProbe ⟨0, 1, 0x1017, 0, some [], none⟩ = none) :=
  ⟨by decide +kernel, by decide +kernel, by decide +kernel, rfl, by decide +kernel⟩

/-- Operands and states that meet what HeartbeatProducer assumes. -/
theorem test_meets_HeartbeatProducer :
    (State.reset.canOn 1 = false ∧
     State.reset.beats < (State.reset.canPort 1).lastBeat + 1200000 * max 10 State.reset.dict.heartbeat) ∧
    (({ State.reset with dict := { DictSt.init with heartbeat := 0 } } : State).dict.heartbeat = 0) ∧
    (let s : State := { State.reset with beats := 1200000000, can := [(1, { CanPort.init with nmt := 127 })] };
     s.canOn 1 = true ∧ s.dict.heartbeat ≠ 0 ∧ (s.canPort 1).lastBeat + 1200000 * max 10 s.dict.heartbeat ≤ s.beats) :=
  by and_intros <;> decide +kernel

/-- Operands and states that meet what BridleCommands assumes. -/
theorem test_meets_BridleCommands :
    (State.reset.flag R.BRD_CMD F.BRD_CMD_GO = false ∧ State.reset.pwr.brownout = none ∧ State.reset.far.prog = none ∧
     State.reset.brd.backlog = []) ∧
    (let s : State := { fs [(R.BRD_CMD, F.BRD_CMD_GO, 1)] with brd := { BrdSt.init with cmdCode := 1, cmdLen := 421 } };
     s.flag R.BRD_CMD F.BRD_CMD_GO = true ∧ s.brd.cmdCode = 1 ∧ s.brd.cmdLen ≤ 16384 ∧ s.pwr.brownout = none ∧
     s.far.prog = none ∧ 1 ∈ keyOps ∧ (getBytes s.brd.buf 0 s.brd.cmdLen).length = 421 ∧
     recNat (getBytes s.brd.buf 0 s.brd.cmdLen) 0 1 = 0 ∧ s.dikOff = false) ∧
    (let s : State := { fs [(R.BRD_STATUS, F.BRD_STATUS_OPEN, 1)] with brd := { BrdSt.init with buf := [(227, 1#8)] } };
     s.brdIsOpen = true ∧ recNat (getBytes s.brd.buf 0 421) 227 1 / 2 ^ 0 % 2 = 1) ∧
    ((fs [(R.BRD_STATUS, F.BRD_STATUS_DIK_OFF, 1)]).dikOff = true) ∧
    (({ State.reset with pwr := { PwrSt.init with brownout := some 0 } } : State).pwr.brownout ≠ none ∧
     ({ State.reset with far := { FarSt.init with prog := some ⟨0, [], none⟩ } } : State).far.prog ≠ none ∧
     16384 < 16385 ∧ 5 ∈ fuseOps) ∧
    (let s : State := { State.reset with brd := { BrdSt.init with sessions := [(3, ⟨true, 1, 0, none, [], none⟩)], buf := [(0, 3#8)] } };
     recNat (getBytes s.brd.buf 0 1) 0 1 = 3 ∧ (getBytes s.brd.buf 0 1).length = 1 ∧ (s.session 3).valid = true ∧
     (s.session 2).valid = false ∧ (getBytes s.brd.buf 0 32).length = 32) ∧
    (State.reset.imageCheck [] = some 2 ∧ (2 : Nat) ≠ 0) ∧
    ((inRun 3).atRest = false ∧ State.reset.atRest = true ∧
     (upTo 4).find? (fun j => State.reset.ownerState j == 0) = some 0 ∧ State.reset.ownerState 3 ≠ 1 ∧
     (State.reset.wr R.BRD_OWNER 4#32).ownerState 1 = 1 ∧ (State.reset.wr R.BRD_OWNER 4#32).activeKeys 1 = [] ∧
     (State.reset.wr R.BRD_OWNER 5#32).activeKeys 1 ≠ []) ∧
    ((fs [(R.BRD_DEBUG, F.BRD_DEBUG_STATE, 2)]).fget R.BRD_DEBUG F.BRD_DEBUG_STATE = 2 ∧
     State.reset.fget R.BRD_DEBUG F.BRD_DEBUG_STATE = 0 ∧ (inRun 1).runState ≠ 0 ∧ State.reset.runState = 0) ∧
    (let e : JEntry := ⟨0, 0, 0, 0, 0, 0, 0⟩;
     let s : State := { State.reset with brd := { BrdSt.init with backlog := [(e, 0)] } };
     s.brd.backlog = (e, 0) :: [] ∧ (s.side 1).quill.length < sideDepth ∧
     sideDepth ≤ (List.replicate sideDepth 0).length) ∧
    ((inRun 4).runState = rsStopping ∧ (inRun 4).run.manifest = 0 ∧ (inRun 4).pwr.brownout = none ∧ (inRun 4).dikOff = false ∧
     ({ PwrSt.init with brownout := some 0 } : PwrSt).brownout ≠ none ∧
     (∀ k < 256, (inRun 4).streamOn k = false)) ∧
    (let s : State := { State.reset with run := { RunSt.init with manifest := 2 } }; s.run.manifest = 2 ∧
     s.manifestRoom s.brd.manifest = true ∧ s.manifestRoom (List.replicate 20000 0#8) = false) ∧
    (let s : State := { fs [(R.BRD_STATUS, F.BRD_STATUS_OPEN, 1)] with brd := { BrdSt.init with cmdLen := 325, buf := [(227, 1#8)] } };
     s.brdIsOpen = true ∧ (getBytes s.brd.buf 0 s.brd.cmdLen).length = 325 ∧ recNat (getBytes s.brd.buf 0 325) 227 1 / 2 ^ 0 % 2 = 1 ∧
     16128 + 97 < 16384) ∧
    (let s := (fs [(R.BRD_STATUS, F.BRD_STATUS_OPEN, 0)]).wr R.BRD_OWNER 1#32; s.brdIsOpen = false ∧ s.ownerState 0 = 1 ∧ State.reset.ownerState 0 ≠ 1 ∧
     State.reset.activeKeys 4 = [] ∧ s.activeKeys 4 ≠ [] ∧ State.reset.fget R.BRD_DEBUG F.BRD_DEBUG_STATE < 2) ∧
    (({ State.reset with brd := { BrdSt.init with cert := some [1#8] } } : State).brd.cert = some [1#8] ∧
     ({ State.reset with run := { RunSt.init with manifest := 4 } } : State).run.manifest = 4) :=
  by and_intros <;> decide +kernel

/-- Operands and states that meet what JournalIsOneChain assumes. -/
theorem test_meets_JournalIsOneChain :
    let e : JEntry := ⟨0, 0, 0, 0, 0, 0, 0⟩;
    let s : State := { State.reset with brd := { BrdSt.init with chain := [e, e] } }; s.brd.chain = [e, e] ∧
    (s.rd R.BRD_JSEQ).toNat + 2 < 2 ^ 32 ∧ s.brd.backlog.length ≤ 16384 := by decide +kernel

/-- Operands and states that meet what FarrierCommands assumes. -/
theorem test_meets_FarrierCommands :
    ((fs [(R.FAR_STATUS, F.FAR_STATUS_BUSY, 1)]).flag R.FAR_STATUS F.FAR_STATUS_BUSY = true ∧
     State.reset.flag R.FAR_STATUS F.FAR_STATUS_BUSY = false ∧ State.reset.pwr.brownout = none ∧
     State.reset.farCheck State.reset.staged ≠ 0) ∧
    (recImage (List.replicate 256 0#8) = false) ∧
    (let r := rec4; recImage r = true ∧ recListed r = true ∧ recPlausible r = true ∧ State.reset.genOk r = true ∧
     State.reset.slotUsed 0 = false ∧ State.reset.farCheck r = 0 ∧ recValid r = true) ∧
    (let r := rec12; recImage r = true ∧ recListed r = false) ∧
    (let r := rec1; recImage r = true ∧ recListed r = true ∧ recPlausible r = false) ∧
    (let r := rec4; let s : State := { State.reset with far := { FarSt.init with slots := [(0, r)] } };
     s.genOk r = false ∧ (∀ k < 128, ({ s with far := { s.far with voidDue := upTo 128 } } : State).slotUsed k = true)) ∧
    (let s : State := { State.reset with far := { FarSt.init with prog := some ⟨127, [0x7C#8, 0xFA#8], none⟩ } };
     s.far.prog = some ⟨127, [0x7C#8, 0xFA#8], none⟩ ∧ recMark [0x7C#8, 0xFA#8] = 0xFA7C ∧ s.far.waiting = [] ∧
     State.reset.far.prog = none) ∧
    (let s : State := { State.reset with far := { FarSt.init with stats := [(191, some ⟨2 ^ 24, 0, 0, false⟩)], toApply := [191] } };
     Tab.get (fun _ => none) s.far.stats 191 = some ⟨2 ^ 24, 0, 0, false⟩ ∧
     2 ^ fieldOf s.far.statsCfg F.FAR_STATS_CFG_WINDOW ≤ 2 ^ 24 ∧
     0 < 2 ^ fieldOf s.far.statsCfg F.FAR_STATS_CFG_WINDOW ∧ Tab.get (fun _ => none) s.far.stats 0 = none ∧
     191 ∈ s.far.toApply ∧ s.tick.soft ≤ s.brd.chain.length ∧ s.flag (R.CND_STATUS 23) F.CND_STATUS_ENABLE = false) ∧
    (let x : StatSum := ⟨2, 0, 2 * 16384, false⟩; 0 < x.n ∧ x.n ≤ 2 ^ 24 ∧ 100 < 2 ^ 16 ∧
     (statGain x 100).isSome = true) ∧
    ((fs [(R.FAR_CTRL, F.FAR_CTRL_PROG, 1)]).flag R.FAR_CTRL F.FAR_CTRL_PROG = true ∧
     State.reset.flag R.FAR_CTRL F.FAR_CTRL_PROG = false) :=
  by and_intros <;> decide +kernel

/-- Operands and states that meet what RecordsInForce assumes. -/
theorem test_meets_RecordsInForce :
    let r := rec4; let s : State := { State.reset with far := { FarSt.init with slots := [(5, r)] } };
    s.inForce 4 0 = [(5, r)] ∧ s.itemRecords 4 0 = [(5, r)] ∧ recParts r = 1 ∧
    (wholeGen [(5, r)] (recGen r)).isSome = true ∧ Tab.wf (fun _ => []) s.far.slots = true ∧
    Tab.get (fun _ => []) s.far.slots 6 = [] ∧ recValid [] = false := by decide +kernel

theorem test_rec9_crc_0 : ((rec9.take 3 ++ [0#8] ++ (rec9.drop 4).take 248).take 58).foldl crcByte 0xFFFFFFFF#32 = 0x4676e655#32 := by decide +kernel
theorem test_rec9_crc_1 : ((rec9.take 3 ++ [0#8] ++ (rec9.drop 4).take 248).drop 58).foldl crcByte 0x4676e655#32 = 0xFFFFFFFF#32 := by decide +kernel
theorem test_rec9_crc : recCrc rec9 = 0 := by
  have h := List.foldl_append (f := crcByte) (b := 0xFFFFFFFF#32)
    (l := (rec9.take 3 ++ [0#8] ++ (rec9.drop 4).take 248).take 58)
    (l' := (rec9.take 3 ++ [0#8] ++ (rec9.drop 4).take 248).drop 58)
  rw [List.take_append_drop, test_rec9_crc_0, test_rec9_crc_1] at h
  unfold recCrc crc32
  rw [h]
  decide

/-- Operands and states that meet what MonitorConversions assumes. -/
theorem test_meets_MonitorConversions :
    (State.reset.monOn = false ∧ (fs [(R.GLB_BOOT, F.GLB_BOOT_STAGE, 1)]).mon.trimDue.contains 31 = false) ∧
    (let s := fs [(R.GLB_BOOT, F.GLB_BOOT_STAGE, bsFuses)]; s.monOn = true ∧ s.trimNow 31 = 0 ∧
     s.bit R.MON_T_FAULT 31 = false ∧ (s.bitOn R.MON_T_FAULT 31).bit R.MON_T_FAULT 31 = true ∧
     s.settled.payload 9 0 = none) ∧
    (let s := (fs [(R.MON_T 31, F.MON_T_READING, 320)]); s.hottest = some (320, 31) ∧
     s.flag R.MON_STATUS F.MON_STATUS_CRIT = s.bit R.PWR_ALERT 1) ∧
    (recMark rec9 = 0xFA7C ∧ recListed rec9 = true ∧ recPlausible rec9 = true ∧ recPart rec9 < recParts rec9 ∧
     recNat rec9 252 4 = 0 ∧ recNat (recPayload rec9) (32 + 4 * 15) 4 = (0x01010101#32).toNat) ∧
    (State.reset.mon.trimNew = none ∧ ({ State.reset with beats := 1, mon := { MonSt.init with trimNew := some 0 } } : State).mon.trimNew = some 0 ∧
     ({ MonSt.init with trimDue := [31] } : MonSt).trimDue.contains 31 = true ∧ State.reset.mon.trimDue.contains 31 = false) :=
  by and_intros <;> decide +kernel

/-- Operands and states that meet what TackCommands assumes. -/
theorem test_meets_TackCommands :
    ((fs [(R.TCK_STATUS, F.TCK_STATUS_ENABLE, 1)]).flag R.TCK_STATUS F.TCK_STATUS_ENABLE = true ∧
     State.reset.flag R.TCK_STATUS F.TCK_STATUS_ENABLE = false ∧ State.reset.tckOk = true) ∧
    (28 < fieldOf (setField 0#32 F.TCK_SEQ_INPUT 29) F.TCK_SEQ_INPUT ∧
     (fs [(R.TCK_SEQ 0, F.TCK_SEQ_INPUT, 29)]).tckOk = false ∧ 0 < State.reset.tckLen false) ∧
    (simultaneous ((fs [(R.TCK_SEQ 0, F.TCK_SEQ_SIM, 1)]).tckEntry false 0) = true) ∧
    (let s := (fs [(R.TCK_CFG, F.TCK_CFG_MODE, 1)]).wr R.TCK_PERIOD 2399#32; s.flag R.TCK_CFG F.TCK_CFG_MODE = true ∧
     (s.rd R.TCK_PERIOD).toNat < 2400 ∧ s.wt % (s.rd R.TCK_PERIOD).toNat = 0) ∧
    (State.reset.flag R.TCK_CFG F.TCK_CFG_MODE = false ∧ State.reset.flag R.TCK_STATUS F.TCK_STATUS_REG_BUSY = false ∧
     State.reset.tck.cal = none ∧ State.reset.tck.group = none ∧ State.reset.tck.stopping = false ∧
     State.reset.tck.injNext = none ∧ State.reset.justStarted = false) ∧
    (let s : State := { State.reset with tck := { TckSt.init with stopping := true, cal := some ⟨0, 0, 0, none⟩, injNext := some 0, regNext := some 0 } };
     s.tck.stopping = true ∧ s.tck.cal = some ⟨0, 0, 0, none⟩ ∧ s.tck.injNext ≠ none) ∧
    ((fs [(R.TCK_STATUS, F.TCK_STATUS_REG_BUSY, 1)]).flag R.TCK_STATUS F.TCK_STATUS_REG_BUSY = true) ∧
    (let s : State := { State.reset with beats := 1200, tck := { TckSt.init with group := some ⟨false, 0, 1, 0, 0, 0⟩ } };
     s.tck.group = some ⟨false, 0, 1, 0, 0, 0⟩ ∧ 0 + 1200 ≤ s.beats ∧ 0 + 1 ≤ s.tckLen false ∧ 0 + 1 = s.tckLen false) ∧
    (let s := fs [(R.TCK_WR_CFG, F.TCK_WR_CFG_EN, 1), (R.TCK_WR_BASE_HI, ⟨0, 32⟩, 0x40)];
     s.flag R.TCK_WR_CFG F.TCK_WR_CFG_EN = true ∧ 12 ≤ s.fget R.TCK_WR_CFG F.TCK_WR_CFG_LEN ∧
     s.fget R.TCK_WR_CFG F.TCK_WR_CFG_LEN ≤ 30 ∧
     hbmOffset (s.pair R.TCK_WR_BASE_LO R.TCK_WR_BASE_HI + s.fget R.TCK_WR_PTR F.TCK_WR_PTR_PTR) = some 0 ∧
     s.hbmUnit 0 ≠ none) ∧
    (let s : State := { State.reset with beats := 307200, tck := { TckSt.init with cal := some ⟨0, 0, 0, some 0⟩ } };
     s.tck.cal = some ⟨0, 0, 0, some 0⟩ ∧ 0 + 307200 ≤ s.beats ∧ s.tck.group = none ∧ s.tck.regNext = none ∧
     State.reset.beats < 0 + 307200) ∧
    (let s := State.reset.wr R.TCK_CAL_F 0xFFFF0#32; s.fget R.TCK_CAL_CTRL F.TCK_CAL_CTRL_INPUT < 24 ∧
     signed 32 (s.rd R.TCK_CAL_Z).toNat < signed 32 (s.rd R.TCK_CAL_F).toNat ∧ corrOk 0 131072 = false ∧
     corrOk 0 65536 = true ∧ State.reset.fget R.TCK_CAL_TARGET F.TCK_CAL_TARGET_TARGET = 65535) ∧
    ((2 * (65536 : Int) - 1) * (0xFFFF0 - 0) ≤ 2097152 * 65535 ∧
     2097152 * (65535 : Int) < (2 * 65536 + 1) * (0xFFFF0 - 0)) ∧
    (Tab.get (fun _ => ((0 : Int), 0x10000)) State.reset.tck.corr 23 = (0, 0x10000) ∧ State.reset.tck.corrDue = []) ∧
    (let s := fs [(R.TCK_STATUS, F.TCK_STATUS_ENABLE, 1), (R.TCK_STATUS, F.TCK_STATUS_REG_BUSY, 1)];
     s.flag R.TCK_STATUS F.TCK_STATUS_ENABLE = true ∧ s.flag R.TCK_STATUS F.TCK_STATUS_REG_BUSY = true ∧
     s.flag R.TCK_CFG F.TCK_CFG_MODE = false ∧ s.tck.stopping = false) ∧
    (let s : State := { State.reset with beats := 1, tck := { TckSt.init with corrNew := some 0 } }; s.tck.corrNew = some 0 ∧ 0 < s.beats ∧
     State.reset.tck.corrNew = none) ∧
    (let s : State := { fs [(R.TCK_CFG, F.TCK_CFG_MODE, 1)] with tck := { TckSt.init with group := some ⟨false, 0, 1, 0, 0, 0⟩, regNext := some 0 } };
     s.tck.injNext = none ∧ s.tck.cal = none ∧ s.tck.stopping = false ∧ s.justStarted = true) ∧
    (({ TckSt.init with injNext := some 0 } : TckSt).injNext ≠ none ∧ ({ TckSt.init with cal := some ⟨0, 0, 0, none⟩ } : TckSt).cal ≠ none) :=
  by and_intros <;> decide +kernel

/-- Operands and states that meet what DomainsAndBrownouts assumes. -/
theorem test_meets_DomainsAndBrownouts :
    (State.reset.pwr.moving = none ∧ State.reset.domainDue = none ∧ State.reset.pwr.brownout = none ∧
     State.reset.pwr.porAt ≠ some State.reset.beats ∧ ({ PwrSt.init with porAt := some 0 } : PwrSt).porAt = some State.reset.beats ∧
     State.reset.vioSince 6 = none ∧ State.reset.bankLost 6 = false) ∧
    (let s := State.reset.bitOff R.PWR_DOM_TARGET 28; s.domainDue = some 28 ∧ s.bit R.PWR_DOM_TARGET 28 = false ∧
     State.reset.bit R.PWR_DOM_TARGET 28 = true ∧ (0#32).getLsbD 28 = false ∧ State.reset.downRefused 28 = false ∧
     (inRun 3).downRefused 0 = true) ∧
    ((State.reset.bitOff R.PWR_DOM_STATE 0).domainDue = some 0 ∧
     (State.reset.bitOff R.PWR_DOM_STATE 0).bit R.PWR_DOM_TARGET 0 = true) ∧
    (let s : State := { State.reset with pwr := { PwrSt.init with moving := some (24, false, 0) }, spn := [(0, { SpnCh.init with quiesce := some (0, 24) })] };
     s.pwr.moving = some (24, false, 0) ∧ s.spnQuiescing 24 = true ∧ s.spnQuiescing 25 = false) ∧
    (let s : State := { State.reset with pwr := { PwrSt.init with brownout := some (2 ^ 64 - 1) }, far := { FarSt.init with voidDue := [0] } };
     s.pwr.brownout = some (2 ^ 64 - 1) ∧ s.far.waiting.length < 1023 ∧ 0 ∈ s.far.voidDue) ∧
    (({ State.reset with far := { FarSt.init with prog := some ⟨127, [], none⟩ } } : State).far.prog = some ⟨127, [], none⟩) ∧
    (let s : State := { State.reset with pwr := { PwrSt.init with vio := [(3, some (5, 0))], suspects := [(3, (1, 2, 3))] } };
     s.vioSince 3 = some (5, 0) ∧ 5 < 2 ^ 64 ∧ Tab.get (fun _ => (0, 0, 0)) s.pwr.suspects 3 = (1, 2, 3) ∧
     s.bankLost 3 = false) ∧
    ((State.reset.bitOn R.PWR_VIO_STATUS 30).bankLost 6 = true ∧
     (fs [(R.GLB_BOOT, F.GLB_BOOT_STAGE, bsUserLoad)]).bootStage = bsUserLoad) ∧
    (let s : State := { fs [(R.SPN_CH_STATUS 0, F.SPN_CH_STATUS_STATE, 1)] with spn := [(0, { SpnCh.init with work := some (.move ⟨1 + 2 ^ 32 * 4, 0x4000000000, 0x4000000000⟩ 0) })] };
     s.spnState 0 = 1 ∧ s.spnTouches 0 24 = none ∧ (s.spch 0).work ≠ none ∧ State.reset.spnState 0 ≠ 1) ∧
    ((upTo 29).any (fun d =>
       let s : State := { fs [(R.SPN_CH_STATUS 0, F.SPN_CH_STATUS_STATE, 1)] with spn := [(0, { SpnCh.init with work := some (.move ⟨1 + 2 ^ 32 * 4, 0x4000000000, 0xC0 * 2 ^ 56⟩ 0) })] };
       decide (24 ≤ d) && (s.spnTouches 0 d).isSome) = true) ∧
    ((upTo 29).any (fun d =>
       let s : State := (((fs [(R.SPN_CH_STATUS 0, F.SPN_CH_STATUS_STATE, 1)]).setSpnPc 0 0x4000000000).hbmPut 0 1#8).hbmPut 4 4#8;
       let t := (s.hbmPut 23 0xC0#8);
       decide (24 ≤ d) && (t.spch 0).work.isNone && !(t.spch 0).stopAsked && !(t.spch 0).haltAsked && (t.spnTouches 0 d).isSome) = true) :=
  by and_intros <;> decide +kernel

/-- Operands and states that meet what ResetsAndAgeing assumes. -/
theorem test_meets_ResetsAndAgeing :
    (State.reset.far.prog = none ∧ State.reset.far.voidDue = [] ∧ State.reset.pwr.nresetLow = true ∧
     State.reset.pwr.thermalHold = false ∧ State.reset.pwr.pwrOkLow = false) ∧
    (let s : State := { State.reset with pwr := { PwrSt.init with nresetLow := false, thermalHold := true } };
     s.pwr.nresetLow = false ∧ s.pwr.pwrOkLow = false ∧ s.pwr.thermalHold = true) ∧
    ((State.reset.bitOff R.PWR_DOM_STATE 28).bit R.PWR_DOM_STATE 28 = false ∧
     State.reset.bit R.PWR_DOM_STATE 23 = true ∧ State.reset.pwr.moving = none ∧ State.reset.wf = true) ∧
    (let o : ErlOpen := ⟨0, 0, 0, 0⟩;
     let s : State := { State.reset with beats := 1024, erl := ⟨[(0, ⟨0, 0, 0, true, true, 0, 0, 0, 1, 0, 0⟩)], [o]⟩ };
     (s.erl.opens.map (fun (x : ErlOpen) => x.eseq)).Nodup ∧ o ∈ s.erl.opens ∧ o.last + 1024 ≤ s.beats ∧
     (s.erlEntry o.eseq).eseq = o.eseq) ∧
    (State.reset.pwr.poweredAcc < 225 ∧ (State.reset.rd R.PWR_POWERED).toNat + 1 < 2 ^ 32 ∧
     (State.reset.rd R.PWR_AGE_EQ).toNat = 0) ∧
    (let s := State.reset.wr (R.MON_P_DRIFT 15) 0x80000001#32;
     signed 32 (s.rd (R.MON_P_DRIFT 15)).toNat < -(s.fget R.PWR_AGE_CFG F.PWR_AGE_CFG_DRIFT_WARN : Int) ∧
     (∀ q < 15, ¬signed 32 (s.rd (R.MON_P_DRIFT q)).toNat < -(s.fget R.PWR_AGE_CFG F.PWR_AGE_CFG_DRIFT_WARN : Int)) ∧
     s.pwr.driftWarned = false) ∧
    (let s := fs [(R.GLB_BOOT, F.GLB_BOOT_STAGE, 15)]; s.bootStage = 15 ∧ State.reset.bootStage ≠ 15 ∧ 3 ≤ 3 ∧ 2 < 3) :=
  by and_intros <;> decide +kernel

/-- Operands and states that meet what PaddockTests assumes. -/
theorem test_meets_PaddockTests :
    ((fs [(R.PDK_STATUS, F.PDK_STATUS_RUNNING, 1)]).flag R.PDK_STATUS F.PDK_STATUS_RUNNING = true ∧
     State.reset.flag R.PDK_STATUS F.PDK_STATUS_RUNNING = false ∧ State.reset.bit (R.PDK_REQ 0) 0 = false) ∧
    (let s := State.reset.bitOn (R.PDK_REQ 3) 25; s.bit (R.PDK_REQ (121 / 32)) (121 % 32) = true ∧
     s.unitDisabled 121 = true) ∧
    (let s := (inRun 3).bitOn (R.PDK_REQ 0) 0; s.bit (R.PDK_REQ 0) 0 = true ∧ s.unitDisabled 0 = false) ∧
    (let s : State := { State.reset with pdk := { PdkSt.init with running := [129], mode := 2 } };
     129 ∈ s.pdk.running ∧ 0 ∉ s.pdk.running ∧ 2 ≤ s.pdk.mode ∧ (1#25).toNat % 65536 ≠ 0 ∧
     s.pdk.running.filter (fun v => decide (v ≠ 129)) = []) ∧
    (let s : State := { fs [(R.PDK_SEL, F.PDK_SEL_UNIT, 95)] with pdk := { PdkSt.init with running := [95, 0], mode := 3 } };
     s.fget R.PDK_SEL F.PDK_SEL_UNIT = 95 ∧ s.pdk.mode = 3 ∧ s.pdk.running.filter (fun v => decide (v ≠ 95)) ≠ []) :=
  by and_intros <;> decide +kernel

end Sys2Proof.Tests
end

section
/-!
SUPPORT and PROOF. The reversal of low bits, the two address updates of R238, and the order in which successive rev updates
visit a buffer.
-/

namespace Sys2Proof.Machine

/-! ### The reversal of the k low bits -/

theorem bitRev_lt_two_pow (k v : Nat) : bitRev k v < 2 ^ k := by
  induction k generalizing v with
  | zero => simp [bitRev]
  | succ k ih =>
    have hlow := ih (v / 2)
    have hbit : v % 2 * 2 ^ k ≤ 1 * 2 ^ k := Nat.mul_le_mul_right _ (by omega)
    rw [bitRev, Nat.pow_succ]
    omega

theorem bitRev_testBit {k j : Nat} (v : Nat) (hj : j < k) : (bitRev k v).testBit j = v.testBit (k - 1 - j) := by
  induction k generalizing v with
  | zero => omega
  | succ k ih =>
    rw [bitRev, Nat.mul_comm, Nat.testBit_two_pow_mul_add _ (bitRev_lt_two_pow k _)]
    by_cases hlow : j < k
    · have hshift : k + 1 - 1 - j = k - 1 - j + 1 := by omega
      rw [if_pos hlow, ih _ hlow, Nat.testBit_div_two, hshift]
    · obtain rfl : j = k := by omega
      simp

theorem bitRev_bitRev {k v : Nat} (hv : v < 2 ^ k) : bitRev k (bitRev k v) = v := by
  refine Nat.eq_of_testBit_eq fun j => ?_
  by_cases hj : j < k
  · have hback : k - 1 - (k - 1 - j) = j := by omega
    rw [bitRev_testBit _ hj, bitRev_testBit _ (by omega), hback]
  · have hk : 2 ^ k ≤ 2 ^ j := Nat.pow_le_pow_right (by omega) (by omega)
    have hrev := bitRev_lt_two_pow k (bitRev k v)
    rw [Nat.testBit_lt_two_pow (by omega), Nat.testBit_lt_two_pow (by omega)]

@[simp] theorem bitRev_zero_right (k : Nat) : bitRev k 0 = 0 := by
  induction k with
  | zero => rfl
  | succ k ih => simpa [bitRev] using ih

theorem bitRev_half {k : Nat} (hk : 1 ≤ k) : bitRev k (2 ^ (k - 1)) = 1 := by
  obtain ⟨n, rfl⟩ : ∃ n, k = n + 1 := ⟨k - 1, by omega⟩
  have hone : bitRev (n + 1) 1 = 2 ^ n := by simp [bitRev]
  have hlt : 1 < 2 ^ (n + 1) := Nat.one_lt_two_pow (by omega)
  rw [Nat.add_sub_cancel, ← hone, bitRev_bitRev hlt]

/-! ### The updates -/

theorem CoreSt.circ_of_length_zero {c : CoreSt} {i : Nat} (hl : (regAt c.l i).toNat = 0) :
    c.circ i = regAt c.a i + regAt c.m i := if_pos hl

theorem CoreSt.circ_toNat {c : CoreSt} {i : Nat} (hl : (regAt c.l i).toNat ≠ 0) :
    (c.circ i).toNat =
      (((regAt c.b i).toNat : Int) + (((regAt c.a i).toNat : Int) - (regAt c.b i).toNat + (regAt c.m i).toInt) %
        (regAt c.l i).toNat).toNat % 2 ^ 16 := by
  have hnonneg := Int.emod_nonneg (((regAt c.a i).toNat : Int) - (regAt c.b i).toNat + (regAt c.m i).toInt)
    (Int.natCast_ne_zero.mpr hl)
  rw [CoreSt.circ, if_neg hl, BitVec.toNat_ofInt]
  omega

/-- The core with address register i holding v. -/
def CoreSt.withAddr (c : CoreSt) (i : Nat) (v : Half) : CoreSt := { c with a := c.a.set i v }

theorem regAt_set_self {xs : List Half} {i : Nat} (v : Half) (hi : i < xs.length) : regAt (xs.set i v) i = v := by
  simp [regAt, hi]

theorem CoreSt.withAddr_withAddr (c : CoreSt) (i : Nat) (v w : Half) :
    (c.withAddr i v).withAddr i w = c.withAddr i w := by
  simp [CoreSt.withAddr]

theorem CoreSt.rev_of_length_two_pow {c : CoreSt} {i k : Nat} (hl : (regAt c.l i).toNat = 2 ^ k) :
    c.rev i = regAt c.b i + BitVec.ofNat 16 (bitRev k ((bitRev k ((regAt c.a i - regAt c.b i).toNat % 2 ^ k) +
      bitRev k ((regAt c.m i).toNat % 2 ^ k)) % 2 ^ k)) := by
  simp only [CoreSt.rev, hl, if_neg (Nat.ne_of_gt (Nat.two_pow_pos k)), Nat.log2_two_pow]

/-- In a buffer of 2^k words with M half its length, a rev update moves from the place whose offset is j reversed to the
place whose offset is j + 1 reversed. -/
theorem CoreSt.rev_withAddr {c : CoreSt} {i k j : Nat} (hk : 1 ≤ k) (hl : (regAt c.l i).toNat = 2 ^ k)
    (hm : (regAt c.m i).toNat = 2 ^ (k - 1)) (hi : i < c.a.length) (hj : j + 1 < 2 ^ k) :
    (c.withAddr i (regAt c.b i + BitVec.ofNat 16 (bitRev k j))).rev i =
      regAt c.b i + BitVec.ofNat 16 (bitRev k (j + 1)) := by
  have hwidth : 2 ^ k < 2 ^ 16 := hl ▸ (regAt c.l i).isLt
  have hrev := bitRev_lt_two_pow k j
  have hoffset : (regAt c.b i + BitVec.ofNat 16 (bitRev k j) - regAt c.b i).toNat = bitRev k j := by
    rw [BitVec.add_comm, BitVec.add_sub_cancel, BitVec.toNat_ofNat, Nat.mod_eq_of_lt (by omega)]
  have hhalf : 2 ^ (k - 1) < 2 ^ k := Nat.pow_lt_pow_right (by omega) (by omega)
  have hupdate := CoreSt.rev_of_length_two_pow
    (c := c.withAddr i (regAt c.b i + BitVec.ofNat 16 (bitRev k j))) hl
  simp only [CoreSt.withAddr, regAt_set_self _ hi] at hupdate
  rw [hoffset, hm, Nat.mod_eq_of_lt hrev, Nat.mod_eq_of_lt hhalf, bitRev_bitRev (by omega), bitRev_half hk,
    Nat.mod_eq_of_lt hj] at hupdate
  exact hupdate

/-- From B, j rev updates lead to the place whose offset is j with its k low bits reversed. -/
theorem CoreSt.foldl_rev {c : CoreSt} {i k j : Nat} (hk : 1 ≤ k) (hl : (regAt c.l i).toNat = 2 ^ k)
    (hm : (regAt c.m i).toNat = 2 ^ (k - 1)) (hi : i < c.a.length) (hj : j < 2 ^ k) :
    (upTo j).foldl (fun x _ => x.withAddr i (x.rev i)) (c.withAddr i (regAt c.b i)) =
      c.withAddr i (regAt c.b i + BitVec.ofNat 16 (bitRev k j)) := by
  induction j with
  | zero => simp [upTo]
  | succ j ih =>
    rw [upTo] at ih ⊢
    rw [List.range_succ, List.foldl_append, ih (by omega)]
    simp only [List.foldl_cons, List.foldl_nil]
    rw [CoreSt.rev_withAddr hk hl hm hi hj, CoreSt.withAddr_withAddr]

/-- Settles O32: the formulas are those of R238, and the visiting order follows by induction on the number of updates. -/
theorem circularAndReversed : Obligations.CircularAndReversed := by
  intro c i a b l m k
  refine ⟨CoreSt.circ_of_length_zero, CoreSt.circ_toNat, rfl, fun v j _ hj => bitRev_testBit v hj, ?_⟩
  intro hk hl hm hi step after j hj
  have hafter : after j = c.withAddr i (b + BitVec.ofNat 16 (bitRev k j)) := CoreSt.foldl_rev hk hl hm hi hj
  rw [hafter]
  exact regAt_set_self _ hi

end Sys2Proof.Machine
end

section
/-!
SUPPORT and PROOF. The accumulators and the bits of SR that their operations set, and overflow in both modes (R241).
-/

namespace Sys2Proof.Machine

/-! ### Accumulators and single bits of SR -/

@[simp] theorem CoreSt.setAc_sr (c : CoreSt) (k : Nat) (v : Int) : (c.setAc k v).sr = c.sr := by
  simp only [CoreSt.setAc]
  split <;> rfl

@[simp] theorem CoreSt.setAc_d (c : CoreSt) (k : Nat) (v : Int) : (c.setAc k v).d = c.d := by
  simp only [CoreSt.setAc]
  split <;> rfl

theorem CoreSt.ac_setAc_same (c : CoreSt) (k : Nat) (v : Int) : (c.setAc k v).ac k = v := by
  by_cases hk : k = 0 <;> simp [CoreSt.ac, CoreSt.setAc, hk]

theorem CoreSt.ac_setAc_other (c : CoreSt) (k : Fin 2) (v : Int) : (c.setAc k v).ac (1 - k) = c.ac (1 - k) := by
  match k with
  | 0 => rfl
  | 1 => rfl

@[simp] theorem CoreSt.setSb_d (c : CoreSt) (n : Nat) (v : Bool) : (c.setSb n v).d = c.d := rfl

@[simp] theorem CoreSt.setSb_ac (c : CoreSt) (n k : Nat) (v : Bool) : (c.setSb n v).ac k = c.ac k := rfl

theorem bitTo_getLsbD (w : Half) {n : Nat} (b : Nat) (v : Bool) (hn : n < 16) :
    (bitTo w n v).getLsbD b = if b = n then v else w.getLsbD b := by
  have hbit : (BitVec.ofNat 16 (2 ^ n)).getLsbD b = decide (b = n) := by
    rw [BitVec.getLsbD_ofNat, Nat.testBit_two_pow]
    by_cases hb : b = n
    · simp [hb, hn]
    · simp [hb, Ne.symm hb]
  have hwidth : w.getLsbD b = true → b < 16 := BitVec.lt_of_getLsbD
  cases v
  · simp only [bitTo, Bool.false_eq_true, if_false, BitVec.getLsbD_and, BitVec.getLsbD_not, hbit]
    by_cases hb : b = n
    · simp [hb]
    · simpa [hb] using hwidth
  · simp only [bitTo, if_true, BitVec.getLsbD_or, hbit]
    by_cases hb : b = n <;> simp [hb]

theorem CoreSt.setSb_sr_getLsbD (c : CoreSt) {n : Nat} (b : Nat) (v : Bool) (hn : n < 16) :
    (c.setSb n v).sr.getLsbD b = if b = n then v else c.sr.getLsbD b := bitTo_getLsbD c.sr b v hn

/-! ### Values of 40 bits -/

/-- The signed 40-bit value of a number, two's complement, is its balanced remainder. -/
theorem signed_unsigned_eq_bmod (v : Int) : signed 40 (unsigned 40 v) = v.bmod (2 ^ 40) := by
  have hnum : (((v % 2 ^ 40).toNat % 2 ^ 40 : Nat) : Int) = v % 2 ^ 40 := by omega
  simp only [signed, unsigned, Int.bmod_def, hnum]
  by_cases hhalf : v % 2 ^ 40 < 2 ^ 39
  · rw [if_pos (by omega), if_pos (by omega)]
    rfl
  · rw [if_neg (by omega), if_neg (by omega)]
    rfl

theorem bmod_of_inside {v : Int} (hlow : -(2 ^ 39) ≤ v) (hhigh : v ≤ 2 ^ 39 - 1) : v.bmod (2 ^ 40) = v :=
  Int.bmod_eq_of_le (by omega) (by omega)

/-! ### What an accumulator operation leaves -/

/-- The value that an overflow leaves in ACk (R241). -/
def CoreSt.overflowValue (c : CoreSt) (k : Nat) (v : Int) : Int :=
  if c.sb (6 + k) then (if v < 0 then -(2 ^ 39) else 2 ^ 39 - 1) else v.bmod (2 ^ 40)

theorem CoreSt.accum_of_inside (c : CoreSt) (k : Nat) {v : Int} (hin : -(2 ^ 39) ≤ v ∧ v ≤ 2 ^ 39 - 1) :
    c.accum k v = c.setAc k v := if_pos ⟨hin.1, by omega⟩

theorem CoreSt.accum_of_outside (c : CoreSt) (k : Nat) {v : Int} (hout : ¬(-(2 ^ 39) ≤ v ∧ v ≤ 2 ^ 39 - 1)) :
    c.accum k v = (c.setAc k (c.overflowValue k v)).setSb (4 + k) true := by
  rw [CoreSt.accum, if_neg (by omega), signed_unsigned_eq_bmod]
  rfl

theorem CoreSt.accum_cases (c : CoreSt) (k : Nat) (v : Int) :
    c.accum k v = c.setAc k v ∨ ∃ w, c.accum k v = (c.setAc k w).setSb (4 + k) true := by
  by_cases hin : -(2 ^ 39) ≤ v ∧ v ≤ 2 ^ 39 - 1
  · exact .inl (c.accum_of_inside k hin)
  · exact .inr ⟨_, c.accum_of_outside k hin⟩

theorem CoreSt.accum_d (c : CoreSt) (k : Nat) (v : Int) : (c.accum k v).d = c.d := by
  obtain h | ⟨w, h⟩ := c.accum_cases k v <;> simp [h]

theorem CoreSt.accum_ac_other (c : CoreSt) (k : Fin 2) (v : Int) : (c.accum k v).ac (1 - k) = c.ac (1 - k) := by
  obtain h | ⟨w, h⟩ := c.accum_cases k v <;> simp [h, CoreSt.ac_setAc_other]

theorem CoreSt.accum_ac_outside (c : CoreSt) (k : Nat) {v : Int} (hout : ¬(-(2 ^ 39) ≤ v ∧ v ≤ 2 ^ 39 - 1)) :
    (c.accum k v).ac k = c.overflowValue k v := by
  rw [c.accum_of_outside k hout, CoreSt.setSb_ac, CoreSt.ac_setAc_same]

theorem CoreSt.accum_sr_outside (c : CoreSt) (k : Fin 2) {v : Int} (b : Nat)
    (hout : ¬(-(2 ^ 39) ≤ v ∧ v ≤ 2 ^ 39 - 1)) :
    (c.accum k v).sr.getLsbD b = if b = 4 + k.val then true else c.sr.getLsbD b := by
  rw [c.accum_of_outside k hout, CoreSt.setSb_sr_getLsbD _ _ _ (by omega), CoreSt.setAc_sr]

/-- An accumulator operation leaves the mode bits as they were. -/
theorem CoreSt.accum_sat (c : CoreSt) (k : Fin 2) (v : Int) : (c.accum k v).sr.getLsbD (6 + k) = c.sr.getLsbD (6 + k) := by
  by_cases hin : -(2 ^ 39) ≤ v ∧ v ≤ 2 ^ 39 - 1
  · rw [c.accum_of_inside k hin, CoreSt.setAc_sr]
  · rw [c.accum_sr_outside k _ hin, if_neg (by omega)]

theorem CoreSt.overflowValue_wrapping {c : CoreSt} {k : Nat} (v : Int) (hwrap : c.sr.getLsbD (6 + k) = false) :
    c.overflowValue k v = v.bmod (2 ^ 40) := by
  simp [CoreSt.overflowValue, CoreSt.sb, hwrap]

theorem CoreSt.overflowValue_saturating {c : CoreSt} {k : Nat} (v : Int) (hsat : c.sr.getLsbD (6 + k) = true) :
    c.overflowValue k v = if v < 0 then -(2 ^ 39) else 2 ^ 39 - 1 := by
  simp [CoreSt.overflowValue, CoreSt.sb, hsat]

/-! ### Sums in wrapping mode -/

/-- In wrapping mode every result, overflowed or not, is the exact one modulo 2^40. -/
theorem CoreSt.accum_ac_wrapping {c : CoreSt} {k : Nat} (v : Int) (hwrap : c.sr.getLsbD (6 + k) = false) :
    (c.accum k v).ac k = v.bmod (2 ^ 40) := by
  by_cases hin : -(2 ^ 39) ≤ v ∧ v ≤ 2 ^ 39 - 1
  · rw [c.accum_of_inside k hin, CoreSt.ac_setAc_same, bmod_of_inside hin.1 hin.2]
  · rw [c.accum_ac_outside k hin, CoreSt.overflowValue_wrapping v hwrap]

/-- The accumulator follows the exact sum modulo 2^40 through a sequence of sums. -/
theorem CoreSt.foldl_accum_wrapping {c : CoreSt} {k : Fin 2} {total : Int} (xs : List Int)
    (hwrap : c.sr.getLsbD (6 + k) = false) (hac : c.ac k = total.bmod (2 ^ 40)) :
    (xs.foldl (fun x v => x.accum k (x.ac k + v)) c).ac k = (xs.foldl (· + ·) total).bmod (2 ^ 40) := by
  induction xs generalizing c total with
  | nil => exact hac
  | cons v xs ih =>
    refine ih ((c.accum_sat k _).trans hwrap) ?_
    rw [CoreSt.accum_ac_wrapping _ hwrap, hac, Int.bmod_add_bmod]

/-! ### Products -/

theorem CoreSt.product_inside (c : CoreSt) (x y : BitVec 16) :
    -(2 ^ 39) ≤ c.product x y ∧ c.product x y ≤ 2 ^ 39 - 1 := by
  have hlow := BitVec.le_toInt_mul_toInt (x := x) (y := y)
  have hhigh := BitVec.toInt_mul_toInt_le (x := x) (y := y)
  rw [CoreSt.product]
  split <;> omega

/-- Settles O33: one operation by whether its exact result lies in the range, a sequence by induction on its sums. -/
theorem accumulatorOverflow : Obligations.AccumulatorOverflow := by
  refine ⟨fun c k v => ?_, fun c k xs hwrap hlow hhigh total htotal hmin hmax => ?_, CoreSt.product_inside, ?_, ?_⟩
  · intro inside r
    refine ⟨fun hin => ?_, fun hout => ⟨?_, fun b hb => ?_⟩, fun hout hwrap => ?_, fun hv hsat => ?_, fun hv hsat => ?_,
      c.accum_ac_other k v, c.accum_d k v⟩
    · have hr : r = c.setAc k v := c.accum_of_inside k hin
      rw [hr]
      exact ⟨c.ac_setAc_same k v, c.setAc_sr k v⟩
    · exact (c.accum_sr_outside k _ hout).trans (if_pos rfl)
    · exact (c.accum_sr_outside k _ hout).trans (if_neg hb)
    · have hac : r.ac k = v.bmod (2 ^ 40) := CoreSt.accum_ac_wrapping v hwrap
      rw [hac, Int.bmod_def]
      split <;> omega
    · have hac : r.ac k = _ := c.accum_ac_outside k (by omega)
      rw [hac, CoreSt.overflowValue_saturating v hsat, if_pos (by omega)]
    · have hac : r.ac k = _ := c.accum_ac_outside k (by omega)
      rw [hac, CoreSt.overflowValue_saturating v hsat, if_neg (by omega)]
  · have hstart : c.ac k = (c.ac k).bmod (2 ^ 40) := (bmod_of_inside hlow hhigh).symm
    rw [CoreSt.foldl_accum_wrapping xs hwrap hstart, ← htotal, bmod_of_inside hmin hmax]
  · exact ⟨2 ^ 39 - 1, by decide⟩
  · exact ⟨2 ^ 39 - 1, 1#16, by decide⟩

end Sys2Proof.Machine
end

section
/-!
SUPPORT and PROOF. What a CAN port serves and sends in each NMT state, and the heartbeat that it produces (R392 to R394).
-/

namespace Sys2Proof.Machine

/-! ### Little-endian numbers and the state of a port -/

theorem leNat_leBytes (k n : Nat) : leNat (leBytes k n) = n % 256 ^ k := by
  induction k generalizing n with
  | zero => simp [leBytes, leNat, Nat.mod_one]
  | succ k ih => rw [Nat.pow_succ', Nat.mod_mul, leBytes, leNat, ih, BitVec.toNat_ofNat]

@[simp] theorem State.canPort_setCan_same (s : State) (p : Nat) (x : CanPort) : (s.setCan p x).canPort p = x :=
  Tab.get_put_self _ _ _ _

@[simp] theorem State.canPort_emit (s : State) (o : Out) (p : Nat) : (s.emit o).canPort p = s.canPort p := rfl

theorem State.canOn_setCan_of_nmt {s : State} {p : Nat} {x : CanPort} (hx : x.nmt = (s.canPort p).nmt) :
    (s.setCan p x).canOn p = s.canOn p := by
  rw [State.canOn, State.canPort_setCan_same, hx]
  rfl

/-! ### The states in which a port serves and sends -/

theorem State.usdoServes_of_nmt {s : State} {p : Nat} (hon : s.canOn p = true)
    (hnmt : (s.canPort p).nmt = nmtPreOp ∨ (s.canPort p).nmt = nmtOperational) : s.usdoServes p = true := by
  simp [State.usdoServes, hon, hnmt]

theorem State.usdoServes_of_stopped {s : State} {p : Nat} (hnmt : (s.canPort p).nmt = nmtStopped) :
    s.usdoServes p = false := by
  simp [State.usdoServes, hnmt, nmtPreOp, nmtOperational, nmtStopped]

theorem State.tpdoLive_of_not_operational {s : State} {p : Nat} (k : Nat) (hnmt : (s.canPort p).nmt ≠ nmtOperational) :
    s.tpdoLive p k = false := by
  simp [State.tpdoLive, hnmt]

theorem State.tpdoLive_of_operational {s : State} {p k : Nat} (hon : s.canOn p = true)
    (hnmt : (s.canPort p).nmt = nmtOperational) (hlink : s.hitch.linkLost = false) (hcob : (s.tpdoObj k).cobId < 2 ^ 31) :
    s.tpdoLive p k = true := by
  have henabled : (s.tpdoObj k).cobId / 2 ^ 31 % 2 = 0 := by rw [Nat.div_eq_of_lt hcob]
  simp only [State.tpdoLive, hon, hnmt, hlink, henabled, beq_self_eq_true, decide_true, Bool.not_false, Bool.and_self]

/-! ### The commands of the USDO server -/

section
variable {s : State} {p : Fin 2}

theorem exec_usdoUpload_of_serves (client : BitVec 7) (index : BitVec 16) (sub : BitVec 8) (hserves : s.usdoServes p = true)
    (husdo : (s.canPort p).usdo = none) :
    exec (.usdoUpload p client index sub) s =
      .next (s.dictAsk ⟨p, client.toNat, index.toNat, sub.toNat, none, none⟩) := by
  change execUsdoUpload p client index sub s = _
  simp [execUsdoUpload, hserves, husdo]

theorem exec_usdoDownload_of_serves (client : BitVec 7) (index : BitVec 16) (sub : BitVec 8) (data : List Byte)
    (hserves : s.usdoServes p = true) (husdo : (s.canPort p).usdo = none) :
    exec (.usdoDownload p client index sub none data) s =
      .next (s.dictAsk ⟨p, client.toNat, index.toNat, sub.toNat, some data, none⟩) := by
  change execUsdoDownload p client index sub none data s = _
  simp [execUsdoDownload, hserves, husdo]

theorem exec_dictRunCmd_of_serves (client : BitVec 7) (data : List Byte) (hserves : s.usdoServes p = true)
    (husdo : (s.canPort p).usdo = none) :
    exec (.dictRunCmd p client data) s = .next (s.dictAsk ⟨p, client.toNat, 0x2001, 1, some data, none⟩) := by
  change execDictRunCmd p client data s = _
  simp [execDictRunCmd, hserves, husdo]

theorem exec_usdoUpload_of_not_serves (client : BitVec 7) (index : BitVec 16) (sub : BitVec 8)
    (hserves : s.usdoServes p = false) : exec (.usdoUpload p client index sub) s = .next s := by
  change execUsdoUpload p client index sub s = _
  simp [execUsdoUpload, hserves]

theorem exec_usdoDownload_of_not_serves (client : BitVec 7) (index : BitVec 16) (sub : BitVec 8) (total : Option Nat)
    (data : List Byte) (hserves : s.usdoServes p = false) :
    exec (.usdoDownload p client index sub total data) s = .next s := by
  change execUsdoDownload p client index sub total data s = _
  simp [execUsdoDownload, hserves]

theorem exec_dictRunCmd_of_not_serves (client : BitVec 7) (data : List Byte) (hserves : s.usdoServes p = false) :
    exec (.dictRunCmd p client data) s = .next s := by
  change execDictRunCmd p client data s = _
  simp [execDictRunCmd, hserves]

/-! ### The commands that send a TPDO -/

theorem exec_tpdoEventTimer_of_not_live (k : Fin 4) (hlive : s.tpdoLive p k = false) :
    exec (.tpdoEventTimer p k) s = .next s := by
  change execTpdoEventTimer p k s = _
  simp [execTpdoEventTimer, hlive]

theorem exec_tpdoInhibitEnd_of_not_live (k : Fin 4) (hlive : s.tpdoLive p k = false) :
    exec (.tpdoInhibitEnd p k) s = .next s := by
  change execTpdoInhibitEnd p k s = _
  simp [execTpdoInhibitEnd, hlive]

theorem exec_tpdoEventTimer_of_live {k : Fin 4} (hlive : s.tpdoLive p k = true) (hevent : (s.tpdoObj k).event ≠ 0)
    (hdue : (s.tpdoTx p k).since + beatsPerMs * (s.tpdoObj k).event ≤ s.beats) :
    exec (.tpdoEventTimer p k) s = .next (s.tpdoSend p k) := by
  change execTpdoEventTimer p k s = _
  simp [execTpdoEventTimer, hlive, hevent, hdue]

end

/-! ### A request where nothing holds the bridge -/

/-- Nothing holds the bridge: no request of the dictionary or of the Hitch waits, the link is trained, and the chaining queue
has room (R374, R397, R420). -/
def State.DictReady (s : State) : Prop :=
  s.dict.waiting = [] ∧ s.bridgeReady = s ∧ s.linkRetrains = false ∧ s.hitch.held = []

/-- A request whose answer does not depend on that of a register access is served at once. -/
theorem State.dictAsk_of_ready {s : State} {q : DictReq} (hready : s.DictReady) (hretry : q.retry = none)
    (hprobe : s.dictProbe q = none) : s.dictAsk q = s.dictDo q := by
  obtain ⟨hwaiting, hbridge, htrained, hheld⟩ := hready
  have hstuck : s.dictStuck q = false := by simp [State.dictStuck, htrained, hheld, hprobe]
  simp [State.dictAsk, State.dictServe, hwaiting, hretry, hbridge, hstuck, hprobe]

theorem State.dictDo_read {s : State} {q : DictReq} (hdata : q.data = none) (husdo : (s.canPort q.port).usdo = none) :
    s.dictDo q = s.odUpload q.port q.client q.index q.sub := by
  simp [State.dictDo, hdata, husdo]

/-- The write of a run command waits for no access of its own. -/
theorem State.dictProbe_runCommand (s : State) (p client : Nat) (data : List Byte) :
    s.dictProbe ⟨p, client, 0x2001, 1, some data, none⟩ = none := by
  simp [State.dictProbe]

theorem State.odWriteAbort_runCommand (s : State) : s.odWriteAbort 0x2001 1 1 = 0 := rfl

/-- A run command in Pre-operational is refused before it does anything (R393). -/
theorem State.odAct_runCommand_preOp {s : State} {p : Nat} (data : List Byte) (hnmt : (s.canPort p).nmt = nmtPreOp) :
    s.odAct p 0x2001 1 data = (s, abState) := by
  change s.dictRun p (leNat data) = _
  exact if_pos hnmt

theorem State.odWrite_runCommand_preOp {s : State} {p : Nat} (client : Nat) {data : List Byte} (hlength : data.length = 1)
    (hbridge : s.bridgeReady = s) (hnmt : (s.canPort p).nmt = nmtPreOp) :
    s.odWrite p client 0x2001 1 data = s.writeAborted p abState := by
  have hjournalled (e : JEntry) (keeps : Bool) : ((s.jsoft e keeps).odAct p 0x2001 1 data).2 ≠ 0 := by
    have hrefused := State.odAct_runCommand_preOp (s := s.jsoft e keeps) data hnmt
    have habort : abState ≠ 0 := by decide
    rwa [hrefused]
  simp only [State.odWrite, hlength, State.odWriteAbort_runCommand, hbridge, State.odAct_runCommand_preOp data hnmt,
    if_neg (hjournalled _ _), ne_eq, not_true_eq_false, if_false]

/-! ### NMT commands -/

@[simp] theorem State.canPort_setTpdoTx_nmt (s : State) (p k : Nat) (x : TpdoTx) :
    ((s.setTpdoTx p k x).canPort p).nmt = (s.canPort p).nmt := by
  rw [State.setTpdoTx, State.canPort_setCan_same]

theorem State.canPort_tpdoStart_nmt (s : State) (p : Nat) : ((s.tpdoStart p).canPort p).nmt = (s.canPort p).nmt := by
  unfold State.tpdoStart
  induction upTo 4 generalizing s with
  | nil => rfl
  | cons k ks ih => rw [List.foldl_cons, ih, State.canPort_setTpdoTx_nmt]

theorem State.canPort_nmtGo_nmt (s : State) (p st : Nat) : ((s.nmtGo p st).canPort p).nmt = st := by
  unfold State.nmtGo
  by_cases hst : st = nmtOperational
  · simp only [if_pos hst, State.canPort_tpdoStart_nmt, State.canPort_setCan_same]
  · simp only [if_neg hst, State.canPort_setCan_same]

/-- A port that goes into an NMT state, journalled, unless it is there. -/
theorem State.canPort_nmt_of_go (s : State) (p code st : Nat) :
    ((if (s.canPort p).nmt ≠ st then (s.nmtJournal p code).nmtGo p st else s).canPort p).nmt = st := by
  split
  case isTrue _ => exact State.canPort_nmtGo_nmt _ _ _
  case isFalse hsame => exact Decidable.of_not_not hsame

section
variable {s : State} {p : Fin 2}

theorem exec_nmtStartRemoteNode_of_on (hon : s.canOn p = true) :
    exec (.nmtStartRemoteNode p) s =
      .next (if (s.canPort p).nmt ≠ nmtOperational then (s.nmtJournal p 1).nmtGo p nmtOperational else s) := by
  change execNmtStartRemoteNode p s = _
  simp [execNmtStartRemoteNode, hon]

theorem exec_nmtEnterPreOperational_of_on (hon : s.canOn p = true) :
    exec (.nmtEnterPreOperational p) s =
      .next (if (s.canPort p).nmt ≠ nmtPreOp then (s.nmtJournal p 128).nmtGo p nmtPreOp else s) := by
  change execNmtEnterPreOperational p s = _
  simp [execNmtEnterPreOperational, hon]

theorem exec_nmtStopRemoteNode_of_on (hon : s.canOn p = true) (hlink0 : s.dict.stopLink0 = false)
    (hlink1 : s.dict.stopLink1 = false) :
    exec (.nmtStopRemoteNode p) s =
      .next (if (s.canPort p).nmt ≠ nmtStopped then (s.nmtJournal p 2).nmtGo p nmtStopped else s) := by
  change execNmtStopRemoteNode p s = _
  simp [execNmtStopRemoteNode, hon, hlink0, hlink1]

end

/-! ### The heartbeat -/

/-- A port that takes part sends its heartbeat and notes when. -/
theorem State.canBeat_of_on {s : State} {p : Nat} (code : Nat) (hon : s.canOn p = true) :
    s.canBeat p code = (s.setCan p { s.canPort p with lastBeat := s.beats }).emit
      (.canFrame p (0x700 + s.dict.nodeId) (leBytes 1 code)) := by
  have hset : (s.setCan p { s.canPort p with lastBeat := s.beats }).canOn p = true :=
    (State.canOn_setCan_of_nmt (by rfl)).trans hon
  exact if_pos hset

section
variable {s : State} {p : Fin 2}

theorem exec_heartbeat_of_due (hon : s.canOn p = true) (htime : s.dict.heartbeat ≠ 0)
    (hdue : (s.canPort p).lastBeat + beatsPerMs * max 10 s.dict.heartbeat ≤ s.beats) :
    exec (.heartbeat p) s = .next ((s.setCan p { s.canPort p with lastBeat := s.beats }).emit
      (.canFrame p (0x700 + s.dict.nodeId) (leBytes 1 (s.canPort p).nmt))) := by
  rw [← State.canBeat_of_on _ hon]
  exact congrArg Host.Outcome.next (if_pos ⟨hon, htime, hdue⟩)

theorem exec_heartbeat_of_not_due (hnot : ¬(s.canOn p = true ∧ s.dict.heartbeat ≠ 0 ∧
    (s.canPort p).lastBeat + beatsPerMs * max 10 s.dict.heartbeat ≤ s.beats)) :
    exec (.heartbeat p) s = .next s :=
  congrArg Host.Outcome.next (if_neg hnot)

end

theorem State.odAct_heartbeat (s : State) (p : Nat) (bytes : List Byte) :
    s.odAct p 0x1017 0 bytes = ({ s with dict := { s.dict with heartbeat := leNat bytes } }, 0) := rfl

/-- Settles O51: the written value is read back from its two bytes, and the timer's condition is R394's in each of its parts. -/
theorem heartbeatProducer : Obligations.HeartbeatProducer := by
  refine ⟨rfl, rfl, fun s p ms => ⟨?_, ?_, ?_, ?_, ?_⟩⟩
  · simp only [State.odAct_heartbeat, leNat_leBytes]
    exact Nat.mod_eq_of_lt ms.isLt
  · exact fun hzero => exec_heartbeat_of_not_due fun ⟨_, htime, _⟩ => htime hzero
  · exact fun hoff => exec_heartbeat_of_not_due fun ⟨hon, _, _⟩ => by simp [hoff] at hon
  · exact fun hearly => exec_heartbeat_of_not_due fun ⟨_, _, hdue⟩ => Nat.not_le.mpr hearly hdue
  · intro hon htime hdue
    exact ⟨_, exec_heartbeat_of_due hon htime hdue, rfl, by simp, rfl, rfl, rfl⟩

/-- Settles O50: each state's commands by whether the server serves and the TPDOs are live in it; an NMT command and the
heartbeat ask only that the port takes part. -/
theorem nmtStateGoverns : Obligations.NmtStateGoverns := by
  intro s p k client index sub data hon x read write run ready served
  have hserved (hnmt : x.nmt = nmtPreOp ∨ x.nmt = nmtOperational) (husdo : x.usdo = none) : served := by
    have hserves : s.usdoServes p = true := State.usdoServes_of_nmt hon hnmt
    have hread : read = _ := exec_usdoUpload_of_serves client index sub hserves husdo
    have hwrite : write = _ := exec_usdoDownload_of_serves client index sub data hserves husdo
    have hrun : run = _ := exec_dictRunCmd_of_serves client data hserves husdo
    refine ⟨hread, hwrite, hrun, fun hready hprobe => ?_, fun hready hprobe => ?_, fun hready => ?_⟩
    · rw [hread, State.dictAsk_of_ready hready rfl hprobe, State.dictDo_read rfl husdo]
    · rw [hwrite, State.dictAsk_of_ready hready rfl hprobe]
      rfl
    · rw [hrun, State.dictAsk_of_ready hready rfl (State.dictProbe_runCommand s _ _ _)]
      rfl
  refine ⟨?preOperational, ?operational, ?stopped, ?start, ?enterPreOperational, ?stop, ?heartbeat⟩
  case preOperational =>
    intro hnmt husdo
    have hlive := State.tpdoLive_of_not_operational (s := s) (p := p) k (by rw [hnmt]; decide)
    have hall := hserved (.inl hnmt) husdo
    have ⟨_, _, _, _, _, hrun⟩ := hall
    refine ⟨hall, fun hlength hready => ?_, exec_tpdoEventTimer_of_not_live k hlive, exec_tpdoInhibitEnd_of_not_live k hlive⟩
    have ⟨_, hbridge, _, _⟩ := hready
    rw [hrun hready, State.odWrite_runCommand_preOp _ hlength hbridge hnmt]
    rfl
  case operational =>
    intro hnmt husdo
    exact ⟨hserved (.inr hnmt) husdo, fun hlink hcob hevent hdue =>
      exec_tpdoEventTimer_of_live (State.tpdoLive_of_operational hon hnmt hlink hcob) hevent hdue⟩
  case stopped =>
    intro hnmt
    have hserves : s.usdoServes p = false := State.usdoServes_of_stopped hnmt
    have hlive := State.tpdoLive_of_not_operational (s := s) (p := p) k (by rw [hnmt]; decide)
    exact ⟨exec_usdoUpload_of_not_serves client index sub hserves,
      exec_usdoDownload_of_not_serves client index sub none data hserves, exec_dictRunCmd_of_not_serves client data hserves,
      exec_tpdoEventTimer_of_not_live k hlive, exec_tpdoInhibitEnd_of_not_live k hlive⟩
  case start => exact ⟨_, exec_nmtStartRemoteNode_of_on hon, State.canPort_nmt_of_go s p 1 nmtOperational⟩
  case enterPreOperational =>
    exact ⟨_, exec_nmtEnterPreOperational_of_on hon, State.canPort_nmt_of_go s p 128 nmtPreOp⟩
  case stop =>
    intro hlink0 hlink1
    exact ⟨_, exec_nmtStopRemoteNode_of_on hon hlink0 hlink1, State.canPort_nmt_of_go s p 2 nmtStopped⟩
  case heartbeat =>
    intro htime hdue
    exact ⟨_, exec_heartbeat_of_due hon htime hdue, rfl⟩

end Sys2Proof.Machine
end
